-- ==== Sys2Proof/Word.lean ====
section
/-! DEFINITION. The word types of the Relnuwin T7 (R5: little-endian, bit 0 least significant) and the
sparse table that every large store of the device is kept in. -/

namespace Sys2Proof

/-- One byte of a memory or of a message. -/
abbrev Byte := BitVec 8

/-- One 64-bit word: a scalar register, a message-queue word, a dictionary value of type U64. -/
abbrev W64 := BitVec 64

/-- A store indexed by number, as plain data: (index, value) pairs with strictly rising indices,
none of them holding the store's default value (which an index that is not listed reads as).
The operations stand in Machine/Sparse.lean. -/
abbrev Sparse (α : Type) := List (Nat × α)

end Sys2Proof
end

