-- ==== Sys2Proof/Types.lean ====
section
/-! DEFINITION. The operand types of the commands: principals, messages, packets, frames and samples as the
spec lays them out. -/

namespace Sys2Proof

/-- The principals of a dictionary request (R433). PART and PEER carry the partition or the rank. -/
inductive Principal where
  | host
  | part (n : Fin 16)
  | bmc
  | cp
  | peer (r : Fin 255)
  deriving DecidableEq, Repr

/-- One requester endpoint of Voxyx (R433): a function's BAR4 mailbox (0 is the PF, n + 1 the VF of
partition n), an MCTP endpoint of the BMC by binding and source endpoint ID, a peer rank, or the device's own firmware, which has no
transport. -/
inductive Channel where
  | mailbox (fn : Fin 17)
  | mctp (binding : Fin 2) (eid : BitVec 8)
  | peer (r : Fin 255)
  | cp
  deriving DecidableEq, Repr

/-- A Voxyx request message (R439), its data bytes separate from its header. -/
structure VMsg where
  ver    : BitVec 8
  token  : BitVec 16
  index  : BitVec 16
  sub    : BitVec 8
  flags  : BitVec 8
  offset : BitVec 32
  len    : BitVec 16
  result : BitVec 8
  rsv    : BitVec 8
  data   : List Byte
  deriving DecidableEq, Repr

/-- A host access to the 8 bytes at an offset of a function's BAR4 mailbox (R448). -/
inductive MbxAccess where
  | write (v : BitVec 64)
  | read
  deriving DecidableEq, Repr

/-- What carries a Voxyx request over MCTP (R445, R446): the message type, whether the vendor ID is the device's, the byte that names Voxyx,
the bus address where it is not the port's own, and whether the packet error check of SMBus holds. -/
structure MctpEnv where
  typ    : BitVec 8
  vendor : Bool
  proto  : BitVec 8
  addr   : Option (BitVec 7)
  pec    : Bool
  deriving DecidableEq, Repr

/-- A request in the form that R445 gives it. -/
def MctpEnv.good : MctpEnv := { typ := 0x7E, vendor := true, proto := 1, addr := none, pec := true }

/-- The digital signal balls that the device can drive beside its status outputs (R481): the TX pairs of the Ethernet lanes E0 to E15 and of the
PCIe lanes 0 to 15, one level a pair, clock and master data of AVS_A and AVS_B, SPI_CLK, SPI_CS_N and SPI_IO0 to SPI_IO3, and I3C_SCL and
I3C_SDA. -/
structure Driven where
  ethTx  : BitVec 16
  pcieTx : BitVec 16
  avs    : BitVec 4
  spi    : BitVec 6
  i3c    : BitVec 2
  deriving DecidableEq, Repr

def Driven.idle : Driven := { ethTx := 0, pcieTx := 0, avs := 0, spi := 0, i3c := 0 }

/-- The levels at the signal balls of the lanes and of the board's buses (R481): those of `Driven`, the RX pairs of the lanes, and the slave data
of AVS_A and AVS_B. -/
structure Pins where
  out    : Driven
  ethRx  : BitVec 16
  pcieRx : BitVec 16
  avsIn  : BitVec 2
  deriving DecidableEq, Repr

def Pins.idle : Pins := { out := .idle, ethRx := 0, pcieRx := 0, avsIn := 0 }

/-- What a scan places in the boundary register for the balls that the device can drive (R474, R484): for the status balls ALERT_N and
THERM_N true releases the ball. -/
structure Boundary where
  alertN : Bool
  thermN : Bool
  out    : Driven
  deriving DecidableEq, Repr

def Boundary.idle : Boundary := { alertN := true, thermN := true, out := .idle }

/-- What the error-correcting code finds at a read of device memory (R213). -/
inductive EccFinding where
  | clean
  | corrected
  | uncorrectable
  deriving DecidableEq, Repr

/-- An error that the code finds in a word which a command reads (R88, R213): the word's number (its address / 8 in a
scratchpad, / 64 in device memory), and whether it cannot be corrected. -/
structure EccHit where
  word : Nat
  bad  : Bool
  deriving DecidableEq, Repr

/-- How far a producer's words take its packet (R222, R223): they end it, more words follow while it holds the write port, or it
stops partway and abandons the packet. -/
inductive MqStop where
  | done
  | more
  | abandoned
  deriving DecidableEq, Repr

/-- How a producer writes (R222, R228, R262): its input and population at the write port's arbiter, how far its words go, and the number of
them after which an upset strikes a copy of the write pointer. -/
structure MqWrite where
  src   : Nat
  pop   : Nat
  stop  : MqStop
  upset : Option Nat
  deriving DecidableEq, Repr

/-- What strikes a message queue as a packet moves (R228, R230): bit `bit` of a slot's 65 data and parity bits, one copy of a slot's end
mark, or one copy of the pointer after a number of slots have moved. Slots are counted from the packet's first, its length slot included. -/
inductive MqUpset where
  | bit (slot : Nat) (bit : Fin 65)
  | mark (slot : Nat)
  | pointer (moved : Nat)
  deriving DecidableEq, Repr

/-- The fields of the Geril header (R316). -/
structure GHdr where
  retx   : Bool
  last   : Bool
  ece    : Bool
  len    : BitVec 14
  offset : BitVec 40
  opid   : BitVec 32
  gen    : BitVec 32
  inc    : BitVec 32
  dst    : BitVec 16
  src    : BitVec 16
  seq    : BitVec 32
  stream : BitVec 14
  op     : BitVec 8
  typ    : BitVec 4
  ver    : BitVec 4
  deriving DecidableEq, Repr

/-- The 32 header bytes as one little-endian number (R5, R316). -/
def GHdr.word (h : GHdr) : BitVec 256 :=
  (0 : BitVec 7) ++ BitVec.ofBool h.retx ++ BitVec.ofBool h.last ++ BitVec.ofBool h.ece ++ h.len ++ h.offset ++ h.opid ++ h.gen ++
    h.inc ++ h.dst ++ h.src ++ h.seq ++ (0 : BitVec 2) ++ h.stream ++ h.op ++ h.typ ++ h.ver

/-- A Geril packet as it arrives or leaves (R315, R316): what the IP and UDP layers say of it (the port, the addresses, an IPv4 one in
its IPv4-mapped form, the UDP ports, the two ECN bits, Don't Fragment, the checksum), its header and its payload. `region`, `at_` and
`want` are what a one-sided operation's descriptor tells the target (the region, the transfer's offset in it and, in the request of a GET,
the bytes asked for), and `tc` the class that a GET's descriptor names for its bulk data (R299); the manual does not say where the packet carries
them (log entry 17). -/
structure GPkt where
  port    : Fin 8
  srcIp   : BitVec 128
  dstIp   : BitVec 128
  sport   : BitVec 16
  dport   : BitVec 16
  ecn     : BitVec 2
  df      : Bool
  cksumOk : Bool
  head    : BitVec 256
  region  : BitVec 6
  at_     : BitVec 64
  want    : Nat
  tc      : BitVec 2
  payload : List Byte
  deriving DecidableEq, Repr

/-! The header's fields as a packet carries them (R316). -/
def GPkt.retx (k : GPkt) : Bool := k.head.getLsbD 248
def GPkt.last (k : GPkt) : Bool := k.head.getLsbD 247
def GPkt.ece (k : GPkt) : Bool := k.head.getLsbD 246
def GPkt.len (k : GPkt) : BitVec 14 := k.head.extractLsb' 232 14
def GPkt.offset (k : GPkt) : BitVec 40 := k.head.extractLsb' 192 40
def GPkt.opid (k : GPkt) : BitVec 32 := k.head.extractLsb' 160 32
def GPkt.gen (k : GPkt) : BitVec 32 := k.head.extractLsb' 128 32
def GPkt.inc (k : GPkt) : BitVec 32 := k.head.extractLsb' 96 32
def GPkt.dst (k : GPkt) : BitVec 16 := k.head.extractLsb' 80 16
def GPkt.src (k : GPkt) : BitVec 16 := k.head.extractLsb' 64 16
def GPkt.seq (k : GPkt) : BitVec 32 := k.head.extractLsb' 32 32
def GPkt.stream (k : GPkt) : BitVec 14 := k.head.extractLsb' 16 14
def GPkt.op (k : GPkt) : BitVec 8 := k.head.extractLsb' 8 8
def GPkt.typ (k : GPkt) : BitVec 4 := k.head.extractLsb' 4 4
def GPkt.ver (k : GPkt) : BitVec 4 := k.head.extractLsb' 0 4

/-- R315: a router has marked the packet CE. -/
def GPkt.ce (k : GPkt) : Bool := k.ecn == 3

/-- A frame received by a MAC (R296): whether its FCS and its codewords are wrong, and its bytes from destination address through FCS. -/
structure RxFrame where
  fcs    : Bool
  symbol : Bool
  bytes  : List Byte
  deriving DecidableEq, Repr

/-- A device toll (R371) as received. -/
structure TollMsg where
  ver   : BitVec 8
  rank  : BitVec 16
  inc   : BitVec 32
  seq   : BitVec 32
  slack : BitVec 16
  state : BitVec 8
  ident : BitVec 64
  deriving DecidableEq, Repr

/-- A lending message (R399) as received; its TYPE is the command's name. -/
structure LendMsg where
  ver    : BitVec 8
  rank   : BitVec 16
  inc    : BitVec 32
  dst    : BitVec 16
  loan   : BitVec 32
  amount : BitVec 32
  deriving DecidableEq, Repr

/-- A rail of AVS_B as its telemetry gives it (R389): voltage in mV and current in mA. -/
structure Rail where
  mV : Nat
  mA : Nat
  deriving DecidableEq, Repr

/-- What one run of the 100 µs cap loop reads over AVSBus and from the dies (R389): the read-back voltage of each VCQ rail in mV, the ten
rails of AVS_B, and the highest temperature of each die in 1/1,000 °C. -/
structure CapSample where
  vcqMv : List Nat
  rails : List Rail
  temps : List Nat
  deriving DecidableEq, Repr

/-- The port states of R295. -/
inductive PortState where
  | disabled
  | training
  | up
  | down
  deriving DecidableEq, Repr

/-- The outcome of a BIST run as the signature register gives it (R469): the signatures of the logic and of
the memory patterns and the failing word count. -/
structure BistResult where
  logic   : BitVec 64
  memory  : BitVec 64
  failing : Nat
  deriving DecidableEq, Repr

/-- An IDE_KM message's effect on a stream (R425): keys are programmed, the stream becomes secure, or it
goes off. -/
inductive IdeOp where
  | program (key : BitVec 256 := 0)
  | secure
  | off
  deriving DecidableEq, Repr

/-- A configuration request (R268 to R270, R284): a register that a write sets, or a read of the function's IDs. -/
inductive ConfigSet where
  | busMaster (on : Bool)
  | d3hot (on : Bool)
  | maxPayload (bytes : Nat)
  | maxRead (bytes : Nat)
  | extTags (on : Bool)
  | tenBitTags (on : Bool)
  | bar (n : Fin 3) (v : BitVec 64)
  | vfBar (n : Fin 3) (v : BitVec 64)
  | vfEnable (on : Bool)
  | numVfs (n : Fin 17)
  | msixEnable (on : Bool)
  | readIds
  deriving DecidableEq, Repr

/-- A write to a function's MSI-X structures (R284): a table entry (message address, data, mask bit), or the function mask. -/
inductive MsixWrite where
  | entry (vec : Fin 2048) (addr : BitVec 64) (data : BitVec 32) (mask : Bool)
  | fnMask (on : Bool)
  deriving DecidableEq, Repr

end Sys2Proof
end

