-- ==== Sys2Proof/Syntax.lean ====
section
/-! DEFINITION. The commands of the block: one constructor per row of spec/opcode_table.json, in the table's order.
A core's instructions carry the physical core that issues them and the 64-bit instruction word (and the
extension word, where the layout has one) as chapter 8 lays it out; the row's name says which operation the word's
opcode fields select. `ide` says of a PCIe request whether it arrives on a secure IDE stream that covers the function (R426). Events carry what the outside or nature supplies with them. -/

namespace Sys2Proof

/-- The commands (R166 to R198 for the cores' instructions; each row's own rule for the rest). -/
inductive Instr where
  /-- MPASS (R171): Issue of a matrix pass: operand and descriptor checks, bank assignment by parity and HOLD, placement in the array queue. -/
  | mpass (p : Fin 68) (w : W64) (x : W64)
  /-- MPASS_ENTRY (R113): A queued pass begins entering wavefronts once its predecessor has entered and its bank is FREE, swelling from idle where R119 applies. -/
  | mpassEntry (p : Fin 68) (e : List EccHit := [])
  /-- MDRAIN (R172): Issue of a drain of an accumulator bank with its epilogue; the bank moves to DRAIN_PENDING. -/
  | mdrain (p : Fin 68) (w : W64) (x : W64)
  /-- DRAIN_START (R147): The drain begins reading bank rows once row 0 is readable and the vector engine is free. -/
  | drainStart (p : Fin 68)
  /-- DRAIN_END (R116): The drain has read its last row: the outputs are written, the ABFT comparison is made and the bank returns to FREE. -/
  | drainEnd (p : Fin 68) (upset : List (Nat × BitVec 32)) (e : List EccHit := [])
  /-- VECTOR_START (R129): The vector engine begins reading the streams of the next queued vector instruction after the previous one has read its last element. -/
  | vectorStart (p : Fin 68) (e : List EccHit := [])
  /-- ADD (R130): VOP element-wise addition of two streams. -/
  | add (p : Fin 68) (w : W64) (x : W64)
  /-- SUB (R130): VOP element-wise subtraction. -/
  | sub (p : Fin 68) (w : W64) (x : W64)
  /-- MUL (R130): VOP element-wise multiplication. -/
  | mul (p : Fin 68) (w : W64) (x : W64)
  /-- FMA (R130): VOP fused multiply-add, rounded once. -/
  | fma (p : Fin 68) (w : W64) (x : W64)
  /-- MIN (R130): VOP NaN-propagating element-wise minimum. -/
  | minV (p : Fin 68) (w : W64) (x : W64)
  /-- MAX (R130): VOP NaN-propagating element-wise maximum. -/
  | maxV (p : Fin 68) (w : W64) (x : W64)
  /-- ABS (R130): VOP absolute value. -/
  | absV (p : Fin 68) (w : W64) (x : W64)
  /-- NEG (R130): VOP negation. -/
  | negV (p : Fin 68) (w : W64) (x : W64)
  /-- CMP_EQ (R130): VOP equality comparison writing a BIT stream. -/
  | cmpEq (p : Fin 68) (w : W64) (x : W64)
  /-- CMP_NE (R130): VOP not-equal comparison writing a BIT stream. -/
  | cmpNe (p : Fin 68) (w : W64) (x : W64)
  /-- CMP_LT (R130): VOP less-than comparison writing a BIT stream. -/
  | cmpLt (p : Fin 68) (w : W64) (x : W64)
  /-- CMP_LE (R130): VOP less-or-equal comparison writing a BIT stream. -/
  | cmpLe (p : Fin 68) (w : W64) (x : W64)
  /-- SEL (R130): VOP selection of one of two inputs by a BIT mask. -/
  | sel (p : Fin 68) (w : W64) (x : W64)
  /-- CVT (R130): VOP conversion through input and output scales and formats. -/
  | cvt (p : Fin 68) (w : W64) (x : W64)
  /-- RECIP (R130): VOP reciprocal at 64 elements per step. -/
  | recip (p : Fin 68) (w : W64) (x : W64)
  /-- RSQRT (R130): VOP reciprocal square root at 64 elements per step. -/
  | rsqrt (p : Fin 68) (w : W64) (x : W64)
  /-- EXP2 (R130): VOP base-2 exponential. -/
  | exp2 (p : Fin 68) (w : W64) (x : W64)
  /-- LOG2 (R130): VOP base-2 logarithm. -/
  | log2 (p : Fin 68) (w : W64) (x : W64)
  /-- SIN (R130): VOP sine. -/
  | sin (p : Fin 68) (w : W64) (x : W64)
  /-- COS (R130): VOP cosine. -/
  | cos (p : Fin 68) (w : W64) (x : W64)
  /-- ACT (R132): VOP forward activation function, optionally writing a GELU or SiLU branch mask. -/
  | act (p : Fin 68) (w : W64) (x : W64)
  /-- DACT (R134): VOP activation gradient from the saved output, the incoming gradient and the branch mask. -/
  | dact (p : Fin 68) (w : W64) (x : W64)
  /-- SMBWD (R136): VOP softmax gradient from y, dy and a per-row sum. -/
  | smbwd (p : Fin 68) (w : W64) (x : W64)
  /-- VRED_SUM (R138): Reduction by sum in the fixed order of R138, to a stream or a scalar register. -/
  | vredSum (p : Fin 68) (w : W64)
  /-- VRED_SUMSQ (R138): Reduction by sum of squares. -/
  | vredSumsq (p : Fin 68) (w : W64)
  /-- VRED_SUMPROD (R138): Reduction by sum of products of two streams. -/
  | vredSumprod (p : Fin 68) (w : W64)
  /-- VRED_MAX (R137): Reduction by maximum. -/
  | vredMax (p : Fin 68) (w : W64)
  /-- VRED_MIN (R137): Reduction by minimum. -/
  | vredMin (p : Fin 68) (w : W64)
  /-- VRED_AMAX (R137): Reduction by absolute maximum. -/
  | vredAmax (p : Fin 68) (w : W64)
  /-- VCOMP (R141): Compress the active units of a stream into a packed stream, with indices and a count register. -/
  | vcomp (p : Fin 68) (w : W64)
  /-- VEXPD (R142): Expand a packed stream into the active units of a stream. -/
  | vexpd (p : Fin 68) (w : W64)
  /-- VPERM_BLOCK (R143): Permute elements within blocks of 128 by a U16 index stream. -/
  | vpermBlock (p : Fin 68) (w : W64)
  /-- VPERM_GATHER (R143): Gather output elements from anywhere in the input by a U32 index stream. -/
  | vpermGather (p : Fin 68) (w : W64)
  /-- VPERM_SCATTER (R143): Scatter input elements to output positions by a U32 index stream. -/
  | vpermScatter (p : Fin 68) (w : W64)
  /-- VPACK (R144): Copy to an equal or narrower format, in the same order or by tile turn. -/
  | vpack (p : Fin 68) (w : W64)
  /-- VUNPK (R144): Copy to an equal or wider format, in the same order or by tile turn. -/
  | vunpk (p : Fin 68) (w : W64)
  /-- LOAD (R91): MOVE from device memory into the core's scratchpad. -/
  | load (p : Fin 68) (w : W64)
  /-- STORE (R91): MOVE from the scratchpad to device memory within the write set. -/
  | store (p : Fin 68) (w : W64)
  /-- SEND (R94): MOVE from the scratchpad into an inbound window of a gang peer. -/
  | send (p : Fin 68) (w : W64)
  /-- OPEN (R94): MOVE that opens an inbound window in the core's own scratchpad. -/
  | openWin (p : Fin 68) (w : W64)
  /-- SEND_ARRIVE (R94): SEND data are accepted into the peer's window once it is open, closing the window when its length is reached. -/
  | sendArrive (p : Fin 68) (k : Nat) (e g : List EccHit := [])
  /-- MOVE_COMPLETE (R183): A move reaches its completion point and its tag count falls by one. -/
  | moveComplete (p : Fin 68) (k : Nat) (e m : List EccHit := [])
  /-- WAIT_TAG (R185): WAIT until a tag's count of incomplete moves is zero. -/
  | waitTag (p : Fin 68) (w : W64)
  /-- WAIT_PEAL (R185): WAIT until a PEAL completion slot is not busy. -/
  | waitPeal (p : Fin 68) (w : W64)
  /-- WAIT_GANG (R185): WAIT until a gang semaphore reaches a threshold. -/
  | waitGang (p : Fin 68) (w : W64)
  /-- WAIT_ENGINES (R185): WAIT until the selected engines are idle. -/
  | waitEngines (p : Fin 68) (w : W64)
  /-- WAIT_END (R185): The condition of a pending WAIT comes to hold and issue resumes in the following step. -/
  | waitEnd (p : Fin 68)
  /-- SIGNAL (R186): Add to a gang semaphore at the dispatch unit, after earlier moves when FENCE is set. -/
  | signal (p : Fin 68) (w : W64)
  /-- DESC (R189): Load a stream descriptor from the scratchpad or another descriptor, with up to two register patches. -/
  | desc (p : Fin 68) (w : W64) (e : List EccHit := [])
  /-- LOOP (R192): Decrement a count register and branch while nonzero. -/
  | loop (p : Fin 68) (w : W64)
  /-- BR (R192): Compare two registers and branch on the condition. -/
  | br (p : Fin 68) (w : W64)
  /-- CALL (R192): Push the return address and branch to an offset or register target. -/
  | call (p : Fin 68) (w : W64)
  /-- RET (R192): Pop a return address and branch, or end the work program when the stack is empty. -/
  | ret (p : Fin 68) (w : W64)
  /-- SADD (R193): Scalar addition modulo 2^64. -/
  | sadd (p : Fin 68) (w : W64)
  /-- SSUB (R193): Scalar subtraction. -/
  | ssub (p : Fin 68) (w : W64)
  /-- SMUL (R193): Scalar multiplication, low 64 bits. -/
  | smul (p : Fin 68) (w : W64)
  /-- SAND (R193): Scalar and, optionally reading or clearing FLAGS. -/
  | sand (p : Fin 68) (w : W64)
  /-- SOR (R195): Scalar or, also used to read FLAGS and to clear flags by a W1C write. -/
  | sor (p : Fin 68) (w : W64)
  /-- SSHL (R193): Scalar shift left. -/
  | sshl (p : Fin 68) (w : W64)
  /-- SSHR (R193): Scalar shift right, logical or arithmetic. -/
  | sshr (p : Fin 68) (w : W64)
  /-- SLI_IMM (R194): SLI FORM 0: load a sign-extended immediate into a register. -/
  | sliImm (p : Fin 68) (w : W64)
  /-- SLI_EXT (R194): SLI FORM 1: load the 64-bit extension word into a register. -/
  | sliExt (p : Fin 68) (w : W64) (x : W64)
  /-- SLI_LOAD (R194): SLI FORM 2: load 8 bytes of scratchpad into a register. -/
  | sliLoad (p : Fin 68) (w : W64) (e : List EccHit := [])
  /-- SLI_STORE (R194): SLI FORM 3: store a register into 8 bytes of scratchpad. -/
  | sliStore (p : Fin 68) (w : W64)
  /-- ICACHE_FILL (R169): A missed 256-byte instruction line arrives and issue resumes, or a failed fetch faults with PAGE_FAULT. -/
  | icacheFill (p : Fin 68) (m : List EccHit := [])
  /-- SLOT_END (R97): After RET on an empty stack and the draining of engines, moves and PEALs, the core reports its gang slot ended with its run record. -/
  | slotEnd (p : Fin 68)
  /-- REDUCE_SCATTER (R330): PEAL collective summing up to four local sources per shard across the group, with optional sum of squares. -/
  | reduceScatter (p : Fin 68) (w : W64)
  /-- ALL_GATHER (R335): PEAL collective gathering every member's shard, from the shard table by generation when GENEN is set, under its keep policy. -/
  | allGather (p : Fin 68) (w : W64)
  /-- ALL_REDUCE (R330): PEAL element-wise sum over the group, short or long form. -/
  | allReduce (p : Fin 68) (w : W64)
  /-- ALL_TO_ALL (R327): PEAL exchange of one block with every member. -/
  | allToAll (p : Fin 68) (w : W64)
  /-- BROADCAST (R327): PEAL copy of the root's buffer to every member. -/
  | broadcast (p : Fin 68) (w : W64)
  /-- PUT (R337): PEAL one-sided write into a region of a member. -/
  | put (p : Fin 68) (w : W64)
  /-- GET (R339): PEAL one-sided read from a region of a member. -/
  | get (p : Fin 68) (w : W64)
  /-- MIRROR_PUT (R358): PEAL one-sided write into the buddy's region. -/
  | mirrorPut (p : Fin 68) (w : W64)
  /-- PERMUTE (R340): PEAL in-place re-sharding of buffer ranges between members through staging pages. -/
  | permute (p : Fin 68) (w : W64)
  /-- HOST_READ (R341): PEAL copy from host memory into device memory. -/
  | hostRead (p : Fin 68) (w : W64)
  /-- HOST_WRITE (R341): PEAL copy from device memory to host memory. -/
  | hostWrite (p : Fin 68) (w : W64)
  /-- PUBLISH (R333): PEAL check and pending mark for a new shard generation, applied at commit. -/
  | publish (p : Fin 68) (w : W64)
  /-- CLAIM (R334): PEAL that completes once the entry's retained buffer has been released. -/
  | claim (p : Fin 68) (w : W64)
  /-- STEP_END (R334): PEAL that records a generation locally and sends STEP_END to every active rank. -/
  | stepEnd (p : Fin 68) (w : W64)
  /-- PEAL_COMPLETE (R342): A peal instance has every chunk acknowledged and received; the result record is written and the core's slot reported free. -/
  | pealComplete (opid : BitVec 32) (group : BitVec 8) (hostData : List Byte)
  /-- DOORBELL (R245): A write of a queue's TAIL in a doorbell page, which starts or restarts fetch. -/
  | doorbell (fn : Fin 17) (c : Fin 4096) (off : BitVec 12) (v : W64) (ide : Bool := true)
  /-- SEM_ADD (R254): A doorbell-page write that adds an amount to a commit semaphore of the partition. -/
  | semAdd (fn : Fin 17) (c : Fin 4096) (v : W64) (ide : Bool := true)
  /-- COMMAND_FETCH (R245): The dispatch unit reads the head entry of a queue, consumes it on a matching phase and checks it under R246. -/
  | commandFetch (c : Fin 4096) (q : Fin 4) (hostData : List Byte) (m : List EccHit := [])
  /-- REFETCH_TIMER (R245): A back-off interval after a stale phase expires and the entry is fetched again. -/
  | refetchTimer (c : Fin 4096) (q : Fin 4) (hostData : List Byte) (m : List EccHit := [])
  /-- RUN (R250): Issue of a RUN command once hazards, waits and cores allow: placement of its gang and start of every work program. -/
  | run (c : Fin 4096) (q : Fin 4)
  /-- MARK (R243): A MARK command, which does no work and commits in queue order with its commit actions. -/
  | mark (c : Fin 4096) (q : Fin 4)
  /-- COMMIT (R252): Once earlier commands have committed and every write is visible, the command commits: ranges released, record posted, semaphores released and interrupt sent. -/
  | commit (c : Fin 4096) (q : Fin 4)
  /-- SLICE_CLOSE (R257): A command's time slice closes: a new slice opens, the command is killed, or it runs on its overrun allowance. -/
  | sliceClose (uid : Nat)
  /-- KILL_COMPLETE (R258): Every store of the killed command is acknowledged or dropped and its cores are released, with its hazard ranges held. -/
  | killComplete (uid : Nat)
  /-- RERUN (R367): A killed restartable command is issued again with the same gang size, seed and queue position. -/
  | rerun (uid : Nat)
  /-- OVERRUN (R259): The overrun allowance of a non-restartable command closes and the command ends with OVERRUN. -/
  | overrun (uid : Nat)
  /-- CONTEXT_TEARDOWN (R260): A fault ends a command, stops its gang and tears down its context, killing its other uncommitted commands as SECONDARY. -/
  | contextTeardown (c : Fin 4096)
  /-- TEARDOWN_END (R241): The wipes of a teardown end and the context enters FAULTED or FREE. -/
  | teardownEnd (c : Fin 4096)
  /-- TOLL_PROMPT (R99): The hub timer reaches a 64 µs prompt for each busy core. -/
  | tollPrompt (p : Fin 68)
  /-- TOLL (R99): A core's issue stage answers a prompt with a toll word on its quadrant's toll queue. -/
  | toll (p : Fin 68)
  /-- TOLL_CHECK (R100): The hub toll checker reads a toll packet and counts it against its interval. -/
  | tollCheck (q : Fin 4) (u : List MqUpset)
  /-- MISSED_TOLLS (R100): A second consecutive toll interval of a busy core closes without a toll, which is a core fault. -/
  | missedTolls (p : Fin 68)
  /-- STALL_WATCHDOG (R364): A handshake inside a core unit stays unanswered for STALL_LIMIT, which is a core fault. -/
  | stallWatchdog (p : Fin 68) (since : Nat)
  /-- CHOKE (R365): A core fault report reaches the hub: port closed, epoch advanced, choke packet written, command killed and core map updated. -/
  | choke (p : Fin 68) (cause : BitVec 8) (drops : Nat := 0)
  /-- CORE_CHOKE (R369): A software write that chokes an OPEN core, or returns a PASSED core to CHOKED. -/
  | coreChoke (pr : Principal) (v : BitVec 8) (drops : Nat := 0)
  /-- CORE_READMIT (R369): A write that re-admits a PASSED core, opening its port and filling a slot or the spare. -/
  | coreReadmit (pr : Principal) (v : BitVec 8)
  /-- CREATE (R241): CTX_OP 1 makes a FREE context ACTIVE with a valid record and within quota. -/
  | create (pr : Principal)
  /-- STOP (R241): CTX_OP 2 stops fetch of an ACTIVE context, which becomes STOPPING. -/
  | stop (pr : Principal)
  /-- CTX_RESUME (R241): CTX_OP 3 makes a STOPPED context ACTIVE again. -/
  | ctxResume (pr : Principal)
  /-- CTX_RESET (R241): CTX_OP 4 returns a FAULTED context to STOPPED. -/
  | ctxReset (pr : Principal)
  /-- DESTROY (R241): CTX_OP 5 discards a context's uncommitted commands and tears it down to FREE. -/
  | destroy (pr : Principal)
  /-- PART_RESET (R266): A partition reset: contexts destroyed, instances cancelled, queue flushed, semaphores zeroed, slabs and scratchpads wiped. -/
  | partReset (pr : Principal) (n : Fin 16) (v : BitVec 8)
  /-- ASSIGN (R206): SLAB_OP that gives a range of FREE slabs to a partition. -/
  | assign (pr : Principal) (v : W64)
  /-- RELEASE (R207): SLAB_OP that releases a range of ASSIGNED slabs and queues their wipes. -/
  | release (pr : Principal) (v : W64)
  /-- SET_WBIAS (R206): SLAB_OP that sets the host-window access of ASSIGNED slabs. -/
  | setWbias (pr : Principal) (v : W64)
  /-- SET_CHX (R206): SLAB_OP that sets pseudo-channel hashing of FREE, unwiped slabs. -/
  | setChx (pr : Principal) (v : W64)
  /-- SLAB_WIPE_START (R217): The quadrant wipe engine begins the next pending slab wipe once earlier accesses and wipes are done. -/
  | slabWipeStart (q : Fin 4)
  /-- SLAB_WIPE_END (R207): A slab wipe ends, WIPE clears and held accesses are served; SLAB_OP_STATE or PART_RESET_STATE advances after the last. -/
  | slabWipeEnd (q : Fin 4)
  /-- PATROL_SCRUB (R213): The paced patrol scrub reads and corrects the next word of its quadrant. -/
  | patrolScrub (q : Fin 4) (e : EccFinding)
  /-- HBM_TEST (R473): A write that starts one stack's DRAM self-test through its IEEE 1500 wrapper. -/
  | hbmTest (pr : Principal) (st : Fin 32) (v : BitVec 8)
  /-- HBM_TEST_END (R473): A stack self-test ends: failing rows join the retire list, the stack's slabs are wiped and HBM_STATUS is set. -/
  | hbmTestEnd (st : Fin 32) (rows : List Nat)
  /-- MQ_PACKET_WRITE (R222): A producer writes one packet into a message queue, discarding the oldest packet when full. -/
  | mqPacketWrite (qid : Fin 32) (words : List W64) (a : MqWrite)
  /-- MQ_PACKET_READ (R224): The consumer reads one whole packet with its header in SEQ order. -/
  | mqPacketRead (qid : Fin 32) (n : Nat) (u : List MqUpset)
  /-- MQ_FLUSH (R227): A request to flush a message queue. -/
  | mqFlush (pr : Principal) (qid : Fin 32) (v : BitVec 8)
  /-- FLUSH_EFFECT (R227): At the first packet boundary a pending flush discards every stored packet. -/
  | flushEffect (qid : Fin 32)
  /-- DELIVER_PACKET (R231): The delivery engine copies one event or trace packet into its delivery ring and raises the ring's vector. -/
  | deliverPacket (qid : Fin 32) (u : List MqUpset := [])
  /-- RING_CONSUMER_WRITE (R273): Software returns delivery-ring space by writing its consumer offset. -/
  | ringConsumerWrite (fn : Fin 17) (ring : Fin 17) (v : W64) (ide : Bool := true)
  /-- RING_RESTART (R231): After a write of a ring's base or size, the ring restarts at offset 0 with PHASE 1 once the packet in delivery completes. -/
  | ringRestart (pr : Principal) (ring : Fin 17) (setBase : Bool) (v : W64)
  /-- WINDOW_READ (R275): A host read through BAR2, checked against the slab entry at acceptance. -/
  | windowRead (fn : Fin 17) (off : BitVec 28) (len : Nat) (m : List EccHit := []) (ide : Bool := true)
  /-- WINDOW_WRITE (R275): A host write through BAR2, checked against the slab entry at acceptance. -/
  | windowWrite (fn : Fin 17) (off : BitVec 28) (data : List Byte) (m : List EccHit := []) (ide : Bool := true)
  /-- HPAT_READ (R281): A read of the host page attribute table that completes only after earlier table writes and cache invalidations take effect. -/
  | hpatRead (fn : Fin 17) (off : BitVec 25) (ide : Bool := true)
  /-- ATOMICOP_REQUEST (R269): An AtomicOp request to a BAR, completed with Unsupported Request. -/
  | atomicopRequest (fn : Fin 17) (bar : Fin 6)
  /-- MSIX_UNMASK (R284): Unmasking a vector sends its pending message once. -/
  | msixUnmask (fn : Fin 17) (w : MsixWrite) (ide : Bool := true)
  /-- LINK_TRAINING (R268): The PCIe link completes training, reporting a degraded link through LINK_STATE and the management vector. -/
  | linkTraining (gen : BitVec 8) (width : BitVec 8)
  /-- PERST_N (R285): PCIe fundamental reset: configuration, windows and MSI-X tables reset, functions quarantined, device work continues. -/
  | perstN
  /-- HOT_RESET (R285): A hot reset or PF FLR, with the effects of PERST_N. -/
  | hotReset
  /-- VF_FLR (R285): A function level reset of one VF, which quarantines its partition only. -/
  | vfFlr (n : Fin 16) (ide : Bool := true)
  /-- HOST_WAIT_LIMIT (R286): A host transfer stalled by quarantine exceeds its window and its command faults with PAGE_FAULT. -/
  | hostWaitLimit (uid : Nat)
  /-- REATTACH_KEEP (R288): Re-attach in KEEP mode: backlog records written to their addresses, deferred vectors sent, quarantine ended. -/
  | reattachKeep (pr : Principal) (target : BitVec 8) (cred : BitVec 128)
  /-- REATTACH_DIVERT (R288): Re-attach in DIVERT mode: contexts stopped, stalled commands faulted, quarantine ended and backlog left in place. -/
  | reattachDivert (pr : Principal) (target : BitVec 8) (cred : BitVec 128)
  /-- MAILBOX_GO (R448): A write of GO that submits the Voxyx request in a function's BAR4 mailbox. -/
  | mailboxGo (fn : Fin 17) (off : BitVec 16) (a : MbxAccess) (ide : Bool := true)
  /-- FRAME_RECEIVE (R297): A frame received on a port is checked for faults and sent to the host ring, the control processor queue, or dropped. -/
  | frameReceive (port : Fin 8) (f : RxFrame) (fec : Nat × Nat := (0, 0)) (reply : Option (List Byte) := none)
  /-- PFC_FRAME (R304): A received PFC frame pauses or resumes an enabled class, or is ignored under a broken watchdog. -/
  | pfcFrame (port : Fin 8) (classes : BitVec 8) (quanta : List (BitVec 16))
  /-- PAUSE_EXPIRE (R304): A class's remaining pause time reaches zero. -/
  | pauseExpire (port : Fin 8) (tc : Fin 8)
  /-- PFC_REPEAT (R304): After half the pause time the device repeats its own PFC while its receive share stays high. -/
  | pfcRepeat (port : Fin 8) (tc : Fin 8)
  /-- PAUSE_LIMIT (R305): A class stays paused for PAUSE_LIMIT: the pause is broken and the watchdog enters BROKEN. -/
  | pauseLimit (port : Fin 8) (tc : Fin 8)
  /-- PAUSE_RECOVERY (R305): The recovery interval closes without a pause frame and the watchdog rearms. -/
  | pauseRecovery (port : Fin 8) (tc : Fin 8)
  /-- FRAME_TRANSMIT (R302): A queued frame starts transmission when its gate window, guard and pause allow, or is discarded as GATE_OVERSIZE. -/
  | frameTransmit (port : Fin 8) (tc : Fin 8)
  /-- GATE_ENTRY (R300): The port timer reaches the boundary of a gate entry or cycle and the open gates change. -/
  | gateEntry (port : Fin 8)
  /-- GATE_COMMIT (R301): A write that arms the pending gate schedule. -/
  | gateCommit (pr : Principal) (port : Fin 8) (v : BitVec 8)
  /-- GATE_CHANGE (R301): At the change time the armed schedule becomes active. -/
  | gateChange (port : Fin 8)
  /-- PORT_TIMER (R301): A write that loads a port timer and moves gate positions to the new value. -/
  | portTimer (pr : Principal) (port : Fin 8) (v : W64)
  /-- PORT_LANES (R291): A write of a port's lane count, refused when it breaks a condition, otherwise retraining the affected ports. -/
  | portLanes (pr : Principal) (port : Fin 8) (v : BitVec 8)
  /-- PORT_MEDIA (R294): A write of a port's channel type, which retrains the port. -/
  | portMedia (pr : Principal) (port : Fin 8) (v : BitVec 8)
  /-- PORT_AN (R293): A write enabling or disabling auto-negotiation, refused against AUI media. -/
  | portAn (pr : Principal) (port : Fin 8) (v : BitVec 8)
  /-- LINK_CHANGE (R295): A port changes state; leaving UP discards untransmitted frames and posts a port event. -/
  | linkChange (port : Fin 8) (st : PortState) (fast : Bool)
  /-- TRAINING_RETRY (R293): A port left in TRAINING retries after 1 s. -/
  | trainingRetry (port : Fin 8)
  /-- GERIL_DATA (R320): A received DATA packet is checked, then written, held or discarded as a duplicate by sequence number. -/
  | gerilData (k : GPkt)
  /-- GERIL_ACK (R322): A received ACK releases acknowledged packets, triggers fast retransmission and adjusts the congestion window once per RTT. -/
  | gerilAck (k : GPkt)
  /-- ACK_TIMER (R320): 4 µs pass without an ACK on a stream that has received data, and an ACK is sent. -/
  | ackTimer (rank : BitVec 16) (stream : BitVec 14)
  /-- RTO_EXPIRY (R321): A packet's retransmission timeout closes and it is retransmitted, posting PEER_UNREACHABLE after RETX_LIMIT. -/
  | rtoExpiry (rank : BitVec 16) (stream : BitVec 14) (seq : BitVec 32)
  /-- HELLO (R323): A received HELLO is answered with HELLO_ACK and a connection forms on common capabilities. -/
  | hello (k : GPkt)
  /-- HELLO_ACK (R323): A received HELLO_ACK completes the connection with the common version and features. -/
  | helloAck (k : GPkt)
  /-- FENCED (R324): A received FENCED naming the device's own rank stops its streams and sets CARILLON_STATE to 3. -/
  | fenced (k : GPkt)
  /-- ANNOUNCE (R377): A received ANNOUNCE of a rank takeover updates the rank table, ends torn instances and is answered with RESUME. -/
  | announce (k : GPkt)
  /-- RESUME (R325): A received RESUME gives the next expected sequence per stream and the new device continues those streams. -/
  | resume (k : GPkt)
  /-- STEP_END_RECEIVE (R334): A received STEP_END records a rank's generation and may release retained shard generations. -/
  | stepEndReceive (k : GPkt)
  /-- COMMIT_NOTICE (R339): A received COMMIT_NOTICE adds 1 to the region's commit semaphore after the sender's chunks are visible. -/
  | commitNotice (k : GPkt)
  /-- ABORT (R344): A received ABORT ends the member's PEAL of the instance with the given status. -/
  | abortPeer (k : GPkt)
  /-- CLOSE (R319): A received CLOSE ends a stream. -/
  | close (k : GPkt)
  /-- CARILLON_EN (R312): A write that enables or disables the carillon functions, cancelling instances and loans on disable. -/
  | carillonEn (pr : Principal) (v : BitVec 8)
  /-- TAKEOVER (R376): A write on a spare that takes an active rank with a new incarnation and sends ANNOUNCE. -/
  | takeover (pr : Principal) (r : BitVec 16)
  /-- TAKEOVER_LIMIT (R376): TAKEOVER_LIMIT passes before every active rank answers, and TAKEOVER_REFUSED is posted. -/
  | takeoverLimit
  /-- CARILLON_REJOIN (R384): A write that returns a fenced device as a spare rank. -/
  | carillonRejoin (pr : Principal) (r : BitVec 16)
  /-- DEV_TOLL_SEND (R371): Every DEV_TOLL_PERIOD the hub sends a device toll to every other device in its rank table. -/
  | devTollSend
  /-- DEVICE_TOLL (R371): A received device toll is checked by incarnation, resets its rank's toll age and hands its slack to the damper. -/
  | deviceToll (m : TollMsg)
  /-- PEER_SILENT (R372): A rank's toll age reaches DEV_TOLL_MISS periods and PEER_SILENT is posted. -/
  | peerSilent (r : Fin 255)
  /-- CAP_LOOP (R391): The damper's 100 µs loop adjusts the target pace and VCQ voltages, reads temperatures and integrates energy. -/
  | capLoop (m : CapSample)
  /-- FAST_LOOP (R394): Each valid 10 ns current sample updates the 4 µs window and lowers or raises a quadrant's swell ceiling and HBM admission. -/
  | fastLoop (q : Fin 4) (mA : Nat)
  /-- PEAK_HOLD_END (R394): The 4 µs hold of a peak action ends. -/
  | peakHoldEnd (q : Fin 4)
  /-- THERMAL_SHUTDOWN (R397): A sensor reaches 110 °C: activity halted, VCQ lowered, THERM_N asserted and a device fault raised. -/
  | thermalShutdown
  /-- TELEMETRY_LOST (R389): A telemetry input stays invalid long enough and the damper falls to the lowest pace and asserts ALERT_N. -/
  | telemetryLost (imon : Option (Fin 4))
  /-- TELEMETRY_RESTORED (R389): Every telemetry input has been valid for 10 ms and normal control resumes. -/
  | telemetryRestored
  /-- CAP_SET (R390): A write of the own power cap, lowering the effective cap at once. -/
  | capSet (pr : Principal) (v : BitVec 16)
  /-- LEND_PERIOD (R400): Every LEND_PERIOD a device decides to lend, recall or renew loans. -/
  | lendPeriod
  /-- GRANT (R401): A received GRANT is accepted, renewed or refused, and answered. -/
  | grant (m : LendMsg)
  /-- ANSWER (R401): A received ANSWER confirms a loan, or restores the donor's cap on refusal. -/
  | answer (m : LendMsg)
  /-- RECALL (R401): A received RECALL makes the recipient lower its cap and return the loan. -/
  | recall (m : LendMsg)
  /-- RETURN (R401): A received RETURN raises the donor's effective cap. -/
  | returnLoan (m : LendMsg)
  /-- LEASE_CLOSE (R401): A recipient's loan lease closes and it lowers its cap and sends RETURN. -/
  | leaseClose (rank : BitVec 16) (loan : BitVec 32)
  /-- LOAN_LAPSE (R401): A donor's lease closes without RETURN and it raises its effective cap. -/
  | loanLapse (loan : BitVec 32)
  /-- LC_TO_PROVISIONED (R410): LC_REQUEST to PROVISIONED from BLANK or RETURNED, with a Scaboica token. -/
  | lcToProvisioned (pr : Principal) (token : List Byte)
  /-- LC_TO_OPERATIONAL (R410): LC_REQUEST from PROVISIONED to OPERATIONAL. -/
  | lcToOperational (pr : Principal) (token : List Byte)
  /-- LC_TO_RETURNED (R410): LC_REQUEST from OPERATIONAL to RETURNED, clearing the retire list. -/
  | lcToReturned (pr : Principal) (token : List Byte)
  /-- LC_TO_SCRAPPED (R410): LC_REQUEST to SCRAPPED, disabling the fused seed. -/
  | lcToScrapped (pr : Principal) (token : List Byte)
  /-- LC_WIPE_END (R411): The memory wipe of a life-cycle transition ends, the transition fuse is blown and the device resets. -/
  | lcWipeEnd
  /-- PART_CONF (R412): A write changing a partition's confidentiality, which resets the partition first. -/
  | partConf (pr : Principal) (n : Fin 16) (v : BitVec 8)
  /-- DEBUG_EN (R415): A write enabling JTAG debug while no partition is confidential. -/
  | debugEn (pr : Principal) (v : BitVec 8)
  /-- MEASURE (R419): A write that digests a context range into the measurement log, optionally sealing it. -/
  | measure (pr : Principal) (n : Fin 16) (data : List Byte)
  /-- ATT_REQUEST (R420): A write that builds and signs an attestation report for a scope and nonce. -/
  | attRequest (pr : Principal) (data : List Byte)
  /-- CKEY_INSTALL (R421): A write that installs the carillon key after checking tag, report digest and key identity. -/
  | ckeyInstall (pr : Principal) (data : List Byte)
  /-- CKEY_CLEAR (R422): A write that clears the carillon key. -/
  | ckeyClear (pr : Principal) (v : BitVec 8)
  /-- PKG_LOAD (R424): A write that queues decryption of a weight package into a destination. -/
  | pkgLoad (pr : Principal) (n : Fin 16) (data : List Byte)
  /-- PKG_LOAD_END (R424): A package load ends, logging on success or zeroing the destination and reporting a reason on failure. -/
  | pkgLoadEnd
  /-- IDE_KM (R425): An IDE_KM message over the SPDM session programs keys for an IDE stream. -/
  | ideKm (stream : Fin 17) (o : IdeOp)
  /-- VOXYX_READ (R441): A Voxyx READ of an entry, or of a snapshot segment of a DOMAIN or STR entry. -/
  | voxyxRead (ch : Channel) (m : VMsg) (env : MctpEnv := .good)
  /-- VOXYX_WRITE (R441): A Voxyx WRITE of an entry that has no row of its own, or one segment of a DOMAIN or STR transfer. -/
  | voxyxWrite (ch : Channel) (m : VMsg) (env : MctpEnv := .good)
  /-- VOXYX_INFO (R441): A Voxyx INFO request returning type, rights, flags and size. -/
  | voxyxInfo (ch : Channel) (m : VMsg) (env : MctpEnv := .good)
  /-- VOXYX_CANCEL (R441): A Voxyx CANCEL discarding the channel's snapshot and incomplete write. -/
  | voxyxCancel (ch : Channel) (m : VMsg) (env : MctpEnv := .good)
  /-- SNAPSHOT_LAPSE (R441): A channel's snapshot lapses 10 s after its last read. -/
  | snapshotLapse (ch : Channel)
  /-- SET_ENDPOINT_ID (R445): MCTP control command that sets the device's endpoint ID. -/
  | setEndpointId (binding : Fin 2) (eid : BitVec 8)
  /-- GET_ENDPOINT_ID (R445): MCTP control command returning the endpoint ID. -/
  | getEndpointId (binding : Fin 2)
  /-- GET_MCTP_VERSION_SUPPORT (R445): MCTP control command returning supported versions. -/
  | getMctpVersionSupport (binding : Fin 2)
  /-- GET_MESSAGE_TYPE_SUPPORT (R445): MCTP control command returning supported message types. -/
  | getMessageTypeSupport (binding : Fin 2)
  /-- GET_VENDOR_MESSAGE_SUPPORT (R445): MCTP control command Get Vendor Defined Message Support. -/
  | getVendorMessageSupport (binding : Fin 2)
  /-- DYNAMIC_ADDRESS_ASSIGN (R446): An I3C controller assigns a dynamic address and the port leaves SMBus operation. -/
  | dynamicAddressAssign (addr : BitVec 7)
  /-- RSTDAA (R446): An I3C RSTDAA returns the port to SMBus operation. -/
  | rstdaa
  /-- FW_IMAGE (R460): A segment of a firmware image written to the inactive slot, erasing it on FIRST and making it PENDING on FINAL. -/
  | fwImage (ch : Channel) (m : VMsg) (env : MctpEnv := .good)
  /-- FW_CONFIRM (R461): A write confirming a TRIAL slot, which may advance the fused version. -/
  | fwConfirm (pr : Principal) (v : BitVec 8)
  /-- FW_RECOVERY (R463): A segment of the recovery image written to flash. -/
  | fwRecovery (ch : Channel) (m : VMsg) (env : MctpEnv := .good)
  /-- TRIAL_WINDOW_CLOSE (R461): The trial window closes unconfirmed, the slot becomes BAD and the control processor restarts. -/
  | trialWindowClose
  /-- CP_WATCHDOG (R370): The control processor watchdog expires, which restarts it. -/
  | cpWatchdog
  /-- CP_RESTART (R370): The control processor restarts: request channel flushed, ROM selects and loads an image. -/
  | cpRestart (cause : BitVec 8)
  /-- CP_RESTART_END (R370): The restart completes, CP_RESTARTS rises and a fault-queue packet names the cause. -/
  | cpRestartEnd
  /-- BIST_CORE (R471): BIST_START of core scope on a CHOKED core, which enters TESTING. -/
  | bistCore (pr : Principal) (v : BitVec 16)
  /-- BIST_QUADRANT (R467): BIST_START of quadrant scope under maintenance. -/
  | bistQuadrant (pr : Principal) (v : BitVec 16)
  /-- BIST_HUB (R467): BIST_START of hub scope under maintenance. -/
  | bistHub (pr : Principal) (v : BitVec 16)
  /-- BIST_DEVICE (R467): BIST_START of device scope including the HBM pattern test. -/
  | bistDevice (pr : Principal) (v : BitVec 16)
  /-- CORE_BIST_END (R471): A core BIST ends: structures wiped, signatures compared and the core set PASSED or CHOKED. -/
  | coreBistEnd (p : Fin 68) (r : BistResult)
  /-- MAINT_BIST_END (R470): A maintenance-scope BIST ends, its results are stored in flash and the device resets. -/
  | maintBistEnd (r : BistResult) (rows : List Nat)
  /-- BYPASS (R474): JTAG BYPASS instruction. -/
  | bypass
  /-- IDCODE (R474): JTAG IDCODE instruction returning 0x17A7_0ABB. -/
  | idcode
  /-- SAMPLE_PRELOAD (R474): JTAG SAMPLE/PRELOAD instruction: the boundary register captures the balls and takes `b`. `pins`: the levels that
  stand at the balls of the lanes and of the board's buses. -/
  | samplePreload (b : Boundary := .idle) (pins : Pins := .idle)
  /-- EXTEST (R474): JTAG EXTEST while DEVRST_N is asserted, otherwise acting as BYPASS. `scan`: the boundary register is scanned under it, which
  takes these levels in and captures those that stand at the balls. -/
  | extest (scan : Option (Boundary × Pins) := none)
  /-- CLAMP (R474): JTAG CLAMP instruction. -/
  | clamp
  /-- HIGHZ (R474): JTAG HIGHZ instruction. -/
  | highz
  /-- EXTEST_PULSE (R474): IEEE 1149.6 EXTEST_PULSE on AC-coupled lanes. -/
  | extestPulse (scan : Option (Boundary × Pins) := none)
  /-- EXTEST_TRAIN (R474): IEEE 1149.6 EXTEST_TRAIN on AC-coupled lanes. -/
  | extestTrain (scan : Option (Boundary × Pins) := none)
  /-- HBM1500 (R474): JTAG instruction routing the port to a stack's 1500 wrapper, under the debug rules. -/
  | hbm1500 (st : Fin 32)
  /-- DEBUG_INSTRUCTION (R415): A JTAG debug instruction giving access to internal state, refused unless R415 allows it. -/
  | debugInstruction
  /-- TAP_RESET (R474): TRST_N or five TCK cycles with TMS high reset the test access port. -/
  | tapReset
  /-- DEVICE_RESET (R464): DEVRST_N rises with PWRGD high, after the rails were removed (`power`) or not, with the MADDR balls as `maddr`, and the
  boot begins: HBM training, wipe, boot record read and image selection. -/
  | deviceReset (power : Bool := false) (maddr : BitVec 2 := 0)
  /-- PWRGD_LOW (R484): PWRGD goes low and the device enters reset; `cut`: while ROM writes the boot record of a start. -/
  | pwrgdLow (cut : Bool := false)
  /-- IMAGE_START (R464): The selected image has been read and verified and starts, arming the trial timer for a TRIAL slot. -/
  | imageStart
  /-- HBM_TRAINING_END (R464): Stack training and the reset wipe end, failed stacks retired and placement formed. -/
  | hbmTrainingEnd (failed : List (Fin 32)) (rows : List Nat) (slabs : List (Fin 65536))
  /-- DICT_READY (R464): After image start and training end the dictionary is served and commands accepted. -/
  | dictReady
  /-- LINK_FAULT (R27): A hub link or ring link cannot retrain, which is a device fault. -/
  | linkFault (ring : Bool)
  /-- REFCLK_H_LOSS (R487): REFCLK_H stops: the PCIe link drops and the device treats it as a hub die fault. -/
  | refclkHLoss
  /-- REFCLK_E_LOSS (R487): REFCLK_E stops and every Ethernet port goes DOWN. -/
  | refclkELoss
  /-- DEVRST_N_LOW (R484): The board drives DEVRST_N low, which holds the device in reset. -/
  | devrstNLow
  /-- LAST_ELEMENT_WRITTEN (R129): A vector instruction writes its last element, releasing its scoreboard entries and, for VRED or VCOMP, writing its scalar register. -/
  | lastElementWritten (p : Fin 68) (e : List EccHit := [])
  /-- LAST_WAVEFRONT_LEFT (R108): The last wavefront of a pass leaves the array 256 st after its last entry step. -/
  | lastWavefrontLeft (p : Fin 68)
  /-- WINDOW_CONTROL_WRITE (R277): A host write of WEN or WIN_BASE in a function's BAR0 control block, which applies to window accesses arriving after it. -/
  | windowControlWrite (fn : Fin 17) (v : W64) (ide : Bool := true)
  /-- PAGE_ATTRIBUTE_WRITE (R279): A host write of an entry of the host page attribute table, handing a page to the device or taking it back. -/
  | pageAttributeWrite (fn : Fin 17) (e : Fin 256) (v : BitVec 128) (ide : Bool := true)
  /-- CONFIGURATION_REQUEST (R268): A PCIe configuration write that sets a function's power state or Bus Master Enable. -/
  | configurationRequest (fn : Fin 17) (c : ConfigSet) (ide : Bool := true)
  /-- SPDM_REQUEST (R425): An SPDM message over PCIe DOE that establishes the session authenticated by the identity key, in which IDE_KM messages travel. -/
  | spdmRequest (msg : List Byte)
  deriving DecidableEq, Repr

end Sys2Proof
end

