-- ==== Sys2Proof/Machine/Bytes.lean ====
section
/-! DEFINITION. Byte strings in memory order (R5) and SHAKE256 (R416), which the published standard FIPS 202 defines (log entry 9). -/

namespace Sys2Proof.Machine

/-! ### Little-endian byte strings -/

/-- The number that a byte string spells, lowest byte first (R5). -/
def leNat : List Byte → Nat
  | [] => 0
  | b :: r => b.toNat + 256 * leNat r

/-- The n bytes of a number, lowest byte first. -/
def leBytes : Nat → Nat → List Byte
  | 0, _ => []
  | n + 1, v => BitVec.ofNat 8 v :: leBytes n (v / 256)

/-- The bytes [o, o + n) of a string, zeros beyond its end. -/
def bytesAt (l : List Byte) (o n : Nat) : List Byte :=
  (List.range n).map fun i => l.getD (o + i) 0

/-- The n-byte number at offset o of a string. -/
def natAt (l : List Byte) (o n : Nat) : Nat := leNat (bytesAt l o n)

/-- Every byte of [o, o + n) is zero. -/
def zeroAt (l : List Byte) (o n : Nat) : Bool := natAt l o n == 0

/-! ### SHAKE256 (R416) -/

/-- A 64-bit lane turned left. -/
def lane64Rotl (v n : Nat) : Nat := (v <<< n ||| v >>> (64 - n)) % 2 ^ 64

/-- The rotation of each lane (x + 5y), and the lane that it moves from to place x + 5y. -/
def keccakRot : List Nat := [0, 1, 62, 28, 27, 36, 44, 6, 55, 20, 3, 10, 43, 25, 39, 41, 45, 15, 21, 8, 18, 2, 61, 56, 14]
def keccakFrom : List Nat := [0, 6, 12, 18, 24, 3, 9, 10, 16, 22, 1, 7, 13, 19, 20, 4, 5, 11, 17, 23, 2, 8, 14, 15, 21]

/-- The round constants. -/
def keccakRc : List Nat :=
  [0x0000000000000001, 0x0000000000008082, 0x800000000000808A, 0x8000000080008000, 0x000000000000808B, 0x0000000080000001,
   0x8000000080008081, 0x8000000000008009, 0x000000000000008A, 0x0000000000000088, 0x0000000080008009, 0x000000008000000A] ++
  [0x000000008000808B, 0x800000000000008B, 0x8000000000008089, 0x8000000000008003, 0x8000000000008002, 0x8000000000000080,
   0x000000000000800A, 0x800000008000000A, 0x8000000080008081, 0x8000000000008080, 0x0000000080000001, 0x8000000080008008]

/-- Lane i of a 1,600-bit state. -/
def keccakLane (s i : Nat) : Nat := s >>> (64 * i) % 2 ^ 64

/-- One round: θ, ρ, π, χ and ι. -/
def keccakRound (s rc : Nat) : Nat :=
  let column (x : Nat) : Nat := (List.range 5).foldl (fun v y => v ^^^ keccakLane s (x % 5 + 5 * y)) 0
  let theta (i : Nat) : Nat := keccakLane s i ^^^ column (i + 4) ^^^ lane64Rotl (column (i + 1)) 1
  let moved (i : Nat) : Nat := let k := keccakFrom.getD i 0; lane64Rotl (theta k) (keccakRot.getD k 0)
  let chi (i : Nat) : Nat :=
    let row := i / 5 * 5
    moved i ^^^ ((2 ^ 64 - 1 - moved (row + (i + 1) % 5)) &&& moved (row + (i + 2) % 5))
  (List.range 25).foldr (fun i n => (if i = 0 then chi i ^^^ rc else chi i) + 2 ^ 64 * n) 0

/-- The state after the rounds of a list of constants. Taking the number apart makes an evaluator form it before the next round. -/
def keccakRounds : List Nat → Nat → Nat
  | [], s => s
  | rc :: r, s =>
    match keccakRound s rc with
    | 0 => keccakRounds r 0
    | n + 1 => keccakRounds r (n + 1)

/-- The permutation. -/
def keccakF (s : Nat) : Nat := keccakRounds keccakRc s

/-- The blocks of 136 bytes of a padded message are absorbed in order. -/
def keccakAbsorb (l : List Byte) : Nat → Nat → Nat
  | 0, s => s
  | k + 1, s => keccakAbsorb (l.drop 136) k (keccakF (s ^^^ leNat (l.take 136)))

/-- R416: SHAKE256 with a 64-byte output. -/
def shake256 (l : List Byte) : List Byte :=
  let blocks := l.length / 136 + 1
  let fill := 136 * blocks - l.length
  let tail := if fill = 1 then [0x9F] else 0x1F :: List.replicate (fill - 2) 0 ++ [0x80]
  leBytes 64 (keccakAbsorb (l ++ tail) blocks 0)

/-! ### The boot record (R455) -/

/-- The 64 bytes that the digest of a boot record covers, from the values of its fields. -/
def bootFields (seq : Nat) (active : Bool) (stateA stateB trials : Nat) : List Byte :=
  leBytes 4 0x7A704252 ++ leBytes 4 seq ++ [if active then 1 else 0] ++ leBytes 1 stateA ++ leBytes 1 stateB ++ leBytes 1 trials ++ List.replicate 52 0

/-- The 128 bytes of a boot record. -/
def bootBytes (seq : Nat) (active : Bool) (stateA stateB trials : Nat) : List Byte :=
  let f := bootFields seq active stateA stateB trials
  f ++ shake256 f

end Sys2Proof.Machine
end

