-- ==== Sys2Proof/Config.lean ====
section
/-! DEFINITION. What the manual leaves to the part: fused values, results it does not define, and the functions of
the published cryptographic standards. Each is a constant with no body (a free value): nothing can prove a value of
it. The log entries are named beside each. -/

namespace Sys2Proof.Config

/-- R3, R4: the fused grade; true for SCB-T7-2048-A70. Log entry 5. -/
opaque gradeA70 : Bool

/-- CAP_FUSED in W: the fused cap of the grade (R390). -/
def capFused : Nat := if gradeA70 then 700 else 850

/-- R32: the pace of a typical part at the seven voltage points and 85 °C, in Mst/s. -/
def paceTypical (n : Nat) : Nat := [900, 950, 1020, 1070, 1200, 1310, 1400].getD n 0

/-- R34: what final test measured on quadrant q at voltage point n, in Mst/s. Log entry 5. -/
opaque paceFused : Nat → Nat → Nat

/-- R34: the fused pace table: within 7 % of the typical part. -/
def paceTable (q n : Nat) : Nat := max ((paceTypical n * 93 + 99) / 100) (min (paceTypical n * 107 / 100) (paceFused q n))

/-- R34: what final test measured on the hub die at 0.75 V, in Mst/s. Log entry 5. -/
opaque hubFused : Nat

/-- R34, R36: PACE_HUB: at least the 1,107 Mst/s that leave 1.09 Gst/s at the maximum of 100 °C (R33). -/
def paceHub : Nat := max 1107 hubFused

/-- R269, R290: the fused PCI vendor identifier. Log entry 5. -/
opaque vendorId : BitVec 16

/-- R308: the fused MAC base address; port k has base + k. Log entry 5. -/
opaque macBase : BitVec 48

/-- R417: the fused seed of 256 bits. Log entry 6. -/
opaque seed : Vector (BitVec 8) 32
/-- R410, R417: DEVICE_ID once the seed is disabled and can derive it no longer, which the rules leave open. Log entry 6. -/
opaque lostDeviceId : BitVec 64

/-- R417, R437: the certificate chain that flash holds for the identity key. Log entry 6. -/
opaque idCert : List (BitVec 8)

/-- R469, R476: the fused expected signatures BIST_EXPECT, by subindex minus 1. Log entry 5. -/
opaque bistExpect : Nat → BitVec 64

/-- R71: reciprocal, reciprocal square root, exp2, log2, sine and cosine of a finite nonspecial binary32 input,
whose bits the manual does not define beyond its bounds. Log entry 7. -/
opaque recipBits : BitVec 32 → BitVec 32
opaque rsqrtBits : BitVec 32 → BitVec 32
opaque exp2Bits : BitVec 32 → BitVec 32
opaque log2Bits : BitVec 32 → BitVec 32
opaque sinBits : BitVec 32 → BitVec 32
opaque cosBits : BitVec 32 → BitVec 32

/-- R132: the activation function with code fn (R175) and immediate α at a finite input. Log entry 7. -/
opaque actBits : Nat → BitVec 32 → BitVec 32 → BitVec 32

/-- R135: the derivative that DACT forms for GELU (false) or SiLU (true) on the branch named by the mask bit, at a
saved output y for which the seed table is used. Log entry 7. -/
opaque derivBits : Bool → Bool → BitVec 32 → BitVec 32

/-- A result the manual states for no operand, drawn afresh: the n-th free value of a run, where n is the counter
`free` of the state. Log entry 8. -/
opaque freeValue : Nat → BitVec 64

/-- R417: ML-DSA-65 key generation from ξ (FIPS 204): the public and the private key. Log entry 9. -/
opaque mldsaKeygen : List (BitVec 8) → Vector (BitVec 8) 1952 × Vector (BitVec 8) 4032

/-- R417, R421: ML-KEM-1024 key generation from d ‖ z (FIPS 203): the public and the private key. Log entry 9. -/
opaque mlkemKeygen : List (BitVec 8) → Vector (BitVec 8) 1568 × Vector (BitVec 8) 3168

/-- R421, R423: the shared secret that a private key decapsulates from an ML-KEM-1024 ciphertext. Log entry 9. -/
opaque mlkemDecaps : Vector (BitVec 8) 3168 → List (BitVec 8) → Vector (BitVec 8) 32

/-- R421, R423: AES-256-GCM: the plaintext under a key, a nonce, additional data, a ciphertext and its tag; none when the tag does not
verify. Log entry 9. -/
opaque aesGcmOpen : List (BitVec 8) → List (BitVec 8) → List (BitVec 8) → List (BitVec 8) → List (BitVec 8) → Option (List (BitVec 8))

/-- R410, R457: does the signature verify under ROM's public key number n over the message? Log entry 9. -/
opaque mldsaVerify : Nat → List (BitVec 8) → List (BitVec 8) → Bool

/-- R201, R215: the memory row of a stack (0 to 31), pseudo-channel and 256-byte unit of the pseudo-channel, as the retire list
names it; the manual does not report this mapping. Log entry 29. -/
opaque rowOf : Nat → Nat → Nat → Nat

/-- R420: the ML-DSA-65 signature by a private key over a message, with an empty context string. Log entry 9. -/
opaque mldsaSign : Vector (BitVec 8) 4032 → List (BitVec 8) → Vector (BitVec 8) 3309

/-- R410: the n-th LC_CHALLENGE drawn: 32 random bytes. Log entry 9. -/
opaque lcChallenge : Nat → Vector (BitVec 8) 32

/-- R20, R216: ROM digest, part of an attestation report. Log entry 9. -/
opaque romDigest : List (BitVec 8)

/-- R454: the bytes that flash holds at power-up in slot A (0), slot B (1) and for the recovery image (2). Log entry 4. -/
opaque flashImage : Nat → List (BitVec 8)

/-- R445: the bodies of the MCTP control responses, as the MCTP base specification gives them, by command code,
binding and endpoint ID. Log entry 10. -/
opaque mctpBody : Nat → Nat → BitVec 8 → List (BitVec 8)

/-- R425: the SPDM responder's answer to the last message of a session's transcript, oldest message first, with the identity private key.
Log entry 9. -/
opaque spdmReply : Vector (BitVec 8) 4032 → List (List (BitVec 8)) → List (BitVec 8)

/-- R425: does the transcript, oldest message first, authenticate a session under an identity public key? Log entry 9. -/
opaque spdmOpens : List (BitVec 8) → List (List (BitVec 8)) → Bool

end Sys2Proof.Config
end

