-- ==== Sys2Proof/Machine/State.lean ====
section
/-! DEFINITION. The state of the Relnuwin T7 as plain data, the reasons a step can stop, and the state after device
reset (State.reset). Every large store is a `Sparse` table (Word.lean): an index that is not listed reads as the
reset value that its accessor in the Machine files names. -/

namespace Sys2Proof.Machine

/-! ### What leaves the package -/

/-- A Geril, management or firmware frame as the device sends it (R299): its class and body. -/
inductive TxBody where
  | geril (k : GPkt)
  /-- A device toll or a lending message (R371, R399): the 32 bytes of its payload, and the rank that it is sent to. -/
  | toll (payload : List Byte) (dst : Nat)
  | lend (payload : List Byte) (dst : Nat)
  | pfc (classes : BitVec 8) (quanta : BitVec 16)
  | voxyx (dst : Nat) (bytes : List Byte)
  /-- ARP, neighbour discovery and LLDP of the control processor (R299): the bytes after the tag. -/
  | neighbour (bytes : List Byte)
  deriving DecidableEq, Repr

/-- A frame queued for transmission: frame bytes with tag and FCS, and its body. -/
structure TxFrame where
  tc   : Nat
  len  : Nat
  body : TxBody
  deriving DecidableEq, Repr

/-- How an MCTP message leaves (R446, R447): at the port's dynamic I3C address, where an in-band interrupt announces it, at the static SMBus
address with a packet error check, or as a vendor-defined message of the PF. -/
inductive MctpPath where
  | i3c (addr : BitVec 7)
  | smbus (addr : BitVec 7)
  | pcie
  deriving DecidableEq, Repr

/-- What an observer outside the package sees the device do, newest first in `Hub.out`. The trace is the
model's own record of outputs (log entry 12); nothing reads it but the ring of a test. -/
inductive Emit where
  /-- A posted write to host memory by function `fn` (0 the PF), with Relaxed Ordering and No Snoop or without (R280, R282). -/
  | hostWrite (fn : Nat) (addr : Nat) (data : List Byte) (relaxed noSnoop : Bool)
  /-- A read request to host memory (R341). -/
  | hostRead (fn : Nat) (addr len : Nat) (noSnoop : Bool)
  /-- An MSI-X message of function `fn`, with the address and data of its table entry. -/
  | msix (fn : Nat) (vec : Nat) (addr : W64) (data : BitVec 32)
  /-- A PCIe read completion, poisoned (EP) or not. -/
  | completion (fn : Nat) (data : List Byte) (ep : Bool)
  /-- A completion with Unsupported Request. -/
  | unsupported (fn : Nat)
  /-- A frame that starts transmission on a port, with the VLAN ID and PCP of its tag (R299). -/
  | frame (port vlan pcp : Nat) (f : TxFrame)
  /-- A Voxyx response (R439): RESULT, TOKEN, FLAGS, OFFSET and data. -/
  | voxyx (ch : Channel) (op : BitVec 8) (token : BitVec 16) (flags : BitVec 8) (offset : Nat) (result : BitVec 8) (data : List Byte)
  /-- The Voxyx result of a write to an entry that has a command row of its own. -/
  | answer (result : BitVec 8)
  /-- An MCTP control response. -/
  | mctp (path : MctpPath) (cmd : Nat) (body : List Byte)
  /-- A Voxyx response over MCTP (R445): its message cut into transmission units of 64 bytes. -/
  | mctpUnits (path : MctpPath) (eid : BitVec 8) (units : List (List Byte))
  /-- What a scan of the boundary register captures of the digital signal balls (R474, R481, R484). -/
  | boundary (pwrgd devrstN perstN : Bool) (maddr : BitVec 2) (alertN thermN : Bool) (pins : Pins)
  /-- The value a JTAG instruction selects for shifting out. -/
  | tdo (value : Nat) (bits : Nat)
  /-- An SPDM response over PCIe DOE. -/
  | doe (data : List Byte)
  /-- What a consumer inside the device reads at a queue's read port (R224): the header of a packet, or one of its words. -/
  | mqHeader (w : W64)
  | mqWord (w : W64) (poison last : Bool)
  deriving DecidableEq, Repr

/-! ### A core -/

/-- R369. -/
inductive CoreLife where
  | opened | choked | testing | passed | disabled
  deriving DecidableEq, Repr

/-- R174, R175: the element-wise operations of VOP. -/
inductive VopKind where
  | add | sub | mul | fma | min | max | abs | neg | cmpEq | cmpNe | cmpLt | cmpLe | sel | cvt
  | recip | rsqrt | exp2 | log2 | sin | cos | act | dact | smbwd
  deriving DecidableEq, Repr

/-- R137: the reductions of VRED, of the reduce-out and of ROWRED. -/
inductive RedKind where
  | sum | sumsq | sumprod | max | min | amax
  deriving DecidableEq, Repr

/-- A stream as an instruction copied it at issue (R78): its descriptor and, where enabled, its mask stream's. -/
structure Strm where
  d    : BitVec 256
  mask : Option (BitVec 256)
  deriving DecidableEq, Repr

/-- The kinds of instruction on the vector queue (R126). `out2`, `red` are the uses of the second output. -/
inductive VecOp where
  | vop (k : VopKind) (fn : BitVec 4) (o2 : BitVec 2) (roop : RedKind) (rdim : Nat)
  | vred (k : RedKind) (dim : Nat) (skip : Bool)
  | vcomp (xen unit inv : Bool)
  | vexpd (unit inv zfill : Bool)
  | vperm (mode : Nat)
  | copy (turn : Bool)
  | mdrain (bank : Bool) (sec : BitVec 2) (rrop : RedKind) (bias : BitVec 2) (res acten : Bool) (fn : BitVec 4) (bm : Bool)
  deriving DecidableEq, Repr

/-- An instruction on the vector queue: `ins` and `outs` in the order its meaning names them. -/
structure VecInstr where
  id    : Nat
  op    : VecOp
  ins   : List Strm
  outs  : List Strm
  f64   : Bool
  alpha : BitVec 32
  /-- The count n of R62 and R177 at this instruction. -/
  n     : Nat
  /-- The register that receives a scalar result (R77). -/
  sd    : Option (BitVec 5)
  deriving DecidableEq, Repr

/-- A pass on the array queue (R105 to R107, R122) with the bank R111 gave it. -/
structure PassInstr where
  id     : Nat
  a      : Strm
  b      : Strm
  passes : Nat
  hold   : Bool
  tap    : Option W64
  bank   : Bool
  m      : Nat
  n      : Nat
  k      : Nat
  deriving DecidableEq, Repr

/-- R91. -/
inductive MoveKind where
  | load | store | send | openWin
  deriving DecidableEq, Repr

/-- A channel's patch in a buffer of the tap line (R123): the raw bits of its elements. -/
structure Patch where
  chan : Nat
  raw  : List Nat
  deriving DecidableEq, Repr

/-- A move issued and not yet complete (R93): `arrived` is set when a SEND's data have been accepted (R94). -/
structure MoveInstr where
  id      : Nat
  kind    : MoveKind
  tag     : Nat
  dl      : BitVec 256
  dm      : BitVec 256
  sa      : W64
  sb      : W64
  arrived : Bool
  deriving DecidableEq, Repr

/-- R112. -/
inductive BankState where
  | free | accumulating | drainPending
  deriving DecidableEq, Repr

/-- An accumulator bank (R104, R112) with the check cells of R124. `cells` is keyed by 128 × row + column and
an unlisted cell reads as +0. The check cell (128, 128) holds no value and nothing is compared with it (DESIGN CHOICE, log entry 33: R124 gives it no
term). -/
structure Bank where
  st      : BankState
  cells   : Sparse (BitVec 32)
  /-- Check row cells by column, check column cells by row, and their magnitudes g (R124). -/
  chkRow  : Sparse (BitVec 32)
  chkCol  : Sparse (BitVec 32)
  gRow    : Sparse (BitVec 32)
  gCol    : Sparse (BitVec 32)
  m       : Nat
  n       : Nat
  /-- The scale product of the accumulation (R116). -/
  scale   : BitVec 32
  /-- Products accumulated in each output cell so far (R109, R124). -/
  prods   : Nat
  /-- The accumulation has a binary32 operand rounded by R67; a pass with PASSES 3 (R124). -/
  rounded : Bool
  three   : Bool
  deriving DecidableEq, Repr

/-- One entry of the scratchpad scoreboard (R76): the byte interval [lo, hi) of one stream of instruction `owner`. -/
structure SbEntry where
  owner : Nat
  lo    : Nat
  hi    : Nat
  write : Bool
  deriving DecidableEq, Repr

/-- An inbound window (R94) opened by move `id`. -/
structure Window where
  id       : Nat
  tag      : Nat
  lo       : Nat
  len      : Nat
  received : Nat
  deriving DecidableEq, Repr

/-- The condition of a pending WAIT (R185). -/
inductive WaitFor where
  | tag (t : Nat)
  | peal (slot : Nat)
  | gang (sem : Nat) (threshold : Nat)
  | engines (array vector move : Bool)
  deriving DecidableEq, Repr

/-- The gang slot that a core runs (R95): the issued command's number and the slot. -/
structure RunRef where
  uid  : Nat
  slot : Nat
  deriving DecidableEq, Repr

/-- The sequencer (R74, R79, R80, R95 to R97, R195, R196). -/
structure Seq where
  pc      : W64
  /-- s1 to s31; s0 is never listed and reads as zero (R79). -/
  regs    : Sparse W64
  descs   : Sparse (BitVec 256)
  /-- The return stack, newest first, at most 16. -/
  ret     : List W64
  flags   : BitVec 6
  record  : BitVec 6
  /-- Stochastic-rounding instructions issued so far, modulo 2^30 (R62, R177). -/
  count   : Nat
  /-- Registers whose value an unfinished instruction will write (R77): (instruction, register). -/
  busy    : List (Nat × BitVec 5)
  wait    : Option WaitFor
  /-- The last issue stalled (R99, STATE 1). -/
  stalled : Bool
  /-- RET on an empty stack has been issued; the core waits under R97. -/
  ending  : Bool
  /-- The core has stopped issuing after a fault (R197). -/
  halted  : Bool
  /-- Instructions retired since program start, modulo 65,536 (R99). -/
  retired : BitVec 16
  /-- Lines held by the instruction cache, most recently used first (R96), and the line awaited. -/
  icache  : List Nat
  miss    : Option Nat
  /-- The number given to the next engine instruction or move. -/
  nextId  : Nat
  deriving DecidableEq, Repr

/-- The scratchpad (R85, R89): its bytes, and in `written` the lines of the written map in rising order. -/
structure Scratch where
  bytes   : List Host.Cell
  written : List Nat
  deriving DecidableEq, Repr

/-- A running vector instruction that has read its last element (R76): the scratchpad as it read it. -/
structure ReadOut where
  id : Nat
  sp : Scratch
  deriving DecidableEq, Repr

/-- The engines of a core (R75, R76, R93, R94, R111 to R119). -/
structure Engines where
  arrayQ   : List PassInstr
  /-- Passes whose last wavefront has not left the array (R108). -/
  inArray  : List PassInstr
  vecQ     : List VecInstr
  /-- Vector instructions started and not finished, oldest first. -/
  vecRun   : List VecInstr
  /-- Those of them that have read their last element (R76). -/
  readOut  : List ReadOut
  moves    : List MoveInstr
  tags     : Sparse Nat
  windows  : List Window
  score    : List SbEntry
  a0       : Bank
  a1       : Bank
  /-- The bank of the most recent accumulation; none before the first pass (R111). -/
  lastBank : Option Bool
  /-- The last MPASS issued, for R111 and R115. -/
  lastPass : Option PassInstr
  /-- The two patch buffers of the tap line, at most two channels (R123). -/
  patches  : List Patch
  /-- Idle steps of the array, at most 1,024 (R119), and whether its last entry swelled. -/
  idle     : Rat
  swelled  : Bool
  /-- Busy PEAL completion slots (R184). -/
  slots    : List Nat
  deriving DecidableEq, Repr

/-- A translation that a core's TLB holds (R212): the first virtual and physical address of the page, and its W bit. -/
structure TlbEntry where
  va : Nat
  pa : Nat
  w  : Bool
  deriving DecidableEq, Repr

/-- A core's TLB (R212): its 64 KiB pages and its 32 MiB pages, most recently used first. -/
structure Tlb where
  small : List TlbEntry
  large : List TlbEntry
  deriving DecidableEq, Repr

def Tlb.reset : Tlb := { small := [], large := [] }

/-- A core fault (R363) that the hub's fence logic has not yet taken: its cause, and the hub timer when it was detected
(row 1 of R365). -/
structure CoreFault where
  cause : BitVec 8
  time  : Nat
  deriving DecidableEq, Repr

/-- The toll generator and the hub's checker for one core (R99, R100). Intervals of 64 µs are numbered by the hub timer
divided by 64 µs. -/
structure TollState where
  prompted  : Bool
  /-- Steps since the previous toll, and of these the steps spent in WAIT on a PEAL. -/
  steps     : Rat
  waitSteps : Rat
  /-- The interval of the last prompt, and the last interval with a toll (at first the interval of the start). -/
  promptAt  : Nat
  tollAt    : Nat
  deriving DecidableEq, Repr

/-- A physical core (R74, R101, R102, R369). -/
structure Core where
  life      : CoreLife
  cause     : BitVec 8
  chokes    : BitVec 32
  epoch     : BitVec 8
  portDrops : BitVec 64
  corrected : BitVec 32
  fault     : Option CoreFault
  /-- The scratchpad is due for the wipe of R90 when the command that runs on the core has left it. -/
  wipeDue   : Bool
  run       : Option RunRef
  seq       : Seq
  eng       : Engines
  sp        : Scratch
  tlb       : Tlb
  toll      : TollState
  deriving DecidableEq, Repr

def Bank.reset : Bank :=
  { st := .free, cells := [], chkRow := [], chkCol := [], gRow := [], gCol := [], m := 0, n := 0, scale := 0, prods := 0,
    rounded := false, three := false }

/-- R95: the sequencer at program start, before s1 to s3 and the program counter are set. -/
def Seq.reset : Seq :=
  { pc := 0, regs := [], descs := [], ret := [], flags := 0, record := 0, count := 0, busy := [], wait := none, stalled := false,
    ending := false, halted := false, retired := 0, icache := [], miss := none, nextId := 0 }

/-- R95, R119, R123: the engines at program start; the patch buffers hold nothing then (DESIGN CHOICE, log entry 70). -/
def Engines.reset : Engines :=
  { arrayQ := [], inArray := [], vecQ := [], vecRun := [], readOut := [], moves := [], tags := [], windows := [], score := [], a0 := Bank.reset,
    a1 := Bank.reset, lastBank := none, lastPass := none, patches := [], idle := 1024, swelled := false, slots := [] }

def Scratch.reset : Scratch := { bytes := [], written := [] }

def TollState.reset : TollState := { prompted := false, steps := 0, waitSteps := 0, promptAt := 0, tollAt := 0 }

/-- A core after device reset: open, epoch 0, running nothing. -/
def Core.reset : Core :=
  { life := .opened, cause := 0, chokes := 0, epoch := 0, portDrops := 0, corrected := 0, fault := none, wipeDue := false, run := none,
    seq := Seq.reset, eng := Engines.reset, sp := Scratch.reset, tlb := Tlb.reset, toll := TollState.reset }

/-! ### Memory -/

/-- R203. -/
inductive SlabLife where
  | free | assigned | retired
  deriving DecidableEq, Repr

/-- A slab-table entry (R203) less GBASE and GSIZE, which the placement gives (R200). -/
structure SlabEntry where
  ce    : Nat
  ue    : Nat
  rp    : Bool
  wbias : BitVec 2
  wipe  : Bool
  chx   : Bool
  life  : SlabLife
  owner : BitVec 4
  deriving DecidableEq, Repr

def SlabEntry.reset : SlabEntry :=
  { ce := 0, ue := 0, rp := false, wbias := 0, wipe := false, chx := true, life := .free, owner := 0 }

/-- Why a wipe was queued (R216): it tells which action waits for its end. -/
inductive WipeFor where
  | release | reset (part : Nat) | teardown (ctx : Nat)
  deriving DecidableEq, Repr

/-- A pending or running wipe of a quadrant's wipe engine (R217): the bytes [base, base + len). -/
structure WipeJob where
  base    : Nat
  len     : Nat
  why     : WipeFor
  running : Bool
  deriving DecidableEq, Repr

/-- A window access held by a wipe, or behind another held access of its function (R276): `shut` when row 1 of R275 refused it on
arrival (R277), `passed` once rows 2 and 3 have let it through and rows 3 to 6 are to be checked after the wipe (R219). `errs` are the errors
that its read of memory meets. -/
structure HeldAccess where
  fn     : Nat
  pa     : Nat
  len    : Nat
  write  : Option (List Byte)
  shut   : Bool
  passed : Bool
  errs   : List EccHit
  deriving DecidableEq, Repr

/-- Device memory, the slab table and the memory range of the dictionary (R199 to R218). -/
structure Mem where
  bytes         : List Host.Cell
  /-- Poisoned 64-byte words, by address / 64, in rising order (R214). -/
  poison        : List Nat
  /-- Errors that stand in words of device memory and that no read has found (R213, R214). -/
  latent        : List EccHit
  slabs         : Sparse SlabEntry
  /-- Stacks that failed training (R20), by stack number. -/
  failed        : List Nat
  quota         : Sparse Nat
  /-- SLAB_OP_STATE (R218), and the slabs of the running SLAB_OP whose wipes have not ended. -/
  opState       : BitVec 16
  opSlabs       : List Nat
  wipes         : List WipeJob
  held          : List HeldAccess
  retireCeLimit : Nat
  scrubPeriod   : Nat
  /-- The next 64-byte word of each quadrant's patrol scrub, by offset / 64 (R213). -/
  scrubPos      : Sparse Nat
  /-- Rows corrected and written back by the scrub (R215). -/
  ceRows        : List Nat
  /-- The working copy of the retire list (R215, R216): rows (`Config.rowOf`) and slabs. -/
  retireList    : List Nat
  retiredSlabs  : List Nat
  stackCe       : Sparse Nat
  stackUe       : Sparse Nat
  rowsRepaired  : Nat
  deriving DecidableEq, Repr

def Mem.reset : Mem :=
  { bytes := [], poison := [], latent := [], slabs := [], failed := [], quota := [], opState := 0, opSlabs := [], wipes := [], held := [],
    retireCeLimit := 1024, scrubPeriod := 86400, scrubPos := [], ceRows := [], retireList := [], retiredSlabs := [], stackCe := [], stackUe := [], rowsRepaired := 0 }

/-! ### Partitions, contexts and commands -/

/-- A partition's own registers (R239, R254, R265, R266, R290, R308, R346, R387, R429). -/
structure Part where
  cores        : W64
  ctxQuota     : Nat
  resetState   : BitVec 8
  sems         : Sparse W64
  backlogSlab  : BitVec 16
  backlogCount : Nat
  cred         : BitVec 128
  netCeil      : Nat
  shardSlab    : BitVec 16
  keepQuota    : Nat
  torn         : Nat
  conf         : Bool
  /-- A value of PART_CONF that takes effect when the reset it made has ended (R412). -/
  confNext     : Option Bool
  ideReq       : Bool
  deriving DecidableEq, Repr

def Part.reset : Part :=
  { cores := 0, ctxQuota := 0, resetState := 0, sems := [], backlogSlab := 0xFFFF, backlogCount := 0, cred := 0, netCeil := 100,
    shardSlab := 0xFFFF, keepQuota := 0, torn := 0, conf := false, confNext := none, ideReq := false }

/-- A command entry decoded from its 256 bytes (R242, R243). -/
structure CmdEntry where
  opc      : BitVec 8
  demote   : Bool
  cplen    : Bool
  cplloc   : Bool
  qmask    : BitVec 4
  gang     : Nat
  prog     : W64
  args     : W64
  seed     : W64
  /-- Enabled waits: (semaphore, threshold). -/
  waits    : List (Nat × Nat)
  /-- Used ranges: (base, length). -/
  reads    : List (Nat × Nat)
  writes   : List (Nat × Nat)
  cpladdr  : W64
  cpltag   : W64
  /-- Enabled releases: (semaphore, amount), REL0 first. -/
  rels     : List (Nat × Nat)
  irq      : Option Nat
  /-- The IRQ field's word as the backlog keeps it (R287). -/
  irqWord  : W64
  /-- A reserved bit of the entry is nonzero, or a base or length has a bit above its field (R246). -/
  reserved : Bool
  /-- The host that wrote the entry is lost (R288, DIVERT): its record goes to the backlog. -/
  divert   : Bool
  deriving DecidableEq, Repr

/-- The stages of an issued, uncommitted command (R250 to R260). -/
inductive Stage where
  | running | ended | killing | waitRerun | faulted (status : BitVec 16)
  deriving DecidableEq, Repr

/-- An issued, uncommitted command. `gang` names the physical core of each gang slot, `ended` the run record that
each ended slot reported (R97, R196). -/
structure Issued where
  uid      : Nat
  ctx      : Nat
  queue    : Nat
  idx      : Nat
  entry    : CmdEntry
  restart  : Bool
  gang     : List Nat
  ended    : Sparse (Option (BitVec 6))
  gsems    : Sparse Nat
  stage    : Stage
  /-- The open slice: its opening and its length in ns (R257, R259); the close T_c once it runs on its allowance. -/
  sliceAt  : Nat
  sliceLen : Nat
  allow    : Option Nat
  reruns   : Nat
  /-- The re-run follows a choke and goes ahead (R367). -/
  choked   : Bool
  deriving DecidableEq, Repr

/-- The entry at the head of a queue, fetched, checked and not yet issued (R245 to R248). -/
structure Fetched where
  idx     : Nat
  entry   : CmdEntry
  restart : Bool
  deriving DecidableEq, Repr

/-- A command queue (R244, R245, R253). -/
structure CmdQueue where
  head    : Nat
  phase   : Bool
  tail    : Nat
  cseq    : Nat
  /-- Stale re-fetches made, and when the next is due (R245). -/
  stale   : Nat
  refetch : Option Nat
  /-- Fetch waits for the next doorbell write after DOORBELL_AHEAD. -/
  parked  : Bool
  fetched : Option Fetched
  /-- Where fetch resumes after RESET (R241), and the phase there. -/
  resume  : Nat
  resumePhase : Bool
  deriving DecidableEq, Repr

/-- R245: a queue at CREATE. -/
def CmdQueue.reset : CmdQueue :=
  { head := 0, phase := true, tail := 0, cseq := 0, stale := 0, refetch := none, parked := false, fetched := none, resume := 0,
    resumePhase := true }

/-- R241. -/
inductive CtxLife where
  | free | active | stopping | stopped | teardown | faulted
  deriving DecidableEq, Repr

/-- A fault that ends a context's command and waits for the context's teardown (R260, R261). -/
structure CtxFault where
  status  : BitVec 16
  queue   : Nat
  idx     : Nat
  atFetch : Bool
  /-- The faulted command, when the fault was not found at fetch. -/
  uid     : Option Nat
  /-- The entry's completion record is due (a BAD_COMMAND found at fetch has one; an unreadable entry has none). -/
  entry   : Option CmdEntry
  deriving DecidableEq, Repr

/-- A completion record of a faulted command that waits to be posted (R260): its entry and its bytes. -/
structure OwedRecord where
  entry : CmdEntry
  bytes : List Byte
  deriving DecidableEq, Repr

/-- A context (R239 to R241, R244, R265, R490) with its sealed ranges (R419). -/
structure Ctx where
  life    : CtxLife
  /-- The state that TEARDOWN leads to: FREE (true) or FAULTED (R241). -/
  toFree  : Bool
  record  : BitVec 512
  ptbase  : W64
  fault   : BitVec 16
  starve  : Nat
  /-- The debt of R259 in ns, and the end of a slice that R259 skips. -/
  debt    : Nat
  skipTil : Nat
  reruns  : Nat
  part    : BitVec 8
  semsel  : BitVec 12
  queues  : Sparse CmdQueue
  pending : Option CtxFault
  /-- The records that its teardown has still to post, oldest first (R260). -/
  owed    : List OwedRecord
  /-- Sealed ranges (base, length). -/
  seals   : List (Nat × Nat)
  /-- Physical cores that the context's commands used since it became ACTIVE (R90). -/
  used    : List Nat
  /-- The write ranges of the commands that its teardown took out of the dispatch unit: hazard ranges until its wipes have ended (R260). -/
  torn    : List (Nat × Nat)
  deriving DecidableEq, Repr

/-- R240: the record's reset value: OVR_ALLOW 2,000 and SLICE 10. -/
def Ctx.recordReset : BitVec 512 := BitVec.ofNat 512 (2000 * 2 ^ 32 + 10 * 2 ^ 22)

def Ctx.reset : Ctx :=
  { life := .free, toFree := true, record := Ctx.recordReset, ptbase := 0, fault := 0, starve := 0, debt := 0, skipTil := 0, reruns := 0,
    part := 0xFF, semsel := 0, queues := [], pending := none, owed := [], seals := [], used := [], torn := [] }

/-- A population-weighted arbiter (R262): the last input granted, and the credits of its inputs. -/
structure Arbiter where
  last   : Option Nat
  credit : Sparse Nat
  deriving DecidableEq, Repr

def Arbiter.reset : Arbiter := { last := none, credit := [] }

/-- The dispatch unit: partitions, contexts, issued commands in issue order, and the selectors (R436) by
principal: 0 HOST, 1 to 16 PART, 17 BMC, 18 CP. -/
structure Disp where
  parts     : Sparse Part
  ctxs      : Sparse Ctx
  issued    : List Issued
  nextUid   : Nat
  ctxSel    : Sparse Nat
  slabSel   : Sparse Nat
  /-- Logical slot n holds this physical core, 0xFF when vacant (CORE_MAP); spare of each quadrant (QUAD_SPARE). -/
  map       : Sparse (BitVec 8)
  spare     : Sparse (BitVec 8)
  /-- The arbiters of command issue (R256, R262), by 2 × partition + 1 for the latency-critical class. -/
  arbs      : Sparse Arbiter
  stallLimit : Nat
  deriving DecidableEq, Repr

/-- R18: all 17 cores of each quadrant tested good (log entry 4): slot 16q + i holds core 17q + i, the spare is core
17q + 16. A slot that is not listed reads as vacant. -/
def Disp.mapReset : Sparse (BitVec 8) :=
  (List.range 64).map fun n => (n, BitVec.ofNat 8 (17 * (n / 16) + n % 16))

def Disp.spareReset : Sparse (BitVec 8) :=
  (List.range 4).map fun q => (q, BitVec.ofNat 8 (17 * q + 16))

def Disp.reset : Disp :=
  { parts := [], ctxs := [], issued := [], nextUid := 0, ctxSel := [], slabSel := [], map := Disp.mapReset, spare := Disp.spareReset, arbs := [],
    stallLimit := 100 }

/-! ### Message queues and delivery rings -/

/-- A slot of a message queue (R221): 64 data bits, their parity, and two copies of the end mark. -/
structure Slot where
  data   : W64
  parity : Bool
  end0   : Bool
  end1   : Bool
  deriving DecidableEq, Repr

/-- A whole packet stored in a message queue (R221, R224), with its length slot where the queue's packets have one (R222). -/
structure Packet where
  seq   : Nat
  /-- The hub timer at its write: a toll's timestamp (R100). -/
  time  : Nat
  len   : Option Slot
  words : List Slot
  deriving DecidableEq, Repr

/-- The packet that a producer holding the write port has written in part (R222). -/
structure Writing where
  src   : Nat
  seq   : Nat
  words : List W64
  deriving DecidableEq, Repr

/-- A producer that asks for the write port (R222): its input and population at the port's arbiter, and its words. -/
structure Ask where
  src   : Nat
  pop   : Nat
  words : List W64
  stop  : MqStop
  /-- It came while a flush was pending, so that it waits for its effect (R227). -/
  late  : Bool := false
  deriving DecidableEq, Repr

/-- A message queue (R220 to R228): whole packets, oldest first, the packet being written, the payload words already read of the oldest
packet once its header has been read, the producers that wait for the write port, and two copies of each pointer. -/
structure MsgQueue where
  pkts    : List Packet
  writing : Option Writing
  reading : Option Nat
  waiting : List Ask
  /-- The inputs whose packet a queue reset has abandoned and that have not come to its end: its further words are lost (R228). -/
  cut     : List Nat
  arb     : Arbiter
  rd0     : Nat
  rd1     : Nat
  wr0     : Nat
  wr1     : Nat
  seq     : Nat
  flush   : Bool
  lostW   : Nat
  lostP   : Nat
  resets  : Nat
  flushed : Nat
  deriving DecidableEq, Repr

def MsgQueue.reset : MsgQueue :=
  { pkts := [], writing := none, reading := none, waiting := [], cut := [], arb := Arbiter.reset, rd0 := 0, rd1 := 0, wr0 := 0, wr1 := 0, seq := 0,
    flush := false, lostW := 0, lostP := 0, resets := 0, flushed := 0 }

/-- A delivery ring (R231, R273). -/
structure Ring where
  base    : W64
  size    : Nat
  off     : Nat
  phase   : Bool
  cons    : Nat
  stopped : Bool
  deriving DecidableEq, Repr

def Ring.reset : Ring := { base := 0, size := 0, off := 0, phase := true, cons := 0, stopped := false }

/-- Message queues by QID; rings 0 to 15 are the partitions' event rings, 16 the trace ring. -/
structure Mq where
  queues      : Sparse MsgQueue
  rings       : Sparse Ring
  faultqReset : Bool
  deriving DecidableEq, Repr

def Mq.reset : Mq := { queues := [], rings := [], faultqReset := false }

/-! ### Host interface -/

/-- A BAR4 mailbox (R448). -/
structure Mailbox where
  req  : List Byte
  rsp  : List Byte
  done : Bool
  busy : Bool
  ien  : Bool
  vec  : BitVec 11
  deriving DecidableEq, Repr

def Mailbox.reset : Mailbox := { req := [], rsp := [], done := false, busy := false, ien := false, vec := 0 }

/-- An entry of a function's MSI-X table, its mask bit aside (R284). -/
structure MsixEntry where
  addr : W64
  data : BitVec 32
  deriving DecidableEq, Repr

def MsixEntry.reset : MsixEntry := { addr := 0, data := 0 }

/-- A PCIe function (R268 to R270, R272, R279, R284, R286, R290). -/
structure Fn where
  bme        : Bool
  d3         : Bool
  maxPayload : Nat
  maxRead    : Nat
  extTags    : Bool
  /-- 10-bit tags (R269). -/
  tenBitTags : Bool
  /-- BAR0, BAR2 and BAR4; those of the VFs are the SR-IOV capability's, in the PF's structure of the host interface. -/
  bars       : List W64
  wen        : Bool
  winBase    : BitVec 16
  quar       : Bool
  /-- A re-attach in KEEP mode that waits until the function can master the bus (R288). -/
  keeping    : Bool
  hpat       : Sparse (BitVec 128)
  msixEn     : Bool
  msixTable  : Sparse MsixEntry
  /-- Vectors that are unmasked (every other is masked), the function mask, pending bits, and vectors deferred by
  quarantine (R286, R288). -/
  unmasked   : List Nat
  fnMask     : Bool
  pendingVec : List Nat
  deferred   : List Nat
  winRefused : Nat
  mailbox    : Mailbox
  deriving DecidableEq, Repr

/-- The payload and request sizes, the BARs and MSI-X of configuration space are those of the family after reset (PRESUMED, log entry 68). -/
def Fn.reset : Fn :=
  { bme := false, d3 := false, maxPayload := 128, maxRead := 512, extTags := true, tenBitTags := false, bars := [0, 0, 0], msixEn := false, msixTable := [],
    wen := false, winBase := 0, quar := true, keeping := false, hpat := [], unmasked := [], fnMask := false, pendingVec := [], deferred := [],
    winRefused := 0, mailbox := Mailbox.reset }

/-- A 64-byte line of the host-read cache (R280): its function, its host address / 64, and its bytes. -/
structure CacheLine where
  fn   : Nat
  line : Nat
  data : List Byte
  deriving DecidableEq, Repr

/-- The PCIe endpoint: function 0 is the PF, n + 1 the VF of partition n. -/
structure HostIf where
  fns             : Sparse Fn
  linkUp          : Bool
  gen             : BitVec 8
  width           : BitVec 8
  waitLimit       : Nat
  cred            : BitVec 128
  reattachRefused : Nat
  /-- SR-IOV (R269): VF Enable, the number of VFs, and the BARs of the VFs. -/
  vfEnable        : Bool
  numVfs          : Nat
  vfBars          : List W64
  /-- The lines of the host-read cache, newest first (R280). -/
  cache           : List CacheLine
  deriving DecidableEq, Repr

def HostIf.reset : HostIf :=
  { fns := [], linkUp := false, gen := 0, width := 0, waitLimit := 60, cred := 0, reattachRefused := 0, vfEnable := false, numVfs := 0,
    vfBars := [0, 0, 0], cache := [] }

/-! ### Ethernet -/

/-- A gate schedule (R300): entries (gates, interval), cycle and base. -/
structure Sched where
  list  : List (BitVec 8 × Nat)
  cycle : Nat
  base  : Nat
  deriving DecidableEq, Repr

/-- A traffic class of a port (R304, R305): times are in elapsed ticks of the port's timer. -/
structure ClassState where
  pauseEnd   : Option Nat
  pauseSince : Nat
  broken     : Bool
  recoverAt  : Nat
  share      : Nat
  pfcAt      : Option Nat
  deriving DecidableEq, Repr

def ClassState.reset : ClassState :=
  { pauseEnd := none, pauseSince := 0, broken := false, recoverAt := 0, share := 0, pfcAt := none }

/-- A frame in a port's queue to the control processor (R297), and what the control processor answers to it. -/
structure CpFrame where
  bytes : List Byte
  reply : Option (List Byte)
  deriving DecidableEq, Repr

/-- A port (R291 to R309). Counters are keyed by the low byte of their index (0xB300 to 0xB311), class counters by
256 × (index low byte) + class. -/
structure Port where
  lanes     : BitVec 8
  an        : Bool
  force     : BitVec 8
  st        : PortState
  fast      : Bool
  mac       : BitVec 48
  maxFrame  : Nat
  vlan      : Nat
  pcpToTc   : BitVec 32
  tcToPcp   : BitVec 32
  media     : BitVec 8
  gateEn    : Bool
  pendList  : List Byte
  pendCycle : Nat
  pendBase  : Nat
  active    : Option Sched
  armed     : Option (Sched × Nat)
  gates     : BitVec 8
  guard     : Nat
  pfcEn     : BitVec 8
  pauseLimit : Nat
  pauseRecovery : Nat
  timer     : Nat
  ticks     : Nat
  rxrBase   : W64
  rxrSize   : Nat
  rxrCons   : Nat
  rxrProd   : Nat
  rxrPhase  : Bool
  /-- The host that gave the ring is lost (R288, DIVERT). -/
  rxrLost   : Bool
  badHost   : Bool
  badCp     : Bool
  mgmtEn    : Bool
  evqMask   : BitVec 16
  ipv4      : BitVec 32
  ipv6      : BitVec 128
  classes   : Sparse ClassState
  txq       : Sparse (List TxFrame)
  cpq       : List CpFrame
  refusedAt : Option Nat
  /-- The frame in transmission: its end in elapsed ticks, and its class. -/
  txTil     : Nat
  txTc      : Nat
  /-- The arbiter of TC0 to TC3 (R262, R299). -/
  arb       : Arbiter
  counters  : Sparse Nat
  deriving DecidableEq, Repr

/-- R308: the defaults of port k. -/
def Port.reset (k : Nat) : Port :=
  { lanes := if k % 2 = 0 then 4 else 0, an := true, force := 0, st := .disabled, fast := false, mac := Config.macBase + BitVec.ofNat 48 k,
    maxFrame := 9216, vlan := 0, pcpToTc := 0x00FAC688, tcToPcp := 0x00FAC688, media := 0, gateEn := false, pendList := [],
    pendCycle := 1000000, pendBase := 0, active := none, armed := none, gates := 0xFF, guard := 0, pfcEn := 0, pauseLimit := 20,
    pauseRecovery := 100, timer := 0, ticks := 0, rxrBase := 0, rxrSize := 0, rxrCons := 0, rxrProd := 0, rxrPhase := true, rxrLost := false,
    badHost := false, badCp := false, mgmtEn := true, evqMask := 0xFFFF, ipv4 := 0, ipv6 := 0, classes := [], txq := [], cpq := [],
    refusedAt := none, txTil := 0, txTc := 0, arb := Arbiter.reset, counters := [] }

structure Eth where
  ports     : List Port
  mgmtEtype : BitVec 16
  deriving DecidableEq, Repr

def Eth.reset : Eth := { ports := (List.range 8).map Port.reset, mgmtEtype := 0x88B5 }

/-! ### Peal engine -/

/-- A peal descriptor (R326). -/
structure PealDesc where
  op     : Nat
  alg    : Nat
  tc     : Nat
  nsrc   : Nat
  sumsq  : Bool
  genEn  : Bool
  ifmt   : Nat
  ofmt   : Nat
  policy : Nat
  region : Nat
  group  : BitVec 8
  peer   : Nat
  opid   : BitVec 32
  gen    : BitVec 32
  count  : Nat
  layer  : Nat
  src    : List Nat
  dst    : Nat
  recAt  : Nat
  host   : Nat
  table  : Nat
  rsvd   : Bool
  deriving DecidableEq, Repr

/-- Bytes received from a rank at an offset of its transfer to this device. -/
structure RxChunk where
  rank   : Nat
  off    : Nat
  data   : List Byte
  deriving DecidableEq, Repr

/-- An instance (R329). `waiters` are the (core, slot) pairs that a live PEAL of it waits on. -/
structure Inst where
  desc     : PealDesc
  uid      : Nat
  part     : Nat
  ctx      : Nat
  waiters  : List (Nat × Nat)
  rx       : List RxChunk
  status   : Option (BitVec 16)
  done     : Bool
  flags    : BitVec 6
  /-- Ranks toward which the instance has opened its streams (R319). -/
  opened   : List Nat
  hit      : Bool
  dropped  : Bool
  /-- When a host transfer first stalled on quarantine (R286). -/
  stall    : Option Nat
  /-- The context and address that the shard-table generation is served from (R335), once known. -/
  serve    : Option (Nat × Nat)
  /-- Entries of PERMUTE's table for this member that are staged from its own buffer, and those copied to their destinations (R340). -/
  staged   : List Nat
  copied   : List Nat
  deriving DecidableEq, Repr

/-- A packet sent and not acknowledged (R321). -/
structure Unacked where
  seq      : Nat
  off      : Nat
  pkt      : GPkt
  retx     : Nat
  deadline : Nat
  sentAt   : Nat
  deriving DecidableEq, Repr

/-- A stream that this device sends (R319): chunks not yet sent as (offset, length). -/
structure TxStream where
  rank    : Nat
  stream  : Nat
  port    : Nat
  opid    : BitVec 32
  op      : Nat
  tc      : Nat
  gen     : BitVec 32
  /-- A GET served from a region: the context and virtual address of the transfer. -/
  source  : Option (Nat × Nat)
  /-- The bytes of the whole transfer. -/
  total   : Nat
  chunks  : List (Nat × Nat)
  next    : Nat
  unacked : List Unacked
  /-- The packets that were sent again for a gap: SEQ and when (R321). -/
  fastAt  : List (Nat × Nat)
  deriving DecidableEq, Repr

/-- A packet held behind a gap, with the region entry in force when it arrived (R320, R338). -/
structure HeldPkt where
  pkt   : GPkt
  entry : BitVec 256
  deriving DecidableEq, Repr

/-- A stream that this device receives (R320). -/
structure RxStream where
  rank     : Nat
  stream   : Nat
  opid     : BitVec 32
  op       : Nat
  expected : Nat
  held     : List HeldPkt
  since    : Nat
  ackAt    : Option Nat
  ce       : Nat
  deriving DecidableEq, Repr

/-- A connection to a peer (R321 to R323). -/
structure Conn where
  up        : Bool
  /-- A HELLO has been sent and not yet answered: how often it was sent again, and when it is due again. -/
  asked     : Option (Nat × Nat)
  version   : Nat
  maxFrame  : Nat
  features  : BitVec 8
  streams   : Nat
  cwnd      : Rat
  alpha     : Rat
  srtt      : Rat
  rttvar    : Rat
  measured  : Bool
  /-- RTT samples of the last 10 s: (time, rtt). -/
  samples   : List (Nat × Nat)
  rwnd      : Nat
  acked     : Nat
  marked    : Nat
  roundAt   : Nat
  unreach   : Bool
  deriving DecidableEq, Repr

def Conn.reset : Conn :=
  { up := false, asked := none, version := 1, maxFrame := 1518, features := 0, streams := 0, cwnd := 262144, alpha := 0, srtt := 0, rttvar := 0,
    measured := false, samples := [], rwnd := 65536, acked := 0, marked := 0, roundAt := 0, unreach := false }

/-- A keep-table entry (R336); `standing` is false while it is only reserved by the command `uid`. -/
structure Keep where
  layer    : Nat
  gen      : BitVec 32
  dst      : Nat
  len      : Nat
  ctx      : Nat
  uid      : Nat
  standing : Bool
  deriving DecidableEq, Repr

/-- A one-sided write that has landed in a region without its COMMIT_NOTICE (R377). -/
structure Landing where
  rank   : Nat
  opid   : BitVec 32
  region : Nat
  deriving DecidableEq, Repr

/-- A stream that a peer's RESUME listed, and the SEQ at which it goes on (R325). -/
structure Resumed where
  rank   : Nat
  stream : Nat
  seq    : Nat
  deriving DecidableEq, Repr

structure Peal where
  insts     : List Inst
  tx        : List TxStream
  rx        : List RxStream
  conns     : Sparse Conn
  keep      : Sparse (List Keep)
  /-- The highest STEP_END generation received from each rank, plus one; 0 while none has been (R334). -/
  stepGen   : Sparse Nat
  /-- OPIDs of cancelled instances, whose chunks are acknowledged and discarded (R344). -/
  cancelled : List (BitVec 32)
  /-- The early pool: packets for an OPID that has not started (R320). -/
  early     : List GPkt
  landed    : List Landing
  resumed   : List Resumed
  regions   : Sparse (BitVec 256)
  udpPort   : BitVec 16
  parts     : BitVec 16
  rtoMin    : Nat
  retxLimit : Nat
  ccTarget  : Nat
  ccGain    : Nat
  /-- GERIL_TX_PKTS to GERIL_DISABLED (R347), by subindex. -/
  counters  : Sparse Nat
  /-- Source addresses that FENCED was sent to, and when (R324). -/
  fenced    : List (BitVec 128 × Nat)
  deriving DecidableEq, Repr

def Peal.reset : Peal :=
  { insts := [], tx := [], rx := [], conns := [], keep := [], stepGen := [], cancelled := [], early := [], landed := [], resumed := [], regions := [], udpPort := 48731,
    parts := 0, rtoMin := 100, retxLimit := 16, ccTarget := 10, ccGain := 1, counters := [], fenced := [] }

/-- A rank-table entry (R313); STATE 0 empty, 1 active, 2 spare, 3 used. -/
structure RankEntry where
  ident : BitVec 64
  inc   : BitVec 32
  state : BitVec 32
  mac   : BitVec 48
  addrs : List (BitVec 128)
  deriving DecidableEq, Repr

def RankEntry.reset : RankEntry := { ident := 0, inc := 0, state := 0, mac := 0, addrs := [0, 0, 0, 0] }

/-- An ANNOUNCE that a rank has not answered: its retransmissions and the close of its timeout (R321, R376). -/
structure AnnounceTo where
  rank : Nat
  retx : Nat
  due  : Nat
  deriving DecidableEq, Repr

/-- A takeover in progress (R376). -/
structure Takeover where
  deadline : Nat
  refused  : Bool
  waiting  : List AnnounceTo
  deriving DecidableEq, Repr

structure Carillon where
  en          : Bool
  ownRank     : BitVec 16
  ownInc      : BitVec 32
  st          : BitVec 8
  axis        : List Nat
  activeRanks : Nat
  ranks       : Sparse RankEntry
  limit       : Nat
  takeover    : Option Takeover
  /-- A takeover was made and no PEAL has been issued since (R376). -/
  fresh       : Bool
  period      : Nat
  miss        : Nat
  tollSeq     : BitVec 32
  lastToll    : Sparse Nat
  silent      : List Nat
  stale       : Nat
  nextToll    : Nat
  /-- Partitions not yet reset since the device was fenced (R384). -/
  unreset     : BitVec 16
  fencedToll  : Bool
  /-- Sum and count of WAIT_FRAC over the period's core tolls of PEAL_PARTS partitions (R371). -/
  slackSum    : Nat
  slackN      : Nat
  deriving DecidableEq, Repr

def Carillon.reset : Carillon :=
  { en := false, ownRank := 0xFFFF, ownInc := 0, st := 0, axis := [1, 1, 1, 1], activeRanks := 0, ranks := [], limit := 1000,
    takeover := none, fresh := false, period := 1000, miss := 3, tollSeq := 0, lastToll := [], silent := [], stale := 0,
    nextToll := 0, unreset := 0, fencedToll := false, slackSum := 0, slackN := 0 }

/-! ### Damper -/

/-- A loan as its donor keeps it (R400, R401): sequence, recipient, amount in mW, the sending of its latest copy,
and whether RECALL was sent (and when); `granted` is set once GRANT has been sent. -/
structure Loan where
  seq     : BitVec 32
  rank    : Nat
  amount  : Nat
  sentAt  : Nat
  recalled : Option Nat
  granted : Bool
  deriving DecidableEq, Repr

/-- A loan as its recipient keeps it: donor, sequence, amount, receipt of its latest copy; amount 0 is a refused
loan; `ending` once the recipient has lowered its cap and owes RETURN. -/
structure Borrow where
  rank   : Nat
  seq    : BitVec 32
  amount : Nat
  at_    : Nat
  ending : Bool
  deriving DecidableEq, Repr

/-- What a run of the cap loop measured (R388, R389): the hub timer then, the module power in mW, and the current of each VCQ rail in mA, each of
the 100 µs that close there. -/
structure Reading where
  at_   : Nat
  power : Nat
  amps  : List Nat
  deriving DecidableEq, Repr

/-- The fast loop of one quadrant (R394). -/
structure Fast where
  /-- The last samples, newest first: the rail window timer in ns and the current in mA. Those of [t − 4 µs, t) make I_w. -/
  window  : List (Nat × Nat)
  /-- The sum and the count of the samples since the last run of the cap loop (R389). -/
  acc     : Nat
  accN    : Nat
  swell   : Nat
  hbm     : Nat
  holdTil : Option Nat
  /-- When I_w first reached 228 A in the present excursion, and since when it has been below 204 A. -/
  highAt  : Option Nat
  lowAt   : Option Nat
  /-- The rail window timer in ns, modulo 2^64 (R40). -/
  timer   : Nat
  deriving DecidableEq, Repr

/-- The rail window timer starts at 0; the manual gives it neither a reset value nor a width (DESIGN CHOICE, log entry 3). -/
def Fast.reset : Fast := { window := [], acc := 0, accN := 0, swell := 8, hbm := 16, holdTil := none, highAt := none, lowAt := none, timer := 0 }

structure Damper where
  capSet    : Nat
  /-- The effective cap's own part: the cap in force before lending (a raise waits for the 1 ms mean, R390). -/
  capInForce : Nat
  lent      : Nat
  borrowed  : Nat
  loans     : List Loan
  borrows   : List Borrow
  loanSeq   : BitVec 32
  /-- The hub timer at the last decision of R400. -/
  lendAt    : Nat
  /-- The readings of the last 10 ms, newest first (R388), and the 1 ms mean power of the last run in mW. -/
  readings  : List Reading
  meanPower : Nat
  paceT     : Rat
  vcq       : Sparse Nat
  temps     : List Nat
  /-- PACE_NOW of Q0 to Q3 and the hub, in Gst/s, as the damper last updated it (R34). -/
  paceReg   : List Rat
  /-- The cap loop's ceilings per quadrant; the fast loop's own in `fast`. -/
  swell     : Sparse Nat
  hbm       : Sparse Nat
  fast      : Sparse Fast
  throttle  : BitVec 8
  tjHot     : Bool
  tjLimit   : Bool
  telemetry : Bool
  imonBad   : List Nat
  shutdown  : Bool
  energyNj  : Nat
  lendEn    : Bool
  lendPeriod : Nat
  lendStep  : Nat
  lendThresh : Nat
  lendLease : Nat
  lendGuard : Nat
  peerSlack : Sparse (BitVec 16)
  /-- Sum and count of WAIT_FRAC over the lending period's core tolls of PEAL_PARTS partitions (R400). -/
  slackSum  : Nat
  slackN    : Nat
  peaks     : Nat
  throttleNs : Nat
  lendStale : Nat
  lastEvent : Option Nat
  deriving DecidableEq, Repr

/-- R406; PACE_TARGET starts at 1.20 Gst/s and VCQ_SET at the 750 mV that the regulators hold (R478); die
temperatures start at 25 °C (log entry 3). -/
def Damper.reset : Damper :=
  { capSet := Config.capFused, capInForce := Config.capFused, lent := 0, borrowed := 0, loans := [], borrows := [], loanSeq := 0,
    lendAt := 0, readings := [], meanPower := 0, paceT := 12 / 10, vcq := [(0, 750), (1, 750), (2, 750), (3, 750)], temps := [25000, 25000, 25000, 25000, 25000],
    paceReg := [0, 0, 0, 0, 0],
    swell := [], hbm := [], fast := [], throttle := 0, tjHot := false, tjLimit := false, telemetry := true, imonBad := [],
    shutdown := false, energyNj := 0, lendEn := false, lendPeriod := 10000, lendStep := Config.capFused * 10, lendThresh := 3277,
    lendLease := 100, lendGuard := 10, peerSlack := [], slackSum := 0, slackN := 0, peaks := 0, throttleNs := 0, lendStale := 0, lastEvent := none }

/-! ### Security -/

/-- R409. -/
inductive LifeCycle where
  | blank | provisioned | operational | returned | scrapped
  deriving DecidableEq, Repr

/-- A measurement-log entry (R418), 96 bytes. -/
structure LogEntry where
  bytes : List Byte
  deriving DecidableEq, Repr

/-- A weight-package load (R424), running or queued. -/
structure PkgJob where
  part : Nat
  ctx  : Nat
  src  : Nat
  dst  : Nat
  len  : Nat
  /-- The carillon key held when the load started, and its CKEY_ID (R428). -/
  key  : Option (List Byte)
  keyId : List Byte
  /-- The context was torn down while the load ran (reason ABORTED). -/
  aborted : Bool
  deriving DecidableEq, Repr

/-- A MEASURE that waits for the commands that hold its range (R419). -/
structure MeasureJob where
  part : Nat
  ctx  : Nat
  va   : Nat
  len  : Nat
  fix  : Bool
  deriving DecidableEq, Repr

structure Sec where
  lc          : LifeCycle
  transitions : Nat
  challenges  : Nat
  /-- The accepted life-cycle transition whose wipes run (R411). -/
  lcTarget    : Option LifeCycle
  seedOff     : Bool
  debugEn     : Bool
  /-- ATT_REPORT, one copy for each requester, keyed as the selectors are (R420). -/
  report      : Sparse (List Byte)
  reports     : Nat
  digests     : List (List Byte)
  logs        : Sparse (List LogEntry)
  loghash     : Sparse (List Byte)
  ckey        : Option (List Byte)
  ckeyId      : List Byte
  ckeyRefused : Nat
  measures    : List MeasureJob
  pkgs        : List PkgJob
  pkgState    : Sparse (BitVec 16)
  ide         : Sparse (BitVec 8)
  /-- The keys that IDE_KM has programmed, by stream (R425). -/
  ideKeys     : Sparse (BitVec 256)
  spdm        : Bool
  /-- The messages of the SPDM session since the link came up, oldest first (R425). -/
  spdmLog     : List (List Byte)
  idCertFlash : Option (List Byte)
  deriving DecidableEq, Repr

/-- The model's part is in OPERATIONAL with two fuses blown (log entry 4). -/
def Sec.reset : Sec :=
  { lc := .operational, transitions := 2, challenges := 0, lcTarget := none, seedOff := false, debugEn := false, report := [], reports := 0, digests := [], logs := [], loghash := [], ckey := none, ckeyId := List.replicate 64 0,
    ckeyRefused := 0, measures := [], pkgs := [], pkgState := [], ide := [], ideKeys := [], spdm := false, spdmLog := [], idCertFlash := none }

/-! ### Dictionary and management transports -/

/-- A held response of a channel (R442). -/
structure HeldResp where
  token  : BitVec 16
  op     : BitVec 8
  index  : BitVec 16
  sub    : BitVec 8
  flags  : BitVec 8
  offset : Nat
  result : BitVec 8
  data   : List Byte
  deriving DecidableEq, Repr

/-- A snapshot (R441): entry, value, time of its last read. -/
structure Snapshot where
  index : BitVec 16
  sub   : BitVec 8
  value : List Byte
  last  : Nat
  deriving DecidableEq, Repr

/-- An incomplete write transfer (R441). -/
structure Transfer where
  index : BitVec 16
  sub   : BitVec 8
  value : List Byte
  last  : Nat
  deriving DecidableEq, Repr

/-- A Voxyx channel (R441, R442). -/
structure Chan where
  ch       : Channel
  held     : List HeldResp
  snapshot : Option Snapshot
  transfer : Option Transfer
  deriving DecidableEq, Repr

/-- A request that waits on its channel (R443, R444): `passed` while it stands in the CP request channel; the mailbox of a function that
was reset meanwhile gets no response (`quiet`, R448). -/
structure VWait where
  ch     : Channel
  op     : BitVec 8
  msg    : VMsg
  passed : Bool
  quiet  : Bool
  deriving DecidableEq, Repr

/-- Voxyx counters are keyed by 256 × (index low byte) + subindex (R452). -/
structure Dict where
  chans    : List Chan
  /-- The requests that wait, in the order of their arrival. -/
  waiting  : List VWait
  counters : Sparse Nat
  eids     : Sparse (BitVec 8)
  i3cAddr  : Option (BitVec 7)
  deriving DecidableEq, Repr

def Dict.reset : Dict := { chans := [], waiting := [], counters := [], eids := [], i3cAddr := none }

/-! ### Control processor, firmware and flash -/

/-- R456. -/
inductive SlotState where
  | empty | pending | trial | confirmed | bad
  deriving DecidableEq, Repr

/-- The firmware that runs (FW_STATE). -/
inductive FwRun where
  | slotA | slotB | recovery | loader
  deriving DecidableEq, Repr

/-- Flash, the boot record and the control processor (R370, R438, R454 to R466). -/
structure Fw where
  bootSeq    : BitVec 32
  active     : Bool
  slotA      : SlotState
  slotB      : SlotState
  trialBoots : Nat
  /-- The copy (true for copy 1) to which the boot record was last written since the device left reset. -/
  recordAt   : Option Bool
  /-- The two copies of the boot record in flash (R454, R455); the fields above are those of the current copy. -/
  copy0      : List Byte
  copy1      : List Byte
  imageA     : List Byte
  imageB     : List Byte
  recovery   : List Byte
  /-- Records of FW_FUSED_VERSION written, newest first (R462). -/
  fused      : List (BitVec 32)
  /-- The image that runs; none while the control processor restarts or boots. -/
  run        : Option FwRun
  /-- The image that was read into the control processor at its last start, apart from flash (R460). -/
  loaded     : List Byte
  /-- The image selected by ROM at the present start (R459). -/
  selected   : FwRun
  trialFrom  : Option Nat
  /-- The hub timer at the last refresh of the watchdog that the model sees: the start of the image (R370). -/
  wdtFrom    : Nat
  restarts   : Nat
  lastCause  : BitVec 8
  wdt        : Nat
  /-- The cause of the restart in progress (R370). -/
  restarting : Option (BitVec 8)
  /-- Values that the persistent store holds (R438); none where nothing was stored. -/
  flashCap   : Option Nat
  flashCeLimit : Option Nat
  flashScrub : Option Nat
  flashWdt   : Option Nat
  flashRetire : List Nat
  flashRetired : List Nat
  deriving DecidableEq, Repr

/-- Flash of the model's part: slot A confirmed, its images not known (log entry 4). -/
def Fw.reset : Fw :=
  { bootSeq := 0, active := false, slotA := .confirmed, slotB := .empty, trialBoots := 0, recordAt := none, copy0 := bootBytes 0 false 3 0 0, copy1 := [],
    imageA := Config.flashImage 0, imageB := Config.flashImage 1, recovery := Config.flashImage 2,
    fused := [], run := none, loaded := [], selected := .slotA, trialFrom := none, wdtFrom := 0, restarts := 0, lastCause := 0, wdt := 1000, restarting := none,
    flashCap := none, flashCeLimit := none, flashScrub := none, flashWdt := none, flashRetire := [], flashRetired := [] }

/-! ### Self-test, test access port, hub -/

/-- A running BIST (R467): KIND bits logic and memory. -/
structure BistRun where
  scope  : Nat
  logic  : Bool
  memory : Bool
  target : Nat
  deriving DecidableEq, Repr

structure Bist where
  statusCore : Sparse (BitVec 16)
  sigCore    : Sparse W64
  msigCore   : Sparse W64
  statusDev  : Sparse (BitVec 16)
  sigDev     : Sparse W64
  cores      : List BistRun
  /-- Cores whose BIST a reset or a life-cycle transition aborted since the last boot began (R475). -/
  aborted    : List Nat
  maint      : Option BistRun
  hbmStatus  : Sparse (BitVec 32)
  hbmRunning : List Nat
  deriving DecidableEq, Repr

def Bist.reset : Bist :=
  { statusCore := [], sigCore := [], msigCore := [], statusDev := [], sigDev := [], cores := [], aborted := [], maint := none, hbmStatus := [],
    hbmRunning := [] }

/-- The instruction in force at the test access port (R474). -/
inductive TapInstr where
  | bypass | idcode | sample | extest | clamp | highz | extestPulse | extestTrain | hbm1500 (stack : Nat) | debug
  deriving DecidableEq, Repr

/-- The hub: timer, pins, clocks, device fault, boot progress and the trace of outputs. -/
structure Hub where
  /-- The hub timer in ns, modulo 2^64 (R40). -/
  timer    : Nat
  fault    : BitVec 16
  pwrgd    : Bool
  devrstN  : Bool
  perstN   : Bool
  thermN   : Bool
  refclkH  : Bool
  refclkE  : Bool
  maddr    : BitVec 2
  /-- Rows of R464: training and wipe ended; image started; dictionary served and commands accepted. -/
  trained  : Bool
  started  : Bool
  ready    : Bool
  /-- The instruction that the port acts on (R474), and the one last shifted into it. -/
  tap      : TapInstr
  tapLoaded : TapInstr
  /-- The update stage of the boundary register for the outputs (R474). -/
  boundary : Boundary
  /-- The counter of free values drawn; the model's own field (log entry 8). -/
  free     : Nat
  out      : List Emit
  deriving DecidableEq, Repr

/-- Row 2 of R464: DEVRST_N has risen with PWRGD high, and training, wipe and boot have begun (log entry 2). -/
def Hub.reset : Hub :=
  { timer := 0, fault := 0, pwrgd := true, devrstN := true, perstN := true, thermN := true, refclkH := true, refclkE := true,
    maddr := 0, trained := false, started := false, ready := false, tap := .idcode, tapLoaded := .idcode, boundary := .idle, free := 0, out := [] }

/-- The whole device, and the queue of commands that wait, first in, first out. -/
structure State where
  pending : List Instr
  hub     : Hub
  cores   : Sparse Core
  mem     : Mem
  disp    : Disp
  mq      : Mq
  host    : HostIf
  eth     : Eth
  peal    : Peal
  car     : Carillon
  damper  : Damper
  sec     : Sec
  dict    : Dict
  fw      : Fw
  bist    : Bist
  deriving DecidableEq, Repr

/-- The machine right after device reset: every field at the value the spec states for reset, or at the value a log
entry names. -/
def State.reset : State :=
  { pending := [], hub := Hub.reset, cores := [], mem := Mem.reset, disp := Disp.reset, mq := Mq.reset, host := HostIf.reset,
    eth := Eth.reset, peal := Peal.reset, car := Carillon.reset, damper := Damper.reset, sec := Sec.reset, dict := Dict.reset,
    fw := Fw.reset, bist := Bist.reset }

/-- The reasons the block stops with a fault: none. The spec turns every error into an effect on the device's state
(a status, a refused write, a choke, a device fault), and the model follows it. -/
inductive Fault where
  deriving DecidableEq, Repr

/-- The reasons a command is refused. -/
inductive Refusal where
  /-- Raised by exec alone, for a command that has no meaning yet. Safe: no claim can be proved of it. -/
  | notModelled (mnemonic : String)
  deriving DecidableEq, Repr

end Sys2Proof.Machine
end

