-- ==== Sys2Proof/Machine/Sparse.lean ====
section
/-! DEFINITION. The operations on sparse tables and byte stores: reading and writing one entry in canonical form, bit fields, and the small
list helpers of the other files. -/

namespace Sys2Proof.Machine

/-! ### Sparse tables -/

/-- Entry k of a table whose default is d. -/
def sget {α : Type} (d : α) : Sparse α → Nat → α
  | [], _ => d
  | (a, v) :: r, k => if a = k then v else sget d r k

/-- The table with entry k made v, which is not the default. -/
def sput {α : Type} : Sparse α → Nat → α → Sparse α
  | [], k, v => [(k, v)]
  | (a, w) :: r, k, v => if k < a then (k, v) :: (a, w) :: r else if k = a then (k, v) :: r else (a, w) :: sput r k v

/-- The table with entry k set to v; the default value removes the entry, so the form stays canonical. -/
def sset {α : Type} [DecidableEq α] (d : α) (m : Sparse α) (k : Nat) (v : α) : Sparse α :=
  if v = d then m.filter fun e => e.1 != k else sput m k v

/-- Indices strictly rise and no entry holds the default. -/
def swf {α : Type} [DecidableEq α] (d : α) (m : Sparse α) : Bool :=
  m.all (fun e => decide (e.2 ≠ d)) && decide (m.Pairwise (fun a b => a.1 < b.1))

/-- Entry k changed by f. -/
def smod {α : Type} [DecidableEq α] (d : α) (m : Sparse α) (k : Nat) (f : α → α) : Sparse α :=
  sset d m k (f (sget d m k))

/-! ### Byte stores: a byte that is not listed reads as zero -/

/-- Store the bytes at consecutive addresses. -/
def bput (m : List Host.Cell) (a : Nat) : List Byte → List Host.Cell
  | [] => m
  | b :: r => bput (sset 0 m a b) (a + 1) r

/-- The n bytes from address a. -/
def bget (m : List Host.Cell) (a n : Nat) : List Byte :=
  (List.range n).map fun i => sget 0 m (a + i)

/-- Zero the bytes of [a, a + n): their entries are removed. -/
def bzero (m : List Host.Cell) (a n : Nat) : List Host.Cell :=
  m.filter fun c => decide (c.1 < a ∨ a + n ≤ c.1)

/-! ### Bit fields of a 64-bit word -/

/-- Bits [hi:lo] as a number. -/
def fld (w : W64) (hi lo : Nat) : Nat := (w.toNat >>> lo) % 2 ^ (hi - lo + 1)

/-- Bit n. -/
def bitN (w : W64) (n : Nat) : Bool := w.getLsbD n

/-- Bits [hi:lo] as a two's-complement number. -/
def sfld (w : W64) (hi lo : Nat) : Int :=
  let v := fld w hi lo
  if 2 ^ (hi - lo) ≤ v then (v : Int) - 2 ^ (hi - lo + 1) else v

/-- A register number from bits [lo+4:lo]. -/
def reg5 (w : W64) (lo : Nat) : BitVec 5 := BitVec.ofNat 5 (w.toNat >>> lo)

/-- A 64-bit word of a number. -/
def w64 (n : Nat) : W64 := BitVec.ofNat 64 n

/-- A bit as a number. -/
def b2n (b : Bool) : Nat := if b then 1 else 0

/-! ### Lists of numbers kept as rising sets -/

/-- The set with k inserted. -/
def setIns : List Nat → Nat → List Nat
  | [], k => [k]
  | a :: r, k => if k < a then k :: a :: r else if k = a then a :: r else a :: setIns r k

/-- The set without the numbers of [a, b). -/
def setDel (l : List Nat) (a b : Nat) : List Nat := l.filter fun k => decide (k < a ∨ b ≤ k)

/-- Do the ranges (base, length) share a byte? An empty range shares none. -/
def rangesMeet (x y : Nat × Nat) : Bool :=
  decide (0 < x.2 ∧ 0 < y.2 ∧ x.1 < y.1 + y.2 ∧ y.1 < x.1 + x.2)

/-- Is the range inside a union of one range? -/
def rangeIn (x y : Nat × Nat) : Bool := decide (y.1 ≤ x.1 ∧ x.1 + x.2 ≤ y.1 + y.2)

/-- A counter of n bits that saturates. -/
def satAdd (bits v k : Nat) : Nat := min (2 ^ bits - 1) (v + k)

/-- The index of the first element that a predicate holds of. -/
def findIdx {α : Type} (p : α → Bool) : List α → Nat → Option Nat
  | [], _ => none
  | a :: r, i => if p a then some i else findIdx p r (i + 1)

/-- The list with its first element for which p holds changed by f. -/
def modFirst {α : Type} (p : α → Bool) (f : α → α) : List α → List α
  | [] => []
  | a :: r => if p a then f a :: r else a :: modFirst p f r

/-- The list without its first element for which p holds. -/
def delFirst {α : Type} (p : α → Bool) : List α → List α
  | [] => []
  | a :: r => if p a then r else a :: delFirst p r

end Sys2Proof.Machine
end

