-- ==== Sys2Proof/Machine/Crypto.lean ====
section
/-! DEFINITION. The security block's keys (R417, R421, R423): what it derives from the fused seed, and what its keys open. Key generation,
decapsulation, AES-GCM and signatures are the published standards' (log entry 9). -/

namespace Sys2Proof.Machine

/-- "T7-ID" and "T7-KEM". -/
def labelId : List Byte := [0x54, 0x37, 0x2D, 0x49, 0x44]
def labelKem : List Byte := [0x54, 0x37, 0x2D, 0x4B, 0x45, 0x4D]

/-- R410, R417: the fused seed; none once the fuses of SCRAPPED disable it. -/
def Sec.seed (k : Sec) : Option (List Byte) := if k.seedOff then none else some Config.seed.toList

/-- R417: the identity key pair, derived from the seed. -/
def Sec.idKey (k : Sec) : Option (Vector Byte 1952 × Vector Byte 4032) :=
  k.seed.map fun x => Config.mldsaKeygen ((shake256 (labelId ++ x)).take 32)

/-- R417: the transport key pair, derived from the seed. -/
def Sec.transportKey (k : Sec) : Option (Vector Byte 1568 × Vector Byte 3168) :=
  k.seed.map fun x => Config.mlkemKeygen (shake256 (labelKem ++ x))

/-- ID_PUBKEY, 1,952 bytes, and TRANSPORT_EK, 1,568 bytes. -/
def Sec.idPubkey (k : Sec) : List Byte := (k.idKey.map fun x => x.1.toList).getD []
def Sec.transportEk (k : Sec) : List Byte := (k.transportKey.map fun x => x.1.toList).getD []

/-- R417: DEVICE_ID, bytes 0 to 7, little-endian, of SHAKE256 of the identity public key; a free value once the seed is disabled. -/
def Sec.deviceId (k : Sec) : W64 :=
  match k.idKey with
  | some x => w64 (natAt (shake256 x.1.toList) 0 8)
  | none => Config.lostDeviceId
def State.deviceId (s : State) : W64 := s.sec.deviceId

/-- R420: the signature by the identity key, 3,309 bytes. -/
def Sec.sign (k : Sec) (b : List Byte) : List Byte := (k.idKey.map fun x => (Config.mldsaSign x.2 b).toList).getD []

/-- R410: the current LC_CHALLENGE, 32 bytes. -/
def Sec.challenge (k : Sec) : List Byte := (Config.lcChallenge k.challenges).toList

/-- R421: the carillon key's d ‖ z that an install block decrypts to; none where its tag does not verify or its key pair has not the block's
CKEY_ID. -/
def Sec.ckeyOpen (k : Sec) (d : List Byte) : Option (List Byte) :=
  match k.transportKey with
  | none => none
  | some x =>
    let ss := (Config.mlkemDecaps x.2 (bytesAt d 0 1568)).toList
    let key := (shake256 (ss ++ bytesAt d 0x620 0x90)).take 32
    match Config.aesGcmOpen key (bytesAt d 0x620 12) (bytesAt d 0 0x6B0) (bytesAt d 0x6B0 64) (bytesAt d 0x6F0 16) with
    | none => none
    | some dz => if shake256 (Config.mlkemKeygen dz).1.toList = bytesAt d 0x630 64 then some dz else none

/-- R423: the content key of a package by its header, under a carillon key. -/
def pkgKey (dz h : List Byte) : List Byte :=
  (shake256 ((Config.mlkemDecaps (Config.mlkemKeygen dz).2 (bytesAt h 0xA0 1568)).toList ++ bytesAt h 0 0xA0)).take 32

/-- R423, R424: the plaintext of segment i, its tag last, under a carillon key; none where the tag fails. -/
def pkgSegment (dz h : List Byte) (i : Nat) (c : List Byte) : Option (List Byte) :=
  Config.aesGcmOpen (pkgKey dz h) (bytesAt h 0x18 8 ++ leBytes 4 i) (bytesAt h 0 0x6C0 ++ leBytes 4 i) (c.take (c.length - 16)) (c.drop (c.length - 16))

/-- R285, R425: the IDE streams and the SPDM session end with the link. -/
def Sec.linkEnd (k : Sec) : Sec := { k with ide := [], ideKeys := [], spdm := false, spdmLog := [] }

/-- R425: the identity key's part in an SPDM session: the answer to the last message of a transcript, and whether the transcript with that
answer authenticates the session. -/
def Sec.spdmAnswer (k : Sec) (log : List (List Byte)) : Option (List Byte × Bool) :=
  k.idKey.map fun x =>
    let r := Config.spdmReply x.2 log
    (r, Config.spdmOpens x.1.toList (log ++ [r]))

end Sys2Proof.Machine
end

