-- ==== Sys2Proof/Machine/Numeric.lean ====
section
/-! DEFINITION. The number formats and arithmetic of chapter 3: exact values, decoding and rounding into every format,
the IEEE operations with their flags, conversions, TH4B blocks and array operands. -/

namespace Sys2Proof.Machine

/-- A value as an operation sees it (R46): NaN (signalling or quiet), an infinity, or ±m × 2^e. -/
inductive FVal where
  | nan (signalling : Bool)
  | inf (neg : Bool)
  | fin (neg : Bool) (m : Nat) (e : Int)
  deriving DecidableEq, Repr

/-- A binary layout of R45: exponent and fraction widths and bias. -/
structure Fmt where
  ebits : Nat
  mbits : Nat
  bias  : Int
  /-- R48: a NaN with the top fraction bit 0 is signalling. -/
  snan  : Bool
  /-- R60: overflow under round toward zero gives the largest finite value (the IEEE formats). -/
  ieee  : Bool
  /-- R47: the canonical NaN. -/
  cnan  : Nat
  deriving DecidableEq, Repr

def fmtB64 : Fmt := { ebits := 11, mbits := 52, bias := 1023, snan := true, ieee := true, cnan := 0x7FF8000000000000 }
def fmtB32 : Fmt := { ebits := 8, mbits := 23, bias := 127, snan := true, ieee := true, cnan := 0x7FC00000 }
def fmtB16 : Fmt := { ebits := 5, mbits := 10, bias := 15, snan := true, ieee := true, cnan := 0x7E00 }
def fmtTH16 : Fmt := { ebits := 8, mbits := 7, bias := 127, snan := true, ieee := false, cnan := 0x7FC0 }
def fmtTH8E5 : Fmt := { ebits := 5, mbits := 2, bias := 15, snan := true, ieee := false, cnan := 0x7E }
def fmtTH8E4 : Fmt := { ebits := 4, mbits := 3, bias := 7, snan := false, ieee := false, cnan := 0x7F }
def fmtTH4B : Fmt := { ebits := 2, mbits := 1, bias := 1, snan := false, ieee := false, cnan := 0x7 }

/-- The flags of R73 and R195, by bit: INVALID, DIVZERO, OVERFLOW, UNDERFLOW, INEXACT, NONFINITE. -/
abbrev Flags := BitVec 6
def fINVALID : Flags := 1
def fDIVZERO : Flags := 2
def fOVERFLOW : Flags := 4
def fUNDERFLOW : Flags := 8
def fINEXACT : Flags := 16
def fNONFINITE : Flags := 32

/-- R46, R47: the value that an encoding has. -/
def Fmt.decode (f : Fmt) (bits : Nat) : FVal :=
  let s := bits / 2 ^ (f.ebits + f.mbits) % 2 == 1
  let e := bits / 2 ^ f.mbits % 2 ^ f.ebits
  let m := bits % 2 ^ f.mbits
  if e = 2 ^ f.ebits - 1 then
    (if m = 0 then .inf s else .nan (f.snan && decide (m < 2 ^ (f.mbits - 1))))
  else if e = 0 then .fin s m (1 - f.bias - f.mbits)
  else .fin s (2 ^ f.mbits + m) (e - f.bias - f.mbits)

/-- The rounding modes of R59; `sr r` is stochastic rounding with the random value r of R62. -/
inductive Mode where
  | rne
  | rz
  | sr (r : Nat)
  deriving DecidableEq, Repr

/-- Does the magnitude t + rem / 2^k (in units of the last place) round up? -/
def Mode.up (md : Mode) (t rem k : Nat) : Bool :=
  match md with
  | .rne => decide (2 ^ k < 2 * rem) || (decide (2 ^ k = 2 * rem) && t % 2 == 1)
  | .rz => false
  | .sr r => decide (r < rem * 2 ^ 32 / 2 ^ k)

/-- Round m × 2^e to a multiple of 2^q: the multiple, and whether it is exact. -/
def roundAt (md : Mode) (m : Nat) (e q : Int) : Nat × Bool :=
  if q ≤ e then (m * 2 ^ (e - q).toNat, true)
  else
    let k := (q - e).toNat
    let t := m / 2 ^ k
    let rem := m % 2 ^ k
    (if md.up t rem k then t + 1 else t, rem == 0)

/-- Is a × 2^x at least b × 2^y? -/
def geScaled (a : Nat) (x : Int) (b : Nat) (y : Int) : Bool :=
  if y ≤ x then decide (b ≤ a * 2 ^ (x - y).toNat) else decide (b * 2 ^ (y - x).toNat ≤ a)

/-- The exponent of the leading bit of m × 2^e, for m > 0. -/
def leadExp (m : Nat) (e : Int) : Int := (Nat.log2 m : Int) + e

/-- The largest finite magnitude of a format: mantissa and exponent. -/
def Fmt.maxM (f : Fmt) : Nat := 2 ^ (f.mbits + 1) - 1
def Fmt.maxE (f : Fmt) : Int := (2 ^ f.ebits - 2 : Int) - f.bias - f.mbits
/-- The exponent of the smallest normal. -/
def Fmt.emin (f : Fmt) : Int := 1 - f.bias

/-- R59 to R61, R65, R73: round a value into a format's set of values, with the flags that this rounding raises.
Tininess is judged after rounding with an unbounded exponent, as IEEE 754 gives it (R71, R73). -/
def Fmt.round (f : Fmt) (md : Mode) (v : FVal) : FVal × Flags :=
  match v with
  | .nan s => (.nan false, if s then fINVALID else 0)
  | .inf s => (.inf s, 0)
  | .fin s m e =>
    if m = 0 then (.fin s 0 0, 0)
    else
      let ovf : FVal := match md with
        | .rz => if f.ieee then .fin s f.maxM f.maxE else .inf s
        | _ => .inf s
      let exactOver := !geScaled f.maxM f.maxE m e
      let qn := leadExp m e - f.mbits
      let q := max qn (f.emin - f.mbits)
      let (t, exact) := roundAt md m e q
      let isOver := match md with
        | .sr _ => exactOver
        | _ => !geScaled f.maxM f.maxE t q
      if isOver then (ovf, fOVERFLOW ||| fINEXACT)
      else
        let (tn, _) := roundAt md m e qn
        let tiny := !geScaled tn qn 1 f.emin
        (.fin s t q, if exact then 0 else (fINEXACT ||| if tiny then fUNDERFLOW else 0))

/-- The encoding of a value that the format holds exactly (R45 to R47, R54). -/
def Fmt.encode (f : Fmt) (v : FVal) : Nat :=
  let top := 2 ^ (f.ebits + f.mbits)
  match v with
  | .nan _ => f.cnan
  | .inf s => (if s then top else 0) + (2 ^ f.ebits - 1) * 2 ^ f.mbits
  | .fin s m e =>
    (if s then top else 0) +
    (if m = 0 then 0
     else
       let q := max (leadExp m e - f.mbits) (f.emin - f.mbits)
       let t := if q ≤ e then m * 2 ^ (e - q).toNat else m / 2 ^ (q - e).toNat
       if t < 2 ^ f.mbits then t
       else (q + f.bias + f.mbits).toNat * 2 ^ f.mbits + (t - 2 ^ f.mbits))

def FVal.isInf : FVal → Bool
  | .inf _ => true
  | _ => false

/-- Is the value an infinity or a NaN? -/
def FVal.nonfinite : FVal → Bool
  | .fin .. => false
  | _ => true

def FVal.isNan : FVal → Bool
  | .nan _ => true
  | _ => false

def FVal.isSnan : FVal → Bool
  | .nan s => s
  | _ => false

def FVal.isZero : FVal → Bool
  | .fin _ m _ => m == 0
  | _ => false

def FVal.sign : FVal → Bool
  | .nan _ => false
  | .inf s => s
  | .fin s _ _ => s

def FVal.negate : FVal → FVal
  | .nan s => .nan s
  | .inf s => .inf !s
  | .fin s m e => .fin (!s) m e

def FVal.zero : FVal := .fin false 0 0

/-- INVALID for a signalling NaN among the operands (R54). -/
def snanFlag (l : List FVal) : Flags := if l.any FVal.isSnan then fINVALID else 0

/-- ±m × 2^e as an integer multiple of 2^q, for q ≤ e. -/
def FVal.scaled (s : Bool) (m : Nat) (e q : Int) : Int :=
  let v : Int := (m * 2 ^ (e - q).toNat : Nat)
  if s then -v else v

/-- The exact sum of two values, with INVALID for opposite infinities (R72). An exact zero sum of nonzero terms is +0;
of zeros of one sign, that sign. -/
def FVal.addX (a b : FVal) : FVal × Flags :=
  match a, b with
  | .nan _, _ => (.nan false, snanFlag [a, b])
  | _, .nan _ => (.nan false, snanFlag [a, b])
  | .inf s, .inf t => if s = t then (.inf s, 0) else (.nan false, fINVALID)
  | .inf s, _ => (.inf s, 0)
  | _, .inf t => (.inf t, 0)
  | .fin s m e, .fin t n g =>
    if m = 0 ∧ n = 0 then (.fin (s && t) 0 0, 0)
    else
      let q := min e g
      let z := FVal.scaled s m e q + FVal.scaled t n g q
      (.fin (decide (z < 0)) z.natAbs q, 0)

/-- The exact product, with INVALID for zero times infinity (R72). -/
def FVal.mulX (a b : FVal) : FVal × Flags :=
  match a, b with
  | .nan _, _ => (.nan false, snanFlag [a, b])
  | _, .nan _ => (.nan false, snanFlag [a, b])
  | .inf s, .inf t => (.inf (s != t), 0)
  | .inf s, .fin t n _ => if n = 0 then (.nan false, fINVALID) else (.inf (s != t), 0)
  | .fin s m _, .inf t => if m = 0 then (.nan false, fINVALID) else (.inf (s != t), 0)
  | .fin s m e, .fin t n g => (.fin (s != t) (m * n) (e + g), 0)

/-- The format in which an operation computes (R71): binary32, or binary64 under F64. -/
def cfmt (f64 : Bool) : Fmt := if f64 then fmtB64 else fmtB32

/-- An operation rounded once to nearest even in format f, with all its flags. -/
def rnd (f : Fmt) (r : FVal × Flags) : FVal × Flags :=
  let (v, g) := f.round .rne r.1
  (v, r.2 ||| g)

def fadd (f : Fmt) (a b : FVal) : FVal × Flags := rnd f (a.addX b)
def fsub (f : Fmt) (a b : FVal) : FVal × Flags := rnd f (a.addX b.negate)
def fmul (f : Fmt) (a b : FVal) : FVal × Flags := rnd f (a.mulX b)

/-- R130, R72: a × b + c rounded once; zero times infinity is invalid also when the addend is NaN. -/
def ffma (f : Fmt) (a b c : FVal) : FVal × Flags :=
  let (p, g) := a.mulX b
  let (v, h) := p.addX c
  let (w, k) := f.round .rne v
  (w, snanFlag [a, b, c] ||| g ||| h ||| k)

/-- The order of two values that are not NaN: is a below b? −0 and +0 are equal (R57). -/
def FVal.lt (a b : FVal) : Bool :=
  match a, b with
  | .nan _, _ => false
  | _, .nan _ => false
  | .inf s, .inf t => s && !t
  | .inf s, .fin .. => s
  | .fin .., .inf t => !t
  | .fin s m e, .fin t n g =>
    let q := min e g
    decide (FVal.scaled s m e q < FVal.scaled t n g q)

/-- R57: equality of values. -/
def FVal.eq (a b : FVal) : Bool := !a.isNan && !b.isNan && !a.lt b && !b.lt a

/-- R58: the NaN-propagating maximum; max(±0, ∓0) is +0. -/
def fmax (a b : FVal) : FVal × Flags :=
  if a.isNan || b.isNan then (.nan false, snanFlag [a, b])
  else if a.lt b then (b, 0) else if b.lt a then (a, 0)
  else (if a.sign then b else a, 0)

/-- R58: the NaN-propagating minimum; min(±0, ∓0) is −0. -/
def fmin (a b : FVal) : FVal × Flags :=
  if a.isNan || b.isNan then (.nan false, snanFlag [a, b])
  else if a.lt b then (a, 0) else if b.lt a then (b, 0)
  else (if a.sign then a else b, 0)

/-- R58: |x| with sign 0; a NaN gives the canonical NaN. -/
def FVal.abs : FVal → FVal × Flags
  | .nan s => (.nan false, if s then fINVALID else 0)
  | .inf _ => (.inf false, 0)
  | .fin _ m e => (.fin false m e, 0)

/-- A value of binary32 as its encoding, and back. -/
def toB32 (v : FVal) : BitVec 32 := BitVec.ofNat 32 (fmtB32.encode v)
def ofB32 (b : BitVec 32) : FVal := fmtB32.decode b.toNat

def fOne : FVal := .fin false 1 0
def fTwo : FVal := .fin false 1 1
def fHalf : FVal := .fin false 1 (-1)

/-! ### Conversion on read and write (R63, R64, R66) -/

/-- R64: an input element: stored value × scale, rounded once to nearest even in the computing format. A signalling
NaN raises INVALID (R54). -/
def readScaled (f64 : Bool) (scale : BitVec 32) (v : FVal) : FVal × Flags :=
  rnd (cfmt f64) (v.mulX (ofB32 scale))

/-- R63, R64, R66: a computed value written through a scale into format f by mode md. A binary64 result into a short
format is rounded to binary32 first (to nearest even under stochastic rounding). -/
def writeScaled (f64 : Bool) (f : Fmt) (md : Mode) (scale : BitVec 32) (v : FVal) : FVal × Flags :=
  let (p, g) := v.mulX (ofB32 scale)
  if f64 && f.ebits != 11 && f.mbits != 23 then
    let (w, h) := fmtB32.round (match md with | .sr _ => .rne | m => m) p
    let (x, k) := f.round md w
    (x, g ||| h ||| k)
  else
    let (x, k) := f.round md p
    (x, g ||| k)

/-- R62: the random value of one element: seed k, gang slot g, count n, nibble address a. -/
def srRandom (k : W64) (g n a : Nat) : Nat :=
  let x0 : W64 := (w64 g <<< 56) ^^^ (w64 n <<< 26) ^^^ w64 a ^^^ k
  let x1 := x0 ^^^ (x0 >>> 33)
  let x2 := x1 * (0xFF51AFD7ED558CCD : W64)
  let x3 := x2 ^^^ (x2 >>> 33)
  let x4 := x3 * (0xC4CEB9FE1A85EC53 : W64)
  let x5 := x4 ^^^ (x4 >>> 33)
  fld x5 63 32

/-! ### TH4B blocks (R51, R70) -/

/-- R51, R63: the value of a code under scale byte c (the whole block is NaN for 0xFF; a magnitude of 2^128 or more
becomes infinite in binary32 and overflows). -/
def th4bValue (code c : Nat) (f64 : Bool) : FVal × Flags :=
  if c = 255 then (.nan false, 0)
  else match fmtTH4B.decode code with
    | .fin s m e =>
      let v : FVal := .fin s m (e + c - 127)
      if f64 then (v, 0) else fmtB32.round .rne v
    | v => (v, 0)

/-- The smallest integer k with m × 2^e ≤ 3 × 2^k, clamped to −127 … 127 (R70). -/
def th4bK (m : Nat) (e : Int) : Int :=
  if m = 0 then 0
  else
    let k0 := leadExp m e - 1
    let k := if geScaled 3 k0 m e then k0 else k0 + 1
    min (max k (-127)) 127

/-- Magnitude comparison of finite values, for amax. -/
def maxMag (l : List FVal) : Nat × Int :=
  l.foldl (fun acc v => match v with
    | .fin _ m e => if geScaled acc.1 acc.2 m e then acc else (m, e)
    | _ => acc) (0, 0)

/-- R70: encode a block of values, each with the mode it is rounded by: scale byte, codes and flags. -/
def th4bEncode (vs : List (FVal × Mode)) : Nat × List Nat × Flags :=
  let vals := vs.map Prod.fst
  if vals.all FVal.isNan then (255, vals.map fun _ => 7, snanFlag vals)
  else
    let (am, ae) := maxMag vals
    let k := th4bK am ae
    let one (p : FVal × Mode) : Nat × Flags :=
      match p.1 with
      | .nan s => (7, if s then fINVALID else 0)
      | .inf s => (if s then 14 else 6, 0)
      | .fin s m e =>
        let r := fmtTH4B.round p.2 (.fin s m (e - k))
        -- flags are judged against the block: tiny means a rounded code value below 1
        let tiny := match r.1 with
          | .fin _ t q => !geScaled t q 1 0
          | _ => false
        let inexact := decide (r.2 &&& fINEXACT ≠ 0)
        (fmtTH4B.encode r.1, (r.2 &&& fOVERFLOW) ||| if inexact then (fINEXACT ||| if tiny then fUNDERFLOW else 0) else 0)
    let rs := vs.map one
    ((k + 127).toNat, rs.map Prod.fst, rs.foldl (fun g r => g ||| r.2) 0)

/-! ### Array operands (R67, R68) -/

/-- The 12-bit significand format of R67: binary32's range with 11 fraction bits, rounding to multiples of the 12th
significant bit from the leading 1. -/
def arrayRound (v : FVal) : FVal × Flags :=
  match v with
  | .fin s m e =>
    if m = 0 then (v, 0)
    else
      let q := leadExp m e - 11
      let (t, _) := roundAt .rne m e q
      if geScaled fmtB32.maxM fmtB32.maxE t q then (.fin s t q, 0) else (.inf s, fOVERFLOW)
  | _ => (v, 0)

/-- R68: hi, truncated toward zero to 12 significant bits, and lo = x − hi, which is +0 where it is zero (R72); infinities
and NaN go to hi. -/
def arraySplit (v : FVal) : FVal × FVal :=
  match v with
  | .fin s m e =>
    let q := leadExp m e - 11
    if m = 0 ∨ q ≤ e ∨ m % 2 ^ (q - e).toNat = 0 then (v, FVal.zero)
    else (.fin s (roundAt .rz m e q).1 q, .fin s (m % 2 ^ (q - e).toNat) e)
  | _ => (v, FVal.zero)

end Sys2Proof.Machine
end

