-- ==== Sys2Proof/Machine/Functions.lean ====
section
/-! DEFINITION. The functions of R71, R132 and R135: their values to far more digits than their error bounds need, the bounds
themselves, and the function units whose bits the manual leaves open within those bounds (log entry 7). -/

namespace Sys2Proof.Machine

/-! ### Fixed-point values

A number x is kept as the integer nearest below x × 2^320. Every function below is computed to within about 2^-300, where the
bounds of the manual need at most 2^-149. -/

/-- 1. -/
def fxOne : Int := 2 ^ 320
def fxMul (a b : Int) : Int := a * b / fxOne
def fxDiv (a b : Int) : Int := a * fxOne / b

/-- A finite value in fixed point, cut off below 2^-320. -/
def fxOf (v : FVal) : Int :=
  match v with
  | .fin s m e =>
    let n : Int := if -320 ≤ e then (m * 2 ^ (e + 320).toNat : Nat) else (m / 2 ^ (-320 - e).toNat : Nat)
    if s then -n else n
  | _ => 0

/-- A fixed-point number as a value. -/
def fxVal (a : Int) : FVal := .fin (decide (a < 0)) a.natAbs (-320)

/-- The integer square root by Newton steps from above; `k` bounds the steps. -/
def sqrtStep (n : Nat) : Nat → Nat → Nat
  | 0, r => r
  | k + 1, r => let t := (r + n / r) / 2; if t < r then sqrtStep n k t else r
def natSqrt (n : Nat) : Nat := if n = 0 then 0 else sqrtStep n 400 (2 ^ (Nat.log2 n / 2 + 1))
def fxSqrt (a : Int) : Int := natSqrt (a.toNat * 2 ^ 320)

/-- 1 + y/k (1 + y/(k+1) (1 + … )), n further terms: the tail of an exponential series. -/
def expTail (y : Int) : Nat → Nat → Int
  | _, 0 => fxOne
  | k, n + 1 => fxOne + fxMul y (expTail y (k + 1) n) / k

/-- The n terms from i of z^(2i+1)/(2i+1), with the sign alternating where `alt` holds; p is z^(2i+1). -/
def oddSeries (alt : Bool) (z2 : Int) : Nat → Nat → Int → Int
  | _, 0, _ => 0
  | i, n + 1, p =>
    let t := p / (2 * i + 1 : Nat)
    (if alt && i % 2 == 1 then -t else t) + oddSeries alt z2 (i + 1) n (fxMul p z2)
/-- The inverse hyperbolic tangent and the inverse tangent for |z| ≤ 1/3. -/
def fxAtanh (z : Int) : Int := oddSeries false (fxMul z z) 0 110 z
def fxAtan (z : Int) : Int := oddSeries true (fxMul z z) 0 110 z

def fxLn2 : Int := 2 * fxAtanh (fxOne / 3)
def fxPi : Int := 16 * fxAtan (fxOne / 5) - 4 * fxAtan (fxOne / 239)

/-- e^x; zero below −400. -/
def fxExp (x : Int) : Int :=
  if x < -400 * fxOne then 0
  else
    let k := x / fxLn2
    let r := expTail (x - k * fxLn2) 1 80
    if 0 ≤ k then r * 2 ^ k.toNat else r / 2 ^ (-k).toNat

/-- ln(1 + u) for 0 ≤ u ≤ 1. -/
def fxLog1p (u : Int) : Int := 2 * fxAtanh (fxDiv u (2 * fxOne + u))

/-- The terms x^(2i+1)/(2i+1)!! from the term t of index i on. -/
def normSeries (x2 : Int) : Nat → Nat → Int → Int
  | _, 0, _ => 0
  | i, n + 1, t => t + normSeries x2 (i + 1) n (fxMul t x2 / (2 * i + 3 : Nat))

/-- φ(x), the normal density. -/
def fxPhi (x : Int) : Int := fxDiv (fxExp (-(fxMul x x) / 2)) (fxSqrt (2 * fxPi))

/-- The continued fraction t + i/(t + (i+1)/(t + …)), n further levels. -/
def millsTail (t : Int) : Nat → Nat → Int
  | _, 0 => t
  | i, n + 1 => t + fxDiv (i * fxOne) (millsTail t (i + 1) n)

/-- Φ(x), the normal distribution function: beyond ±6 by the tail φ(t) / (t + 1/(t + 2/(t + …))). -/
def fxCdf (x : Int) : Int :=
  let tail (t : Int) : Int := fxDiv (fxPhi t) (millsTail t 1 200)
  if 6 * fxOne < x then fxOne - tail x else if x < -6 * fxOne then tail (-x)
  else fxOne / 2 + fxMul (fxPhi x) (normSeries (fxMul x x) 0 420 x)

def fxSigmoid (x : Int) : Int :=
  if 0 ≤ x then fxDiv fxOne (fxOne + fxExp (-x)) else let t := fxExp x; fxDiv t (fxOne + t)

/-- tanh. -/
def fxTanh (x : Int) : Int :=
  let t := fxExp (-2 * (x.natAbs : Int))
  let v := fxDiv (fxOne - t) (fxOne + t)
  if x < 0 then -v else v

/-- cos and sin of an angle by their series, after reduction modulo 2π. -/
def trigTail (y : Int) : Nat → Nat → Int
  | _, 0 => fxOne
  | k, n + 1 => fxOne - fxMul y (trigTail y (k + 2) n) / (k * (k + 1) : Nat)
def fxCos (x : Int) : Int := let r := x % (2 * fxPi); trigTail (fxMul r r) 1 80
def fxSin (x : Int) : Int := let r := x % (2 * fxPi); fxMul r (trigTail (fxMul r r) 2 80)

/-- ln of a positive number m × 2^e. -/
def fxLn (m : Nat) (e : Int) : Int :=
  let k := leadExp m e
  let f := fxOf (.fin false m (e - k))
  fxLog1p (f - fxOne) + k * fxLn2

/-- GELU and SiLU, and their derivatives (R132, R135). -/
def fxGelu (x : Int) : Int := fxMul x (fxCdf x)
def fxGeluD (x : Int) : Int := fxCdf x + fxMul x (fxPhi x)
def fxSilu (x : Int) : Int := fxMul x (fxSigmoid x)
def fxSiluD (x : Int) : Int := let t := fxSigmoid x; fxMul t (fxOne + fxMul x (fxOne - t))

/-- The place where a rising function reaches y, between lo and hi, by halving; `n` bounds the halvings. -/
def fxSolve (f : Int → Int) (y : Int) : Nat → Int → Int → Int
  | 0, lo, _ => lo
  | n + 1, lo, hi => let m := (lo + hi) / 2; if f m < y then fxSolve f y n m hi else fxSolve f y n lo m

/-- R133: the exact x_min of GELU or SiLU, where the derivative is zero. -/
def fxMin (silu : Bool) : Int := fxSolve (if silu then fxSiluD else fxGeluD) 0 330 (-2 * fxOne) 0

/-! ### Error bounds -/

/-- The exponent of the binary32 ulp of a nonzero value whose leading exponent is l (R71). -/
def ulpExp (l : Int) : Int := max (l - 23) (-149)

/-- Is the result y within tol of the exact value v? The value v is itself known to 2^-200 of it and 2^-300. An exact value that, tol
added, rounds beyond the largest binary32 number admits the infinity of its sign. -/
def within (v tol y : FVal) : Bool :=
  let room := (tol.addX (v.abs.1.mulX (.fin false 1 (-200))).1).1.addX (.fin false 1 (-300))
  match y with
  | .nan _ => false
  | .inf s => v.sign == s && !((v.abs.1.addX room.1).1.lt (.fin false (2 ^ 25 - 1) 103))
  | .fin .. => !(room.1.lt ((y.addX v.negate).1.abs.1))

/-- n ulp of a value. -/
def ulps (n : Nat) (v : FVal) : FVal :=
  match v with
  | .fin _ m e => if m = 0 then FVal.zero else .fin false n (ulpExp (leadExp m e))
  | _ => FVal.zero

/-- The bits that a part's function unit gives, where they keep the bound; a part of the manual has no others, and for bits that
break it the exact value rounded stands. -/
def keepBound (ok : FVal → Bool) (v : FVal) (bits : BitVec 32) : FVal :=
  if ok (ofB32 bits) then ofB32 bits else (fmtB32.round .rne v).1

/-! ### Function units (R71, R72): special cases by the table, the rest by the free functions of Config within their bounds -/

/-- The flags of a function unit's finite-operand result (R73): `exact` says whether a result equals the exact one, which decides
INEXACT; an infinite result raises OVERFLOW and an inexact one below the smallest normal, zero too, UNDERFLOW. -/
def freeResult (v : FVal) (exact : FVal → Bool) : FVal × Flags :=
  let inexact := !exact v
  let tiny := match v with
    | .fin _ m e => !geScaled m e 1 fmtB32.emin
    | _ => false
  (v, (if inexact then fINEXACT else 0) ||| (if inexact && tiny then fUNDERFLOW else 0) |||
    (match v with | .inf _ => fOVERFLOW | _ => 0))

/-- The exponent k when m × 2^e is the power of two 2^k. -/
def powTwo (m : Nat) (e : Int) : Option Int := if m = 2 ^ Nat.log2 m then some (leadExp m e) else none

/-- The integer that m × 2^e is, when it is one. -/
def intOf (m : Nat) (e : Int) : Option Nat :=
  if 0 ≤ e then some (m * 2 ^ e.toNat) else if m % 2 ^ (-e).toNat = 0 then some (m / 2 ^ (-e).toNat) else none

/-- 1/x for x = ±m × 2^e, to 2^-259 of it. -/
def recipVal (s : Bool) (m : Nat) (e : Int) : FVal := .fin s (2 ^ (Nat.log2 m + 260) / m) (-(Nat.log2 m + 260 : Nat) - e)

/-- 1/√x for x = m × 2^e, to 2^-270 of it. -/
def rsqrtVal (m : Nat) (e : Int) : FVal :=
  let (n, g) := if e % 2 = 0 then (m, e / 2) else (2 * m, (e - 1) / 2)
  .fin false (natSqrt (2 ^ 600 / n)) (-300 - g)

/-- 2^x, its power of two taken apart. -/
def exp2Val (x : Int) : FVal :=
  let k := x / fxOne
  .fin false (fxExp (fxMul (x - k * fxOne) fxLn2)).toNat (k - 320)

/-- log2 of m × 2^e. -/
def log2Val (m : Nat) (e : Int) : FVal := fxVal (fxDiv (fxLn m e) fxLn2)

/-- R71: the bounds of the table. -/
def ulpOk (n : Nat) (v y : FVal) : Bool := within v (ulps n v) y
def log2Ok (m : Nat) (e : Int) (v y : FVal) : Bool :=
  if geScaled m e 1 (-1) && geScaled 2 0 m e then within v (.fin false 1 (-22)) y else ulpOk 2 v y
def trigOk (m : Nat) (e : Int) (v y : FVal) : Bool :=
  if geScaled 65536 0 m e then within v (.fin false 1 (-21)) y else !y.isNan && !(fOne.lt y.abs.1)

def fRecip (a : FVal) : FVal × Flags :=
  match a with
  | .nan s => (.nan false, if s then fINVALID else 0)
  | .inf s => (.fin s 0 0, 0)
  | .fin s m e =>
    if m = 0 then (.inf s, fDIVZERO)
    else if !geScaled m e 1 (-128) then (.inf s, fOVERFLOW ||| fINEXACT)
    else freeResult (keepBound (ulpOk 1 (recipVal s m e)) (recipVal s m e) (Config.recipBits (toB32 a))) fun v => FVal.eq (v.mulX a).1 fOne

def fRsqrt (a : FVal) : FVal × Flags :=
  match a with
  | .nan s => (.nan false, if s then fINVALID else 0)
  | .inf s => if s then (.nan false, fINVALID) else (.fin false 0 0, 0)
  | .fin s m e =>
    if m = 0 then (.inf s, fDIVZERO)
    else if s then (.nan false, fINVALID)
    else freeResult (keepBound (ulpOk 1 (rsqrtVal m e)) (rsqrtVal m e) (Config.rsqrtBits (toB32 a))) fun v => FVal.eq ((v.mulX v).1.mulX a).1 fOne

def fExp2 (a : FVal) : FVal × Flags :=
  match a with
  | .nan s => (.nan false, if s then fINVALID else 0)
  | .inf s => if s then (.fin false 0 0, 0) else (.inf false, 0)
  | .fin s m e =>
    if !s && geScaled m e 128 0 then (.inf false, fOVERFLOW ||| fINEXACT)
    else if s && !geScaled 149 0 m e then
      -- "+0 or the smallest subnormal, by rounding": the exact result 2^x is below 2^-149; it is a tie at -150
      (if !(geScaled m e 150 0) then (.fin false 1 (-149), fUNDERFLOW ||| fINEXACT)
       else (.fin false 0 0, fUNDERFLOW ||| fINEXACT))
    else freeResult (keepBound (ulpOk 2 (exp2Val (fxOf a))) (exp2Val (fxOf a)) (Config.exp2Bits (toB32 a))) fun v => match intOf m e with
      | some n => FVal.eq v (.fin false 1 (if s then -(n : Int) else n))
      | none => false

def fLog2 (a : FVal) : FVal × Flags :=
  match a with
  | .nan s => (.nan false, if s then fINVALID else 0)
  | .inf s => if s then (.nan false, fINVALID) else (.inf false, 0)
  | .fin s m e =>
    if m = 0 then (.inf true, fDIVZERO)
    else if s then (.nan false, fINVALID)
    else if geScaled m e 1 0 && geScaled 1 0 m e then (FVal.zero, 0)
    else freeResult (keepBound (log2Ok m e (log2Val m e)) (log2Val m e) (Config.log2Bits (toB32 a))) fun v => match powTwo m e with
      | some k => FVal.eq v (.fin (decide (k < 0)) k.natAbs 0)
      | none => false

def fSin (a : FVal) : FVal × Flags :=
  match a with
  | .nan s => (.nan false, if s then fINVALID else 0)
  | .inf _ => (.nan false, fINVALID)
  | .fin s m e =>
    if m = 0 then (.fin s 0 0, 0)
    else
      let v := fxVal (fxSin (fxOf a))
      freeResult (keepBound (trigOk m e v) v (Config.sinBits (toB32 a))) fun _ => false

def fCos (a : FVal) : FVal × Flags :=
  match a with
  | .nan s => (.nan false, if s then fINVALID else 0)
  | .inf _ => (.nan false, fINVALID)
  | .fin _ m e =>
    if m = 0 then (fOne, 0)
    else
      let v := fxVal (fxCos (fxOf a))
      freeResult (keepBound (trigOk m e v) v (Config.cosBits (toB32 a))) fun _ => false

/-! ### Activations (R132 to R135) -/

/-- The exact value at zero of the activations whose value there is a binary32 number (R132); softplus has none. -/
def actAtZero (fn : Nat) : FVal :=
  match fn with
  | 2 => fHalf
  | 4 => fOne
  | 5 => .nan false
  | _ => FVal.zero

/-- R132: the exact value of the activations that are approximated, at a finite input; e^x beyond 2^128 counts as 2^200. -/
def actVal (fn : Nat) (alpha : BitVec 32) (x : FVal) : FVal :=
  let a := fxOf x
  match fn with
  | 2 => fxVal (fxSigmoid a)
  | 3 => fxVal (fxTanh a)
  | 4 => if 100 * fxOne < a then .fin false 1 200 else fxVal (fxExp a)
  | 5 => fxVal (max a 0 + fxLog1p (fxExp (-(a.natAbs : Int))))
  | 6 => ((ofB32 alpha).mulX (fxVal (fxExp (min a 0) - fxOne))).1
  | 7 => fxVal (fxGelu a)
  | _ => fxVal (fxSilu a)

/-- R132: within 4 ulp, or within 2^-140 where the exact result is below 2^-100. Of the functions approximated, exp and softplus
alone overflow at a finite input. -/
def actOk (fn : Nat) (v y : FVal) : Bool :=
  (fn == 4 || fn == 5 || !y.isInf) && if v.abs.1.lt (.fin false 1 (-100)) then within v (.fin false 1 (-140)) y else ulpOk 4 v y

/-- R60, R132: an approximated activation at a finite input: +inf with OVERFLOW where it overflows. -/
def actFree (fn : Nat) (alpha : BitVec 32) (x : FVal) (exact : FVal → Bool) : FVal × Flags :=
  let v := actVal fn alpha x
  match (fmtB32.round .rne v).1 with
  | .inf s => (.inf s, fOVERFLOW ||| fINEXACT)
  | _ => freeResult (keepBound (actOk fn v) v (Config.actBits fn alpha (toB32 x))) exact

/-- The forward activation with code fn (R175), in binary32. -/
def fAct (fn : Nat) (alpha : BitVec 32) (x : FVal) : FVal × Flags :=
  match x with
  | .nan s => (.nan false, if s then fINVALID else 0)
  | .inf s =>
    match fn with
    | 0 | 1 | 4 | 5 => (if s then FVal.zero else .inf false, 0)
    | 2 => (if s then FVal.zero else fOne, 0)
    | 3 => (if s then fOne.negate else fOne, 0)
    | 6 => (if s then (ofB32 alpha).negate else .inf false, 0)
    | _ => (if s then .fin true 0 0 else .inf false, 0)
  | .fin s m e =>
    match fn with
    | 0 => if s || m == 0 then (FVal.zero, 0) else (.fin s m e, 0)
    | 1 => if s || m == 0 then (FVal.zero, 0) else fmul fmtB32 x x
    | 6 => if !s && m != 0 then (.fin s m e, 0)
      else actFree 6 alpha x fun v => m == 0 && v.isZero
    | _ => actFree fn 0 x fun v => m == 0 && FVal.eq v (actAtZero fn)

/-- R133: X_MIN and Y_MIN of GELU and SiLU, the binary32 numbers nearest the exact minimum (log entry 11). -/
def xMin (silu : Bool) : FVal := ofB32 (if silu then 0xBFA3A4BA else 0xBF407569)
def yMin (silu : Bool) : FVal := ofB32 (if silu then 0xBE8E92E8 else 0xBE2E0CEF)

/-- R134: log2(e) as a binary32 constant. -/
def log2e : FVal := ofB32 0x3FB8AA3B

/-- R133: the branch mask bit of an input as read. -/
def branchBit (silu : Bool) (x : FVal) : Bool := x.lt (xMin silu)

/-- R135: x*, the exact point of the branch whose function value is y, and the derivative there. Branch 1 lies below x_min, where
the function falls, branch 0 above it, where it rises. -/
def derivPoint (silu br : Bool) (y : FVal) : Int :=
  let f := if silu then fxSilu else fxGelu
  if br then fxSolve (fun x => -(f x)) (-(fxOf y)) 340 (-256 * fxOne) (fxMin silu)
  else fxSolve f (fxOf y) 480 (fxMin silu) (max (fxOf y) 0 + fxOne)

def derivVal (silu : Bool) (x : Int) : Int := if silu then fxSiluD x else fxGeluD x

/-- R135: the bounds of the recovered derivative d at the point x* of the branch where the function is y. The constant Y_MIN lies below the
exact minimum, so that no x* has y = Y_MIN and no bound applies: any finite d stands there (DESIGN CHOICE, log entry 11). -/
def derivOk (silu : Bool) (y : FVal) (x : Int) (d : FVal) : Bool :=
  let v := fxVal (derivVal silu x)
  if fxOf y < (if silu then fxSilu else fxGelu) (fxMin silu) then !d.nonfinite
  else if v.abs.1.lt (.fin false 1 (-100)) then within v (.fin false 1 (-110)) d
  else if (x - fxMin silu).natAbs < 2 ^ 314 then within v (.fin false 1 (-12)) d
  else within v (v.abs.1.mulX (.fin false 1 (-10))).1 d

/-- R134, R135: dx from the saved output y, the incoming gradient dy and the branch bit. -/
def fDact (fn : Nat) (alpha : BitVec 32) (y dy : FVal) (br : Bool) : FVal × Flags :=
  if y.isNan || dy.isNan then (.nan false, snanFlag [y, dy])
  else
    let f := fmtB32
    match fn with
    | 0 => (if FVal.zero.lt y then dy else FVal.zero, 0)
    | 1 =>
      if y.isZero then (FVal.zero, 0)
      else match y with
        | .inf false => fmul f (.inf false) dy
        | _ =>
          let (t, g1) := fRsqrt y
          let (u, g2) := fmul f y t
          let (d, g3) := fmul f fTwo u
          let (x, g4) := fmul f d dy
          (x, g1 ||| g2 ||| g3 ||| g4)
    | 2 =>
      let (t, g1) := fsub f fOne y
      let (d, g2) := fmul f y t
      let (x, g3) := fmul f d dy
      (x, g1 ||| g2 ||| g3)
    | 3 =>
      let (t, g1) := ffma f y.negate y fOne
      let (x, g2) := fmul f t dy
      (x, g1 ||| g2)
    | 4 => fmul f y dy
    | 5 =>
      let (t, g1) := fmul f y.negate log2e
      let (e, g2) := fExp2 t
      let (d, g3) := fsub f fOne e
      let (x, g4) := fmul f d dy
      (x, g1 ||| g2 ||| g3 ||| g4)
    | 6 =>
      if FVal.zero.lt y then (dy, 0)
      else
        let (t, g1) := fadd f y (ofB32 alpha)
        let (x, g2) := fmul f t dy
        (x, g1 ||| g2)
    | _ =>
      let silu := fn == 8
      let (d, g) :=
        if !br && y == .inf false then (fOne, 0)
        else if !br && y.isZero then (fHalf, 0)
        else if y.lt (yMin silu) then (FVal.zero, 0)
        else if br && (y.isZero || FVal.zero.lt y) then (FVal.zero, 0)
        else
          let x := derivPoint silu br y
          freeResult (keepBound (derivOk silu y x) (fxVal (derivVal silu x)) (Config.derivBits silu br (toB32 y))) fun _ => false
      let (x, h) := fmul f d dy
      (x, g ||| h)

end Sys2Proof.Machine
end

