-- ==== Sys2Proof/Machine/Operands.lean ====
section
/-! DEFINITION. The operand forms of the engine instructions: the scratchpad with its written map (R85, R89), the stream
descriptor's fields and addressing (R80 to R84, R52), and reading and writing whole streams (R63, R64, R70, R83). -/

namespace Sys2Proof.Machine

/-! ### The scratchpad -/

/-- R85. -/
def scratchSize : Nat := 33554432

/-- R89: one byte as read; a line whose bit is clear reads as zero. -/
def Scratch.byte (m : Scratch) (a : Nat) : Byte :=
  if m.written.contains (a / 4096) then sget 0 m.bytes a else 0

/-- The n bytes from address a. -/
def Scratch.read (m : Scratch) (a n : Nat) : List Byte :=
  (List.range n).map fun i => m.byte (a + i)

/-- R89: the first write to a line stores zeros in the rest of it and sets its bit. -/
def Scratch.touch (m : Scratch) (line : Nat) : Scratch :=
  if m.written.contains line then m
  else { bytes := bzero m.bytes (line * 4096) 4096, written := setIns m.written line }

/-- R89: store bytes from address a. -/
def Scratch.write (m : Scratch) (a : Nat) : List Byte → Scratch
  | [] => m
  | b :: r =>
    let t := m.touch (a / 4096)
    Scratch.write { t with bytes := sset 0 t.bytes a b } (a + 1) r

/-- R89: the written map is cleared at the start of every command. -/
def Scratch.clearMap (m : Scratch) : Scratch := { m with written := [] }

/-! ### Descriptor fields (R80) -/

/-- The field of w bits at bit lo. -/
def dField (d : BitVec 256) (lo w : Nat) : Nat := (d.toNat >>> lo) % 2 ^ w

def dBase (d : BitVec 256) : Nat := dField d 0 25
def dFmt (d : BitVec 256) : Nat := dField d 25 4
def dRound (d : BitVec 256) : Nat := dField d 29 2
/-- The extent of dimension k, 1 to 65,536. -/
def dExt (d : BitVec 256) (k : Nat) : Nat := dField d (32 + 16 * k) 16 + 1
/-- The signed stride of dimension k. -/
def dStride (d : BitVec 256) (k : Nat) : Int :=
  let v := dField d (96 + 26 * k) 26
  if 2 ^ 25 ≤ v then (v : Int) - 2 ^ 26 else v
def dScale (d : BitVec 256) : BitVec 32 := BitVec.ofNat 32 (dField d 200 32)
def dMaskD (d : BitVec 256) : Nat := dField d 232 5
def dMaskEn (d : BitVec 256) : Bool := dField d 237 1 == 1
def dMaskInv (d : BitVec 256) : Bool := dField d 238 1 == 1
def dMaskWr (d : BitVec 256) : Bool := dField d 239 1 == 1

/-- The descriptor with the field of w bits at lo set to v (R190). -/
def dSet (d : BitVec 256) (lo w v : Nat) : BitVec 256 :=
  let n := d.toNat
  BitVec.ofNat 256 (n - dField d lo w * 2 ^ lo + v % 2 ^ w * 2 ^ lo)

/-- The four extents. -/
def dExts (d : BitVec 256) : List Nat := [dExt d 0, dExt d 1, dExt d 2, dExt d 3]

/-- The element count. -/
def dCount (d : BitVec 256) : Nat := dExt d 0 * dExt d 1 * dExt d 2 * dExt d 3

/-! ### Formats (R81) -/

/-- The binary layout of a number format. -/
def fmtOf (code : Nat) : Fmt :=
  match code with
  | 1 => fmtB64
  | 2 => fmtB32
  | 3 => fmtB16
  | 4 => fmtTH16
  | 5 => fmtTH8E5
  | 6 => fmtTH8E4
  | _ => fmtTH4B

/-- The element size in bytes of a byte-sized format; 0 for BIT and TH4B. -/
def elemSize (code : Nat) : Nat :=
  match code with
  | 1 => 8
  | 2 | 10 | 11 => 4
  | 3 | 4 | 9 => 2
  | 5 | 6 => 1
  | _ => 0

/-- The element size in bits, for comparing formats (R144): TH4B counts 4.25 bits, as 17 quarters. -/
def elemQuarters (code : Nat) : Nat := if code = 7 then 17 else if code = 8 then 4 else 32 * elemSize code

/-- The number formats of R44. -/
def isNum (code : Nat) : Bool := decide (1 ≤ code ∧ code ≤ 7)
/-- Any format of R81. -/
def isAnyFmt (code : Nat) : Bool := decide (1 ≤ code ∧ code ≤ 11)

/-! ### Addressing (R82) -/

/-- The stride unit in bytes (R81). -/
def strideUnit (code : Nat) : Int := if code = 7 then 544 else 1

/-- Coordinates of element j in stream order, i0 fastest. -/
def coord (d : BitVec 256) (j : Nat) : Nat × Nat × Nat × Nat :=
  let e0 := dExt d 0
  let e1 := dExt d 1
  let e2 := dExt d 2
  (j % e0, j / e0 % e1, j / (e0 * e1) % e2, j / (e0 * e1 * e2))

/-- The offset of a dimension-0 row from the base, in bytes. -/
def rowOffset (d : BitVec 256) (i1 i2 i3 : Nat) : Int :=
  strideUnit (dFmt d) * (i1 * dStride d 1 + i2 * dStride d 2 + i3 * dStride d 3)

/-- The bytes that one dimension-0 row of a contiguous format takes (R53, R82). -/
def rowBytes (d : BitVec 256) : Nat :=
  if dFmt d = 7 then 544 * ((dExt d 0 + 1023) / 1024) else (dExt d 0 + 7) / 8

/-- The byte that holds element j: of a TH4B element, the byte of its code. -/
def elemOffset (d : BitVec 256) (j : Nat) : Int :=
  let (i0, i1, i2, i3) := coord d j
  let r := rowOffset d i1 i2 i3
  if dFmt d = 8 then r + (i0 / 8 : Nat)
  else if dFmt d = 7 then r + (544 * (i0 / 1024) + i0 % 1024 / 2 : Nat)
  else r + i0 * dStride d 0

/-- The byte address of element j. -/
def elemAddr (d : BitVec 256) (j : Nat) : Nat := ((dBase d : Int) + elemOffset d j).toNat

/-- R52: the scale byte of a TH4B element from its code's byte offset in the group and the group's address. -/
def th4bScaleAddr (d : BitVec 256) (j : Nat) : Nat :=
  let (i0, i1, i2, i3) := coord d j
  ((dBase d : Int) + rowOffset d i1 i2 i3 + (544 * (i0 / 1024) + 512 + i0 % 1024 / 32 : Nat)).toNat

/-- R76: the lowest byte of the stream and the byte after its highest, as offsets from the base. -/
def spanOf (d : BitVec 256) : Int × Int :=
  let u := strideUnit (dFmt d)
  let reach (k : Nat) : Int := u * ((dExt d k : Int) - 1) * dStride d k
  let flat := decide (dFmt d = 7 ∨ dFmt d = 8)
  let ks := if flat then [1, 2, 3] else [0, 1, 2, 3]
  let lo := ks.foldl (fun a k => a + min 0 (reach k)) 0
  let hi := ks.foldl (fun a k => a + max 0 (reach k)) 0
  (lo, hi + (if flat then (rowBytes d : Int) else elemSize (dFmt d)))

/-- The byte interval [lo, hi) of the stream in the scratchpad. -/
def interval (d : BitVec 256) : Nat × Nat :=
  let (lo, hi) := spanOf d
  (((dBase d : Int) + lo).toNat, ((dBase d : Int) + hi).toNat)

/-! ### Checks at issue (R83, R84, R127) -/

/-- R84 without BASE: strides and STRIDE0. -/
def stridesOk (d : BitVec 256) : Bool :=
  let s := elemSize (dFmt d)
  let flat := decide (dFmt d = 7 ∨ dFmt d = 8)
  (!flat || dStride d 0 == 0) &&
    (decide (s ≤ 1) || [0, 1, 2, 3].all fun k => dStride d k % s == 0)

/-- R84 for a descriptor whose ROUND and mask fields are not checked (R83, R91). -/
def plainOk (allowed : Nat → Bool) (d : BitVec 256) : Bool :=
  let (lo, hi) := spanOf d
  let s := elemSize (dFmt d)
  isAnyFmt (dFmt d) && allowed (dFmt d) && stridesOk d &&
    decide (0 ≤ (dBase d : Int) + lo ∧ (dBase d : Int) + hi ≤ scratchSize) &&
    (decide (s ≤ 1) || dBase d % s == 0) && (dFmt d != 7 || dBase d % 32 == 0)

/-- R84 with the mask check of R83. -/
def Strm.ok (allowed : Nat → Bool) (t : Strm) : Bool :=
  plainOk allowed t.d && dRound t.d != 3 &&
    match t.mask with
    | none => true
    | some m => dFmt m == 8 && dExts m == dExts t.d && plainOk (· == 8) m

/-- R78: descriptor n as an instruction copies it, with its mask stream where enabled. -/
def strmOf (descs : Sparse (BitVec 256)) (n : Nat) : Strm :=
  let d := sget 0 descs n
  { d := d, mask := if dMaskEn d then some (sget 0 descs (dMaskD d)) else none }

/-- Do two byte intervals share a byte? -/
def meets (x y : Nat × Nat) : Bool := decide (x.1 < y.2 ∧ y.1 < x.2)

/-- R127: an output identical to an input, with no zero stride in a dimension of extent above 1. -/
def inPlace (o i : BitVec 256) : Bool :=
  dBase o == dBase i && dFmt o == dFmt i && dExts o == dExts i &&
    [0, 1, 2, 3].all fun k =>
      dStride o k == dStride i k &&
        (dStride o k != 0 || dExt o k == 1 || (k == 0 && (dFmt o == 7 || dFmt o == 8)))

/-- The mask streams of a list of streams. -/
def masksOf (l : List Strm) : List (BitVec 256) := l.filterMap Strm.mask

/-- R127: outputs meet no other output, and no input except in place; mask streams count as inputs. -/
def overlapOk (ins outs : List Strm) : Bool :=
  let is := ins.map Strm.d ++ masksOf ins ++ masksOf outs
  let os := outs.map Strm.d
  decide (os.Pairwise fun a b => meets (interval a) (interval b) = false) &&
    os.all fun o => is.all fun i => !meets (interval o) (interval i) || inPlace o i

/-- R76: the intervals that streams `ins` and the masks of `outs` are read over, and those that `outs` write over. -/
def readSpans (ins outs : List Strm) : List (Nat × Nat) := (ins.map Strm.d ++ masksOf ins ++ masksOf outs).map interval
def writeSpans (outs : List Strm) : List (Nat × Nat) := outs.map fun t => interval t.d

/-- R82, R88: does reading a stream read the 64-bit word: one in which an element lies or, of a BIT or TH4B stream, a byte of a row? What the
strides leave out is not read; an element that a mask replaces is (DESIGN CHOICE, log entry 59). -/
def readsWord (d : BitVec 256) (w : Nat) : Bool :=
  if dFmt d = 7 ∨ dFmt d = 8 then
    (List.range (dExt d 1 * dExt d 2 * dExt d 3)).any fun r =>
      let a := elemAddr d (r * dExt d 0)
      meets (a, a + rowBytes d) (w * 8, w * 8 + 8)
  else (List.range (dCount d)).any fun j => elemAddr d j / 8 == w

/-- R88: the hits in the words that reading the streams `ins` and the masks of `outs` reads. Every element of an input stream counts as read, also one
that the operation does not need: an element that no index of a gather names, one of VEXPD past the active ones, the input of SEL that is not taken
(DESIGN CHOICE, log entry 59: R88 does not say). -/
def readHits (ins outs : List Strm) (h : List EccHit) : List EccHit :=
  h.filter fun x => (ins.map Strm.d ++ masksOf ins ++ masksOf outs).any fun d => readsWord d x.word

/-- R88: do writes of the byte intervals [lo, hi), `full` in whole bytes and `part` in some bits, touch a word and not fill its 8 bytes, so that
the word is read to be merged? -/
def mergesWord (full part : List (Nat × Nat)) (h : EccHit) : Bool :=
  ((full ++ part).any fun g => meets g (h.word * 8, h.word * 8 + 8)) &&
    !(List.range 8).all fun i => full.any fun g => decide (g.1 ≤ h.word * 8 + i ∧ h.word * 8 + i < g.2)

/-- What `done` holds at an interval [lo, hi) enters `m`, in the lines that are written there (R89). -/
def Scratch.copySpan (done : Scratch) (m : Scratch) (g : Nat × Nat) : Scratch :=
  (List.range (g.2 / 4096 + 1 - g.1 / 4096)).foldl (fun m i =>
    let l := g.1 / 4096 + i
    let lo := max g.1 (l * 4096)
    if done.written.contains l then m.write lo (done.read lo (min g.2 ((l + 1) * 4096) - lo)) else m) m

/-- R76: the scoreboard entries of an instruction. -/
def sbEntries (id : Nat) (ins outs : List Strm) : List SbEntry :=
  let mk (w : Bool) (d : BitVec 256) : SbEntry :=
    { owner := id, lo := (interval d).1, hi := (interval d).2, write := w }
  (ins.map Strm.d ++ masksOf ins ++ masksOf outs).map (mk false) ++ outs.map fun t => mk true t.d

/-- R76: an instruction with these entries stalls. -/
def sbStalls (score new : List SbEntry) : Bool :=
  decide (32 < score.length + new.length) ||
    new.any fun n => score.any fun e => (e.write || n.write) && meets (n.lo, n.hi) (e.lo, e.hi)

/-! ### Reading streams -/

/-- The raw bits of element j. -/
def rawElem (m : Scratch) (d : BitVec 256) (j : Nat) : Nat :=
  let a := elemAddr d j
  if dFmt d = 8 then (m.byte a).toNat >>> (j % dExt d 0 % 8) % 2
  else if dFmt d = 7 then (m.byte a).toNat >>> (4 * (j % dExt d 0 % 2)) % 16
  else leNat (m.read a (elemSize (dFmt d)))

/-- R83: is element j kept by the mask? -/
def Strm.kept (m : Scratch) (t : Strm) (j : Nat) : Bool :=
  match t.mask with
  | none => true
  | some k => (rawElem m k j == 1) != dMaskInv t.d

/-- R46, R51: the stored value of element j, whose signalling NaN is kept. -/
def storedVal (m : Scratch) (f64 : Bool) (d : BitVec 256) (j : Nat) : FVal × Flags :=
  if dFmt d = 7 then th4bValue (rawElem m d j) (m.byte (th4bScaleAddr d j)).toNat f64
  else ((fmtOf (dFmt d)).decode (rawElem m d j), 0)

/-- R64, R83: element j of an input stream as an operation computes with it. -/
def inputVal (m : Scratch) (f64 : Bool) (t : Strm) (j : Nat) : FVal × Flags :=
  let (v, g) := if t.kept m j then storedVal m f64 t.d j else (FVal.zero, 0)
  let (w, h) := readScaled f64 (dScale t.d) v
  (w, g ||| h)

/-- R55, R83: the raw bits of element j as a bit copy reads them. -/
def inputRaw (m : Scratch) (t : Strm) (j : Nat) : Nat := if t.kept m j then rawElem m t.d j else 0

/-- R55: element j of a TH4B stream as a re-encoding reads it: decoded under its own block scale, no scale field. -/
def inputBlockVal (m : Scratch) (t : Strm) (j : Nat) : FVal × Flags :=
  if t.kept m j then storedVal m false t.d j else (FVal.zero, 0)

/-! ### Writing streams -/

/-- R59, R80: the rounding of an output descriptor for the element at nibble address a, with R62's seed, slot and
count. -/
def modeOf (d : BitVec 256) (key : W64 × Nat × Nat) (a : Nat) : Mode :=
  match dRound d with
  | 1 => .rz
  | 2 => .sr (srRandom key.1 key.2.1 key.2.2 a)
  | _ => .rne

/-- What an instruction gives for one output element: nothing (the element is not written), a value, or raw bits. -/
inductive OutElem where
  | skip
  | val (v : FVal)
  | raw (n : Nat)
  deriving DecidableEq, Repr

/-- R83: the element after the output's mask. -/
def masked (m : Scratch) (t : Strm) (j : Nat) (o : OutElem) : OutElem :=
  if t.kept m j then o else if dMaskWr t.d then .raw 0 else .skip

/-- NONFINITE where a value written is an infinity or NaN (R73). -/
def nonfiniteFlag (v : FVal) : Flags := if v.nonfinite then fNONFINITE else 0

/-- The raw bits and flags of one element written to a byte-sized number format. -/
def encodeElem (f64 : Bool) (d : BitVec 256) (key : W64 × Nat × Nat) (a : Nat) (o : OutElem) : Option (Nat × Flags) :=
  match o with
  | .skip => none
  | .raw n => some (n, 0)
  | .val v =>
    let f := fmtOf (dFmt d)
    let (w, g) := writeScaled f64 f (modeOf d key (2 * a)) (dScale d) v
    some (f.encode w, g ||| nonfiniteFlag w)

/-- Write element j of a BIT stream. -/
def putBit (m : Scratch) (d : BitVec 256) (j : Nat) (b : Bool) : Scratch :=
  let a := elemAddr d j
  let i := j % dExt d 0 % 8
  let old := (m.byte a).toNat
  m.write a [BitVec.ofNat 8 (old - old >>> i % 2 * 2 ^ i + b2n b * 2 ^ i)]

/-- Write the elements of a stream that is not TH4B, in stream order (R83). -/
def putElems (f64 : Bool) (t : Strm) (key : W64 × Nat × Nat) (keep : Nat → Bool) :
    Scratch → Nat → List OutElem → Scratch × Flags
  | m, _, [] => (m, 0)
  | m, j, o :: r =>
    let o' := if keep j then o else if dMaskWr t.d then .raw 0 else .skip
    let (m', g) : Scratch × Flags :=
      if dFmt t.d = 8 then
        match o' with
        | .skip => (m, 0)
        | .raw n => (putBit m t.d j (n == 1), 0)
        | .val v => (putBit m t.d j (!v.isZero), 0)
      else
        let a := elemAddr t.d j
        match encodeElem f64 t.d key a o' with
        | none => (m, 0)
        | some (n, g) => (m.write a (leBytes (elemSize (dFmt t.d)) n), g)
    let (m'', h) := putElems f64 t key keep m' (j + 1) r
    (m'', g ||| h)

/-- The element of a TH4B block as R70 takes it: the value with its mode, and its flags before encoding. An element
that is left unchanged keeps its stored value; a written one is scaled (`scaled`) or taken as it is. -/
def blockElem (f64 scaled : Bool) (m : Scratch) (t : Strm) (key : W64 × Nat × Nat) (keep : Nat → Bool) (outs : List OutElem)
    (row i0 : Nat) : (FVal × Mode) × Flags × Bool :=
  let e0 := dExt t.d 0
  let j := row * e0 + i0
  if e0 ≤ i0 then ((FVal.zero, .rne), 0, true)
  else
    let md := modeOf t.d key (2 * elemAddr t.d j + i0 % 2)
    let o := outs.getD j .skip
    let o' := if keep j then o else if dMaskWr t.d then .raw 0 else .skip
    match o' with
    | .skip =>
      let (v, g) := storedVal m false t.d j
      ((v, md), g, false)
    | .raw _ => ((FVal.zero, md), 0, true)
    | .val v =>
      if scaled then
        let (p, g) := v.mulX (ofB32 (dScale t.d))
        if f64 then
          let (w, h) := fmtB32.round (match md with | .sr _ => .rne | x => x) p
          ((w, md), g ||| h, true)
        else ((p, md), g, true)
      else ((v, md), 0, true)

/-- The 16 bytes of a block's codes (R52). -/
def packCodes : List Nat → List Byte
  | a :: b :: r => BitVec.ofNat 8 (a + 16 * b) :: packCodes r
  | _ => []

/-- R70: write block b (of 32 elements) of one row; a block that the instruction writes no element of is left as it is. Every
element of a block that is re-encoded counts as written for NONFINITE, a masked-out one that keeps its value too (DESIGN CHOICE, log
entry 13). -/
def putBlock (f64 scaled : Bool) (t : Strm) (key : W64 × Nat × Nat) (keep : Nat → Bool) (outs : List OutElem) (row b : Nat)
    (m : Scratch) : Scratch × Flags :=
  let es := (List.range 32).map fun i => blockElem f64 scaled m t key keep outs row (32 * b + i)
  if es.all fun e => !e.2.2 then (m, 0)
  else
    let (sc, codes, g) := th4bEncode (es.map Prod.fst)
    let (_, i1, i2, i3) := coord t.d (row * dExt t.d 0)
    let grp := ((dBase t.d : Int) + rowOffset t.d i1 i2 i3).toNat + 544 * (b / 32)
    let m1 := m.write (grp + 16 * (b % 32)) (packCodes codes)
    let m2 := m1.write (grp + 512 + b % 32) [BitVec.ofNat 8 sc]
    let nf := codes.any fun c => decide (c % 8 = 6 ∨ c % 8 = 7)
    (m2, g ||| es.foldl (fun a e => a ||| e.2.1) 0 ||| if nf then fNONFINITE else 0)

/-- R53, R70: write a TH4B stream block by block, padding included. -/
def putTH4B (f64 scaled : Bool) (t : Strm) (key : W64 × Nat × Nat) (keep : Nat → Bool) (outs : List OutElem) (m : Scratch) :
    Scratch × Flags :=
  let rows := dExt t.d 1 * dExt t.d 2 * dExt t.d 3
  let blocks := 32 * ((dExt t.d 0 + 1023) / 1024)
  (List.range rows).foldl (fun acc row =>
    (List.range blocks).foldl (fun (a : Scratch × Flags) b =>
      let (m', g) := putBlock f64 scaled t key keep outs row b a.1
      (m', a.2 ||| g)) acc) (m, 0)

/-- Write an output stream whose elements are values, bits, or skipped. Its mask is read from `src`, the scratchpad before any output
of the instruction is written (R127, R148). -/
def putStream (f64 : Bool) (t : Strm) (key : W64 × Nat × Nat) (outs : List OutElem) (src m : Scratch) : Scratch × Flags :=
  let keep := t.kept src
  if dFmt t.d = 7 then putTH4B f64 true t key keep outs m
  else putElems f64 t key keep m 0 outs

/-- R55: write an output stream of copied elements, its mask read from `src`: raw bits, or for TH4B values re-encoded with the scale ignored. -/
def putCopied (t : Strm) (key : W64 × Nat × Nat) (outs : List OutElem) (src m : Scratch) : Scratch × Flags :=
  let keep := t.kept src
  if dFmt t.d = 7 then putTH4B false false t key keep outs m
  else putElems false t key keep m 0 outs

/-- R55: copy whole TH4B rows, scale bytes included. -/
def copyRows (i o : BitVec 256) (m : Scratch) : Scratch :=
  let rows := dExt i 1 * dExt i 2 * dExt i 3
  let addr (d : BitVec 256) (r : Nat) : Nat := elemAddr d (r * dExt d 0)
  let data := (List.range rows).map fun r => m.read (addr i r) (rowBytes i)
  ((List.range rows).zip data).foldl (fun acc p => acc.write (addr o p.1) p.2) m

end Sys2Proof.Machine
end

