-- ==== Sys2Proof/Machine/Flags.lean ====
section
/-! DEFINITION. The sticky flags of a core (R73, R195, R196): raising them, clearing them, and the FLAGS register. -/

namespace Sys2Proof.Machine

/-- Flags raised by an instruction that finishes: into FLAGS and into the run record. -/
def Seq.raise (q : Seq) (g : Flags) : Seq := { q with flags := q.flags ||| g, record := q.record ||| g }

def Core.raise (c : Core) (g : Flags) : Core := { c with seq := c.seq.raise g }

/-- R195: a W1C write clears the flags whose bits are 1; the run record keeps them (R196). -/
def Seq.clearFlags (q : Seq) (w : W64) : Seq := { q with flags := q.flags &&& ~~~(BitVec.ofNat 6 w.toNat) }

/-- R195: FLAGS as a 64-bit register. -/
def Seq.flagsWord (q : Seq) : W64 := w64 q.flags.toNat

end Sys2Proof.Machine
end

