-- ==== Sys2Proof/Machine/Ops.lean ====
section
/-! DEFINITION. The shared operations of the machine: access to the parts of the state, message-queue posting, device memory
with its ownership check, translation and poison, interrupts and host writes, work-program errors, the kill and the
stop of a gang, and the start of a core. -/

namespace Sys2Proof.Machine

/-- What a command's meaning answers: the next state. -/
abbrev Out := Host.Outcome State Fault Refusal

/-! ### Parts of the state -/

def State.core (s : State) (p : Nat) : Core := sget Core.reset s.cores p
def State.setCore (s : State) (p : Nat) (c : Core) : State := { s with cores := sset Core.reset s.cores p c }
def State.modCore (s : State) (p : Nat) (f : Core → Core) : State := s.setCore p (f (s.core p))

def State.ctx (s : State) (c : Nat) : Ctx := sget Ctx.reset s.disp.ctxs c
def State.setCtx (s : State) (c : Nat) (x : Ctx) : State :=
  { s with disp := { s.disp with ctxs := sset Ctx.reset s.disp.ctxs c x } }

def State.part (s : State) (n : Nat) : Part := sget Part.reset s.disp.parts n
def State.setPart (s : State) (n : Nat) (x : Part) : State :=
  { s with disp := { s.disp with parts := sset Part.reset s.disp.parts n x } }

def Ctx.queue (x : Ctx) (q : Nat) : CmdQueue := sget CmdQueue.reset x.queues q
def Ctx.setQueue (x : Ctx) (q : Nat) (v : CmdQueue) : Ctx := { x with queues := sset CmdQueue.reset x.queues q v }

def State.fn (s : State) (f : Nat) : Fn := sget Fn.reset s.host.fns f
def State.setFn (s : State) (f : Nat) (x : Fn) : State := { s with host := { s.host with fns := sset Fn.reset s.host.fns f x } }

def State.slab (s : State) (n : Nat) : SlabEntry := sget SlabEntry.reset s.mem.slabs n
def State.setSlab (s : State) (n : Nat) (e : SlabEntry) : State :=
  { s with mem := { s.mem with slabs := sset SlabEntry.reset s.mem.slabs n e } }

/-- The hub timer (R40). -/
def State.now (s : State) : Nat := s.hub.timer

/-- An output of the device joins the trace. -/
def State.emit (s : State) (e : Emit) : State := { s with hub := { s.hub with out := e :: s.hub.out } }

def State.emits (s : State) (l : List Emit) : State := l.foldl State.emit s

/-- A fresh free value (log entry 8). -/
def State.draw (s : State) : W64 × State :=
  (Config.freeValue s.hub.free, { s with hub := { s.hub with free := s.hub.free + 1 } })

/-- R252, R266: the function that makes host accesses for a partition. -/
def fnOfPart (n : Nat) : Nat := n + 1

/-- R464: is the device past its boot, out of reset and powered? -/
def State.alive (s : State) : Bool := s.hub.pwrgd && s.hub.devrstN

/-! ### Status codes (R12) -/

def stOK : BitVec 16 := 0
def stPAGE_FAULT : BitVec 16 := 0x0101
def stSLAB_ACCESS : BitVec 16 := 0x0102
def stWINDOW_DENIED : BitVec 16 := 0x0103
def stPOISON_READ : BitVec 16 := 0x0201
def stECC_UNCORRECTED : BitVec 16 := 0x0202
def stOVERRUN : BitVec 16 := 0x0301
def stKILLED_RERUN : BitVec 16 := 0x0302
def stWRITESET_OVERLAP : BitVec 16 := 0x0303
def stDOORBELL_AHEAD : BitVec 16 := 0x0401
def stBAD_COMMAND : BitVec 16 := 0x0402
def stSTALE_GENERATION : BitVec 16 := 0x0501
def stFENCED_PEER : BitVec 16 := 0x0502
def stRANK_TAKEOVER : BitVec 16 := 0x0503
def stNONFINITE : BitVec 16 := 0x0601
def stQUEUE_RESET : BitVec 16 := 0x0701
def stCORE_CHOKED : BitVec 16 := 0x0801

/-! ### The host (R268, R284, R286) -/

/-- R425, R426: does the VF of an IDE-required partition lack a secure stream? Selective stream n + 1 and the Link stream
0x11 cover VF n + 1. -/
def State.ideLacks (s : State) (f : Nat) : Bool :=
  f != 0 && (s.part (f - 1)).ideReq && sget 0 s.sec.ide f != 2 && sget 0 s.sec.ide 0x11 != 2

/-- R286, R426: is the function quarantined? -/
def State.quarantined (s : State) (f : Nat) : Bool := (s.fn f).quar || s.ideLacks f

/-- R269: does the function answer: the PF, or a VF that SR-IOV has enabled? -/
def State.fnThere (s : State) (f : Nat) : Bool := f == 0 || (s.host.vfEnable && decide (f ≤ s.host.numVfs))

/-- R268: can the function master the bus, quarantine aside? -/
def State.busReady (s : State) (f : Nat) : Bool := s.host.linkUp && s.fnThere f && (s.fn f).bme && !(s.fn f).d3

/-- May the function make host accesses now? -/
def State.canMaster (s : State) (f : Nat) : Bool := s.busReady f && !s.quarantined f

/-- R426: does the function accept a TLP that arrives on a secure stream that covers it (`ide`), or on none? The VF of an IDE-required
partition accepts the first kind alone. -/
def State.ideOk (s : State) (f : Nat) (ide : Bool) : Bool := f == 0 || !(s.part (f - 1)).ideReq || (ide && !s.ideLacks f)

/-- R268, R426: does the function take a memory request of the host? In D3hot, and outside the secure stream that it needs, it does not. -/
def State.takesRequest (s : State) (f : Nat) (ide : Bool := true) : Bool := s.host.linkUp && s.fnThere f && !(s.fn f).d3 && s.ideOk f ide

/-- R284: the message of a vector. -/
def Fn.message (x : Fn) (f v : Nat) : Emit :=
  let e := sget MsixEntry.reset x.msixTable v
  .msix f v e.addr e.data

/-- R284, R286: raise MSI-X vector v of a function: deferred by quarantine, pending while masked, while MSI-X is off or while the function
cannot master the bus (log entry 14), else sent. -/
def State.msix (s : State) (f v : Nat) : State :=
  let x := s.fn f
  if s.quarantined f then s.setFn f { x with deferred := setIns x.deferred v }
  else if x.fnMask || !x.msixEn || !x.unmasked.contains v || !s.canMaster f then s.setFn f { x with pendingVec := setIns x.pendingVec v }
  else s.emit (x.message f v)

/-! ### Message queues (R220 to R227) -/

/-- R220: depth in slots by QID; 0 for a QID that is not used. -/
def mqDepth (qid : Nat) : Nat :=
  if qid < 16 then 4096 else if qid < 21 then 16384 else if qid < 24 then 0 else if qid < 28 then 256
  else if qid = 28 then 2048 else if qid = 29 then 512 else 2048

/-- R220: the longest payload in words. -/
def mqMaxWords (qid : Nat) : Nat :=
  if qid < 16 then 64 else if qid < 21 then 32 else if qid < 24 then 0 else if qid < 28 then 1
  else if qid = 28 then 64 else if qid = 29 then 4 else 256

/-- R222: end-marked queues take no length slot. -/
def mqEndMarked (qid : Nat) : Bool := decide (28 ≤ qid)

/-! ### The arbiter of R262 -/

/-- R262: an input that has no request has no credit. -/
def Arbiter.drop (a : Arbiter) (asks : List (Nat × Nat)) : Arbiter :=
  { a with credit := a.credit.filter fun e => asks.any fun x => x.1 == e.1 }

/-- R262: an input has become inactive: it has no credit. -/
def Arbiter.leave (a : Arbiter) (i : Nat) : Arbiter := { a with credit := sset 0 a.credit i 0 }

/-- R262: the credits at a grant to one of the inputs that ask, each with its population: refilled when no input has one left. -/
def Arbiter.fill (a : Arbiter) (asks : List (Nat × Nat)) : Sparse Nat :=
  let c := (a.drop asks).credit
  if asks.all fun x => sget 0 c x.1 == 0 then asks.foldl (fun c x => sset 0 c x.1 x.2) c else c

/-- R262: the input that is granted: the first with credit, in round-robin order after the last granted. `asks` are in rising order. -/
def Arbiter.pick (a : Arbiter) (asks : List (Nat × Nat)) : Option Nat :=
  let live := (asks.filter fun x => decide (0 < sget 0 (a.fill asks) x.1)).map Prod.fst
  match live.find? fun i => a.last.any fun l => decide (l < i) with
  | some i => some i
  | none => live.head?

/-- R262: the arbiter after input i has been granted. -/
def Arbiter.grant (a : Arbiter) (asks : List (Nat × Nat)) (i : Nat) : Arbiter :=
  { last := some i, credit := smod 0 (a.fill asks) i (· - 1) }

/-! ### Queue blocks (R221 to R228) -/

/-- The parity bit over a word (R221). -/
def parityOf (w : W64) : Bool := (List.range 64).foldl (fun b i => b != w.getLsbD i) false

def Slot.make (w : W64) (last : Bool) : Slot := { data := w, parity := parityOf w, end0 := last, end1 := last }

/-- R230: a slot that fails its parity. -/
def Slot.bad (x : Slot) : Bool := parityOf x.data != x.parity

/-- R228: a slot whose end-mark copies disagree. -/
def Slot.torn (x : Slot) : Bool := x.end0 != x.end1

/-- The slots of n payload words with their length slot, where the framing has one. -/
def mqSpan (qid n : Nat) : Nat := n + if mqEndMarked qid then 0 else 1

/-- The slots that a packet takes. -/
def mqSlots (qid : Nat) (k : Packet) : Nat := mqSpan qid k.words.length

/-- R222: a whole packet as its slots hold it. The manual does not lay the length slot out: LEN stands in bits [8:0] and SEQ in bits
[31:16] (DESIGN CHOICE, log entry 61). -/
def Packet.make (qid seq now : Nat) (words : List W64) : Packet :=
  { seq := seq, time := now
    len := if mqEndMarked qid then none else some (Slot.make (w64 (seq * 2 ^ 16 + words.length)) false)
    words := words.mapIdx fun i w => Slot.make w (mqEndMarked qid && i + 1 == words.length) }

/-- The payload of a packet. -/
def Packet.data (k : Packet) : List W64 := k.words.map Slot.data

def State.mqueue (s : State) (qid : Nat) : MsgQueue := sget MsgQueue.reset s.mq.queues qid
def State.setQueue (s : State) (qid : Nat) (m : MsgQueue) : State :=
  { s with mq := { s.mq with queues := sset MsgQueue.reset s.mq.queues qid m } }

/-- R227: a packet boundary: no packet is partly written and none partly read. -/
def MsgQueue.atBoundary (m : MsgQueue) : Bool := m.writing.isNone && m.reading.isNone

/-- R227: the pending flush takes effect at a packet boundary. -/
def MsgQueue.takeFlush (m : MsgQueue) : MsgQueue :=
  if m.flush && m.atBoundary then
    { m with pkts := [], flush := false, flushed := satAdd 64 m.flushed m.pkts.length, rd0 := m.wr0, rd1 := m.wr1,
             waiting := m.waiting.map fun a => { a with late := false } }
  else m

/-- Both copies of the write pointer move by n slots. -/
def MsgQueue.moveWr (m : MsgQueue) (qid n : Nat) : MsgQueue :=
  { m with wr0 := (m.wr0 + n) % mqDepth qid, wr1 := (m.wr1 + n) % mqDepth qid }

/-- Both copies of the read pointer move over n slots that are read or freed. -/
def MsgQueue.moveRd (m : MsgQueue) (qid n : Nat) : MsgQueue :=
  { m with rd0 := (m.rd0 + n) % mqDepth qid, rd1 := (m.rd1 + n) % mqDepth qid }

/-- The slots of the oldest packet that its reader has freed, and those of the packet being written. -/
def MsgQueue.readSlots (m : MsgQueue) (qid : Nat) : Nat := (m.reading.map (mqSpan qid)).getD 0
def MsgQueue.writeSlots (m : MsgQueue) (qid : Nat) : Nat := (m.writing.map fun w => mqSpan qid w.words.length).getD 0

/-- R225: discard the oldest whole packets that are not being read until `need` more slots fit. `l` are the packets that may go, behind the
packet that is being read. -/
def MsgQueue.makeRoom (m : MsgQueue) (qid need : Nat) : List Packet → MsgQueue
  | [] => { m with pkts := if m.reading.isSome then m.pkts.take 1 else [] }
  | k :: r =>
    let kept := if m.reading.isSome then m.pkts.take 1 else []
    if ((kept ++ k :: r).map (mqSlots qid)).sum + m.writeSlots qid + need ≤ mqDepth qid + m.readSlots qid then { m with pkts := kept ++ k :: r }
    else
      MsgQueue.makeRoom ({ m with lostP := satAdd 64 m.lostP 1, lostW := satAdd 64 m.lostW k.words.length }.moveRd qid (mqSlots qid k)) qid need r

/-- R225: the packets that a write may discard. -/
def MsgQueue.mayGo (m : MsgQueue) : List Packet := if m.reading.isSome then m.pkts.drop 1 else m.pkts

/-- R222, R223, R225: the producer that has the write port writes its words: they begin a packet, or go on with the one that it holds. -/
def MsgQueue.put (m : MsgQueue) (now qid : Nat) (a : Ask) : MsgQueue :=
  let (seq, old, need, m) := match m.writing with
    | some w => (w.seq, w.words, a.words.length, m)
    | none => (m.seq, [], mqSpan qid a.words.length, { m with seq := (m.seq + 1) % 65536 })
  let words := old ++ a.words
  let m := (m.makeRoom qid need m.mayGo).moveWr qid need
  match a.stop with
  | .done => { m with pkts := m.pkts ++ [Packet.make qid seq now words], writing := none }
  | .more => { m with writing := some { src := a.src, seq := seq, words := words } }
  | .abandoned =>
    { m with writing := none, lostP := satAdd 64 m.lostP 1, lostW := satAdd 64 m.lostW words.length,
             wr0 := (m.wr0 + mqDepth qid - mqSpan qid words.length % mqDepth qid) % mqDepth qid
             wr1 := (m.wr1 + mqDepth qid - mqSpan qid words.length % mqDepth qid) % mqDepth qid }

/-- R227: the producers that may be granted the write port: while a flush is pending, those alone that asked before its request. -/
def MsgQueue.ready (m : MsgQueue) : List Ask := m.waiting.filter fun a => !(m.flush && a.late)

/-- The inputs that ask for the write port and may be granted it, in rising order, each with the population of its first request. One that must
wait for a flush counts as without a request until then (DESIGN CHOICE, log entry 61). -/
def MsgQueue.asks (m : MsgQueue) : List (Nat × Nat) :=
  ((m.ready.map Ask.src).foldl setIns []).map fun i => (i, ((m.ready.find? fun a => a.src == i).map Ask.pop).getD 1)

/-- The ask of an input leaves the queue of those that wait. -/
def MsgQueue.unask (m : MsgQueue) (i : Nat) : MsgQueue := { m with waiting := delFirst (fun a => a.src == i) m.waiting }

/-- R222, R227, R262: what happens at the write port while nothing more arrives: the holder of the port goes on; a free port takes a
pending flush first, where no packet is being read, then the arbiter's choice. `k` bounds the rounds. -/
def MsgQueue.settle (now qid : Nat) : Nat → MsgQueue → MsgQueue
  | 0, m => m
  | k + 1, m =>
    match m.writing with
    | some w =>
      match m.waiting.find? fun a => a.src == w.src with
      | some a => MsgQueue.settle now qid k ((m.unask w.src).put now qid a)
      | none => m
    | none =>
      if m.flush && m.reading.isNone then MsgQueue.settle now qid k m.takeFlush
      else match m.arb.pick m.asks with
        | none => m
        | some i =>
          match m.waiting.find? fun a => a.src == i with
          | some a =>
            let n := m.unask i
            MsgQueue.settle now qid k ({ n with arb := (m.arb.grant m.asks i).drop n.asks }.put now qid a)
          | none => m

/-- A producer asks for the write port. -/
def MsgQueue.ask (m : MsgQueue) (now qid : Nat) (a : Ask) : MsgQueue :=
  let m := { m with waiting := m.waiting ++ [{ a with late := m.flush }] }
  m.settle now qid (m.waiting.length + 2)

def qidFault : Nat := 28
def qidChoke : Nat := 29
def qidCpReq : Nat := 30
def qidCpRsp : Nat := 31

/-- R228: do the copies of a pointer differ, so that its next move resets the queue? -/
def MsgQueue.mismatch (m : MsgQueue) : Bool := m.wr0 != m.wr1 || m.rd0 != m.rd1

/-- R223, R262: the packet that input `src` has written in part is abandoned, and what it still asks for is gone, its credit with it. -/
def MsgQueue.abandon (m : MsgQueue) (now qid src : Nat) : MsgQueue :=
  let m := if m.writing.any fun w => w.src == src then m.put now qid { src := src, pop := 1, words := [], stop := .abandoned } else m
  let m := { m with waiting := m.waiting.filter (fun a => a.src != src), cut := m.cut.filter fun i => i != src }
  { m with arb := m.arb.drop m.asks }

/-- R228: every stored packet is discarded and counted as lost, the packet being written is abandoned, and both pointers are set to zero. What its
producer still writes of that packet is lost (DESIGN CHOICE, log entry 61). -/
def MsgQueue.resetBlock (m : MsgQueue) : MsgQueue :=
  let (wp, ww) := match m.writing with
    | some w => (1, w.words.length)
    | none => (0, 0)
  { m with
    cut := m.writing.toList.foldl (fun l w => setIns l w.src) m.cut
    pkts := [], writing := none, reading := none, rd0 := 0, rd1 := 0, wr0 := 0, wr1 := 0
    lostP := satAdd 64 m.lostP (m.pkts.length + wp)
    lostW := satAdd 64 m.lostW ((m.pkts.map fun k => k.words.length).sum + ww)
    resets := satAdd 32 m.resets 1 }

/-- What happens at a queue's ports while nothing more arrives: a pending flush takes effect, and producers that wait write. -/
def State.settlePorts (s : State) (qid : Nat) : State :=
  let m := s.mqueue qid
  s.setQueue qid (m.settle s.now qid (m.waiting.length + 2))

/-! R222, R262: each unit of the device that posts whole packets is a leaf source of its own at a queue's write port, population 1. The manual
numbers no inputs; these come first in the arbiter's order, and the producers of MQ_PACKET_WRITE follow (DESIGN CHOICE, log entry 61). Input 0 is
the dispatch unit, the hub's fence logic on the choke channel, and the dictionary engine on the CP request channel. -/

def unitDispatch : Nat := 0
def unitPeal : Nat := 1
def unitDamper : Nat := 2
def unitQueues : Nat := 3
def unitWindow : Nat := 4
def unitHub : Nat := 5
/-- The MAC of port k, the memory controllers of a quadrant, and the toll generator of physical core p. -/
def unitMac (k : Nat) : Nat := 8 + k
def unitMemory (q : Nat) : Nat := 16 + q
def unitToll (p : Nat) : Nat := 20 + p % 17
/-- The inputs that the units take. -/
def mqUnits : Nat := 40

/-- A packet of words that moves the queue's pointers without a look at their copies. -/
def State.putPacket (s : State) (qid : Nat) (words : List W64) (unit : Nat := unitDispatch) : State :=
  s.setQueue qid ((s.mqueue qid).ask s.now qid { src := unit, pop := 1, words := words, stop := .done })

/-! ### Status events (R233) -/

/-- Word 0 of a status event. -/
def statusWord0 (kind : Nat) (status : BitVec 16) (part : Option Nat) (cq : Option (Nat × Nat)) : W64 :=
  w64 (0x01 * 2 ^ 56 + kind * 2 ^ 48 + status.toNat * 2 ^ 32 +
    (match part with | some n => n % 16 * 2 ^ 28 + 2 ^ 27 | none => 0) +
    (match cq with | some (c, q) => c % 4096 * 2 ^ 15 + q % 4 * 2 ^ 13 + 2 ^ 12 | none => 0))

/-- R230, R452: the control processor discards a poisoned request and counts it in CP_REQ_POISONED. -/
def State.notePoisoned (s : State) (qid : Nat) (bad : Bool) : State :=
  if qid = qidCpReq ∧ bad then { s with dict := { s.dict with counters := smod 0 s.dict.counters 0x403 (satAdd 64 · 1) } } else s

/-- R228: the one further word that a consumer receives when the queue resets after it has read the header: a poison tag and an end mark. -/
def State.cutWord (s : State) (qid : Nat) : State :=
  let (w, s) := s.draw
  (s.emit (.mqWord w true true)).notePoisoned qid true

/-- R228: the block of a queue is reset; a consumer that reads in a packet receives its further word. -/
def State.resetPorts (s : State) (qid : Nat) : State :=
  let s := if (s.mqueue qid).reading.isSome then s.cutWord qid else s
  (s.setQueue qid (s.mqueue qid).resetBlock).settlePorts qid

/-- R229: the reset of the fault queue is reported in FAULTQ_RESET and by the management vector. -/
def State.resetFaultQueue (s : State) : State :=
  let s := s.resetPorts qidFault
  ({ s with mq := { s.mq with faultqReset := true } }).msix 0 0

/-- R228, R229, R233: queue reset with its reports. The event of an event queue carries PV 1 with its partition, and of no other queue (DESIGN
CHOICE, log entry 61). -/
def State.resetQueue (s : State) (qid : Nat) : State :=
  if qid = qidFault then s.resetFaultQueue
  else
    let part := if qid < 16 then some qid else none
    let n := min (s.mqueue qid).pkts.length 65535
    let s := s.resetPorts qid
    let words := [statusWord0 3 stQUEUE_RESET part none, w64 s.now, w64 (n * 2 ^ 16 + qid)]
    let s := (if (s.mqueue qidFault).mismatch then s.resetFaultQueue else s).putPacket qidFault words unitQueues
    if qid < 16 then s.putPacket qid words unitQueues else s

/-- R228: the copies of the pointers are compared at a move of one: the queue resets where they differ. -/
def State.checkPointers (s : State) (qid : Nat) : State := if (s.mqueue qid).mismatch then s.resetQueue qid else s

/-- R223, R228: a packet begins, and the first move of the pointer finds copies that differ: the packet is abandoned before its first word, and the
queue resets. -/
def State.loseBegun (s : State) (qid : Nat) : State :=
  let m := s.mqueue qid
  (s.setQueue qid { m with seq := (m.seq + 1) % 65536, lostP := satAdd 64 m.lostP 1 }).resetQueue qid

/-- R222: is the write port granted at once to a producer that asks now? -/
def MsgQueue.portFree (m : MsgQueue) : Bool := m.writing.isNone && !m.flush

/-- A unit of the device posts a whole packet to a queue. Where the port is free and the copies of a pointer differ, the packet is lost to the
queue's reset (R228); behind another producer, or a flush, it waits. -/
def State.post (s : State) (qid : Nat) (words : List W64) (unit : Nat := unitDispatch) : State :=
  if (s.mqueue qid).mismatch && (s.mqueue qid).portFree then s.loseBegun qid else s.putPacket qid words unit

/-- The ports of a queue are looked at while nothing more arrives. -/
def State.settleQueue (s : State) (qid : Nat) : State := (s.checkPointers qid).settlePorts qid

/-- R227, R228, R235: a pending flush takes effect at a packet boundary. It moves the read pointer: where the copies of a pointer differ, the
queue resets, and the flush takes effect on the empty queue, before the QUEUE_RESET packet is posted. -/
def State.applyFlush (s : State) (qid : Nat) : State :=
  let m := s.mqueue qid
  if m.flush && m.atBoundary then s.settleQueue qid else s

/-- R227: a flush of a queue is requested; a second request joins the first. -/
def State.flushQueue (s : State) (qid : Nat) : State := (s.setQueue qid { s.mqueue qid with flush := true }).applyFlush qid

/-- R223: a producer of a queue stops partway. Where it has the write port, the write pointer moves back, and its copies are compared (R228). -/
def State.stopProducer (s : State) (qid src : Nat) : State :=
  let m := s.mqueue qid
  let s := s.setQueue qid (m.abandon s.now qid src)
  if m.writing.any fun w => w.src == src then s.settleQueue qid else s

/-- Post a status event of three words to a queue. -/
def State.statusEvent (s : State) (qid kind : Nat) (status : BitVec 16) (part : Option Nat) (cq : Option (Nat × Nat))
    (w2 : Nat) (unit : Nat := unitDispatch) : State :=
  s.post qid [statusWord0 kind status part cq, w64 s.now, w64 w2] unit

/-- R373: a carillon event of two words to the event queues of PEAL_PARTS. -/
def State.carEvent (s : State) (kind : Nat) (status : BitVec 16) (rank : Nat) : State :=
  (List.range 16).foldl (fun s n =>
    if s.peal.parts.getLsbD n then
      s.post n [w64 (0x10 * 2 ^ 56 + kind * 2 ^ 48 + status.toNat * 2 ^ 32 + rank % 65536), w64 s.now] unitPeal
    else s) s

/-! ### Placement and the slab table (R199 to R204) -/

/-- R200: the placement group (first stack, size) of range r of a quadrant whose stacks that failed are listed. -/
def groupOf (failed : List Nat) (q r : Nat) : Option (Nat × Nat) :=
  let bad (lo n : Nat) : Bool := (List.range n).any fun i => failed.contains (8 * q + lo + i)
  if failed.contains (8 * q + r) then none
  else if !bad 0 8 then some (0, 8)
  else if !bad (r / 4 * 4) 4 then some (r / 4 * 4, 4)
  else if !bad (r / 2 * 2) 2 then some (r / 2 * 2, 2)
  else some (r, 1)

/-- R199: quadrant and range of a slab. -/
def slabQuad (n : Nat) : Nat := n / 16384 % 4
def slabRange (n : Nat) : Nat := n / 2048 % 8

/-- The placement group of a slab. -/
def State.slabGroup (s : State) (n : Nat) : Option (Nat × Nat) := groupOf s.mem.failed (slabQuad n) (slabRange n)

/-- R203: the STATE of a slab; the slabs of a failed stack are RETIRED. -/
def State.slabLife (s : State) (n : Nat) : SlabLife :=
  if (s.slabGroup n).isNone then .retired else (s.slab n).life

/-- R201: the stack (0 to 31) that holds a physical address. -/
def State.stackOf (s : State) (pa : Nat) : Nat :=
  let n := pa / 2 ^ 25
  match s.slabGroup n with
  | some (b, g) => 8 * slabQuad n + b + pa % 2 ^ 25 / 256 % g
  | none => 8 * slabQuad n + slabRange n

/-- R200: the byte offset at which a slab's share begins on each stack of its group of size g and first stack b. -/
def slabOffset (n b g : Nat) : Nat := ((slabRange n - b) * 2048 + n % 2048) * (2 ^ 25 / g)

/-- Where a byte of device memory lies (R200, R201): stack 0 to 31, its byte offset there as the placement counts it, and the
pseudo-channel and 256-byte unit within the pseudo-channel. -/
structure Place where
  stack  : Nat
  offset : Nat
  chan   : Nat
  unit   : Nat
  deriving DecidableEq, Repr

/-- R200, R201: the place of a physical address. The slabs of a failed stack have none; they take their range alone. -/
def State.place (s : State) (pa : Nat) : Place :=
  let n := pa / 2 ^ 25
  let (b, g) := (s.slabGroup n).getD (slabRange n, 1)
  let o := pa % 2 ^ 25
  let u := o / 256 / g
  let base := slabOffset n b g
  { stack := s.stackOf pa, offset := base + (u * 256 + o % 256)
    chan := (u % 32) ^^^ (if (s.slab n).chx then u / 32 % 32 else 0)
    unit := base / 32 / 256 + u / 32 }

/-- The memory row of a physical address. -/
def State.rowOf (s : State) (pa : Nat) : Nat :=
  let k := s.place pa
  Config.rowOf k.stack k.chan k.unit

/-- What an access answers: served, faulted with a status, or held by a wipe. -/
inductive Got (α : Type) where
  | ok (a : α)
  | fault (st : BitVec 16)
  | held
  deriving DecidableEq, Repr

/-- The answer with its value changed. -/
def Got.map {α β : Type} (f : α → β) : Got α → Got β
  | .ok a => .ok (f a)
  | .fault e => .fault e
  | .held => .held

/-- R204, R216: does a wipe that has not ended cover the byte: its slab's, or that of a PRIV page? -/
def State.wiping (s : State) (pa : Nat) : Bool :=
  (s.slab (pa / 2 ^ 25)).wipe || s.mem.wipes.any fun j => decide (j.base ≤ pa ∧ pa < j.base + j.len)

/-- R204, R216: an access of a partition to a physical address. After a thermal shutdown no access is admitted (R397): it waits. -/
def State.access (s : State) (part pa : Nat) : Got Unit :=
  let n := pa / 2 ^ 25
  if s.slabLife n = .assigned ∧ (s.slab n).owner.toNat = part then
    (if s.wiping pa || s.damper.shutdown then .held else .ok ())
  else .fault stSLAB_ACCESS

/-! ### Device memory bytes and poison (R213, R214) -/

/-- The canonical form of device memory: addresses strictly rise, and no entry holds the zero that an unlisted byte reads as, so
that equal memories are equal data. -/
def Memory.wf (m : Mem) : Bool := swf 0 m.bytes

/-- Does a poisoned word meet [pa, pa + n)? -/
def State.poisoned (s : State) (pa n : Nat) : Bool :=
  s.mem.poison.any fun w => decide (w * 64 < pa + n ∧ pa < w * 64 + 64)

/-- R214, R233: report an uncorrectable error in the word of pa. -/
def State.eccEvent (s : State) (pa : Nat) : State :=
  let w2 := s.stackOf pa * 2 ^ 59 + pa / 64 * 64
  let n := pa / 2 ^ 25
  if s.slabLife n = .assigned then
    s.statusEvent (s.slab n).owner.toNat 2 stECC_UNCORRECTED (some (s.slab n).owner.toNat) none w2 (unitMemory (slabQuad n))
  else s.statusEvent qidFault 2 stECC_UNCORRECTED none none w2 (unitMemory (slabQuad n))

/-- R214: bytes written within one 64-byte word: a whole word clears poison, a part of a poisoned word is discarded. -/
def State.putWord (s : State) (pa : Nat) (data : List Byte) : State :=
  let w := pa / 64
  let s :=
    if data.length = 64 then
      { s with mem := { s.mem with poison := setDel s.mem.poison w (w + 1), latent := s.mem.latent.filter fun h => h.word != w } }
    else s
  if s.mem.poison.contains w then s.eccEvent pa
  else { s with mem := { s.mem with bytes := bput s.mem.bytes pa data } }

/-- A write to physical memory, 64-byte word by word; `k` bounds the words. -/
def State.putWords (s : State) (pa : Nat) (data : List Byte) : Nat → State
  | 0 => s
  | k + 1 =>
    if data.isEmpty then s
    else
      let n := 64 - pa % 64
      State.putWords (s.putWord pa (data.take n)) (pa + n) (data.drop n) k

/-- Physical bytes. -/
def State.memRead (s : State) (pa n : Nat) : List Byte := bget s.mem.bytes pa n

/-! ### Errors found in device memory (R213 to R215) -/

/-- R215: a row joins the retire list, which the control processor holds in flash. -/
def State.addRetire (s : State) (row : Nat) : State :=
  { s with mem := { s.mem with retireList := setIns s.mem.retireList row }
           fw := { s.fw with flashRetire := setIns s.fw.flashRetire row } }

/-- R215: the slab's retirement is pending once its counts reach their limits. It is looked at when an error is counted: a write of
RETIRE_CE_LIMIT below a slab's count acts at the slab's next error (log entry 29). -/
def State.checkRetire (s : State) (n : Nat) : State :=
  let e := s.slab n
  if s.mem.retireCeLimit ≤ e.ce ∨ 2 ≤ e.ue then s.setSlab n { e with rp := true } else s

/-- R213, R215: a corrected error in the word of pa, found by the patrol scrub or by another read. A row joins the retire list when
it is corrected again after its scrub write-back. -/
def State.correctedError (s : State) (pa : Nat) (scrub : Bool) : State :=
  let n := pa / 2 ^ 25
  let e := s.slab n
  let s := s.setSlab n { e with ce := satAdd 12 e.ce 1 }
  let k := s.stackOf pa
  let s := { s with mem := { s.mem with stackCe := smod 0 s.mem.stackCe k (satAdd 64 · 1) } }
  let row := s.rowOf pa
  let again := s.mem.ceRows.contains row
  let s := s.checkRetire n
  let s := if scrub then { s with mem := { s.mem with ceRows := setIns s.mem.ceRows row } } else s
  if again then s.addRetire row else s

/-- R214, R215: an uncorrectable error in the word of pa: the word is poisoned, counted, reported, and its row joins the
retire list. -/
def State.uncorrectedError (s : State) (pa : Nat) : State :=
  let n := pa / 2 ^ 25
  let e := s.slab n
  let s := s.setSlab n { e with ue := satAdd 2 e.ue 1 }
  let k := s.stackOf pa
  let s := { s with mem := { s.mem with poison := setIns s.mem.poison (pa / 64), stackUe := smod 0 s.mem.stackUe k (satAdd 32 · 1) } }
  ((s.checkRetire n).eccEvent pa).addRetire (s.rowOf pa)

/-- R214: the words of a write that it covers in part, so that the controller reads them to merge. -/
def mergeWords (pa n : Nat) : List (Nat × Nat) :=
  (if pa % 64 ≠ 0 then [(pa / 64 * 64, 64)] else []) ++ (if (pa + n) % 64 ≠ 0 then [((pa + n) / 64 * 64, 64)] else [])

/-- R213: errors that have arisen in words of device memory, as nature gives them with a command: they stand there until a read finds
them. -/
def Mem.upset (m : Mem) (hits : List EccHit) : Mem :=
  { m with latent := hits.foldl (fun l h => if l.any fun k => k.word == h.word then l else l ++ [h]) m.latent }

/-- R213, R214: the code finds the error that stands in a word. One that is poisoned already is found again by no code. -/
def State.meetErr (s : State) (h : EccHit) (scrub : Bool) : State :=
  let s := { s with mem := { s.mem with latent := s.mem.latent.filter fun k => k.word != h.word } }
  if s.mem.poison.contains h.word then s
  else if h.bad then s.uncorrectedError (h.word * 64) else s.correctedError (h.word * 64) scrub

/-- R213, R214: reads over segments (address, length) meet the errors that stand there, among them those that nature gives with the
command; what lies outside the segments stands on. -/
def State.memErrs (s : State) (segs : List (Nat × Nat)) (hits : List EccHit) : State :=
  let m := s.mem.upset hits
  (m.latent.filter fun h => segs.any fun g => rangesMeet g (h.word * 64, 64)).foldl (fun s h => s.meetErr h false) { s with mem := m }

/-- A write to physical memory: a word that it covers in part is read to be merged. -/
def State.memWrite (s : State) (pa : Nat) (data : List Byte) : State :=
  (s.memErrs (mergeWords pa data.length) []).putWords pa data (data.length + 1)

/-! ### Translation (R209 to R211) -/

/-- Read one table entry for a partition. -/
def State.tableEntry (s : State) (part pa : Nat) : Got Nat :=
  match s.access part pa with
  | .ok _ => if s.poisoned pa 8 then .fault stPOISON_READ else .ok (leNat (s.memRead pa 8))
  | .fault e => .fault e
  | .held => .held

/-- R210: reserved bits [63:41] and [11:4]. -/
def pteReserved (e : Nat) : Bool := e / 2 ^ 41 != 0 || e / 16 % 256 != 0
def pteV (e : Nat) : Bool := e % 2 == 1
def pteW (e : Nat) : Bool := e / 2 % 2 == 1
def pteLeaf (e : Nat) : Bool := e / 4 % 2 == 1
def ptePriv (e : Nat) : Bool := e / 8 % 2 == 1
def ptePA (e : Nat) : Nat := e / 4096 % 2 ^ 29 * 4096

/-- R210, R211: a valid pointer to a table of the given alignment. -/
def ptePointer (e align : Nat) : Bool :=
  pteV e && !pteReserved e && !pteLeaf e && !ptePriv e && !pteW e && ptePA e % align == 0
/-- A valid leaf of a page of the given size. -/
def pteLeafOk (e size : Nat) : Bool := pteV e && !pteReserved e && pteLeaf e && ptePA e % size == 0

/-- A leaf that a walk has found: the page's physical address, its size and its W bit. -/
structure Leaf where
  pa   : Nat
  size : Nat
  w    : Bool
  deriving DecidableEq, Repr

/-- R211: the walk of a context's tables to the leaf that maps a virtual address. -/
def State.leafAt (s : State) (part base va : Nat) : Got Leaf :=
  if 2 ^ 52 ≤ va then .fault stPAGE_FAULT
  else match s.tableEntry part (base + va / 2 ^ 40 * 8) with
  | .fault e => .fault e
  | .held => .held
  | .ok e1 =>
    if !ptePointer e1 (2 ^ 18) then .fault stPAGE_FAULT
    else match s.tableEntry part (ptePA e1 + va / 2 ^ 25 % 2 ^ 15 * 8) with
    | .fault e => .fault e
    | .held => .held
    | .ok e2 =>
      if pteLeafOk e2 (2 ^ 25) then .ok { pa := ptePA e2, size := 2 ^ 25, w := pteW e2 }
      else if !ptePointer e2 (2 ^ 12) then .fault stPAGE_FAULT
      else match s.tableEntry part (ptePA e2 + va / 2 ^ 16 % 2 ^ 9 * 8) with
      | .fault e => .fault e
      | .held => .held
      | .ok e3 =>
        if !pteLeafOk e3 (2 ^ 16) then .fault stPAGE_FAULT
        else .ok { pa := ptePA e3, size := 2 ^ 16, w := pteW e3 }

/-- The table words (address, bytes) that the walk of a virtual address names, up to the first that it cannot read. -/
def State.walkWords (s : State) (part base va : Nat) : List (Nat × Nat) :=
  let a1 := base + va / 2 ^ 40 * 8
  match s.tableEntry part a1 with
  | .ok e1 =>
    let a2 := ptePA e1 + va / 2 ^ 25 % 2 ^ 15 * 8
    match ptePointer e1 (2 ^ 18), s.tableEntry part a2 with
    | true, .ok e2 => [(a1, 8), (a2, 8)] ++ (if ptePointer e2 (2 ^ 12) then [(ptePA e2 + va / 2 ^ 16 % 2 ^ 9 * 8, 8)] else [])
    | true, _ => [(a1, 8), (a2, 8)]
    | _, _ => [(a1, 8)]
  | _ => [(a1, 8)]

/-- R204: the table words that the walk reads: one whose access is refused, or held, is not read. -/
def State.walkReads (s : State) (part base va : Nat) : List (Nat × Nat) :=
  (s.walkWords part base va).filter fun g => s.access part g.1 == .ok ()

/-- R211: an access through a leaf: a write needs W. -/
def Leaf.at_ (l : Leaf) (va : Nat) (write : Bool) : Got Nat := if write && !l.w then .fault stPAGE_FAULT else .ok (l.pa + va % l.size)

/-- R211: the physical address of a context's virtual address. The access itself is not checked here. -/
def State.walk (s : State) (part base va : Nat) (write : Bool) : Got Nat :=
  match s.leafAt part base va with
  | .ok l => l.at_ va write
  | .fault e => .fault e
  | .held => .held

/-! ### A core's TLB (R212) -/

/-- The leaf that the TLB holds for a virtual address. -/
def Tlb.find (t : Tlb) (va : Nat) : Option Leaf :=
  match t.large.find? (fun e => e.va == va / 2 ^ 25 * 2 ^ 25) with
  | some e => some { pa := e.pa, size := 2 ^ 25, w := e.w }
  | none => (t.small.find? (fun e => e.va == va / 2 ^ 16 * 2 ^ 16)).map fun e => { pa := e.pa, size := 2 ^ 16, w := e.w }

/-- An entry becomes the most recently used of at most n. -/
def tlbTouch (n : Nat) (e : TlbEntry) (l : List TlbEntry) : List TlbEntry := (e :: l.filter fun k => k.va != e.va).take n

/-- The TLB after the use of a leaf: 128 entries for 64 KiB pages, 32 for 32 MiB pages; the least recently used one gives way
(log entry 31). -/
def Tlb.use (t : Tlb) (va : Nat) (l : Leaf) : Tlb :=
  let e : TlbEntry := { va := va / l.size * l.size, pa := l.pa, w := l.w }
  if l.size = 2 ^ 25 then { t with large := tlbTouch 32 e t.large } else { t with small := tlbTouch 128 e t.small }

/-- R211: translate and check the final address. -/
def State.translate (s : State) (c va : Nat) (write : Bool) : Got Nat :=
  let x := s.ctx c
  match s.walk x.part.toNat x.ptbase.toNat va write with
  | .ok pa =>
    match s.access x.part.toNat pa with
    | .ok _ => .ok pa
    | .fault e => .fault e
    | .held => .held
  | g => g

/-- The physical segments (address, length) of a virtual range, page by page; `k` bounds the pages. -/
def State.segments (s : State) (c va n : Nat) (write : Bool) : Nat → Got (List (Nat × Nat))
  | 0 => .ok []
  | k + 1 =>
    if n = 0 then .ok []
    else
      let m := min n (65536 - va % 65536)
      match s.translate c va write with
      | .fault e => .fault e
      | .held => .held
      | .ok pa =>
        match State.segments s c (va + m) (n - m) write k with
        | .ok l => .ok ((pa, m) :: l)
        | g => g

def State.vaSegs (s : State) (c va n : Nat) (write : Bool) : Got (List (Nat × Nat)) :=
  s.segments c va n write (n / 65536 + 2)

/-- Read the bytes of segments: POISON_READ where one is poisoned (R214). -/
def State.readSegs (s : State) (l : List (Nat × Nat)) : Got (List Byte) :=
  if l.any fun g => s.poisoned g.1 g.2 then .fault stPOISON_READ else .ok (l.flatMap fun g => s.memRead g.1 g.2)

/-- R211, R214: read a context's virtual range. -/
def State.vaRead (s : State) (c va n : Nat) : Got (List Byte) :=
  match s.vaSegs c va n false with
  | .fault e => .fault e
  | .held => .held
  | .ok l => s.readSegs l

/-- The first addresses of the 64 KiB pages that a virtual range meets. -/
def pagesOf (va n : Nat) : List Nat :=
  ((List.range (n / 65536 + 2)).map fun i => if i = 0 then va else (va / 65536 + i) * 65536).filter fun a => decide (a < va + n)

/-- R211, R213, R214: the walk of a virtual address reads its table words one by one, and each meets the errors that stand in it before the walk
goes on. -/
def State.meetWalk (s : State) (c va : Nat) : State :=
  let x := s.ctx c
  if 2 ^ 52 ≤ va then s
  else [1, 2, 3].foldl (fun s k => s.memErrs ((s.walkReads x.part.toNat x.ptbase.toNat va).take k) []) s

/-- The walks of pages in order, up to the first that finds no page for the access. -/
def State.meetPages (s : State) (c : Nat) (write : Bool) : List Nat → State
  | [] => s
  | va :: r =>
    let t := s.meetWalk c va
    match t.translate c va write with
    | .ok _ => State.meetPages t c write r
    | _ => t

/-- The walks of a virtual range. -/
def State.meetWalks (s : State) (c va n : Nat) (write : Bool) : State := if s.mem.latent.isEmpty then s else s.meetPages c write (pagesOf va n)

/-- R211 to R214: read a context's virtual range where the table words and the words read meet errors: the bytes, and the state with the
errors counted and reported. -/
def State.vaReadErrs (s : State) (c va n : Nat) (hits : List EccHit) : Got (List Byte) × State :=
  let s : State := { s with mem := s.mem.upset hits }
  let t := s.meetWalks c va n false
  match t.vaSegs c va n false with
  | .fault e => (.fault e, t)
  | .held => (.held, s)
  | .ok l =>
    let t := t.memErrs l []
    (t.readSegs l, t)

/-- R213, R214: the reads of virtual ranges (address, bytes) of a context meet the errors that stand there. -/
def State.meetRanges (s : State) (c : Nat) (l : List (Nat × Nat)) : State :=
  if s.mem.latent.isEmpty then s else l.foldl (fun s r => (s.vaReadErrs c r.1 r.2 []).2) s

/-- R92, R212: the segments of a virtual range of a context as a core with the TLB t reaches them, the table words that its misses
read, and the TLB afterwards; `k` bounds the pages. -/
def State.coreWalk (s : State) (c va n : Nat) (write : Bool) : Nat → Tlb → Got (List (Nat × Nat)) × List (Nat × Nat) × Tlb
  | 0, t => (.ok [], [], t)
  | k + 1, t =>
    if n = 0 then (.ok [], [], t)
    else
      let x := s.ctx c
      let part := x.part.toNat
      let m := min n (65536 - va % 65536)
      let miss := (t.find va).isNone
      let reads := if miss && decide (va < 2 ^ 52) then s.walkReads part x.ptbase.toNat va else []
      let leaf : Got Leaf := match t.find va with
        | some l => .ok l
        | none => s.leafAt part x.ptbase.toNat va
      match leaf with
      | .fault e => (.fault e, reads, t)
      | .held => (.held, reads, t)
      | .ok l =>
        let t := t.use va l
        match l.at_ va write with
        | .fault e => (.fault e, reads, t)
        | .held => (.held, reads, t)
        | .ok pa =>
          match s.access part pa with
          | .fault e => (.fault e, reads, t)
          | .held => (.held, reads, t)
          | .ok _ =>
            let (r, w, t) := State.coreWalk s c (va + m) (n - m) write k t
            ((match r with | .ok l => .ok ((pa, m) :: l) | g => g), reads ++ w, t)

def State.coreSegs (s : State) (c va n : Nat) (write : Bool) (t : Tlb) : Got (List (Nat × Nat)) × List (Nat × Nat) × Tlb :=
  s.coreWalk c va n write (n / 65536 + 2) t

/-- Write the bytes over the segments of a range. -/
def State.putSegs (s : State) : List (Nat × Nat) → List Byte → State
  | [], _ => s
  | g :: r, data => State.putSegs (s.memWrite g.1 (data.take g.2)) r (data.drop g.2)

/-- R213, R214: the walks for writes to virtual ranges (context, address, bytes) meet the errors that stand in the table words. -/
def State.meetWrites (s : State) (l : List (Nat × Nat × Nat)) : State :=
  if s.mem.latent.isEmpty then s else l.foldl (fun s r => s.meetWalks r.1 r.2.1 r.2.2 true) s

/-- R211: write a context's virtual range; its walks meet the errors that stand in the table words. -/
def State.vaWrite (s : State) (c va : Nat) (data : List Byte) : Got State :=
  let s := s.meetWalks c va data.length true
  match s.vaSegs c va data.length true with
  | .fault e => .fault e
  | .held => .held
  | .ok l => .ok (s.putSegs l data)

/-- Is [a, e) covered by the union of ranges (base, length)? `k` bounds the ranges used. -/
def covered (rs : List (Nat × Nat)) (a e : Nat) : Nat → Bool
  | 0 => decide (e ≤ a)
  | k + 1 =>
    if e ≤ a then true
    else match rs.find? fun r => decide (r.1 ≤ a ∧ a < r.1 + r.2) with
      | some r => covered rs (r.1 + r.2) e k
      | none => false

/-- Is [a, a + n) inside the union of the ranges? -/
def inUnion (rs : List (Nat × Nat)) (a n : Nat) : Bool := covered rs a (a + n) (rs.length + 1)

/-! ### Cores and commands -/

/-- R79: s0 reads as zero. -/
def Seq.reg (q : Seq) (r : BitVec 5) : W64 := if r = 0 then 0 else sget 0 q.regs r.toNat
/-- R79: writes to s0 are discarded. -/
def Seq.setReg (q : Seq) (r : BitVec 5) (v : W64) : Seq :=
  if r = 0 then q else { q with regs := sset 0 q.regs r.toNat v }

/-- The issued command with a number. -/
def State.cmd (s : State) (uid : Nat) : Option Issued := s.disp.issued.find? fun i => i.uid == uid

def State.modCmd (s : State) (uid : Nat) (f : Issued → Issued) : State :=
  { s with disp := { s.disp with issued := modFirst (fun i => i.uid == uid) f s.disp.issued } }

def State.delCmd (s : State) (uid : Nat) : State :=
  { s with disp := { s.disp with issued := delFirst (fun i => i.uid == uid) s.disp.issued } }

/-- The command and gang slot that a core runs. -/
def State.cmdOf (s : State) (p : Nat) : Option (Issued × Nat) :=
  match (s.core p).run with
  | none => none
  | some r => (s.cmd r.uid).map fun i => (i, r.slot)

/-- R197: a core discards its queued and running work, its banks, moves and windows, and stops issuing. -/
def Core.discard (c : Core) : Core :=
  { c with eng := { Engines.reset with slots := c.eng.slots }, seq := { c.seq with halted := true, wait := none, busy := [], miss := none } }

/-- R101: requests of a core, or deliveries to it, that meet its closed port or carry a stale epoch are dropped and counted. -/
def State.dropAtPort (s : State) (p n : Nat) : State :=
  s.modCore p fun c => { c with portDrops := BitVec.ofNat 64 (satAdd 64 c.portDrops.toNat n) }

/-- Does the core run a slot of the command? -/
def Core.runs (c : Core) (uid : Nat) : Bool :=
  match c.run with
  | some r => r.uid == uid
  | none => false

/-- Discard the work of every core that still runs a slot of the command. -/
def State.discardGang (s : State) (uid : Nat) (gang : List Nat) : State :=
  gang.foldl (fun s p => s.modCore p fun c => if c.runs uid then c.discard else c) s

/-- R90: write zeros to every byte of a core's scratchpad. -/
def Core.wipeScratch (c : Core) : Core := { c with sp := { bytes := [], written := c.sp.written }, wipeDue := false }

/-- A core runs nothing any more. A wipe that waited for its command is made now (R90, log entry 41). -/
def Core.release (c : Core) : Core :=
  let c := if c.wipeDue then c.wipeScratch else c
  { c with run := none, seq := { c.seq with halted := false, ending := false, wait := none }, eng := Engines.reset,
           toll := TollState.reset }

/-- The cores that still run a slot of the command are free. -/
def State.releaseGang (s : State) (uid : Nat) (gang : List Nat) : State :=
  gang.foldl (fun s p => s.modCore p fun c => if c.runs uid then c.release else c) s

/-- R197, R260: a fault status ends a command: its gang stops, and the fault waits for the teardown of its context. The
first status that the dispatch unit receives stands. What the command's completed STOREs have written stays (DESIGN CHOICE, log entry 35:
R237 leaves the write set of a faulted command unspecified). -/
def State.faultCmd (s : State) (uid : Nat) (st : BitVec 16) : State :=
  match s.cmd uid with
  | none => s
  | some i =>
    let s := s.discardGang uid i.gang
    let s := s.modCmd uid fun i => match i.stage with
      | .faulted _ => i
      | _ => { i with stage := .faulted st }
    let x := s.ctx i.ctx
    let f : CtxFault := { status := st, queue := i.queue, idx := i.idx, atFetch := false, uid := some uid, entry := some i.entry }
    match x.pending with
    | some _ => s
    | none => s.setCtx i.ctx { x with pending := some f }

/-- A fault of the command that a core runs. -/
def State.faultCore (s : State) (p : Nat) (st : BitVec 16) : State :=
  match (s.core p).run with
  | none => s
  | some r => s.faultCmd r.uid st

/-- R95: the state of a core at the start of a work program. The 64 µs interval in which it starts counts as one with a toll, so that only
whole later intervals can pass without one (DESIGN CHOICE, log entry 70). -/
def Core.start (c : Core) (uid slot gang : Nat) (prog args : W64) (now : Nat) : Core :=
  { c with
    run := some { uid := uid, slot := slot }
    seq := (((({ Seq.reset with pc := prog } : Seq).setReg 1 args).setReg 2 (w64 slot)).setReg 3 (w64 gang))
    eng := Engines.reset
    sp := c.sp.clearMap
    tlb := Tlb.reset
    toll := { TollState.reset with promptAt := now / 64000, tollAt := now / 64000 } }

/-- R95: start the gang of a command, gang slot i on the i-th core of the list. -/
def State.startGang (s : State) (uid : Nat) (gang : List Nat) (prog args : W64) : State :=
  (gang.zipIdx).foldl (fun s g => s.modCore g.1 fun c => c.start uid g.2 gang.length prog args s.now) s

/-- R88: the reads of a core over scratchpad intervals [lo, hi) meet the errors that the code finds there: one bit wrong is corrected,
written back and counted, two are a core fault. A line whose bit in the written map is clear is not read. -/
def Core.scratchErrs (c : Core) (now : Nat) (reads : List (Nat × Nat)) (hits : List EccHit) : Core :=
  hits.foldl (fun c h =>
    if !c.sp.written.contains (h.word * 8 / 4096) || !(reads.any fun r => decide (r.1 < h.word * 8 + 8 ∧ h.word * 8 < r.2)) then c
    else if h.bad then { c with fault := some (c.fault.getD { cause := 2, time := now }) }
    else { c with corrected := BitVec.ofNat 32 (satAdd 32 c.corrected.toNat 1) }) c

/-- R88: of the bytes written, those of a word whose merging read found two bits wrong are not made. -/
def Core.unmerge (old new : Core) (hits : List EccHit) : Core :=
  { new with sp := { new.sp with bytes := hits.foldl (fun m h =>
      if h.bad && old.sp.written.contains (h.word * 8 / 4096) then bput m (h.word * 8) (bget old.sp.bytes (h.word * 8) 8) else m) new.sp.bytes } }

/-- No core waits any longer on the peal instances of a command (R343). -/
def State.dropWaiters (s : State) (uid : Nat) : State :=
  { s with peal := { s.peal with insts := s.peal.insts.map fun i => if i.uid = uid then { i with waiters := [] } else i } }

/-- R258: a kill is decided: the gang discards its work, and the command waits for KILL_COMPLETE. -/
def State.killCmd (s : State) (uid : Nat) : State :=
  match s.cmd uid with
  | none => s
  | some i =>
    match i.stage with
    | .running => ((s.discardGang uid i.gang).dropWaiters uid).modCmd uid fun i => { i with stage := .killing }
    | .ended => s.modCmd uid fun i => { i with stage := .killing }
    | _ => s

/-! ### The context record (R240) -/

/-- The field of w bits at bit lo of a context record. -/
def recField (r : BitVec 512) (lo w : Nat) : Nat := (r.toNat >>> lo) % 2 ^ w

/-- The overrun allowance and the slice in ns, the reservation, and whether the context is best-effort. -/
def Ctx.ovrNs (x : Ctx) : Nat := recField x.record 32 16 * 1000
def Ctx.sliceNs (x : Ctx) : Nat := recField x.record 22 10 * 1000000
def Ctx.reserve (x : Ctx) : Nat := recField x.record 15 7
def Ctx.bestEffort (x : Ctx) : Bool := recField x.record 14 1 == 1
/-- Queue q: enabled, in device memory, Relaxed Ordering, entries of its ring, base address. -/
def Ctx.qEn (x : Ctx) (q : Nat) : Bool := recField x.record (64 + 64 * q + 4) 1 == 1
def Ctx.qLoc (x : Ctx) (q : Nat) : Bool := recField x.record (64 + 64 * q + 5) 1 == 1
def Ctx.qRlx (x : Ctx) (q : Nat) : Bool := recField x.record (64 + 64 * q + 6) 1 == 1
def Ctx.qLog (x : Ctx) (q : Nat) : Nat := recField x.record (64 + 64 * q) 4
def Ctx.qSize (x : Ctx) (q : Nat) : Nat := 2 ^ (x.qLog q + 4)
def Ctx.qBase (x : Ctx) (q : Nat) : Nat := recField x.record (64 + 64 * q + 12) 52 * 4096

/-- R252 row 1, R259: a command reaches its end. On its overrun allowance, an end inside the window adds the overrun used
to the context's debt, and an end at its close or later has exceeded it. -/
def State.commandEnds (s : State) (uid : Nat) : State :=
  match s.cmd uid with
  | none => s
  | some i =>
    match i.allow with
    | none => s.modCmd uid fun i => { i with stage := .ended }
    | some t =>
      let x := s.ctx i.ctx
      if t + x.ovrNs ≤ s.now then s.faultCmd uid stOVERRUN
      else (s.setCtx i.ctx { x with debt := x.debt + (s.now - t) }).modCmd uid fun i => { i with stage := .ended }

/-! ### Clocks and steps -/

/-- R16: the quadrant of a physical core. -/
def quadOf (p : Nat) : Nat := p / 17

/-- Principals as keys of the selectors (R436). -/
def prKey : Principal → Nat
  | .host => 0
  | .part n => n.val + 1
  | .bmc => 17
  | .cp => 18
  | .peer _ => 19

def prHost : Principal → Bool
  | .host => true
  | _ => false
def prBmc : Principal → Bool
  | .bmc => true
  | _ => false
def prCp : Principal → Bool
  | .cp => true
  | _ => false
/-- The principal is the partition n itself. -/
def prOwns (p : Principal) (n : Nat) : Bool :=
  match p with
  | .part m => m.val == n
  | _ => false

/-- R27, R409, R411: may commands be fetched and issued: in the life-cycle state, and without a device fault? After a device fault that is no thermal
shutdown, commands that have issued run on and commit, while a head that has been fetched does not issue and no command is run again (DESIGN
CHOICE, log entry 71: R27 says only that no command is accepted). -/
def State.commandsRun (s : State) : Bool := s.sec.lc != .blank && s.sec.lc != .scrapped && s.sec.lcTarget.isNone && s.hub.fault == 0

/-- A packet that names a cause. The manual does not lay it out: word 0 is a free value (log entry 8), and word 1 holds the cause in bits
[15:0] (DESIGN CHOICE, log entry 61). -/
def State.postCause (s : State) (qid cause : Nat) : State :=
  let (w, s) := s.draw
  s.post qid [w, w64 (cause % 65536)] unitHub

/-- R324, R384, R422: the device is fenced: CARILLON_STATE is 3, every partition counts as not reset since, one toll with STATE 2 is due, and the
carillon key is cleared. -/
def State.becomeFenced (s : State) : State :=
  { s with car := { s.car with st := 3, fencedToll := false, unreset := 0xFFFF }
           sec := { s.sec with ckey := none, ckeyId := List.replicate 64 0 } }

/-- R27: a device fault; DEVICE_FAULT keeps its first cause. -/
def State.deviceFault (s : State) (cause : Nat) : State :=
  let s := if s.hub.fault = 0 then { s with hub := { s.hub with fault := BitVec.ofNat 16 cause } } else s
  s.postCause qidFault cause

/-! ### Dictionary writes that have a row of their own (R434, R440, R443, R464) -/

def rOK : BitVec 8 := 0
def rNO_ENTRY : BitVec 8 := 1
def rDENIED : BitVec 8 := 2
def rTYPE : BitVec 8 := 3
def rRANGE : BitVec 8 := 4
def rREFUSED : BitVec 8 := 5
def rBUSY : BitVec 8 := 6
def rSEGMENT : BitVec 8 := 7
def rMALFORMED : BitVec 8 := 8
def rTOO_LARGE : BitVec 8 := 9

/-- R452: the subindex under which a principal's requests count; those of firmware count nowhere. -/
def prSub : Principal → Nat
  | .host => 1
  | .part _ => 2
  | .bmc => 3
  | .peer _ => 4
  | .cp => 0

/-- R452: VOXYX_REQUESTS (0) to VOXYX_RETRIED (3) of a channel; VOXYX_MB_IGNORED is 4, subindex 1. -/
def State.vcount (s : State) (kind sub : Nat) : State :=
  { s with dict := { s.dict with
      counters := if sub = 0 then s.dict.counters else smod 0 s.dict.counters (256 * kind + sub) (satAdd 64 · 1) } }

/-- R452: a request of a principal that is answered with r has been counted. -/
def State.counted (s : State) (pr : Principal) (r : BitVec 8) : State :=
  let s := s.vcount 0 (prSub pr)
  if r = rBUSY then s.vcount 2 (prSub pr) else if r = rDENIED then s.vcount 1 (prSub pr) else s

/-- The answer's RESULT joins the trace. -/
def State.answer (s : State) (r : BitVec 8) : State := s.emit (.answer r)

/-- Why a write does not go ahead; none where it may. In SCRAPPED and during a life-cycle transition it is refused (R409, R411); while the
recovery image or the ROM loader runs, BUSY but for range 0x9000 (R463); outside the rights, DENIED; under maintenance, refused but for
ranges 0x1000, 0x9000 and 0xA000 (R468); and BUSY while the control processor that it needs restarts (R370).
`range` is the index's high digit. -/
def State.writeGate (s : State) (range : Nat) (allowed needsCp : Bool) : Option (BitVec 8) :=
  if s.sec.lc == .scrapped || s.sec.lcTarget.isSome then some rREFUSED
  else if (s.fw.run == some .recovery || s.fw.run == some .loader) && range != 9 then some rBUSY
  else if !allowed then some rDENIED
  else if s.bist.maint.isSome && !([1, 9, 10].contains range) then some rREFUSED
  else if needsCp && s.fw.run.isNone then some rBUSY
  else none

/-- A write by a principal: before the dictionary is served there is no answer (R464); where it goes ahead `f` gives the result
and the state. The request is counted (R452). -/
def State.dictWriteAt (s : State) (pr : Principal) (range : Nat) (allowed needsCp : Bool) (f : State → BitVec 8 × State) : State :=
  if !s.hub.ready then s
  else match s.writeGate range allowed needsCp with
    | some r => (s.counted pr r).answer r
    | none =>
      let (r, t) := f s
      (t.counted pr r).answer r

/-- A write outside ranges 0x1000, 0x9000 and 0xA000. -/
def State.dictWrite (s : State) (pr : Principal) (allowed needsCp : Bool) (f : State → BitVec 8 × State) : State := s.dictWriteAt pr 0 allowed needsCp f

/-- R412, R413: is a partition confidential? -/
def State.confidential (s : State) (n : Nat) : Bool := (s.part n).conf
def State.anyConfidential (s : State) : Bool := (List.range 16).any s.confidential

end Sys2Proof.Machine
end

