-- ==== Sys2Proof/Machine/Net.lean ====
section
/-! DEFINITION. Ports, frames and Geril packets as the other files send them (R291 to R299, R306, R309, R315 to R318, R347). -/

namespace Sys2Proof.Machine

/-! ### Ports -/

def State.port (s : State) (k : Nat) : Port := s.eth.ports.getD k (Port.reset k)
def State.setPort (s : State) (k : Nat) (p : Port) : State := { s with eth := { s.eth with ports := s.eth.ports.set k p } }

/-- The ports in state UP, lowest first. -/
def State.upPorts (s : State) : List Nat := (List.range 8).filter fun k => (s.port k).st == .up

/-- R309: a port counter, by the low byte of its index. -/
def Port.count (p : Port) (idx n : Nat) : Port := { p with counters := smod 0 p.counters idx (satAdd 64 · n) }
/-- R309: a counter of a class. -/
def Port.countTc (p : Port) (idx tc n : Nat) : Port := p.count (256 * idx + tc) n

/-- R292: the MAC rate in Gb/s. -/
def Port.rate (p : Port) : Nat := p.lanes.toNat * (if p.fast then 200 else 100)

def Port.cls (p : Port) (t : Nat) : ClassState := sget ClassState.reset p.classes t
def Port.setCls (p : Port) (t : Nat) (c : ClassState) : Port := { p with classes := sset ClassState.reset p.classes t c }

/-- R306: a port event goes to the event queues of PORT_EVQ_MASK. -/
def State.portEvent (s : State) (k kind tc : Nat) : State :=
  (List.range 16).foldl (fun s n =>
    if (s.port k).evqMask.getLsbD n then
      s.post n [w64 (0x05 * 2 ^ 56 + kind * 2 ^ 48 + k * 2 ^ 40 + tc * 2 ^ 32), w64 (s.port k).timer] (unitMac k)
    else s) s

/-- R295, R299: a frame joins its class's queue on a port in state UP. -/
def State.queueFrame (s : State) (k : Nat) (f : TxFrame) : State :=
  let p := s.port k
  if p.st = .up then s.setPort k { p with txq := smod [] p.txq f.tc (· ++ [f]) } else s

/-- A frame on the lowest-numbered port in state UP. -/
def State.sendLowest (s : State) (f : TxFrame) : State :=
  match s.upPorts with
  | [] => s
  | k :: _ => s.queueFrame k f

/-! ### The rank table and connections (R310, R313, R323) -/

def State.rankEntry (s : State) (r : Nat) : RankEntry := sget RankEntry.reset s.car.ranks r
def State.setRank (s : State) (r : Nat) (e : RankEntry) : State :=
  { s with car := { s.car with ranks := sset RankEntry.reset s.car.ranks r e } }
def State.conn (s : State) (r : Nat) : Conn := sget Conn.reset s.peal.conns r
def State.setConn (s : State) (r : Nat) (c : Conn) : State := { s with peal := { s.peal with conns := sset Conn.reset s.peal.conns r c } }

/-- R313, R324: an entry in state 0 or 3 counts as absent. -/
def RankEntry.present (e : RankEntry) : Bool := e.state == 1 || e.state == 2

/-- R313, R324: does the rank table hold a rank? -/
def State.rankKnown (s : State) (r : Nat) : Bool := decide (r < 255) && (s.rankEntry r).present

/-- R313, R371: the first entry of the rank table in use, of any state but 0, that holds a device identity. -/
def State.rankOfIdent (s : State) (x : BitVec 64) : Option Nat :=
  (List.range 255).find? fun r => (s.rankEntry r).state != 0 && (s.rankEntry r).ident == x

/-- R297, R313: the first entry of the rank table in use whose device sends with a MAC address: its MAC base to base + 7 (log entry 25). -/
def State.rankOfMac (s : State) (src : BitVec 48) : Option Nat :=
  (List.range 255).find? fun r => (s.rankEntry r).state != 0 && decide ((src - (s.rankEntry r).mac).toNat < 8)

/-- The device's rank, incarnation, and whether the device is an active rank. -/
def State.ownRank (s : State) : Nat := s.car.ownRank.toNat
def State.isActive (s : State) : Bool := decide (s.ownRank < s.car.activeRanks)

/-- R314: the buddy of the device's rank. -/
def State.buddy (s : State) : Nat := (s.ownRank + 1) % s.car.activeRanks

/-- The ranks below 255 whose entry is present, other than the device's own. -/
def State.peers (s : State) : List Nat := (List.range 255).filter fun r => (s.rankEntry r).present && r != s.ownRank

/-! ### Counters and events (R347) -/

/-- GERIL_TX_PKTS … GERIL_DISABLED by subindex. -/
def State.gcount (s : State) (sub : Nat) : State :=
  { s with peal := { s.peal with counters := smod 0 s.peal.counters sub (satAdd 64 · 1) } }
def cTx : Nat := 1
def cRx : Nat := 2
def cRetx : Nat := 3
def cDup : Nat := 4
def cStale : Nat := 5
def cFenced : Nat := 6
def cCksum : Nat := 7
def cBadHdr : Nat := 8
def cCe : Nat := 9
def cDisabled : Nat := 10

/-- R347: a transport event goes to the event queues of PEAL_PARTS. -/
def State.netEvent (s : State) (kind : Nat) (status : BitVec 16) (rank : Nat) : State :=
  (List.range 16).foldl (fun s n =>
    if s.peal.parts.getLsbD n then
      s.post n [w64 (0x0E * 2 ^ 56 + kind * 2 ^ 48 + status.toNat * 2 ^ 32 + rank % 65536), w64 s.now] unitPeal
    else s) s

/-! ### Geril packets (R315 to R318) -/

/-- An IPv4-mapped address. -/
def isMapped (a : BitVec 128) : Bool := a.toNat / 2 ^ 32 % 2 ^ 96 == 0xFFFF

/-- The port's own addresses, the IPv4 one in its mapped form. -/
def Port.addr4 (p : Port) : BitVec 128 := BitVec.ofNat 128 (0xFFFF * 2 ^ 32 + p.ipv4.toNat)
def Port.addr6 (p : Port) : BitVec 128 := p.ipv6

/-- R315, R323, R346: the addresses of this device and of a rank that packets on port k carry: IPv4 where the port and the rank have such
an address, else IPv6 where both have one and the connection has the feature (log entry 18); none where they share no IP version. -/
def State.path (s : State) (k rank : Nat) : Option (BitVec 128 × BitVec 128) :=
  let p := s.port k
  let e := s.rankEntry rank
  let c := s.conn rank
  match e.addrs.find? isMapped with
  | some a =>
    if p.ipv4 ≠ 0 then some (p.addr4, a) else
      match e.addrs.find? fun a => a != 0 && !isMapped a with
      | some b => if p.ipv6 ≠ 0 ∧ (!c.up ∨ c.features.getLsbD 1) then some (p.addr6, b) else none
      | none => none
  | none =>
    match e.addrs.find? fun a => a != 0 with
    | some b => if p.ipv6 ≠ 0 ∧ (!c.up ∨ c.features.getLsbD 1) then some (p.addr6, b) else none
    | none => none

/-- Does port k reach the rank over IPv6? -/
def State.viaV6 (s : State) (k rank : Nat) : Bool := (s.path k rank).any fun a => !isMapped a.2

/-- The ports in state UP that reach the rank. -/
def State.pathPorts (s : State) (rank : Nat) : List Nat := s.upPorts.filter fun k => (s.path k rank).isSome

/-- R317: headers of a frame in bytes, preamble and gap aside. -/
def gerilHeader (v6 : Bool) : Nat := if v6 then 102 else 82

/-- The frame of a Geril packet. -/
def gerilFrame (tc : Nat) (p : GPkt) : TxFrame :=
  { tc := tc, len := max 64 (gerilHeader (!isMapped p.dstIp) + p.payload.length), body := .geril p }

/-- R312, R346: a Geril packet is sent on port k; with CARILLON_EN 0, or without addresses, none is. -/
def State.sendGeril (s : State) (k tc : Nat) (p : GPkt) : State :=
  if s.car.en && (s.port k).st == .up && p.srcIp != 0 && p.dstIp != 0 then (s.queueFrame k (gerilFrame tc p)).gcount cTx else s

/-- The header of a packet of this device toward a rank, its fields of no use at zero: a CONTROL packet. -/
def State.newHdr (s : State) (rank : Nat) : GHdr :=
  { retx := false, last := false, ece := false, len := 0, offset := 0, opid := 0, gen := 0, inc := s.car.ownInc, dst := BitVec.ofNat 16 rank,
    src := s.car.ownRank, seq := 0, stream := 0, op := 0, typ := 3, ver := 1 }

/-- R315: a packet between two addresses, its LEN that of its payload: from and to the Geril UDP port, with ECT(0) and Don't Fragment. -/
def State.mkPkt (s : State) (k : Nat) (a : BitVec 128 × BitVec 128) (h : GHdr) (payload : List Byte) : GPkt :=
  { port := Fin.ofNat 8 k, srcIp := a.1, dstIp := a.2, sport := s.peal.udpPort, dport := s.peal.udpPort, ecn := 2, df := true,
    cksumOk := true, head := { h with len := BitVec.ofNat 14 payload.length }.word, region := 0, at_ := 0, want := 0, tc := 0, payload := payload }

/-- A packet of this device toward a rank on port k. -/
def State.newPkt (s : State) (k rank : Nat) (h : GHdr) (payload : List Byte) : GPkt := s.mkPkt k ((s.path k rank).getD (0, 0)) h payload

/-- R318: a CONTROL packet on the lowest port in state UP that reaches the rank, on TC6; `retx` where it is sent again (R316). -/
def State.sendCtl (s : State) (retx : Bool) (rank op : Nat) (opid gen : BitVec 32) (stream : Nat) (payload : List Byte) : State :=
  match s.pathPorts rank with
  | [] => s
  | k :: _ =>
    s.sendGeril k 6 (s.newPkt k rank
      { s.newHdr rank with retx := retx, op := BitVec.ofNat 8 op, opid := opid, gen := gen, stream := BitVec.ofNat 14 stream } payload)

/-- A CONTROL packet that is sent for the first time. -/
def State.sendControl (s : State) (rank op : Nat) (opid gen : BitVec 32) (stream : Nat) (payload : List Byte) : State :=
  s.sendCtl false rank op opid gen stream payload

def ctlHELLO : Nat := 1
def ctlHELLO_ACK : Nat := 2
def ctlFENCED : Nat := 3
def ctlANNOUNCE : Nat := 4
def ctlRESUME : Nat := 5
def ctlSTEP_END : Nat := 6
def ctlCOMMIT_NOTICE : Nat := 7
def ctlABORT : Nat := 8
def ctlCLOSE : Nat := 9

/-- R313: the 96 bytes of an entry. -/
def RankEntry.bytes (e : RankEntry) : List Byte :=
  leBytes 8 e.ident.toNat ++ leBytes 4 e.inc.toNat ++ leBytes 4 e.state.toNat ++ leBytes 8 e.mac.toNat ++
    (List.range 4).flatMap (fun i => leBytes 16 (e.addrs.getD i 0).toNat) ++ List.replicate 8 0

/-- R323: the capabilities that the device sends: versions 1 to 1, MAX_FRAME of its lowest port in state UP, its stream
limit and every feature; their layout is the model's (log entry 19). -/
def State.capabilities (s : State) : List Byte :=
  let mf := match s.upPorts with
    | k :: _ => (s.port k).maxFrame
    | [] => 9216
  [1, 1] ++ leBytes 2 mf ++ leBytes 4 16384 ++ [0x1F]

end Sys2Proof.Machine
end

