-- ==== Sys2Proof/Machine/Damper.lean ====
section
/-! DEFINITION. The damper (chapter 17): measurement, the cap loop and the fast loop, temperature, lending, energy. -/

namespace Sys2Proof.Machine

/-! ### Values -/

/-- R390: the effective cap in mW; it always lies between 0.85 and 1.15 times the own cap. -/
def Damper.effCap (d : Damper) : Nat :=
  max (d.capSet * 850) (min (d.capSet * 1150) (d.capInForce * 1000 + d.borrowed - d.lent))

/-- R391: the regulation point, in 1/1,000 mW. -/
def Damper.regPoint (d : Damper) : Nat := d.effCap * 985

/-- The 1 ms mean module power is at or below the regulation point. -/
def Damper.settled (d : Damper) : Bool := decide (d.meanPower * 1000 ≤ d.regPoint)

/-- The voltage points of R34 in mV. -/
def vPoints : List Nat := [620, 650, 680, 700, 750, 800, 850]

/-- R32, R34: pace of quadrant q at v mV and 85 °C in Gst/s, linear between the points of its table: exactly so, where R32 allows 1 % (DESIGN
CHOICE, log entry 24). -/
def paceAt (q v : Nat) : Rat :=
  let go := (List.range 6).find? fun i => decide (vPoints.getD i 0 ≤ v ∧ v ≤ vPoints.getD (i + 1) 0)
  match go with
  | none => (Config.paceTable q 6 : Rat) / 1000
  | some i =>
    let v0 := vPoints.getD i 0
    let v1 := vPoints.getD (i + 1) 0
    let p0 : Rat := Config.paceTable q i
    let p1 : Rat := Config.paceTable q (i + 1)
    (p0 + (p1 - p0) * ((v - v0 : Nat) : Rat) / ((v1 - v0 : Nat) : Rat)) / 1000

/-- R33: the derating by a temperature in 1/1,000 °C; below 85 °C the 85 °C value is taken (log entry 24). -/
def derate (t : Nat) : Rat := if t ≤ 85000 then 1 else 1 - ((t - 85000 : Nat) : Rat) / 1000000

/-- R23, R32, R33, R36: the pace of a quadrant, or of the hub (4), in Gst/s: by its rail and its die's temperature. -/
def Damper.pace (d : Damper) (q : Nat) : Rat :=
  let p : Rat := if q = 4 then (Config.paceHub : Rat) / 1000 else paceAt q (sget 0 d.vcq q)
  p * derate (d.temps.getD q 25000)

def State.paceNow (s : State) (q : Nat) : Rat := s.damper.pace q

/-- R34: PACE_NOW takes the paces of now. -/
def Damper.measurePace (d : Damper) : Damper := { d with paceReg := (List.range 5).map d.pace }

/-- R391: the lowest voltage, in steps of 5 mV, at which quadrant q reaches a pace; 850 mV where none does. -/
def voltageFor (q : Nat) (t : Nat) (pace : Rat) : Nat :=
  (((List.range 47).map fun i => 620 + 5 * i).find? fun v => decide (pace ≤ paceAt q v * derate t)).getD 850

/-- At most 10 mV toward a voltage. -/
def stepVolt (now goal : Nat) : Nat := if now < goal then min goal (now + 10) else max goal (now - 10)

/-- R389: the lowest pace of the part's pace table. -/
def lowestPace : Rat :=
  let l := (List.range 4).flatMap fun q => (List.range 7).map fun i => Config.paceTable q i
  ((l.foldl min (l.headD 0) : Nat) : Rat) / 1000

/-- R391: the ceiling: 1.20 Gst/s, or while the device borrows the lowest 850 mV pace of its quadrants. -/
def Damper.ceiling (d : Damper) : Rat :=
  if d.effCap ≤ d.capSet * 1000 then 12 / 10
  else (List.range 4).foldl (fun m q => min m (paceAt q 850)) (paceAt 0 850)

def Damper.fastOf (d : Damper) (q : Nat) : Fast := sget Fast.reset d.fast q
def Damper.setFast (d : Damper) (q : Nat) (f : Fast) : Damper := { d with fast := sset Fast.reset d.fast q f }
def Damper.capSwell (d : Damper) (q : Nat) : Nat := sget 8 d.swell q
def Damper.capHbm (d : Damper) (q : Nat) : Nat := sget 16 d.hbm q

/-- R392, R394, R396, R405: the swell ceiling in force: the lowest of what each rule sets. -/
def Damper.swellNow (d : Damper) (q : Nat) : Nat :=
  let f := d.fastOf q
  if d.shutdown then 0
  else min (min (d.capSwell q) (if f.holdTil.isSome then 1 else f.swell))
    (min (if d.tjLimit then 4 else 8) (if d.imonBad.contains q then 4 else 8))

/-- The HBM admission in force. -/
def Damper.hbmNow (d : Damper) (q : Nat) : Nat :=
  let f := d.fastOf q
  if d.shutdown then 0
  else min (min (d.capHbm q) (if f.holdTil.isSome then 4 else f.hbm)) (if d.tjLimit then 8 else 16)

/-- R229, R389, R396, R407: the level of the ball ALERT_N, low while the fault queue's reset, THERMAL or TELEMETRY_LOST stands. -/
def State.alertN (s : State) : Bool := !(s.mq.faultqReset || s.damper.throttle.getLsbD 4 || s.damper.throttle.getLsbD 5)

/-! ### Events and THROTTLE (R406, R407) -/

/-- R406: a damper event goes to the event queue of every partition. -/
def State.damperEvent (s : State) (kind : Nat) : State :=
  (List.range 16).foldl (fun s n => s.post n [w64 (0x03 * 2 ^ 56 + kind * 2 ^ 48), w64 s.now] unitDamper) s

/-- R407: bits [2] and [3], which follow the fast loop at once. -/
def Damper.fastBits (d : Damper) : Nat :=
  let lim (q : Nat) : Bool := 
    let f := d.fastOf q
    decide ((if f.holdTil.isSome then 1 else f.swell) < d.capSwell q ∨ (if f.holdTil.isSome then 4 else f.hbm) < d.capHbm q)
  4 * b2n ((List.range 4).any lim) + 8 * b2n ((List.range 4).any fun q => (d.fastOf q).holdTil.isSome)

/-- THROTTLE takes a value; its change is an event at most once per 10 ms. -/
def State.setThrottle (s : State) (v : Nat) : State :=
  let d := s.damper
  let t := BitVec.ofNat 8 v
  if t = d.throttle then s
  else
    let due := match d.lastEvent with
      | none => true
      | some a => decide (a + 10000000 ≤ s.now)
    let s := { s with damper := { d with throttle := t, lastEvent := if due then some s.now else d.lastEvent } }
    if due then s.damperEvent 1 else s

/-- The bits of THROTTLE that the cap loop does not own are refreshed. -/
def State.refreshFast (s : State) : State :=
  s.setThrottle (s.damper.throttle.toNat - s.damper.throttle.toNat / 4 % 4 * 4 + s.damper.fastBits)

/-! ### Lending frames (R399) -/

/-- R312, R399, R405: may the device lend, borrow and send lending messages? Not while it is fenced, nor after a shutdown. -/
def State.mayLend (s : State) : Bool := s.damper.lendEn && s.car.en && s.car.st != 3 && !s.damper.shutdown

/-- R399: the 32 bytes of a lending message. -/
def lendBytes (typ : Nat) (m : LendMsg) : List Byte :=
  [BitVec.ofNat 8 typ, m.ver] ++ leBytes 2 m.rank.toNat ++ leBytes 4 m.inc.toNat ++ leBytes 2 m.dst.toNat ++ leBytes 2 0 ++
    leBytes 4 m.loan.toNat ++ leBytes 4 m.amount.toNat ++ List.replicate 12 0

/-- A lending message to a rank, on TC5 of the lowest port in state UP. -/
def State.sendLend (s : State) (typ rank : Nat) (loan : BitVec 32) (amount : Nat) : State :=
  if s.mayLend then
    let m : LendMsg := { ver := 1, rank := s.car.ownRank, inc := s.car.ownInc, dst := BitVec.ofNat 16 rank, loan := loan,
                         amount := BitVec.ofNat 32 amount }
    s.sendLowest { tc := 5, len := 64, body := .lend (lendBytes typ m) rank }
  else s

/-- The recipient's side of a loan ends: the effective cap falls, and RETURN is owed. -/
def State.endBorrow (s : State) (p : Borrow → Bool) : State :=
  let gone := s.damper.borrows.filter fun b => p b && !b.ending && decide (0 < b.amount)
  if gone.isEmpty then s
  else
    let s := { s with damper := { s.damper with
      borrowed := s.damper.borrowed - (gone.map Borrow.amount).sum
      borrows := s.damper.borrows.map fun b => if gone.contains b then { b with ending := true } else b } }
    s.damperEvent 5

/-- R401: once the 1 ms mean power allows, RETURN is sent for loans that have ended, and GRANT for loans that have begun. The
record of a returned loan stays, so that a late copy of it is no new loan. -/
def State.settleLoans (s : State) : State :=
  if !s.damper.settled then s
  else
    let owed := s.damper.borrows.filter Borrow.ending
    let s := { s with damper := { s.damper with borrows := s.damper.borrows.map fun (b : Borrow) => if b.ending then { b with amount := 0, ending := false } else b } }
    let s := owed.foldl (fun (s : State) (b : Borrow) => s.sendLend 5 b.rank b.seq b.amount) s
    let new := s.damper.loans.filter fun (l : Loan) => !l.granted
    let s := new.foldl (fun (s : State) (l : Loan) => s.sendLend 2 l.rank l.seq l.amount) s
    { s with damper := { s.damper with loans := s.damper.loans.map fun (l : Loan) => if l.granted then l else { l with granted := true, sentAt := s.now } } }

/-- The donor's side of a loan ends: its effective cap rises. -/
def State.endLoan (s : State) (p : Loan → Bool) : State :=
  let gone := s.damper.loans.filter p
  if gone.isEmpty then s
  else
    let s := { s with damper := { s.damper with
      lent := s.damper.lent - (gone.map Loan.amount).sum, loans := s.damper.loans.filter fun l => !p l } }
    s.damperEvent 5

/-- R401: reset of the carillon state ends what the device borrows. -/
def State.endLoans (s : State) : State := (s.endBorrow fun _ => true).settleLoans

/-! ### The cap loop (R390, R391, R395, R396, R403) -/

/-- The highest reading of all five dies. -/
def maxTemp (l : List Nat) : Nat := l.foldl max 0

/-- R391, R392: the swell ceiling and HBM admission that the cap loop sets on quadrant q: one unit lower while the pace
target lies below what the quadrant reaches at 620 mV, else one unit back. -/
def Damper.capUnits (d : Damper) (q : Nat) (floor : Bool) : Damper :=
  let w := d.capSwell q
  let h := d.capHbm q
  if floor then
    (if 1 < w then { d with swell := sset 8 d.swell q (w - 1) }
    else if 4 < h then { d with hbm := sset 16 d.hbm q (h - 1) } else d)
  else if h < 16 then { d with hbm := sset 16 d.hbm q (h + 1) }
  else if w < 8 then { d with swell := sset 8 d.swell q (w + 1) }
  else d

/-- Is the pace target below the pace of quadrant q at 620 mV? -/
def Damper.belowFloor (d : Damper) (q : Nat) : Bool := decide (d.paceT < paceAt q 620 * derate (d.temps.getD q 25000))

/-- R389: the current of a VCQ rail over the 100 µs that close now: the mean of its samples since the last run, or the last sample where there
was none. -/
def Fast.recent (f : Fast) : Nat := if f.accN = 0 then (f.window.headD (0, 0)).2 else f.acc / f.accN

/-- R389: the module power in mW: each rail's voltage times its current, the VCQ rails by the currents `amps`. -/
def samplePower (m : CapSample) (amps : List Nat) : Nat :=
  (((m.vcqMv.zip amps).map fun x => x.1 * x.2).sum + (m.rails.map fun r => r.mV * r.mA).sum) / 1000

/-- A run's reading joins those of the last 10 ms (R388). The telemetry that a run reads stands for the 100 µs that close there, so that it lies
in [t − 1 ms, t) of that run (R43; DESIGN CHOICE, log entry 3). -/
def Damper.measure (d : Damper) (now : Nat) (m : CapSample) : Damper :=
  let amps := (List.range 4).map fun q => (d.fastOf q).recent
  let r : Reading := { at_ := now, power := samplePower m amps, amps := amps }
  (List.range 4).foldl (fun d q => d.setFast q { d.fastOf q with acc := 0, accN := 0 })
    { d with readings := r :: d.readings.filter fun x => decide (now < x.at_ + 10000000) }

/-- R388: the readings of the window of a length in ns that ends now. -/
def Damper.readingsOf (d : Damper) (now span : Nat) : List Reading := d.readings.filter fun r => decide (now < r.at_ + span)

def meanOf (l : List Nat) : Nat := l.sum / l.length

/-- R388: the mean module power in mW over a window: of 1 ms for the cap loop, of 10 ms for the cap itself. -/
def Damper.powerOver (d : Damper) (now span : Nat) : Nat := meanOf ((d.readingsOf now span).map Reading.power)

/-- R391: i[q], the 1 ms mean current of each VCQ rail in mA. -/
def Damper.meanAmps (d : Damper) (now : Nat) : List Nat :=
  (List.range 4).map fun q => meanOf ((d.readingsOf now 1000000).map fun r => r.amps.getD q 0)

/-- R391: the pace target after one run. -/
def Damper.nextPace (d : Damper) (amps : List Nat) : Rat :=
  let p := d.meanPower * 1000
  let tj := maxTemp d.temps
  if !d.telemetry then lowestPace
  else if d.regPoint < p ∨ amps.any (fun i => decide (177300 < i)) ∨ 95000 ≤ tj then d.paceT * 99 / 100
  else if p * 100 < d.regPoint * 97 ∧ tj < 93000 ∧ d.fastBits % 8 = 0 then min (d.paceT * 1005 / 1000) d.ceiling
  else d.paceT

/-- R407: the bits that the cap loop evaluates. -/
def Damper.loopBits (d : Damper) (amps : List Nat) : Nat :=
  let p := d.meanPower * 1000
  b2n (decide (d.regPoint < p) || (decide (d.paceT < d.ceiling) && decide (d.regPoint * 97 ≤ p * 100))) +
    2 * b2n (amps.any fun i => decide (177300 < i)) + 16 * b2n d.tjHot + 32 * b2n (!d.telemetry) + 64 * b2n (decide (0 < d.lent)) +
    128 * b2n ((List.range 4).any d.belowFloor)

/-- One run of the loop on the damper itself: a raised cap comes into force, then pace, voltages, units, temperatures and
energy. -/
def Damper.run (d : Damper) (now : Nat) (m : CapSample) : Damper :=
  let d := d.measure now m
  let d := { d with meanPower := d.powerOver now 1000000, temps := (List.range 5).map (m.temps.getD · 25000)
                    energyNj := d.energyNj + ((d.readings.map Reading.power).headD 0) * 100 }
  let raised := { d with capInForce := d.capSet }
  let d := if d.capInForce < d.capSet ∧ raised.settled then raised else d
  let tj := maxTemp d.temps
  let d := { d with tjHot := if 95000 ≤ tj then true else if tj < 93000 then false else d.tjHot
                    tjLimit := if 100000 ≤ tj then true else if tj < 98000 then false else d.tjLimit }
  let d := { d with paceT := d.nextPace (d.meanAmps now) }
  let d := { d with vcq := (List.range 4).foldl (fun t q =>
    sset 0 t q (stepVolt (sget 0 d.vcq q) (voltageFor q (d.temps.getD q 25000) d.paceT))) d.vcq }
  (List.range 4).foldl (fun d q => d.capUnits q (d.belowFloor q)) d

/-- R397: the shutdown of 110 °C: every VCQ rail goes to 0.62 V, THERM_N is asserted, and it is a device fault. -/
def State.shutDown (s : State) : State :=
  let d := { s.damper with shutdown := true, vcq := [(0, 620), (1, 620), (2, 620), (3, 620)] }
  { s with damper := d, hub := { s.hub with thermN := false } }.deviceFault 4

/-- CAP_LOOP: the loop of one 100 µs; each row of R396 that the reading meets acts, and that of 110 °C shuts the device down. After a shutdown the
loop only measures: rails and loans stay as they are (R397, R405). A device in reset or without power runs no loop (R404, R484). -/
def execCapLoop (m : CapSample) (s : State) : Out :=
  if !s.alive then .next s
  else
    let off := s.damper.shutdown
    let was := s.damper.tjLimit
    let d := s.damper.run s.now m
    let s := { s with damper := (if off then { d with vcq := s.damper.vcq } else d).measurePace }
    let s := if s.damper.tjLimit && !was then s.damperEvent 2 else s
    let hot (t : Nat) : Bool := !off && decide (t ≤ maxTemp s.damper.temps)
    let s := if hot 95000 then s.endBorrow fun _ => true else s
    let s := s.setThrottle (s.damper.loopBits (s.damper.meanAmps s.now) + s.damper.fastBits)
    let s := if off then s else s.settleLoans
    .next (if hot 110000 then s.shutDown else s)

/-! ### The fast loop (R394) -/

/-- How long ago in ns, modulo 2^64, the rail's window timer read t. -/
def Fast.age (f : Fast) (t : Nat) : Nat := (f.timer + (2 ^ 64 - t % 2 ^ 64)) % 2 ^ 64

/-- R43: the samples of the window [t − 4 µs, t), t being the rail window timer now: a sample taken now is not among them. -/
def Fast.inWindow (f : Fast) : List (Nat × Nat) := f.window.filter fun e => decide (0 < f.age e.1 ∧ f.age e.1 ≤ 4000)

/-- R394: I_w in mA: the mean of the 400 samples of the window; where it holds fewer, those that lack count as 0 (DESIGN CHOICE, log entry 3). -/
def Fast.mean (f : Fast) : Nat := (f.inWindow.map Prod.snd).sum / 400

/-- A sample joins the window, which forgets those of more than 4 µs ago, and the sum for the cap loop. -/
def Fast.join (f : Fast) (mA : Nat) : Fast :=
  { f with window := (f.timer, mA) :: f.window.filter (fun e => decide (f.age e.1 ≤ 4000)), acc := f.acc + mA, accN := f.accN + 1 }

/-- R394: rows 2 to 4 of the table, for the mean before this sample. -/
def Fast.windowRule (f : Fast) (now capSwell capHbm : Nat) : Fast :=
  let iw := f.mean
  if 228000 ≤ iw then
    match f.highAt with
    | none => { f with swell := min f.swell 6, hbm := min f.hbm 12, highAt := some now, lowAt := none }
    | some a =>
      if now < a + 40 then { f with lowAt := none }
      else
        let f := if 1 < f.swell then { f with swell := f.swell - 1 } else if 4 < f.hbm then { f with hbm := f.hbm - 1 } else f
        { f with highAt := some now, lowAt := none }
  else
    let f := { f with highAt := none }
    if iw < 204000 then
      match f.lowAt with
      | none => { f with lowAt := some now }
      | some a =>
        if now < a + 4000 then f
        else
          let f := if f.swell < capSwell then { f with swell := f.swell + 1 } else if f.hbm < capHbm then { f with hbm := f.hbm + 1 } else f
          { f with lowAt := some now }
    else { f with lowAt := none }

/-- FAST_LOOP: one 10 ns current sample of a quadrant, timed by its rail's window timer (R40). The sample is a valid reading: an IMON input that
was invalid is so no longer (R389, log entry 3). -/
def execFastLoop (q : Fin 4) (mA : Nat) (s : State) : Out :=
  let d := { s.damper with imonBad := setDel s.damper.imonBad q.val (q.val + 1) }
  let f := ((d.fastOf q.val).windowRule (d.fastOf q.val).timer (d.capSwell q.val) (d.capHbm q.val)).join mA
  if !s.alive then .next s
  else if 290000 ≤ mA then
    let f := { f with holdTil := some (f.timer + 4000) }
    .next ({ s with damper := { d.setFast q.val f with peaks := satAdd 64 d.peaks 1 } }.refreshFast)
  else .next ({ s with damper := d.setFast q.val f }.refreshFast)

/-- PEAK_HOLD_END. -/
def execPeakHoldEnd (q : Fin 4) (s : State) : Out :=
  let f := s.damper.fastOf q.val
  match f.holdTil with
  | none => .next s
  | some t =>
    if s.alive && decide (t ≤ f.timer) then .next ({ s with damper := s.damper.setFast q.val { f with holdTil := none } }.refreshFast) else .next s

/-! ### Shutdown and telemetry (R389, R397) -/

/-- THERMAL_SHUTDOWN. -/
def execThermalShutdown (s : State) : Out := .next (if s.alive then s.shutDown else s)

/-- TELEMETRY_LOST, of an IMON input or of the AVSBus. -/
def execTelemetryLost (imon : Option (Fin 4)) (s : State) : Out :=
  if !s.alive then .next s else
  let bad := match imon with
    | some q => setIns s.damper.imonBad q.val
    | none => s.damper.imonBad
  let was := s.damper.telemetry
  let s := { s with damper := { s.damper with telemetry := false, imonBad := bad, paceT := lowestPace } }
  let s := s.setThrottle (s.damper.throttle.toNat ||| 32)
  .next (if was then s.damperEvent 3 else s)

/-- TELEMETRY_RESTORED: every input has been valid for 10 ms. -/
def execTelemetryRestored (s : State) : Out :=
  if s.damper.telemetry || !s.alive then .next s
  else
    let s := { s with damper := { s.damper with telemetry := true, imonBad := [] } }
    .next ((s.setThrottle (s.damper.throttle.toNat - s.damper.throttle.toNat / 32 % 2 * 32)).damperEvent 4)

/-! ### CAP_SET (R390, R404) -/

/-- CAP_SET: a lower cap is in force at once, a higher one when the mean power allows; the value is kept in flash. -/
def execCapSet (pr : Principal) (v : BitVec 16) (s : State) : Out :=
  .next (s.dictWrite pr (prHost pr || prBmc pr || prCp pr) true fun s =>
    if v.toNat < 400 ∨ Config.capFused < v.toNat then (rREFUSED, s)
    else
      let d := { s.damper with capSet := v.toNat }
      let raised := { d with capInForce := v.toNat }
      let d := if v.toNat ≤ d.capInForce ∨ raised.settled then raised else d
      (rOK, { s with damper := d, fw := { s.fw with flashCap := some v.toNat } }))

/-! ### Lending (R399 to R402) -/

/-- R371: the toll age of a rank in ns. -/
def State.tollAge (s : State) (r : Nat) : Nat := s.now - sget 0 s.car.lastToll r

/-- R400: the ranks whose tolls are fresh, with their slack. -/
def State.slacks (s : State) : List (Nat × Nat) :=
  (s.peers.filter fun r => decide (s.tollAge r < s.car.miss * s.car.period * 1000)).map fun r => (r, (sget 0 s.damper.peerSlack r).toNat)

/-- The lowest slack and its lowest-numbered rank. -/
def lowestSlack : List (Nat × Nat) → Option (Nat × Nat)
  | [] => none
  | e :: r => some (r.foldl (fun m x => if x.2 < m.2 then x else m) e)

/-- R400, R405: the loan to recall: the oldest, when the device's slack lies below its recipient's or the loans exceed
15 % of the own cap. -/
def State.toRecall (s : State) (own : Nat) : Option Loan :=
  match s.damper.loans.head? with
  | none => none
  | some l =>
    if own < (sget 0 s.damper.peerSlack l.rank).toNat ∨ s.damper.capSet * 150 < s.damper.lent then some l else none

/-- LEND_PERIOD: the decision of R400, made once LEND_PERIOD has passed on the hub timer since the last one. -/
def execLendPeriod (s : State) : Out :=
  let d := s.damper
  let own := if d.slackN = 0 then 0 else min 65535 (d.slackSum / d.slackN)
  if !s.alive ∨ s.now < d.lendAt + d.lendPeriod * 1000 then .next s
  else
  let s := { s with damper := { d with slackSum := 0, slackN := 0, lendAt := s.now } }
  if !s.mayLend then .next s
  else
    let thr := d.throttle.toNat
    let give := match lowestSlack s.slacks with
      | some e => if e.2 + d.lendThresh ≤ own ∧ d.lent + d.lendStep ≤ d.capSet * 150 ∧ thr / 4 % 2 = 0 ∧ thr / 16 % 2 = 0 then some e.1 else none
      | none => none
    match give with
    | some r =>
      let l : Loan := { seq := d.loanSeq + 1, rank := r, amount := d.lendStep, sentAt := s.now, recalled := none, granted := false }
      let s := { s with damper := { s.damper with loanSeq := d.loanSeq + 1, loans := d.loans ++ [l], lent := d.lent + d.lendStep } }
      .next ((s.damperEvent 5).settleLoans)
    | none =>
      match s.toRecall own with
      | some l =>
        let s := { s with damper := { s.damper with
          loans := modFirst (fun x => x.seq == l.seq) (fun x => { x with recalled := some (l.recalled.getD s.now) }) s.damper.loans } }
        .next (s.sendLend 4 l.rank l.seq l.amount)
      | none =>
        let again (l : Loan) : Bool := l.granted && decide (s.now < l.sentAt + d.lendLease * 1000000) && match l.recalled with
          | none => true
          | some t => decide (s.now < t + d.lendGuard * 1000000)
        let live := s.damper.loans.filter again
        let s := { s with damper := { s.damper with loans := s.damper.loans.map fun l => if again l then { l with sentAt := s.now } else l } }
        .next (live.foldl (fun s l => s.sendLend 2 l.rank l.seq l.amount) s)

/-- R399: a lending message is checked as R324 checks Geril packets, one of a rank that the table does not hold being counted in GERIL_BAD_HDR, and
must name this device; `f` handles it. -/
def State.lendMsg (s : State) (m : LendMsg) (f : State → State) : State :=
  let e := s.rankEntry m.rank.toNat
  if !s.car.en ∨ m.ver ≠ 1 then s
  else if !s.rankKnown m.rank.toNat then s.gcount cBadHdr
  else if m.dst ≠ s.car.ownRank then s
  else if m.inc ≠ e.inc then { s with damper := { s.damper with lendStale := satAdd 64 s.damper.lendStale 1 } }
  else f s

/-- R401: the lease of a borrowed loan in ns. -/
def Damper.lease (d : Damper) : Nat := (d.lendLease - d.lendGuard) * 1000000

/-- R401: leases that have closed end their loans. -/
def State.closeLeases (s : State) (p : Borrow → Bool) : State :=
  let closed (b : Borrow) : Bool := p b && decide (b.at_ + s.damper.lease ≤ s.now)
  if s.damper.borrows.any closed then (s.endBorrow closed).settleLoans else s

/-- GRANT: a copy that arrives at the close of the lease or later renews nothing (R42), nor does one to a device that is shut down or fenced
(R405). -/
def execGrant (m : LendMsg) (s : State) : Out :=
  .next (s.lendMsg m fun s =>
    let r := m.rank.toNat
    let s := s.closeLeases fun b => b.rank == r && b.seq == m.loan
    let d := s.damper
    if !s.mayLend then s
    else match d.borrows.find? fun b => b.rank == r && b.seq == m.loan with
      | some b =>
        if b.ending ∨ (b.amount ≠ 0 ∧ b.at_ + d.lease ≤ s.now) then s
        else
          let s := { s with damper := { d with borrows := modFirst (fun x => x == b) (fun x => { x with at_ := s.now }) d.borrows } }
          s.sendLend 3 r m.loan b.amount
      | none =>
        let thr := d.throttle.toNat
        let ok := decide (d.borrowed + m.amount.toNat ≤ d.capSet * 150) && thr / 16 % 2 == 0 && thr / 32 % 2 == 0
        let amount := if ok then m.amount.toNat else 0
        let b : Borrow := { rank := r, seq := m.loan, amount := amount, at_ := s.now, ending := false }
        let s := { s with damper := { d with borrows := d.borrows ++ [b], borrowed := d.borrowed + amount } }
        let s := if 0 < amount then s.damperEvent 5 else s
        s.sendLend 3 r m.loan amount)

/-- ANSWER: a refused loan ends at once. -/
def execAnswer (m : LendMsg) (s : State) : Out :=
  .next (s.lendMsg m fun s => if m.amount = 0 then s.endLoan fun l => l.rank == m.rank.toNat && l.seq == m.loan else s)

/-- RECALL. -/
def execRecall (m : LendMsg) (s : State) : Out :=
  .next (s.lendMsg m fun s => (s.endBorrow fun b => b.rank == m.rank.toNat && b.seq == m.loan).settleLoans)

/-- RETURN. -/
def execReturnLoan (m : LendMsg) (s : State) : Out :=
  .next (s.lendMsg m fun s => s.endLoan fun l => l.rank == m.rank.toNat && l.seq == m.loan)

/-- LEASE_CLOSE: the lease of a borrowed loan has closed. -/
def execLeaseClose (rank : BitVec 16) (loan : BitVec 32) (s : State) : Out :=
  .next (s.closeLeases fun b => b.rank == rank.toNat && b.seq == loan)

/-- LOAN_LAPSE: the donor's lease has closed with no RETURN. -/
def execLoanLapse (loan : BitVec 32) (s : State) : Out :=
  .next (s.endLoan fun l => l.seq == loan && l.granted && decide (l.sentAt + s.damper.lendLease * 1000000 ≤ s.now))

end Sys2Proof.Machine
end

