-- ==== Sys2Proof/Machine/Issue.lean ====
section
/-! DEFINITION. The issue stage of a core (R75 to R78, R166 to R170): what every instruction has in common at its issue. -/

namespace Sys2Proof.Machine

/-- What an instruction's own part of issue answers. -/
inductive Issue where
  /-- Issue stalls (R170). -/
  | stall
  /-- A work-program error (R98): the command ends with BAD_COMMAND. -/
  | bad
  /-- Issued; the program counter moves past the instruction's words. -/
  | go (c : Core)
  /-- Issued; the program counter goes to a target. -/
  | goto (c : Core) (pc : W64)
  /-- Issued, with an effect outside the core. -/
  | act (c : Core) (f : State → State)

/-- R96: the 256-byte line of a word. -/
def lineOf (a : W64) : Nat := a.toNat / 256

/-- R96: the line becomes the most recently used; at most 128 lines are held. -/
def Seq.touchLine (q : Seq) (l : Nat) : Seq :=
  { q with icache := (l :: q.icache.filter fun k => k != l).take 128 }

/-- Can the core issue an instruction now: it runs a command, is open, and is not waiting, halted or ending? -/
def Core.issuing (c : Core) : Bool :=
  c.run.isSome && c.life == .opened && !c.seq.halted && !c.seq.ending && c.seq.wait.isNone && c.fault.isNone

/-- R397, R487: can core p issue now? After a thermal shutdown no core issues, and none of its units goes on (DEDUCED, log entry 45: the device draws
leakage power only). -/
def State.canIssue (s : State) (p : Nat) : Bool := (s.core p).issuing && !s.damper.shutdown

/-- R77: does an unfinished instruction still write one of these registers? -/
def Seq.anyBusy (q : Seq) (rs : List (BitVec 5)) : Bool :=
  rs.any fun r => r != 0 && q.busy.any fun b => b.2 == r

/-- The first line of the instruction's words that the cache does not hold. -/
def Seq.missing (q : Seq) (words : Nat) : Option Nat :=
  let l0 := lineOf q.pc
  let l1 := lineOf (q.pc + w64 (8 * (words - 1)))
  if !q.icache.contains l0 then some l0 else if !q.icache.contains l1 then some l1 else none

/-- R96, R99: an instruction has left the issue stage; the lines of its first and of its last word have been used, in that order. -/
def Core.retire (c : Core) (words : Nat) (pc : W64) : Core :=
  let q := (c.seq.touchLine (lineOf c.seq.pc)).touchLine (lineOf (c.seq.pc + w64 (8 * (words - 1))))
  { c with seq := { q with pc := pc, retired := q.retired + 1, stalled := false } }

/-- Issue of an instruction of so many words on core p; `f` is the instruction's own part. Nothing happens on a core
that does not issue (log entry 15); a word whose line is not held stalls and asks for the line (R169). The line of an extension word is waited for, or
its fetch faults, before the first word is checked for reserved bits and values (DESIGN CHOICE, log entry 70: R169 does not order the two). -/
def issue (s : State) (p : Nat) (words : Nat) (f : Core → Issue) : State :=
  let c := s.core p
  if !s.canIssue p then s
  else match c.seq.missing words with
    | some l => s.setCore p { c with seq := { c.seq with miss := some l } }
    | none =>
      match f c with
      | .stall => s.setCore p { c with seq := { c.seq with stalled := true } }
      | .bad => s.faultCore p stBAD_COMMAND
      | .go c' => s.setCore p (c'.retire words (c.seq.pc + w64 (8 * words)))
      | .goto c' pc => s.setCore p (c'.retire words pc)
      | .act c' f => f (s.setCore p (c'.retire words (c.seq.pc + w64 (8 * words))))

/-- R101, R198: issue of an instruction of one word that sends n requests through the core's port: on a choked core they are dropped at the
port and counted. -/
def issueRequest (s : State) (p n : Nat) (f : Core → Issue) : State := if (s.core p).life == .choked then s.dropAtPort p n else issue s p 1 f

/-- R166 to R168: the major opcode and the X bit as the instruction requires them. A word with another opcode is not one of its
words; in a model without a decoder this is also how an undefined opcode ends a command (log entry 28). -/
def opOk (code : Nat) (w : W64) (x : Bool) : Bool := fld w 63 58 == code && bitN w 57 == x
/-- R168: a reserved field is zero. -/
def zeroBits (w : W64) (hi lo : Nat) : Bool := fld w hi lo == 0

/-- The number of words of an instruction. -/
def wordsOf (x : Bool) : Nat := if x then 2 else 1

/-- R76 to R78, R177: a vector-queue instruction with its streams and the register that it writes enters the queue.
Checks have passed; the stalls are a full queue, the scoreboard and a busy register. -/
def Core.toVector (c : Core) (op : VecOp) (ins outs : List Strm) (f64 : Bool) (alpha : BitVec 32) (sd : Option (BitVec 5)) :
    Issue :=
  let id := c.seq.nextId
  let entries := sbEntries id ins outs
  let regs := sd.toList
  if 4 ≤ c.eng.vecQ.length || sbStalls c.eng.score entries || c.seq.anyBusy regs then .stall
  else
    let v : VecInstr := { id := id, op := op, ins := ins, outs := outs, f64 := f64, alpha := alpha, n := c.seq.count, sd := sd }
    let counted := outs.any fun t => dRound t.d == 2
    .go { c with
      eng := { c.eng with vecQ := c.eng.vecQ ++ [v], score := c.eng.score ++ entries }
      seq := { c.seq with
        nextId := id + 1
        count := if counted then (c.seq.count + 1) % 2 ^ 30 else c.seq.count
        busy := c.seq.busy ++ regs.filterMap fun r => if r = 0 then none else some (id, r) } }

/-- The streams of instruction `id` are done with the scratchpad (R76). -/
def Engines.release (e : Engines) (id : Nat) : Engines :=
  { e with score := e.score.filter fun x => x.owner != id, readOut := e.readOut.filter fun x => x.id != id }

/-- R76: instruction `id` has read the last element of every input: its read entries go, and the scratchpad as it read it is kept for its
results. -/
def Engines.readAll (e : Engines) (sp : Scratch) (id : Nat) : Engines :=
  { e with score := e.score.filter fun x => x.owner != id || x.write, readOut := e.readOut ++ [{ id := id, sp := sp }] }

/-- R62: seed, gang slot and count that key the random values of an instruction on core p. -/
def State.srKey (s : State) (p n : Nat) : W64 × Nat × Nat :=
  match s.cmdOf p with
  | some (i, slot) => (i.entry.seed, slot, n)
  | none => (0, 0, n)

/-- R132: α of ELU is positive and finite. -/
def alphaOk (x : W64) : Bool :=
  zeroBits x 63 32 && match ofB32 (BitVec.ofNat 32 x.toNat) with
    | .fin s m _ => !s && m != 0
    | _ => false

/-- Is the operation a drain? -/
def VecInstr.isDrainOp (v : VecInstr) : Bool :=
  match v.op with
  | .mdrain .. => true
  | _ => false

/-- R76, R129: the next instruction of the vector queue starts once the one before it has read its last element, so every running
instruction but a drain has now done with its inputs. -/
def Engines.doneReading (e : Engines) (sp : Scratch) : Engines :=
  (e.vecRun.filter fun v => !v.isDrainOp && !(e.readOut.any fun x => x.id == v.id)).foldl (fun e v => e.readAll sp v.id) e

end Sys2Proof.Machine
end

