-- ==== Sys2Proof/Machine/VectorUnit.lean ====
section
/-! DEFINITION. What the vector engine computes (chapter 6): element operations, reductions, compress and expand,
permutes, copies, and the epilogue of a drain. -/

namespace Sys2Proof.Machine

/-! ### Reductions (R137, R138) -/

/-- Element indices of each reduced row, rows in the output's stream order. A row reduced over every dimension (DIM 4) takes its
elements in stream order (DESIGN CHOICE, log entry 59: R138 names no one reduced dimension there). -/
def redGroups (d : BitVec 256) (dim : Nat) : List (List Nat) :=
  if 4 ≤ dim then [List.range (dCount d)]
  else
    let inner := ((List.range dim).map fun k => dExt d k).prod
    let e := dExt d dim
    let outer := dCount d / (inner * e)
    (List.range outer).flatMap fun o => (List.range inner).map fun i => (List.range e).map fun k => o * inner * e + k * inner + i

/-- R137: the extents of a reduction's output. -/
def redExts (d : BitVec 256) (dim : Nat) : List Nat :=
  (List.range 4).map fun k => if dim = 4 ∨ dim = k then 1 else dExt d k

/-- R138: pair neighbouring partials until one remains; `k` bounds the levels. -/
def pairUp (f : Fmt) : List (FVal × Flags) → List (FVal × Flags)
  | a :: b :: r =>
    let (v, g) := fadd f a.1 b.1
    (v, a.2 ||| b.2 ||| g) :: pairUp f r
  | l => l

def pairAll (f : Fmt) : Nat → List (FVal × Flags) → FVal × Flags
  | 0, l => l.headD (FVal.zero, 0)
  | k + 1, l => if l.length ≤ 1 then l.headD (FVal.zero, 0) else pairAll f k (pairUp f l)

/-- One partial of R138: the elements of one lane in order. -/
def lanePartial (f : Fmt) (k : RedKind) : List (FVal × FVal) → FVal × Flags
  | [] => (FVal.zero, 0)
  | (a, b) :: r =>
    let first := match k with
      | .sum => (a, 0)
      | _ => fmul f a b
    r.foldl (fun p e =>
      let (v, g) := match k with
        | .sum => fadd f e.1 p.1
        | _ => ffma f e.1 e.2 p.1
      (v, p.2 ||| g)) first

/-- The lane that element i of a row goes to, as a list per lane. -/
def laneOf (l : Nat) (xs : List (FVal × FVal)) : List (FVal × FVal) :=
  ((xs.zipIdx).filter fun e => e.2 % 128 == l).map Prod.fst

/-- R138 and R58: one reduced row of pairs (a, b); b is a itself except for SUMPROD. -/
def reduceRow (f : Fmt) (k : RedKind) (xs : List (FVal × FVal)) : FVal × Flags :=
  match k with
  | .max => xs.foldl (fun p e => let (v, g) := fmax p.1 e.1; (v, p.2 ||| g)) (.inf true, 0)
  | .min => xs.foldl (fun p e => let (v, g) := fmin p.1 e.1; (v, p.2 ||| g)) (.inf false, 0)
  | .amax => xs.foldl (fun p e =>
      let (a, h) := e.1.abs
      let (v, g) := fmax p.1 a
      (v, p.2 ||| g ||| h)) (FVal.zero, 0)
  | _ =>
    let n := min xs.length 128
    pairAll f 8 ((List.range n).map fun l => lanePartial f k (laneOf l xs))

/-! ### Element operations (R130 to R136) -/

/-- The result of VOP's operation on one element; b and c where the operation has them. -/
def vopElem (f64 : Bool) (k : VopKind) (fn : Nat) (alpha : BitVec 32) (a b c : FVal) : FVal × Flags :=
  let f := cfmt f64
  let cmp (t : Bool) : FVal × Flags := (if t then fOne else FVal.zero, snanFlag [a, b])
  match k with
  | .add => fadd f a b
  | .sub => fsub f a b
  | .mul => fmul f a b
  | .fma => ffma f a b c
  | .min => fmin a b
  | .max => fmax a b
  | .abs => a.abs
  | .neg => (match a with | .nan _ => .nan false | v => v.negate, snanFlag [a])
  | .cmpEq => cmp (FVal.eq a b)
  | .cmpNe => cmp (!FVal.eq a b)
  | .cmpLt => cmp (a.lt b)
  | .cmpLe => cmp (a.lt b || FVal.eq a b)
  | .sel => (if a.isZero then c else b, 0)
  | .cvt => (match a with | .nan _ => .nan false | v => v, snanFlag [a])
  | .recip => fRecip a
  | .rsqrt => fRsqrt a
  | .exp2 => fExp2 a
  | .log2 => fLog2 a
  | .sin => fSin a
  | .cos => fCos a
  | .act => fAct fn alpha a
  | .dact => fDact fn alpha a b (!c.isZero)
  | .smbwd =>
    let (t, g) := fsub f b c
    let (x, h) := fmul f a t
    (x, g ||| h)

/-- R64, R83: an input element of VOP; a BIT element is its bit. -/
def vopInput (m : Scratch) (f64 : Bool) (t : Strm) (j : Nat) : FVal × Flags :=
  if dFmt t.d = 8 then (if inputRaw m t j = 1 then fOne else FVal.zero, 0) else inputVal m f64 t j

/-- The i-th input of an instruction, +0 where there is none. -/
def vopArg (m : Scratch) (v : VecInstr) (i j : Nat) : FVal × Flags :=
  match v.ins[i]? with
  | some t => vopInput m v.f64 t j
  | none => (FVal.zero, 0)

/-- Element j of VOP; the flags of an operand that SEL does not select are left out (R72). -/
def vopAt (m : Scratch) (v : VecInstr) (k : VopKind) (fn : Nat) (j : Nat) : FVal × Flags :=
  let a := vopArg m v 0 j
  let b := vopArg m v 1 j
  let c := vopArg m v 2 j
  let (x, g) := vopElem v.f64 k fn v.alpha a.1 b.1 c.1
  let h := match k with
    | .sel => if a.1.isZero then c.2 else b.2
    | _ => a.2 ||| b.2 ||| c.2
  (x, g ||| h)

/-- What a vector instruction leaves: scratchpad, flags and the value of its register. -/
abbrev VecResult := Scratch × Flags × Option W64

def orFlags (l : List Flags) : Flags := l.foldl (· ||| ·) 0

/-- R130, R140, R133: VOP. -/
def runVop (m : Scratch) (v : VecInstr) (key : W64 × Nat × Nat) (k : VopKind) (fn : BitVec 4) (o2 : BitVec 2) (roop : RedKind)
    (rdim : Nat) : VecResult :=
  match v.outs with
  | [] => (m, 0, none)
  | o :: rest =>
    let rs := (List.range (dCount o.d)).map fun j => vopAt m v k fn.toNat j
    let xs := rs.map Prod.fst
    let g0 := orFlags (rs.map Prod.snd)
    let keep := o.kept m
    let (m1, g1) := putStream v.f64 o key (xs.map OutElem.val) m m
    match rest with
    | [] => (m1, g0 ||| g1, none)
    | t :: _ =>
      if o2 = 2 then
        let bits := (List.range (dCount o.d)).map fun j => OutElem.raw (b2n (branchBit (fn == 8) (vopArg m v 0 j).1))
        let (m2, g2) := putStream false t key bits m m1
        (m2, g0 ||| g1 ||| g2, none)
      else
        let reds := (redGroups o.d rdim).map fun g =>
          reduceRow fmtB32 roop ((g.filter keep).map fun j => let x := xs.getD j FVal.zero; (x, x))
        let (m2, g2) := putStream false t key (reds.map fun r => OutElem.val r.1) m m1
        (m2, g0 ||| g1 ||| g2 ||| orFlags (reds.map Prod.snd), none)

/-- R137 to R139: VRED. -/
def runVred (m : Scratch) (v : VecInstr) (key : W64 × Nat × Nat) (k : RedKind) (dim : Nat) (skip : Bool) : VecResult :=
  match v.ins with
  | [] => (m, 0, none)
  | a :: rest =>
    let f := cfmt v.f64
    let bOf (j : Nat) (x : FVal) : FVal × Flags := match k, rest with
      | .sumprod, b :: _ => inputVal m v.f64 b j
      | _, _ => (x, 0)
    let keep (j : Nat) : Bool := !skip || (a.kept m j && match k, rest with
      | .sumprod, b :: _ => b.kept m j
      | _, _ => true)
    let reds := (redGroups a.d dim).map fun g =>
      let es := (g.filter keep).map fun j =>
        let (x, h) := inputVal m v.f64 a j
        let (y, i) := bOf j x
        ((x, y), h ||| i)
      let (r, h) := reduceRow f k (es.map Prod.fst)
      (r, h ||| orFlags (es.map Prod.snd))
    let g := orFlags (reds.map Prod.snd)
    match v.sd with
    | some _ =>
      let r := (reds.headD (FVal.zero, 0)).1
      (m, g ||| nonfiniteFlag r, some (w64 (f.encode r)))
    | none =>
      match v.outs with
      | [] => (m, g, none)
      | o :: _ =>
        let (m1, h) := putStream v.f64 o key (reds.map fun r => OutElem.val r.1) m m
        (m1, g ||| h, none)

/-- R55: element j of a bit-copied stream: its bits, or for TH4B its value. -/
def copyElem (m : Scratch) (t : Strm) (j : Nat) : OutElem × Flags :=
  if dFmt t.d = 7 then
    let (v, g) := inputBlockVal m t j
    (.val v, g)
  else (.raw (inputRaw m t j), 0)

/-- R83, R141: the active units of a mask stream, by unit index. -/
def activeUnits (m : Scratch) (k : Strm) (inv : Bool) (units : Nat) : List Nat :=
  (List.range units).filter fun i => (rawElem m k.d i == 1) != inv

/-- Elements that an operation leaves unwritten take no value; MASK_WR still governs the masked-out ones (R83). -/
def fillTo (n : Nat) (l : List OutElem) : List OutElem := l ++ List.replicate (n - l.length) OutElem.skip

/-- R141: VCOMP over streams D, K, P and X. -/
def runVcomp (m : Scratch) (v : VecInstr) (key : W64 × Nat × Nat) (xen unit inv : Bool) : VecResult :=
  match v.ins, v.outs with
  | d :: k :: _, q :: rest =>
    let u := if unit then dExt d.d 0 else 1
    let act := activeUnits m k inv (dCount d.d / u)
    let cap := dCount q.d / u
    let kept := act.take cap
    let es := kept.flatMap fun i => (List.range u).map fun t => copyElem m d (i * u + t)
    let (m1, g) := putCopied q key (fillTo (dCount q.d) (es.map Prod.fst)) m m
    let m2 := match xen, rest with
      | true, x :: _ => (putCopied x key (fillTo (dCount x.d) (kept.map OutElem.raw)) m m1).1
      | _, _ => m1
    (m2, g ||| orFlags (es.map Prod.snd), some (w64 act.length))
  | _, _ => (m, 0, none)

/-- R142: VEXPD over streams P, K and D. -/
def runVexpd (m : Scratch) (v : VecInstr) (key : W64 × Nat × Nat) (unit inv zfill : Bool) : VecResult :=
  match v.ins, v.outs with
  | q :: k :: _, d :: _ =>
    let u := if unit then dExt d.d 0 else 1
    let act := activeUnits m k inv (dCount d.d / u)
    let total := dCount q.d
    let es := (List.range (dCount d.d / u)).flatMap fun i =>
      match findIdx (· == i) act 0 with
      | some r => (List.range u).map fun t =>
          if r * u + t < total then copyElem m q (r * u + t) else (OutElem.raw 0, 0)
      | none => List.replicate u (if zfill then (OutElem.raw 0, 0) else (OutElem.skip, 0))
    let (m1, g) := putCopied d key (es.map Prod.fst) m m
    (m1, g ||| orFlags (es.map Prod.snd), some (w64 act.length))
  | _, _ => (m, 0, none)

/-- R143: VPERM over streams input and index. -/
def runVperm (m : Scratch) (v : VecInstr) (key : W64 × Nat × Nat) (mode : Nat) : VecResult :=
  match v.ins, v.outs with
  | i :: x :: _, o :: _ =>
    let ni := dCount i.d
    let no := dCount o.d
    let es : List (OutElem × Flags) :=
      if mode = 2 then
        let pairs := (List.range ni).map fun j => (inputRaw m x j, j)
        (List.range no).map fun t =>
          match (pairs.filter fun e => e.1 == t).getLast? with
          | some e => copyElem m i e.2
          | none => (.skip, 0)
      else (List.range no).map fun j =>
        let k := inputRaw m x j
        let src := if mode = 0 then 128 * (j / 128) + k else k
        let inside := if mode = 0 then decide (k < 128 ∧ src < ni) else decide (src < ni)
        if inside then copyElem m i src else (.raw 0, 0)
    let (m1, g) := putCopied o key (es.map Prod.fst) m m
    (m1, g ||| orFlags (es.map Prod.snd), none)
  | _, _ => (m, 0, none)

/-- R144: the input element that output element j receives. -/
def turnIndex (turn : Bool) (j : Nat) : Nat :=
  if turn then j / 16384 * 16384 + 128 * (j % 128) + j % 16384 / 128 else j

/-- R144: VPACK and VUNPK. -/
def runCopy (m : Scratch) (v : VecInstr) (key : W64 × Nat × Nat) (turn : Bool) : VecResult :=
  match v.ins, v.outs with
  | i :: _, o :: _ =>
    let n := dCount o.d
    if dFmt i.d = dFmt o.d then
      if dFmt i.d = 7 && !turn && dExt i.d 0 == dExt o.d 0 && i.mask.isNone && o.mask.isNone then
        (copyRows i.d o.d m, 0, none)
      else
        let es := (List.range n).map fun j => copyElem m i (turnIndex turn j)
        let (m1, g) := putCopied o key (es.map Prod.fst) m m
        (m1, g ||| orFlags (es.map Prod.snd), none)
    else
      let es := (List.range n).map fun j => inputVal m false i (turnIndex turn j)
      let (m1, g) := putStream false o key (es.map fun e => OutElem.val e.1) m m
      (m1, g ||| orFlags (es.map Prod.snd), none)
  | _, _ => (m, 0, none)

/-! ### The drain's epilogue (R116, R145) -/

/-- The stages of one drained value: before ACT and after it, with flags. -/
def drainElem (m : Scratch) (v : VecInstr) (scale acc : BitVec 32) (bias : BitVec 2) (res acten : Bool) (fn : Nat) (row col j : Nat) :
    FVal × FVal × Flags :=
  let f := fmtB32
  let (x0, g0) := fmul f (ofB32 acc) (ofB32 scale)
  let bi : Option Strm := if bias = 0 then none else v.ins[0]?
  let rs : Option Strm := if res then v.ins[if bias = 0 then 0 else 1]? else none
  let (x1, g1) := match bi with
    | some t =>
      let (b, h) := inputVal m false t (if bias = 1 then col else row)
      let (x, g) := fadd f x0 b
      (x, g ||| h)
    | none => (x0, 0)
  let (x2, g2) := match rs with
    | some t =>
      let (b, h) := inputVal m false t j
      let (x, g) := fadd f x1 b
      (x, g ||| h)
    | none => (x1, 0)
  let (x3, g3) := if acten then fAct fn v.alpha x2 else (x2, 0)
  (x2, x3, g0 ||| g1 ||| g2 ||| g3)

/-- R116, R145: the outputs of a drain: the M × N values take part in its arithmetic and its flags, and the lanes that the drain reads beyond
them in neither (DESIGN CHOICE, log entry 70). `outs` holds the primary, then the secondary where SEC names one, then the branch
mask where BM is set. -/
def runDrain (m : Scratch) (v : VecInstr) (key : W64 × Nat × Nat) (bk : Bank) (sec : BitVec 2) (rrop : RedKind) (bias : BitVec 2)
    (res acten : Bool) (fn : BitVec 4) (bm : Bool) : VecResult :=
  match v.outs with
  | [] => (m, 0, none)
  | o :: rest =>
    let cols := dExt o.d 0
    let rows := dExt o.d 1
    let es := (List.range (rows * cols)).map fun j =>
      drainElem m v bk.scale (sget 0 bk.cells (128 * (j / cols) + j % cols)) bias res acten fn.toNat (j / cols) (j % cols) j
    let post (j : Nat) : FVal := (es.getD j (FVal.zero, FVal.zero, 0)).2.1
    let pre (j : Nat) : FVal := (es.getD j (FVal.zero, FVal.zero, 0)).1
    let g0 := orFlags (es.map fun e => e.2.2)
    let (m1, g1) := putStream false o key ((List.range (rows * cols)).map fun j => OutElem.val (post j)) m m
    let (m2, g2) : Scratch × Flags :=
      if sec = 0 then (m1, 0)
      else match rest with
        | [] => (m1, 0)
        | t :: _ =>
          if sec = 1 then
            putStream false t key ((List.range (rows * cols)).map fun j => OutElem.val (post (j % rows * cols + j / rows))) m m1
          else if sec = 2 then putStream false t key ((List.range (rows * cols)).map fun j => OutElem.val (pre j)) m m1
          else
            let reds := (List.range rows).map fun r =>
              reduceRow fmtB32 rrop ((List.range cols).map fun c => (post (r * cols + c), post (r * cols + c)))
            let (m', g) := putStream false t key (reds.map fun r => OutElem.val r.1) m m1
            (m', g ||| orFlags (reds.map Prod.snd))
    let (m3, g3) : Scratch × Flags :=
      if bm then
        match rest.getLast? with
        | some t => putStream false t key ((List.range (rows * cols)).map fun j => OutElem.raw (b2n (branchBit (fn == 8) (pre j)))) m m2
        | none => (m2, 0)
      else (m2, 0)
    (m3, g0 ||| g1 ||| g2 ||| g3, none)

/-! ### What an output's writes read (R88) -/

/-- The elements of output o that the instruction itself leaves unwritten: units without a place in a packed stream, inactive units of VEXPD, and
positions that no index of a scatter names. -/
def VecInstr.leaves (m : Scratch) (v : VecInstr) (o j : Nat) : Bool :=
  match v.op, v.ins, v.outs with
  | .vcomp _ unit inv, d :: k :: _, q :: _ =>
    let u := if unit then dExt d.d 0 else 1
    decide (min (activeUnits m k inv (dCount d.d / u)).length (dCount q.d / u) * (if o = 0 then u else 1) ≤ j)
  | .vexpd unit inv zfill, _ :: k :: _, d :: _ =>
    !zfill && (rawElem m k.d (j / if unit then dExt d.d 0 else 1) == 1) == inv
  | .vperm 2, i :: x :: _, _ => !(List.range (dCount i.d)).any fun k => inputRaw m x k == j
  | _, _, _ => false

/-- Does the instruction write element j of output o? -/
def VecInstr.writesElem (m : Scratch) (v : VecInstr) (o : Nat) (t : Strm) (j : Nat) : Bool :=
  if t.kept m j then !v.leaves m o j else dMaskWr t.d

/-- R70, R88: the byte intervals [lo, hi) that output o writes without a look at what stands there, and those that it merges with: bytes of which it
writes some bits, and a TH4B block of which it leaves an element, whose codes and scale are read to be encoded again. -/
def VecInstr.outBytes (m : Scratch) (v : VecInstr) (o : Nat) (t : Strm) : List (Nat × Nat) × List (Nat × Nat) :=
  let js := (List.range (dCount t.d)).filter (v.writesElem m o t)
  if dFmt t.d = 8 then
    let bytes := (js.map (elemAddr t.d)).dedup
    let full (a : Nat) : Bool := (js.filter fun j => elemAddr t.d j == a).length == 8
    ((bytes.filter full).map fun a => (a, a + 1), (bytes.filter fun a => !full a).map fun a => (a, a + 1))
  else if dFmt t.d = 7 then
    let rows := dExt t.d 1 * dExt t.d 2 * dExt t.d 3
    let blocks := 32 * ((dExt t.d 0 + 1023) / 1024)
    let block (r b : Nat) (whole : Bool) : List (Nat × Nat) :=
      let row := (List.range (min 32 (dExt t.d 0 - 32 * b))).map fun i => v.writesElem m o t (r * dExt t.d 0 + 32 * b + i)
      let live := decide (dExt t.d 0 < 32 * b + 32) || row.any (· == true)
      let g := elemAddr t.d (r * dExt t.d 0) + 544 * (b / 32)
      if live && row.all (· == true) == whole then [(g + 16 * (b % 32), g + 16 * (b % 32) + 16), (g + 512 + b % 32, g + 513 + b % 32)] else []
    ((List.range rows).flatMap fun r => (List.range blocks).flatMap fun b =>
      block r b true, (List.range rows).flatMap fun r => (List.range blocks).flatMap fun b => block r b false)
  else (js.map fun j => (elemAddr t.d j, elemAddr t.d j + elemSize (dFmt t.d)), [])

/-- R88: the hits in the words that the instruction's writes merge with; `m` is the scratchpad as it read its inputs. -/
def VecInstr.mergeHits (m : Scratch) (v : VecInstr) (h : List EccHit) : List EccHit :=
  if h.isEmpty then [] else
  let bs := (v.outs.zipIdx).map fun t => v.outBytes m t.2 t.1
  h.filter (mergesWord (bs.flatMap Prod.fst) (bs.flatMap Prod.snd))

/-- What a finished vector instruction leaves (all but the drain). -/
def runVector (m : Scratch) (v : VecInstr) (key : W64 × Nat × Nat) : VecResult :=
  match v.op with
  | .vop k fn o2 roop rdim => runVop m v key k fn o2 roop rdim
  | .vred k dim skip => runVred m v key k dim skip
  | .vcomp xen unit inv => runVcomp m v key xen unit inv
  | .vexpd unit inv zfill => runVexpd m v key unit inv zfill
  | .vperm mode => runVperm m v key mode
  | .copy turn => runCopy m v key turn
  | .mdrain .. => (m, 0, none)

end Sys2Proof.Machine
end

