-- ==== Sys2Proof/Machine/PealOps.lean ====
section
/-! DEFINITION. The peal engine (chapter 14): groups, descriptors, the transfers of each operation and their contents, streams
and their pump, shard tables, and what commit and teardown do to instances. -/

namespace Sys2Proof.Machine

/-! ### Groups (R314) -/

/-- The sizes of the axes. -/
def State.axis (s : State) (k : Nat) : Nat := s.car.axis.getD k 1

/-- The members of a group in order of their index; the model axis varies fastest. -/
def State.members (s : State) (group : BitVec 8) : List Nat :=
  let r := s.ownRank
  let mS := s.axis 0
  let qS := s.axis 1
  let dS := s.axis 2
  let pS := s.axis 3
  let pick (k size own : Nat) : List Nat := if group.getLsbD k then List.range size else [own % size]
  (pick 3 pS (r / (mS * qS * dS))).flatMap fun p => (pick 2 dS (r / (mS * qS))).flatMap fun d =>
    (pick 1 qS (r / mS)).flatMap fun q => (pick 0 mS r).map fun m => m + mS * (q + qS * (d + dS * p))

/-! ### Descriptors (R326) -/

/-- The bytes that n elements of a format take, contiguous. -/
def fmtBytes (fmt n : Nat) : Nat := if fmt = 7 then n * 17 / 32 else if fmt = 8 then (n + 7) / 8 else n * elemSize fmt

/-- The descriptor that 128 bytes spell. -/
def decodePeal (b : List Byte) : PealDesc :=
  let ctl := natAt b 1 1
  let fmt := natAt b 2 1
  let pol := natAt b 3 1
  { op := natAt b 0 1, alg := ctl % 4, tc := ctl / 4 % 4, nsrc := ctl / 16 % 4 + 1, sumsq := ctl / 64 % 2 == 1, genEn := ctl / 128 == 1,
    ifmt := fmt % 16, ofmt := fmt / 16, policy := pol % 4, region := pol / 4, group := BitVec.ofNat 8 (natAt b 4 1), peer := natAt b 6 2,
    opid := BitVec.ofNat 32 (natAt b 8 4), gen := BitVec.ofNat 32 (natAt b 0x0C 4), count := natAt b 0x10 6, layer := natAt b 0x16 2,
    src := (List.range 4).map fun i => natAt b (0x18 + 8 * i) 8, dst := natAt b 0x38 8, recAt := natAt b 0x40 8, host := natAt b 0x48 8,
    table := natAt b 0x50 8, rsvd := !zeroAt b 5 1 || !zeroAt b 0x58 40 }

def PealDesc.src0 (d : PealDesc) : Nat := d.src.headD 0

/-- R330: the short form of ALL_REDUCE. -/
def PealDesc.short (d : PealDesc) (n : Nat) : Bool := decide (d.count * 4 ≤ 8192) || d.count % n != 0

/-- The elements of a shard: COUNT, but for the long form of ALL_REDUCE. -/
def PealDesc.shard (d : PealDesc) (n : Nat) : Nat := if d.op = 3 then d.count / n else d.count

/-! ### PERMUTE's table (R340) -/

structure PermEntry where
  src    : Nat
  dst    : Nat
  len    : Nat
  srcOff : Nat
  dstOff : Nat
  deriving DecidableEq, Repr

/-- The table and the staging pages of member `me`. -/
def State.permTable (s : State) (c : Nat) (d : PealDesc) (me : Nat) : Got (List PermEntry × List Nat) :=
  if d.op ≠ 9 then .ok ([], [])
  else match s.vaRead c d.table 64 with
  | .fault e => .fault e
  | .held => .held
  | .ok h =>
    let cnt := natAt h 0 4
    match s.vaRead c (d.table + 64) (32 * cnt) with
    | .fault e => .fault e
    | .held => .held
    | .ok b =>
      let es : List PermEntry := (List.range cnt).map fun i =>
        { src := natAt b (32 * i) 2, dst := natAt b (32 * i + 2) 2, len := natAt b (32 * i + 4) 4, srcOff := natAt b (32 * i + 8) 8,
          dstOff := natAt b (32 * i + 16) 8 }
      let k := (es.filter fun e => e.dst == me).length
      match s.vaRead c (natAt h 8 8) (8 * k) with
      | .fault e => .fault e
      | .held => .held
      | .ok l => .ok (es, (List.range k).map fun i => natAt l (8 * i) 8)

/-! ### Transfers (R317, R330, R332): what a member sends to another, as a list of segments in order (log entry 20) -/

/-- The kinds of segment: a binary32 partial of a shard, a shard in its stored format, a block of the source, a member's
whole local sum, and an entry of PERMUTE's table. -/
inductive SegKind where
  | part | final | block | whole | perm
  deriving DecidableEq, Repr

structure Seg where
  kind  : SegKind
  idx   : Nat
  lvl   : Nat
  len   : Nat
  deriving DecidableEq, Repr

/-- The member across bit b. -/
def across (i b : Nat) : Nat := if i / 2 ^ b % 2 = 0 then i + 2 ^ b else i - 2 ^ b

/-- The reduce-scatter from member i to member j: a ring round passes a partial on to the next member; a recursive level
gives the partner the partials of its half. -/
def rsSegs (alg n len i j : Nat) : List Seg :=
  if alg = 0 then
    (if j = (i + 1) % n ∧ 1 < n then
      (List.range (n - 1)).map fun r => { kind := .part, idx := (i + n - 1 - r) % n, lvl := r, len := len }
    else [])
  else
    let lg := Nat.log2 n
    (List.range lg).flatMap fun l =>
      let b := lg - 1 - l
      if j = across i b then
        ((List.range n).filter fun x => x / 2 ^ b == j / 2 ^ b).map fun x => { kind := .part, idx := x, lvl := l, len := len }
      else []

/-- The all-gather from member i to member j. -/
def agSegs (alg n len i j : Nat) : List Seg :=
  if alg = 0 then
    (if j = (i + 1) % n ∧ 1 < n then
      (List.range (n - 1)).map fun r => { kind := .final, idx := (i + n - r) % n, lvl := r, len := len }
    else [])
  else
    (List.range (Nat.log2 n)).flatMap fun l =>
      if j = across i l then
        ((List.range n).filter fun x => x / 2 ^ l == i / 2 ^ l).map fun x => { kind := .final, idx := x, lvl := l, len := len }
      else []

/-- The transfer of a group operation from member i to member j. -/
def segsOf (d : PealDesc) (perm : List PermEntry) (n i j : Nat) : List Seg :=
  if i = j then []
  else
    let cs := fmtBytes d.ofmt (d.shard n)
    match d.op with
    | 1 => rsSegs d.alg n (4 * d.count) i j
    | 2 => agSegs d.alg n cs i j
    | 3 =>
      if d.short n then [{ kind := .whole, idx := i, lvl := 0, len := 4 * d.count }]
      else rsSegs d.alg n (4 * d.shard n) i j ++ agSegs d.alg n cs i j
    | 4 => [{ kind := .block, idx := j, lvl := 0, len := cs }]
    | 5 => if (i + n - d.peer) % n + 1 < n ∧ j = (i + 1) % n then [{ kind := .final, idx := d.peer, lvl := 0, len := cs }] else []
    | 9 => (perm.zipIdx).filterMap fun e =>
        if e.1.src = i ∧ e.1.dst = j then some { kind := .perm, idx := e.2, lvl := 0, len := e.1.len } else none
    | _ => []

def segsLen (l : List Seg) : Nat := (l.map Seg.len).sum

/-- The lengths of the transfers that the segments form: those of one round, or level, or of PERMUTE's entries, are one (log entry 20). -/
def roundLens (l : List Seg) : List Nat :=
  ((l.map fun g => (g.kind, g.lvl)).dedup).map fun k => segsLen (l.filter fun g => (g.kind, g.lvl) == k)

/-- Offset and length of the first segment that a predicate holds of. -/
def segFind (p : Seg → Bool) : List Seg → Nat → Option (Nat × Nat)
  | [], _ => none
  | g :: r, o => if p g then some (o, g.len) else segFind p r (o + g.len)

/-- The bytes [off, off + len) received from a rank; `k` bounds the chunks used. -/
def rxGet (l : List RxChunk) (rank off len : Nat) : Nat → Option (List Byte)
  | 0 => if len = 0 then some [] else none
  | k + 1 =>
    if len = 0 then some []
    else match l.find? fun c => c.rank == rank && decide (c.off ≤ off ∧ off < c.off + c.data.length) with
      | none => none
      | some c =>
        let piece := (c.data.drop (off - c.off)).take len
        (rxGet l rank (off + piece.length) (len - piece.length) k).map (piece ++ ·)

def Inst.got (i : Inst) (rank off len : Nat) : Option (List Byte) := rxGet i.rx rank off len (i.rx.length + 1)

/-- What an instance works with: its group, the caller's index and PERMUTE's table. -/
structure View where
  ms    : List Nat
  me    : Nat
  perm  : List PermEntry
  pages : List Nat
  deriving DecidableEq, Repr

/-- The group as the descriptor names it, PERMUTE's table aside. -/
def State.groupView (s : State) (d : PealDesc) : View :=
  let ms := s.members d.group
  { ms := ms, me := (findIdx (· == s.ownRank) ms 0).getD 0, perm := [], pages := [] }

def State.view (s : State) (c : Nat) (d : PealDesc) : Got View :=
  let v := s.groupView d
  match s.permTable c d v.me with
  | .fault e => .fault e
  | .held => .held
  | .ok t => .ok { v with perm := t.1, pages := t.2 }

def View.n (v : View) : Nat := v.ms.length
def View.rank (v : View) (i : Nat) : Nat := v.ms.getD i 0

/-- The n bytes at offset a of a segment received from member m; held while they have not all arrived. -/
def Inst.rxPart (i : Inst) (v : View) (m : Nat) (p : Seg → Bool) (a n : Nat) : Got (List Byte) :=
  match segFind p (segsOf i.desc v.perm v.n m v.me) 0 with
  | none => .held
  | some (o, _) =>
    match i.got (v.rank m) (o + a) n with
    | some b => .ok b
    | none => .held

/-- A whole segment received from member m. -/
def Inst.rxSeg (i : Inst) (v : View) (m : Nat) (p : Seg → Bool) : Got (List Byte) :=
  match segFind p (segsOf i.desc v.perm v.n m v.me) 0 with
  | none => .held
  | some (_, len) => i.rxPart v m p 0 len

/-! ### Values (R330) -/

/-- The elements of a format in a byte string. -/
def elemsOf (fmt : Nat) (b : List Byte) : List FVal :=
  let w := max 1 (elemSize fmt)
  (List.range (b.length / w)).map fun i => (fmtOf fmt).decode (natAt b (w * i) w)

/-- Element-wise addition in binary32, with the flags of R73. -/
def addAll (a b : List FVal) : List FVal × Flags :=
  let l := (a.zip b).map fun p => fadd fmtB32 p.1 p.2
  (l.map Prod.fst, orFlags (l.map Prod.snd))

def b32Bytes (l : List FVal) : List Byte := l.flatMap fun v => leBytes 4 (toB32 v).toNat
def b32Vals (b : List Byte) : List FVal := elemsOf 2 b

/-- R330: the local sum of the elements [k, k + c) over the sources, with the flags of its conversions and additions (R54, R73). -/
def State.localSum (s : State) (i : Inst) (k c : Nat) : Got (List FVal × Flags) :=
  let d := i.desc
  let reads := (d.src.take d.nsrc).map fun a => s.vaRead i.ctx (a + fmtBytes d.ifmt k) (fmtBytes d.ifmt c)
  reads.foldl (fun (acc : Got (Option (List FVal × Flags))) g =>
    match acc, g with
    | .ok none, .ok b => .ok (some (elemsOf d.ifmt b, snanFlag (elemsOf d.ifmt b)))
    | .ok (some a), .ok b =>
      let r := addAll a.1 (elemsOf d.ifmt b)
      .ok (some (r.1, a.2 ||| r.2 ||| snanFlag (elemsOf d.ifmt b)))
    | .fault e, _ => .fault e
    | .held, _ => .held
    | _, .fault e => .fault e
    | _, .held => .held) (.ok none) |> fun
  | .ok (some l) => .ok l
  | .ok none => .ok ([], 0)
  | .fault e => .fault e
  | .held => .held

/-- One addition of a received partial to what the member holds; the flags of both stand. -/
def addGot (a : Got (List FVal × Flags)) (b : Got (List Byte)) : Got (List FVal × Flags) :=
  match a, b with
  | .ok x, .ok y =>
    let r := addAll (b32Vals y) x.1
    .ok (r.1, x.2 ||| r.2)
  | .fault e, _ => .fault e
  | .held, _ => .held
  | _, .fault e => .fault e
  | _, .held => .held

/-- R330: elements [k, k + c) of the partial of shard x at this member before recursive level `lvl`, or as a ring round passes it on; with
the flags of its local sum and its additions here. -/
def State.partialOf (s : State) (i : Inst) (v : View) (x lvl k c : Nat) : Got (List FVal × Flags) :=
  let own := s.localSum i (x * i.desc.shard v.n + k) c
  if i.desc.alg = 0 then
    (if v.me = (x + 1) % v.n then own
    else addGot own (i.rxPart v ((v.me + v.n - 1) % v.n) (fun g => g.kind == .part && g.idx == x) (4 * k) (4 * c)))
  else
    (List.range lvl).foldl (fun acc l =>
      addGot acc (i.rxPart v (across v.me (Nat.log2 v.n - 1 - l)) (fun g => g.kind == .part && g.idx == x && g.lvl == l) (4 * k) (4 * c))) own

/-- The flags that an instance raises (R330): INVALID, OVERFLOW and NONFINITE. -/
def pealFlags : Flags := fINVALID ||| fOVERFLOW ||| fNONFINITE

/-- R330: values written once in OFMT, rounded to nearest even. -/
def storeVals (fmt : Nat) (l : List FVal) : List Byte × Flags :=
  let r := l.map fun v => (fmtOf fmt).round .rne v
  (r.flatMap fun e => leBytes (elemSize fmt) ((fmtOf fmt).encode e.1), orFlags (r.map fun e => e.2 ||| nonfiniteFlag e.1))

/-- R330: elements [k, k + c) of the member's own shard of a reduction, stored. A group of one keeps its local sum. -/
def State.reducedPart (s : State) (i : Inst) (v : View) (k c : Nat) : Got (List Byte × Flags) :=
  match (if v.n = 1 then s.localSum i k c else s.partialOf i v v.me (Nat.log2 v.n) k c) with
  | .ok p =>
    let r := storeVals i.desc.ofmt p.1
    .ok (r.1, (r.2 ||| p.2) &&& pealFlags)
  | .fault e => .fault e
  | .held => .held

/-- R330: the member's own shard of a reduction, stored. -/
def State.reduced (s : State) (i : Inst) (v : View) : Got (List Byte × Flags) := s.reducedPart i v 0 (i.desc.shard v.n)

/-- The n bytes at offset a of the shard that a gather takes from this member, from the shard table where GENEN is 1 (R335). -/
def State.ownShard (s : State) (i : Inst) (a n : Nat) : Got (List Byte) :=
  if i.desc.genEn then
    (match i.serve with
    | none => .held
    | some (c, b) => s.vaRead c (b + a) n)
  else s.vaRead i.ctx (i.desc.src0 + a) n

/-- The n bytes at offset a of shard x in its stored format: the member's own, or as it was received. -/
def State.finalPart (s : State) (i : Inst) (v : View) (x a n : Nat) : Got (List Byte) :=
  if x = v.me then
    (match i.desc.op with
    | 2 => s.ownShard i a n
    | 5 => s.vaRead i.ctx (i.desc.src0 + a) n
    | _ =>
      let w := elemSize i.desc.ofmt
      match s.reducedPart i v (a / w) (n / w) with
      | .ok r => .ok r.1
      | .fault e => .fault e
      | .held => .held)
  else
    match (List.range v.n).find? fun m => (segFind (fun g => g.kind == .final && g.idx == x) (segsOf i.desc v.perm v.n m v.me) 0).isSome with
    | none => .held
    | some m => i.rxPart v m (fun g => g.kind == .final && g.idx == x) a n

/-- Shard x in its stored format. -/
def State.finalOf (s : State) (i : Inst) (v : View) (x : Nat) : Got (List Byte) := s.finalPart i v x 0 (fmtBytes i.desc.ofmt (i.desc.shard v.n))

/-- The n bytes at offset a of a segment that this member sends, as soon as what they are formed from has arrived (R332: pipelined by
chunk). -/
def State.segPart (s : State) (i : Inst) (v : View) (g : Seg) (a n : Nat) : Got (List Byte) :=
  let d := i.desc
  match g.kind with
  | .part =>
    (match s.partialOf i v g.idx g.lvl (a / 4) (n / 4) with
    | .ok p => .ok (b32Bytes p.1)
    | .fault e => .fault e
    | .held => .held)
  | .final => s.finalPart i v g.idx a n
  | .block => s.vaRead i.ctx (d.src0 + g.idx * g.len + a) n
  | .whole =>
    (match s.localSum i (a / 4) (n / 4) with
    | .ok l => .ok (b32Bytes l.1)
    | .fault e => .fault e
    | .held => .held)
  | .perm =>
    match v.perm[g.idx]? with
    | some e => s.vaRead i.ctx (d.dst + e.srcOff + a) n
    | none => .held

/-- A part of a transfer within one segment: the segment, the offset there, the length and the place in the part asked for. -/
structure Piece where
  seg  : Seg
  off  : Nat
  len  : Nat
  pos  : Nat
  deriving DecidableEq, Repr

/-- The pieces of the bytes [off, off + len) of the segments; `pos` counts from the first. -/
def piecesOf : List Seg → Nat → Nat → Nat → List Piece
  | [], _, _, _ => []
  | g :: r, off, len, pos =>
    if len = 0 then []
    else if g.len ≤ off then piecesOf r (off - g.len) len pos
    else
      let k := min len (g.len - off)
      { seg := g, off := off, len := k, pos := pos } :: piecesOf r 0 (len - k) (pos + k)

/-- The bytes of the pieces in order. -/
def State.pieceBytes (s : State) (i : Inst) (v : View) : List Piece → Got (List Byte)
  | [] => .ok []
  | p :: r =>
    match s.segPart i v p.seg p.off p.len with
    | .fault e => .fault e
    | .held => .held
    | .ok b =>
      match State.pieceBytes s i v r with
      | .ok t => .ok (b ++ t)
      | e => e

/-! ### What the engine reads (R213, R214) -/

/-- The sources of a reduction over the elements [k, k + c): (context, address, bytes). -/
def Inst.sumReads (i : Inst) (k c : Nat) : List (Nat × Nat × Nat) :=
  (i.desc.src.take i.desc.nsrc).map fun a => (i.ctx, a + fmtBytes i.desc.ifmt k, fmtBytes i.desc.ifmt c)

/-- The memory that n bytes at offset a of this member's own shard are formed from. -/
def Inst.ownReads (i : Inst) (v : View) (a n : Nat) : List (Nat × Nat × Nat) :=
  match i.desc.op with
  | 2 => if i.desc.genEn then (i.serve.map fun c => (c.1, c.2 + a, n)).toList else [(i.ctx, i.desc.src0 + a, n)]
  | 5 => [(i.ctx, i.desc.src0 + a, n)]
  | _ => let w := elemSize i.desc.ofmt; i.sumReads (v.me * i.desc.shard v.n + a / w) (n / w)

/-- The memory that n bytes at offset a of a segment are formed from. -/
def Inst.segReads (i : Inst) (v : View) (p : Piece) : List (Nat × Nat × Nat) :=
  match p.seg.kind with
  | .part => i.sumReads (p.seg.idx * i.desc.shard v.n + p.off / 4) (p.len / 4)
  | .whole => i.sumReads (p.off / 4) (p.len / 4)
  | .final => if p.seg.idx = v.me then i.ownReads v p.off p.len else []
  | .block => [(i.ctx, i.desc.src0 + p.seg.idx * p.seg.len + p.off, p.len)]
  | .perm => ((v.perm[p.seg.idx]?).map fun e => (i.ctx, i.desc.dst + e.srcOff + p.off, p.len)).toList

/-- The errors that stand in what the engine reads are met. -/
def State.meetReads (s : State) (l : List (Nat × Nat × Nat)) : State :=
  if s.mem.latent.isEmpty then s else l.foldl (fun s r => s.meetRanges r.1 [(r.2.1, r.2.2)]) s

/-! ### Regions (R337, R338) -/

/-- The fields of a region entry. -/
def regField (e : BitVec 256) (lo w : Nat) : Nat := (e.toNat >>> lo) % 2 ^ w
def regPart (e : BitVec 256) : Nat := regField e 0 8
def regEnable (e : BitVec 256) : Bool := regField e 8 1 == 1
def regCtx (e : BitVec 256) : Nat := regField e 16 16
def regSem (e : BitVec 256) : Nat := regField e 32 16
def regBase (e : BitVec 256) : Nat := regField e 64 64
def regLen (e : BitVec 256) : Nat := regField e 128 64

def State.region (s : State) (g : Nat) : BitVec 256 := sget 0 s.peal.regions g

/-- R337, R338: the range [off, off + len) of a region entry as (context, address), or the status with which it fails. -/
def State.regionIn (s : State) (e : BitVec 256) (off len : Nat) : Got (Nat × Nat) :=
  if !regEnable e || decide (regLen e < off + len) then .fault stPAGE_FAULT
  else if (s.ctx (regCtx e)).part.toNat ≠ regPart e ∨ (s.ctx (regCtx e)).life = .free then .fault stPAGE_FAULT
  else .ok (regCtx e, regBase e + off)

/-- The range of region g as its entry stands. -/
def State.regionAt (s : State) (g off len : Nat) : Got (Nat × Nat) := s.regionIn (s.region g) off len

/-! ### Instances -/

def State.inst (s : State) (opid : BitVec 32) : Option Inst := s.peal.insts.find? fun i => i.desc.opid == opid

def State.modInst (s : State) (opid : BitVec 32) (group : BitVec 8) (f : Inst → Inst) : State :=
  { s with peal := { s.peal with insts := modFirst (fun i => i.desc.opid == opid && i.desc.group == group) f s.peal.insts } }

/-- R314, R326, R337: the target of a one-sided operation. -/
def State.target (s : State) (d : PealDesc) : Nat := if d.op = 8 then s.buddy else (s.members d.group).getD d.peer 0

/-- R319: the peers toward which the instance sends, with the lengths of its transfers to each in order. -/
def State.sends (s : State) (i : Inst) (v : View) : List (Nat × List Nat) :=
  if i.hit then []
  else match i.desc.op with
  | 6 | 8 => if s.target i.desc = s.ownRank then [] else [(s.target i.desc, [fmtBytes i.desc.ofmt i.desc.count])]
  | 7 => if s.target i.desc = s.ownRank then [] else [(s.target i.desc, [0])]
  | _ => (List.range v.n).filterMap fun j =>
      let t := segsOf i.desc v.perm v.n v.me j
      if segsLen t = 0 then none else some (v.rank j, roundLens t)

/-- The peers from which the instance receives, with the length of each transfer. -/
def State.receives (s : State) (i : Inst) (v : View) : List (Nat × Nat) :=
  if i.hit then []
  else match i.desc.op with
  | 6 | 8 => []
  | 7 => if s.target i.desc = s.ownRank then [] else [(s.target i.desc, fmtBytes i.desc.ofmt i.desc.count)]
  | _ => (List.range v.n).filterMap fun m =>
      let t := segsLen (segsOf i.desc v.perm v.n m v.me)
      if t = 0 then none else some (v.rank m, t)

/-- The bytes of a chunk toward a rank. -/
def State.chunkData (s : State) (i : Inst) (rank off len : Nat) : Got (List Byte) :=
  match i.desc.op with
  | 6 | 8 => s.vaRead i.ctx (i.desc.src0 + off) len
  | 7 => .ok []
  | _ =>
    match s.view i.ctx i.desc with
    | .fault e => .fault e
    | .held => .held
    | .ok v => s.pieceBytes i v (piecesOf (segsOf i.desc v.perm v.n v.me ((findIdx (· == rank) v.ms 0).getD 0)) off len 0)

/-- The memory that a chunk toward a rank is formed from. -/
def State.chunkReads (s : State) (i : Inst) (rank off len : Nat) : List (Nat × Nat × Nat) :=
  match i.desc.op with
  | 6 | 8 => [(i.ctx, i.desc.src0 + off, len)]
  | 7 => []
  | _ =>
    match s.view i.ctx i.desc with
    | .ok v => (piecesOf (segsOf i.desc v.perm v.n v.me ((findIdx (· == rank) v.ms 0).getD 0)) off len 0).flatMap (i.segReads v)
    | _ => []

/-! ### Faults of instances (R184, R344) -/

/-- The peers that an instance's ABORT goes to. -/
def State.partners (s : State) (d : PealDesc) : List Nat :=
  if d.op = 6 ∨ d.op = 7 ∨ d.op = 8 then [s.target d]
  else if d.op ≤ 5 ∨ d.op = 9 then s.members d.group else []

/-- R12: the codes of the class fault, with which an instance may end. -/
def faultCodes : List (BitVec 16) :=
  [stPAGE_FAULT, stSLAB_ACCESS, stPOISON_READ, stOVERRUN, stBAD_COMMAND, stSTALE_GENERATION, stCORE_CHOKED]

/-- R335, R344: the instance ends with a status on this member: its command faults; where the fault arose here, ABORT goes to
the other members. A fenced device leaves its instances waiting (R324). -/
def State.failPeal (s : State) (opid : BitVec 32) (st : BitVec 16) (tell : Bool) : State :=
  match s.inst opid with
  | none => s
  | some i =>
    if i.status.isSome || i.done || s.car.st == 3 then s
    else
      let s := s.modInst opid i.desc.group fun i => { i with status := some st }
      let s := if tell then
          ((s.partners i.desc).filter fun r => r != s.ownRank).foldl (fun s r => s.sendControl r ctlABORT opid 0 0 (leBytes 2 st.toNat)) s
        else s
      s.faultCmd i.uid st

/-! ### Landing zones (R320, R340) -/

/-- R320: where the pieces of a chunk from member m land on this member: (address, place in the chunk, length). Partials stay in the
reduction buffer (R330). -/
def Inst.landsAt (i : Inst) (v : View) (m : Nat) (l : List Piece) : List (Nat × Nat × Nat) :=
  let d := i.desc
  let cs := fmtBytes d.ofmt (d.shard v.n)
  l.filterMap fun p => match p.seg.kind with
    | .final => some (d.dst + (if d.op = 5 then 0 else p.seg.idx * cs) + p.off, p.pos, p.len)
    | .block => some (d.dst + m * cs + p.off, p.pos, p.len)
    | .perm =>
      let own := (v.perm.zipIdx).filter fun e => e.1.dst == v.me
      (findIdx (fun e => e.2 == p.seg.idx) own 0).map fun k => (v.pages.getD k 0 + p.off, p.pos, p.len)
    | _ => none

/-- Writes at context addresses, in order. -/
def State.putAll (s : State) : List (Nat × Nat × List Byte) → Got State
  | [] => .ok s
  | e :: r => match s.vaWrite e.1 e.2.1 e.2.2 with
    | .ok t => State.putAll t r
    | .fault st => .fault st
    | .held => .held

/-- R213, R214: the walks for those writes meet the errors that stand in the table words. -/
def State.meetPuts (s : State) (l : List (Nat × Nat × List Byte)) : State := s.meetWrites (l.map fun e => (e.1, e.2.1, e.2.2.length))

/-- R320: the writes with which a chunk of a collective, or of a GET's answer, lands: (context, address, bytes). -/
def State.landPuts (s : State) (i : Inst) (rank off : Nat) (data : List Byte) : Got (List (Nat × Nat × List Byte)) :=
  if i.desc.op = 7 then .ok [(i.ctx, i.desc.dst + off, data)]
  else (s.view i.ctx i.desc).map fun v =>
    let m := (findIdx (· == rank) v.ms 0).getD 0
    (i.landsAt v m (piecesOf (segsOf i.desc v.perm v.n m v.me) off data.length 0)).map fun z => (i.ctx, z.1, (data.drop z.2.1).take z.2.2)

/-- R320: a chunk is written to its landing zone and counts as received. -/
def State.landChunk (s : State) (i : Inst) (rank off : Nat) (data : List Byte) : Got State :=
  match s.landPuts i rank off data with
  | .fault e => .fault e
  | .held => .held
  | .ok l => (s.putAll l).map fun t =>
      t.modInst i.desc.opid i.desc.group fun i => { i with rx := i.rx ++ [{ rank := rank, off := off, data := data }] }

/-- The landing of a chunk as an event: a write that fails ends the instance; none while a wipe holds the zone. -/
def State.takeChunk (s : State) (i : Inst) (rank off : Nat) (data : List Byte) : Option State :=
  match s.landChunk i rank off data with
  | .ok t => some t
  | .held => none
  | .fault st =>
    let s := match s.landPuts i rank off data with
      | .ok l => s.meetPuts l
      | _ => s
    some (s.failPeal i.desc.opid st true)

/-! ### Streams (R319, R321, R322) -/

/-- R321: the retransmission timeout in ns. -/
def State.rto (s : State) (c : Conn) : Nat := max (s.peal.rtoMin * 1000) (c.srtt + 4 * c.rttvar).floor.toNat

/-- R317: the chunk size between this device's ports in state UP and a rank. -/
def State.chunkSize (s : State) (rank : Nat) : Nat :=
  let fits (c : Nat) : Bool := (s.pathPorts rank).all fun k => decide (c + gerilHeader (s.viaV6 k rank) ≤ min (s.port k).maxFrame (s.conn rank).maxFrame)
  if fits 8192 then 8192 else if fits 4096 then 4096 else if fits 2048 then 2048 else 1024

/-- The lowest stream number of this device that is free. -/
def State.freeStream (s : State) : Nat :=
  ((List.range 16384).find? fun n => !(s.peal.tx.any fun t => t.stream == n)).getD 0

/-- Open one stream on port k for the chunks: under a stream that the rank's RESUME listed, where one is left (R325). -/
def State.openStream (s : State) (rank k : Nat) (opid : BitVec 32) (op tc : Nat) (gen : BitVec 32) (source : Option (Nat × Nat))
    (chunks : List (Nat × Nat)) (total : Nat) : State :=
  let old := s.peal.resumed.find? fun r => r.rank == rank
  let (stream, next) := match old with
    | some r => (r.stream, r.seq)
    | none => (s.freeStream, 0)
  let t : TxStream := { rank := rank, stream := stream, port := k, opid := opid, op := op, tc := tc, gen := gen, source := source,
                        chunks := chunks, total := total, next := next, unacked := [], fastAt := [] }
  { s with peal := { s.peal with tx := s.peal.tx ++ [t], resumed := delFirst (fun r => r.rank == rank) s.peal.resumed } }

/-- R317, R319: the chunks of transfers in order, of which only the last of each may be shorter; an empty transfer (the request of a GET) is one
empty chunk. -/
def chunksOf (size base : Nat) : List Nat → List (Nat × Nat)
  | [] => []
  | n :: r => ((List.range ((n + size - 1) / size)).map fun k => (base + k * size, min size (n - k * size))) ++ chunksOf size (base + n) r

/-- R323: HELLO asks a rank for a connection, once a port reaches it. It is sent again while it is not answered (DESIGN CHOICE, log
entry 19). -/
def State.sayHello (s : State) (rank retx : Nat) : State :=
  if (s.pathPorts rank).isEmpty || !s.car.en then s
  else
    let c := s.conn rank
    (s.setConn rank { c with asked := some (retx, s.now + min 100000000 (s.rto c * 2 ^ retx)) }).sendControl rank ctlHELLO 0 0 0 s.capabilities

def State.greet (s : State) (rank : Nat) : State := if (s.conn rank).asked.isSome then s else s.sayHello rank 0

/-- R319: a stream whose last packet has been acknowledged closes. -/
def State.closeDone (s : State) (rank stream : Nat) : State :=
  match s.peal.tx.find? fun t => t.rank == rank && t.stream == stream with
  | none => s
  | some t =>
    if t.chunks.isEmpty && t.unacked.isEmpty then
      let s := s.sendControl rank ctlCLOSE t.opid 0 stream []
      { s with peal := { s.peal with tx := delFirst (fun x => x.rank == rank && x.stream == stream) s.peal.tx } }
    else s

/-- R323: do the features that both ends set allow the operation's transfers: recursive algorithms, PERMUTE? Where they do not, its
streams do not open (DESIGN CHOICE, log entry 64). -/
def Conn.allows (c : Conn) (op alg : Nat) : Bool := (alg != 1 || c.features.getLsbD 0) && (op != 9 || c.features.getLsbD 4)

/-- R319: open the streams of a transfer to a rank, one for each port in state UP that reaches it, and deal the chunks over them in turn;
false while no connection, port or stream is there. A stream that gets no chunk closes at once. -/
def State.openTransfer (s : State) (rank : Nat) (opid : BitVec 32) (op tc : Nat) (gen : BitVec 32) (source : Option (Nat × Nat))
    (lens : List Nat) : State × Bool :=
  let c := s.conn rank
  let ports := s.pathPorts rank
  if !c.up then (s.greet rank, false)
  else if ports.isEmpty || decide (16384 < s.peal.tx.length + s.peal.rx.length + ports.length) then (s, false)
  else
    let chunks := if lens.sum = 0 then [(0, 0)] else chunksOf (s.chunkSize rank) 0 lens
    let dealt := (ports.zipIdx).map fun k => (k.1, ((chunks.zipIdx).filter fun e => e.2 % ports.length == k.2).map Prod.fst)
    (dealt.foldl (fun s e =>
      let t := s.openStream rank e.1 opid op tc gen source e.2 lens.sum
      match t.peal.tx.getLast? with
      | some x => t.closeDone rank x.stream
      | none => t) s, true)

/-- R319: the streams that an instance still has to open. -/
def State.openInst (s : State) (i : Inst) : State :=
  match s.view i.ctx i.desc with
  | .ok v =>
    if i.status.isSome || i.done || s.car.st == 3 then s
    else ((s.sends i v).filter fun e => !i.opened.contains e.1).foldl (fun s e =>
      if (s.conn e.1).up && !(s.conn e.1).allows i.desc.op i.desc.alg then s
      else
      let (t, ok) := s.openTransfer e.1 i.desc.opid i.desc.op i.desc.tc i.desc.gen none e.2
      if ok then t.modInst i.desc.opid i.desc.group fun i => { i with opened := i.opened ++ [e.1] } else t) s
  | _ => s

def State.modStream (s : State) (rank stream : Nat) (f : TxStream → TxStream) : State :=
  { s with peal := { s.peal with tx := modFirst (fun t => t.rank == rank && t.stream == stream) f s.peal.tx } }

def State.txStream (s : State) (rank stream : Nat) : Option TxStream :=
  s.peal.tx.find? fun t => t.rank == rank && t.stream == stream

/-- The payload of a chunk of a stream. -/
def State.payload (s : State) (t : TxStream) (off len : Nat) : Got (List Byte) :=
  match t.source with
  | some (c, a) => s.vaRead c (a + off) len
  | none =>
    match s.inst t.opid with
    | none => .held
    | some i => s.chunkData i t.rank off len

/-- The payload of a chunk once its memory has been read: the errors that stand there are met (R213, R214). -/
def State.readPayload (s : State) (t : TxStream) (off len : Nat) : Got (List Byte) × State :=
  match s.payload t off len with
  | .held => (.held, s)
  | _ =>
    let s := s.meetReads (match t.source with
      | some (c, a) => [(c, a + off, len)]
      | none => match s.inst t.opid with
        | some i => s.chunkReads i t.rank off len
        | none => [])
    (s.payload t off len, s)

/-- The DATA packet of a chunk. -/
def State.dataPkt (s : State) (t : TxStream) (seq : Nat) (off : Nat) (last : Bool) (data : List Byte) : GPkt :=
  let base := s.newPkt t.port t.rank { s.newHdr t.rank with
    last := last, offset := BitVec.ofNat 40 off, opid := t.opid, gen := t.gen, seq := BitVec.ofNat 32 seq,
    stream := BitVec.ofNat 14 t.stream, op := BitVec.ofNat 8 t.op, typ := 1 } data
  match t.source, s.inst t.opid with
  | none, some i =>
    if t.op = 6 ∨ t.op = 8 then { base with region := BitVec.ofNat 6 i.desc.region, at_ := w64 i.desc.dst }
    else if t.op = 7 then
      { base with region := BitVec.ofNat 6 i.desc.region, at_ := w64 i.desc.src0, want := fmtBytes i.desc.ofmt i.desc.count, tc := BitVec.ofNat 2 i.desc.tc }
    else base
  | _, _ => base

/-- R321: the packet as it is sent again: RETX, the incarnation that this device has now and the addresses that lead to the rank now
(R325). -/
def State.again (s : State) (k : GPkt) : GPkt :=
  let h : GHdr := { retx := true, last := k.last, ece := k.ece, len := k.len, offset := k.offset, opid := k.opid, gen := k.gen,
                    inc := s.car.ownInc, dst := k.dst, src := k.src, seq := k.seq, stream := k.stream, op := k.op, typ := k.typ, ver := k.ver }
  let a := (s.path k.port.val k.dst.toNat).getD (0, 0)
  { k with head := h.word, srcIp := a.1, dstIp := a.2 }

def Unacked.len (u : Unacked) : Nat := u.pkt.payload.length

/-- R322: bytes in flight to a rank. -/
def State.inFlight (s : State) (rank : Nat) : Nat :=
  ((s.peal.tx.filter fun t => t.rank == rank).map fun t => (t.unacked.map Unacked.len).sum).sum

/-- R330, R73: the flags that the partial sums of a chunk of a long ALL_REDUCE raise on this member. -/
def State.chunkFlags (s : State) (i : Inst) (rank off len : Nat) : Flags :=
  match s.view i.ctx i.desc with
  | .ok v =>
    if i.desc.op ≠ 3 ∨ i.desc.short v.n then 0
    else
      let ps := piecesOf (segsOf i.desc v.perm v.n v.me ((findIdx (· == rank) v.ms 0).getD 0)) off len 0
      orFlags ((ps.filter fun p => p.seg.kind == .part).map fun p =>
        match s.partialOf i v p.seg.idx p.seg.lvl (p.off / 4) (p.len / 4) with
        | .ok r => r.2 &&& pealFlags
        | _ => 0)
  | _ => 0

/-- The flags of the sums that a chunk of a stream carries join its instance's. -/
def State.noteFlags (s : State) (t : TxStream) (off len : Nat) : State :=
  match t.source, s.inst t.opid with
  | none, some i =>
    let g := s.chunkFlags i t.rank off len
    s.modInst i.desc.opid i.desc.group fun i => { i with flags := i.flags ||| g }
  | _, _ => s

/-- R319, R322: send the chunks of a stream, as far as their data are there and the windows allow. -/
def State.sendChunks (s : State) (t : TxStream) : List (Nat × Nat) → Nat → State
  | [], _ => s
  | (off, len) :: r, seq =>
    let c := s.conn t.rank
    if (s.port t.port).st ≠ .up ∨ s.car.st = 3 ∨ !s.car.en then s
    else if (min c.cwnd.floor.toNat c.rwnd) < s.inFlight t.rank + len then s
    else match s.readPayload t off len with
      | (.held, s) => s
      | (.fault st, s) =>
        (match t.source with
        | some _ => s.sendControl t.rank ctlABORT t.opid 0 0 (leBytes 2 st.toNat)
        | none => s.failPeal t.opid st true)
      | (.ok data, s) =>
        let s := s.noteFlags t off len
        let k := s.dataPkt t seq off r.isEmpty data
        let u : Unacked := { seq := seq, off := off, pkt := k, retx := 0, deadline := s.now + s.rto c, sentAt := s.now }
        let s := s.sendGeril t.port t.tc k
        let next := (seq + 1) % 2 ^ 32
        let s := s.modStream t.rank t.stream fun t => { t with chunks := r, next := next, unacked := t.unacked ++ [u] }
        State.sendChunks s t r next

/-! ### Shard tables (R333 to R335) -/

/-- The physical address of an entry of a partition's shard table. -/
def State.shardAt (s : State) (n layer : Nat) : Got Nat :=
  let slab := (s.part n).shardSlab.toNat
  let pa := slab * 2 ^ 25 + 64 * layer
  if slab = 0xFFFF then .fault stSLAB_ACCESS
  else match s.access n pa with
    | .fault e => .fault e
    | .held => .held
    | .ok _ => if s.poisoned pa 64 then .fault stPOISON_READ else .ok pa

/-- The errors that stand in an entry of a partition's shard table are met as it is read. -/
def State.meetShard (s : State) (n layer : Nat) : State :=
  let pa := (s.part n).shardSlab.toNat * 2 ^ 25 + 64 * layer
  if (s.part n).shardSlab ≠ 0xFFFF ∧ s.access n pa = .ok () then s.memErrs [(pa, 64)] [] else s

def entCurGen (b : List Byte) : Nat := natAt b 0 4
def entPrevGen (b : List Byte) : Nat := natAt b 4 4
def entCurAddr (b : List Byte) : Nat := natAt b 8 8
def entPrevAddr (b : List Byte) : Nat := natAt b 0x10 8
def entCurValid (b : List Byte) : Bool := natAt b 0x1F 1 % 2 == 1
def entPrevValid (b : List Byte) : Bool := natAt b 0x1F 1 / 2 % 2 == 1
def entPending (b : List Byte) : Bool := natAt b 0x1F 1 / 4 % 2 == 1
def entCtx (b : List Byte) : Nat := natAt b 0x20 4
def entPendOpid (b : List Byte) : Nat := natAt b 0x24 4

def entFlags (cur prev pend : Bool) : List Byte := [BitVec.ofNat 8 (b2n cur + 2 * b2n prev + 4 * b2n pend)]

/-- R335: where a gather of generation g is served from. -/
inductive Serve where
  | from_ (ctx addr : Nat)
  | wait
  | stale
  | fault (st : BitVec 16)
  deriving DecidableEq, Repr

def State.serveOf (s : State) (n layer g : Nat) : Serve :=
  match s.shardAt n layer with
  | .held => .wait
  | .fault st => .fault st
  | .ok pa =>
    let b := s.memRead pa 64
    if entCurValid b && entCurGen b == g then .from_ (entCtx b) (entCurAddr b)
    else if entPrevValid b && entPrevGen b == g then .from_ (entCtx b) (entPrevAddr b)
    else if entCurGen b < g then .wait
    else .stale

/-- R335: an instance whose shard is not yet found looks for it again. -/
def State.resolve (s : State) (i : Inst) : State :=
  if i.desc.op ≠ 2 ∨ !i.desc.genEn ∨ i.serve.isSome ∨ i.hit ∨ i.done ∨ i.status.isSome ∨ s.car.st = 3 then s
  else let s := s.meetShard i.part i.desc.layer
    match s.serveOf i.part i.desc.layer i.desc.gen.toNat with
    | .wait => s
    | .stale => s.failPeal i.desc.opid stSTALE_GENERATION true
    | .fault st => s.failPeal i.desc.opid st true
    | .from_ c a => s.modInst i.desc.opid i.desc.group fun i => { i with serve := some (c, a) }

/-- R334: the lowest generation that every active rank has ended, plus one; 0 while some rank has ended none. -/
def State.endedGen (s : State) : Nat :=
  match (List.range s.car.activeRanks).map (sget 0 s.peal.stepGen) with
  | [] => 0
  | g :: r => r.foldl min g

/-- R334: one entry's retained generation is released where every active rank has ended it. -/
def State.releaseGen (s : State) (n layer e : Nat) : State :=
  match s.shardAt n layer with
  | .ok pa =>
    let b := s.memRead pa 64
    if entPrevValid b && decide (entPrevGen b + 1 ≤ e) then s.memWrite (pa + 0x1F) (entFlags (entCurValid b) false (entPending b)) else s
  | _ => s

/-- R334: retained generations that every active rank has ended are released. -/
def State.releaseGens (s : State) : State :=
  let e := s.endedGen
  (List.range 16).foldl (fun s n =>
    if (s.part n).shardSlab = 0xFFFF then s else (List.range 4096).foldl (fun s layer => s.releaseGen n layer e) s) s

/-! ### PERMUTE's staging and copies (R340) -/

/-- Are the bytes [off, off + len) of the instance's transfer to a rank all acknowledged? -/
def State.chunksAcked (s : State) (i : Inst) (rank off len : Nat) : Bool :=
  i.opened.contains rank && !(s.peal.tx.any fun t => t.rank == rank && t.opid == i.desc.opid && t.source.isNone &&
    (t.chunks.any (fun c => rangesMeet c (off, len)) || t.unacked.any fun u => rangesMeet (u.off, u.len) (off, len)))

/-- Has every read of the bytes that entry e of this member will overwrite been made: sends acknowledged, local sources staged? -/
def State.permClear (s : State) (i : Inst) (v : View) (e : PermEntry) : Bool :=
  (v.perm.zipIdx).all fun x =>
    if x.1.src != v.me || !rangesMeet (x.1.srcOff, x.1.len) (e.dstOff, e.len) then true
    else if x.1.dst = v.me then i.staged.contains x.2
    else
      match segFind (fun g => g.kind == .perm && g.idx == x.2) (segsOf i.desc v.perm v.n v.me x.1.dst) 0 with
      | some (o, len) => s.chunksAcked i (v.rank x.1.dst) o len
      | none => true

/-- The entries whose destination is this member, each with its index and staging page. -/
def View.permOwn (v : View) : List (PermEntry × Nat × Nat) :=
  (((v.perm.zipIdx).filter fun e => e.1.dst == v.me).zipIdx).map fun x => (x.1.1, x.1.2, v.pages.getD x.2 0)

/-- A local entry goes into its staging page. -/
def State.permStage (s : State) (i : Inst) (v : View) (e : PermEntry) (idx page : Nat) : State :=
  if e.src ≠ v.me ∨ i.staged.contains idx then s
  else
    let s := s.meetReads [(i.ctx, i.desc.dst + e.srcOff, e.len)]
    match s.vaRead i.ctx (i.desc.dst + e.srcOff) e.len with
    | .held => s
    | .fault st => s.failPeal i.desc.opid st true
    | .ok b => match s.vaWrite i.ctx page b with
      | .held => s
      | .fault st => (s.meetWrites [(i.ctx, page, e.len)]).failPeal i.desc.opid st true
      | .ok t => t.modInst i.desc.opid i.desc.group fun i => { i with staged := i.staged ++ [idx] }

/-- A staging page that is full is copied to its destination once nothing more reads the bytes there. -/
def State.permCopy (s : State) (i : Inst) (v : View) (e : PermEntry) (idx page : Nat) : State :=
  let full := if e.src = v.me then i.staged.contains idx
    else match i.rxSeg v e.src fun g => g.kind == .perm && g.idx == idx with
      | .ok _ => true
      | _ => false
  if i.copied.contains idx ∨ !full ∨ !s.permClear i v e then s
  else
    let s := s.meetReads [(i.ctx, page, e.len)]
    match s.vaRead i.ctx page e.len with
    | .held => s
    | .fault st => s.failPeal i.desc.opid st true
    | .ok b => match s.vaWrite i.ctx (i.desc.dst + e.dstOff) b with
      | .held => s
      | .fault st => (s.meetWrites [(i.ctx, i.desc.dst + e.dstOff, e.len)]).failPeal i.desc.opid st true
      | .ok t => t.modInst i.desc.opid i.desc.group fun i => { i with copied := i.copied ++ [idx] }

/-- What a PERMUTE instance can stage and copy now. -/
def State.permSteps (s : State) (i : Inst) : State :=
  if i.desc.op ≠ 9 ∨ i.done ∨ i.status.isSome ∨ s.car.st = 3 then s
  else match s.view i.ctx i.desc with
    | .ok v =>
      let step (f : State → Inst → View → PermEntry → Nat → Nat → State) (s : State) : State :=
        v.permOwn.foldl (fun s x => match s.peal.insts.find? fun k => k.desc.opid == i.desc.opid && k.desc.group == i.desc.group with
          | some j => f s j v x.1 x.2.1 x.2.2
          | none => s) s
      step State.permCopy (step State.permStage s)
    | _ => s

/-! ### The early pool (R320) -/

/-- R320: what the early pool holds for a live instance lands in it, in order; what a wipe holds stays. An early ABORT ends it. -/
def State.takeEarly (s : State) (opid : BitVec 32) (group : BitVec 8) : State :=
  s.peal.early.foldl (fun s k =>
    if k.opid ≠ opid then s
    else match s.peal.insts.find? fun i => i.desc.opid == opid && i.desc.group == group with
      | none => s
      | some i =>
        let drop (t : State) : State := { t with peal := { t.peal with early := delFirst (fun x => x == k) t.peal.early } }
        if k.typ = 3 then (drop s).failPeal opid (BitVec.ofNat 16 (natAt k.payload 0 2)) false
        else match s.takeChunk i k.src.toNat k.offset.toNat k.payload with
          | some t => drop t
          | none => s) s

/-! ### The pump: what the engine does of its own accord after an event -/

/-- Early packets that can land, shards that waiting gathers now find, what PERMUTE can copy, streams that can open, and chunks that may be
sent. -/
def State.pump (s : State) : State :=
  let s := s.peal.insts.foldl (fun s i => s.takeEarly i.desc.opid i.desc.group) s
  let s := s.peal.insts.foldl State.permSteps s
  let s := s.peal.insts.foldl State.resolve s
  let s := s.peal.insts.foldl State.openInst s
  s.peal.tx.foldl (fun s t => match s.txStream t.rank t.stream with
    | some t => s.sendChunks t t.chunks t.next
    | none => s) s

/-! ### Commit (R252, R333, R336, R339) -/

/-- R333: the change of a PUBLISH. COUNT, FMT and CONTEXT of the entry are those of the PUBLISH (log entry 21), and PEND_OPID is 0 from then
on, while a mark that is dropped without a PUBLISH keeps it (DESIGN CHOICE, log entry 21: R333 clears PENDING alone). -/
def State.publishNow (s : State) (i : Inst) : State :=
  let s := s.meetShard i.part i.desc.layer
  match s.shardAt i.part i.desc.layer with
  | .ok pa =>
    let b := s.memRead pa 64
    s.memWrite pa (leBytes 4 i.desc.gen.toNat ++ leBytes 4 (entCurGen b) ++ leBytes 8 i.desc.src0 ++ leBytes 8 (entCurAddr b) ++
      leBytes 6 i.desc.count ++ [BitVec.ofNat 8 i.desc.ifmt] ++ entFlags true true false ++ leBytes 4 i.ctx ++ leBytes 4 0 ++ bytesAt b 0x28 24)
  | _ => s

def State.keeps (s : State) (n : Nat) : List Keep := sget [] s.peal.keep n
def State.setKeeps (s : State) (n : Nat) (l : List Keep) : State := { s with peal := { s.peal with keep := sset [] s.peal.keep n l } }

/-- R336: does a keep-table entry stand for the gather? -/
def keepMatch (d : PealDesc) (len : Nat) (k : Keep) : Bool :=
  k.standing && k.layer == d.layer && k.gen == d.gen && k.dst == d.dst && k.len == len

/-- The bytes that a gather lands. -/
def State.gatherLen (s : State) (d : PealDesc) : Nat := (s.members d.group).length * fmtBytes d.ofmt d.count

/-- What commit does for one instance. -/
def State.commitInst (s : State) (i : Inst) : State :=
  match i.desc.op with
  | 12 => s.publishNow i
  | 2 =>
    if i.desc.policy = 3 then s.setKeeps i.part (delFirst (keepMatch i.desc (s.gatherLen i.desc)) (s.keeps i.part)) else s
  | _ => s

/-- R339: one COMMIT_NOTICE; a region of this device itself is counted at once. -/
def State.commitNotice (s : State) (rank region : Nat) : State :=
  if rank = s.ownRank then
    let e := s.region region
    let p := s.part (regPart e)
    if regEnable e then
      s.setPart (regPart e) { p with sems := smod 0 p.sems (regSem e) fun v => w64 (satAdd 64 v.toNat 1) }
    else s
  else s.sendControl rank ctlCOMMIT_NOTICE 0 0 0 [BitVec.ofNat 8 region]

/-- The peal side of a command's commit: PUBLISH, the keep table and COMMIT_NOTICE; its instances are gone. -/
def State.commitPeals (s : State) (uid : Nat) : State :=
  let mine := s.peal.insts.filter fun i => i.uid == uid
  let s := mine.foldl State.commitInst s
  let s := (List.range 16).foldl (fun s n =>
    s.setKeeps n ((s.keeps n).map fun k => if k.uid = uid then { k with standing := true } else k)) s
  let notes := ((mine.filter fun i => i.desc.op == 6 || i.desc.op == 8).map fun i => (s.target i.desc, i.desc.region)).dedup
  let s := notes.foldl (fun s e => s.commitNotice e.1 e.2) s
  let s := { s with peal := { s.peal with insts := s.peal.insts.filter fun i => i.uid != uid } }
  if mine.any (fun i => i.desc.op == 12) then s.releaseGens.pump else s

/-! ### Cancelling (R333, R344) -/

/-- The streams of an operation close. -/
def State.closeStreams (s : State) (opid : BitVec 32) : State :=
  let mine := s.peal.tx.filter fun t => t.opid == opid && t.source.isNone
  let s := mine.foldl (fun s t => s.sendControl t.rank ctlCLOSE opid 0 t.stream []) s
  { s with peal := { s.peal with tx := s.peal.tx.filter fun t => !(t.opid == opid && t.source.isNone) } }

/-- R333: the mark of an unpublished instance is cleared. -/
def State.unmark (s : State) (i : Inst) : State :=
  if i.desc.op ≠ 12 then s
  else
    let s := s.meetShard i.part i.desc.layer
    match s.shardAt i.part i.desc.layer with
    | .ok pa =>
      let b := s.memRead pa 64
      if entPending b && entPendOpid b == i.desc.opid.toNat then s.memWrite (pa + 0x1F) (entFlags (entCurValid b) (entPrevValid b) false) else s
    | _ => s

/-- R344: one instance is cancelled. -/
def State.cancelInst (s : State) (i : Inst) : State :=
  let s := (s.closeStreams i.desc.opid).unmark i
  { s with peal := { s.peal with
    insts := s.peal.insts.filter fun k => !(k.desc.opid == i.desc.opid && k.desc.group == i.desc.group)
    cancelled := i.desc.opid :: s.peal.cancelled.filter fun o => o != i.desc.opid } }

/-- The instances of a command are cancelled and its keep reservations released (R336, R344). -/
def State.cancelUid (s : State) (uid : Nat) : State :=
  let s := (s.peal.insts.filter fun i => i.uid == uid).foldl State.cancelInst s
  (List.range 16).foldl (fun s n => s.setKeeps n ((s.keeps n).filter fun k => k.standing || k.uid != uid)) s

/-- R336: a context's keep entries go at its teardown. -/
def State.cancelCtx (s : State) (c : Nat) : State :=
  (List.range 16).foldl (fun s n => s.setKeeps n ((s.keeps n).filter fun k => k.ctx != c)) s

/-- R266: the instances of a partition, its keep table and the regions that name it. -/
def State.cancelPart (s : State) (n : Nat) : State :=
  let s := (s.peal.insts.filter fun i => i.part == n).foldl State.cancelInst s
  let s := s.setKeeps n []
  let regs := (List.range 64).foldl (fun m g =>
    let e := sget 0 m g
    if e ≠ 0 ∧ regPart e = n then sset 0 m g (e &&& ~~~((1 : BitVec 256) <<< 8)) else m) s.peal.regions
  { s with peal := { s.peal with regions := regs } }

end Sys2Proof.Machine
end

