-- ==== Sys2Proof/Machine/Queues.lean ====
section
/-! DEFINITION. The message-queue family (chapter 10): packets written and read, queue resets, flushes, delivery rings. -/

namespace Sys2Proof.Machine

/-! ### The write port (R222, R223, R225) -/

/-- The words of the packet that a producer has begun: written, or waiting for the write port. -/
def MsgQueue.openWords (m : MsgQueue) (src : Nat) : Nat :=
  (m.waiting.filter fun a => a.src == src).foldl (fun n a => match a.stop with
      | .more => n + a.words.length
      | _ => 0)
    (match m.writing with
      | some w => if w.src = src then w.words.length else 0
      | none => 0)

/-- R220: do so many words keep the packet of a producer within the queue's maximum? One that goes on leaves room for a last word, and one that
is abandoned may end with the words that it has. -/
def MsgQueue.fits (m : MsgQueue) (qid src n : Nat) (stop : MqStop) : Bool :=
  let held := m.openWords src
  match stop with
  | .done => decide (0 < n ∧ held + n ≤ mqMaxWords qid)
  | .more => decide (0 < n ∧ held + n < mqMaxWords qid)
  | .abandoned => decide (0 < held + n ∧ held + n ≤ mqMaxWords qid)

/-- The inputs of a queue's write port: first the units that post whole packets, then the producers of MQ_PACKET_WRITE. On the trace queue of a
quadrant the first 17 of them are the trace points of its cores in order (DESIGN CHOICE, log entry 61). -/
def mqInput (a : MqWrite) : Nat := a.src + mqUnits

/-- The core whose trace point a producer is. -/
def traceCore (qid src : Nat) : Option Nat := if 16 ≤ qid ∧ qid < 20 ∧ src < 17 then some (17 * (qid - 16) + src) else none

/-- R101, R223: is the producer a trace point of a core that is not open? -/
def State.producerShut (s : State) (qid src : Nat) : Bool := (traceCore qid src).any fun p => (s.core p).life != .opened

/-- R220, R226: may a producer write? Toll queues and the choke channel take the packets of R99 and R366 alone, which their own commands write.
R234: no trace packet while a partition is confidential. -/
def State.mayWrite (s : State) (qid n : Nat) (a : MqWrite) : Bool :=
  decide (0 < mqDepth qid) && (s.mqueue qid).fits qid (mqInput a) n a.stop &&
    !(decide (24 ≤ qid ∧ qid < 28) || qid == qidChoke) && !(decide (16 ≤ qid ∧ qid < 21) && s.anyConfidential) && !s.producerShut qid a.src

/-- R228: an upset strikes a copy of the write pointer, which the pointer's next move finds. -/
def MsgQueue.strikeWr (m : MsgQueue) (qid : Nat) : MsgQueue := { m with wr0 := (m.wr0 + 1) % mqDepth qid }

/-- R101: the trace packet of a core whose port is closed is dropped there and counted, at its end: the packet is the request. -/
def State.dropTrace (s : State) (qid : Nat) (a : MqWrite) : State :=
  match traceCore qid a.src with
  | some p => if s.producerShut qid a.src && a.stop != .more then s.dropAtPort p 1 else s
  | none => s

/-- R228: an input whose packet the queue's reset has abandoned: what it writes next is the rest of that packet, unless this write has ended it. -/
def State.markCut (s : State) (qid src : Nat) (stop : MqStop) : State :=
  let m := s.mqueue qid
  let rest := m.cut.filter fun i => i != src
  s.setQueue qid { m with cut := if stop = .more then setIns rest src else rest }

/-- R222, R223, R225, R228, R262: a producer asks for the write port with words that end its packet, go on, or are its last before it
abandons the packet; an upset strikes a copy of the write pointer after some of the words, or, where the producer writes none now, while the
port is another's. A producer that has the port, or is granted it at once, moves the pointer, and where its copies differ the packet is lost with
the queue's reset. The rest of a packet that a reset has cut is lost, up to its end or its abandonment; that of a choked core is dropped at its
port as well (R101). -/
def execMqPacketWrite (qid : Fin 32) (words : List W64) (a : MqWrite) (s : State) : Out :=
  let q := qid.val
  let m := s.mqueue q
  let mine (s : State) : Bool := (s.mqueue q).writing.any fun w => w.src == mqInput a
  let struck (s : State) : State := if a.upset.isSome then s.setQueue q ((s.mqueue q).strikeWr q) else s
  if !s.alive || mqDepth q = 0 then .next s
  else if m.cut.contains (mqInput a) && (a.stop == .abandoned || !words.isEmpty) then .next (struck ((s.markCut q (mqInput a) a.stop).dropTrace q a))
  else if !s.mayWrite q words.length a then .next (struck (s.dropTrace q a))
  else if m.mismatch && (mine s || m.portFree) then
    .next ((if mine s then s.resetQueue q else s.loseBegun q).markCut q (mqInput a) a.stop)
  else
    let ask (words : List W64) (stop : MqStop) : State :=
      s.setQueue q (m.ask s.now q { src := mqInput a, pop := a.pop, words := words, stop := stop })
    match a.upset with
    | none => .next (ask words a.stop)
    | some k =>
      let t := ask (words.take k) .more
      if mine t then .next ((t.resetQueue q).markCut q (mqInput a) a.stop)
      else
        let t := ask words a.stop
        .next (t.setQueue q ((t.mqueue q).strikeWr q))

/-! ### The read port (R224, R228, R230) -/

/-- R224: the header word. PIDX has 7 bits: a first poisoned index of 128 or more stands there modulo 128 (DESIGN CHOICE, log entry 61). -/
def mqHeader (phase trunc : Bool) (poisoned : List Nat) (seq qid len : Nat) : W64 :=
  w64 (b2n phase * 2 ^ 63 + b2n trunc * 2 ^ 62 + (if poisoned.isEmpty then 0 else 2 ^ 61) +
    (poisoned.foldl min (poisoned.headD 0)) % 128 * 2 ^ 48 + seq % 65536 * 2 ^ 32 + qid % 256 * 2 ^ 16 + len % 512)

/-- An upset bit of a slot. -/
def Slot.flip (x : Slot) (b : Fin 65) : Slot :=
  if b.val = 64 then { x with parity := !x.parity } else { x with data := x.data ^^^ BitVec.twoPow 64 b.val }

/-- The packet as it stands once upsets have struck its slots. -/
def Packet.strike (k : Packet) (u : List MqUpset) : Packet :=
  let off := if k.len.isSome then 1 else 0
  u.foldl (fun k e => match e with
    | .bit i b => if i < off then { k with len := k.len.map (Slot.flip · b) } else { k with words := k.words.modify (i - off) (Slot.flip · b) }
    | .mark i =>
      if i < off then { k with len := k.len.map fun x => { x with end0 := !x.end0 } }
      else { k with words := k.words.modify (i - off) fun x => { x with end0 := !x.end0 } }
    | .pointer _ => k) k

/-- Do the copies of the read pointer differ once n slots of the packet have moved? -/
def ptrBad (u : List MqUpset) (n : Nat) : Bool := u.any fun e => e == .pointer n

/-- What one read of a queue gives its consumer. -/
structure Taken where
  /-- The header, when this read brings it, and the payload words with their poison tags. -/
  header : Option W64
  words  : List (W64 × Bool)
  /-- The queue reset itself: before the header was read (TRUNC), or after it. -/
  reset  : Bool
  deriving DecidableEq, Repr

/-- R228: the queue reset itself after the header had been read: the consumer receives one further word. -/
def Taken.cutOff (t : Taken) : Bool := t.reset && !(t.header.any fun h => h.getLsbD 62)

/-- The packet's words that fail their parity, by index. -/
def Packet.bad (k : Packet) : List Nat := (List.range k.words.length).filter fun i => (k.words.map Slot.bad).getD i false

/-- The payload words that move, from word i on, until n have moved or a check fails: the words and whether one failed. -/
def takeSlots (u : List MqUpset) (off i : Nat) : List Slot → List (W64 × Bool) × Bool
  | [] => ([], false)
  | x :: r =>
    if x.torn || ptrBad u (off + i) then ([], true)
    else
      let (l, bad) := takeSlots u off (i + 1) r
      ((x.data, x.bad) :: l, bad)

/-- R224, R228, R230: the consumer reads the next n words of packet k, `start` of which it has read, with the header where start is none.
LEN is the packet's own also in the header of a packet that a reset cuts short (DESIGN CHOICE, log entry 61). -/
def Packet.take (k : Packet) (qid n : Nat) (phase : Bool) (start : Option Nat) (u : List MqUpset) : Taken :=
  let off := if k.len.isSome then 1 else 0
  if start.isNone && ((k.len.any fun x => x.bad || x.torn) || ptrBad u 0 && k.len.isSome) then
    { header := some (mqHeader phase true [] k.seq qid k.words.length), words := [], reset := true }
  else
    let i := start.getD 0
    let (l, bad) := takeSlots u off i ((k.words.drop i).take n)
    { header := if start.isNone then some (mqHeader phase false k.bad k.seq qid k.words.length) else none, words := l, reset := bad }

/-- The queue after a read that met no reset has taken n words of its oldest packet k, whose slots stand as upsets have left them: the packet
leaves with its last word. -/
def MsgQueue.taken (m : MsgQueue) (qid n : Nat) (k : Packet) : MsgQueue :=
  let i := m.reading.getD 0
  let m := m.moveRd qid (if m.reading.isSome then n else mqSpan qid n)
  if k.words.length ≤ i + n then { m with pkts := m.pkts.drop 1, reading := none }
  else { m with pkts := k :: m.pkts.drop 1, reading := some (i + n) }

/-- R227: may the consumer begin a packet? Not while a flush is pending (DESIGN CHOICE, log entry 61: the rule makes only producers wait). -/
def MsgQueue.mayRead (m : MsgQueue) : Bool := m.reading.isSome || !m.flush

/-- R230: the control processor does not read while it restarts (R370). -/
def State.consumerRuns (s : State) (qid : Nat) : Bool := !(decide (qid = qidFault ∨ qid = qidCpReq) && s.fw.run.isNone)

/-- One read of the oldest packet, whose slots upsets strike first: what the consumer gets, and the state after it. The queue resets where a
check fails. -/
def State.takeFrom (s : State) (qid n : Nat) (phase : Bool) (u : List MqUpset) : Option (Taken × State) :=
  let m := s.mqueue qid
  if !m.mayRead then none
  else match m.pkts with
    | [] => none
    | k :: _ =>
      let k := k.strike u
      let t := k.take qid n phase m.reading (if m.mismatch then .pointer (m.reading.getD 0 + if m.reading.isSome && k.len.isSome then 1 else 0) :: u else u)
      if t.reset then some (t, (s.setQueue qid { m with reading := none }).resetQueue qid)
      else some (t, (s.setQueue qid (m.taken qid t.words.length k)).settleQueue qid)

/-- R224, R228, R230: the consumer of a queue reads up to n words of the oldest whole packet, its header first; on an empty queue it
stalls. -/
def State.readPort (s : State) (qid n : Nat) (u : List MqUpset) : State :=
  if !s.consumerRuns qid then s
  else
    let m := s.mqueue qid
    let k := m.pkts.head?.map fun k => k.strike u
    let left := ((k.map fun k => k.words.length).getD 0) - m.reading.getD 0
    match s.takeFrom qid n false u with
    | none => s
    | some (t, s) =>
      let ends := decide (left ≤ t.words.length) && !t.reset
      let s := match t.header with
        | some h => s.emit (.mqHeader h)
        | none => s
      let s := s.emits (t.words.mapIdx fun i w => Emit.mqWord w.1 w.2 (ends && i + 1 == t.words.length))
      if t.cutOff then s.cutWord qid else s.notePoisoned qid (ends && k.any fun k => !k.bad.isEmpty)

/-! ### Tolls at the hub's checker (R100) -/

/-- R100, R42: the last interval of a busy core that counts as tolled lies three before the given one, so that two consecutive intervals have
closed without a toll: a core fault. -/
def State.missTolls (s : State) (p interval : Nat) : State :=
  let c := s.core p
  if c.run.isSome && c.life == .opened && c.fault.isNone && decide (c.toll.tollAt + 3 ≤ interval) then
    s.setCore p { c with fault := some { cause := 6, time := s.now } }
  else s

/-- R100, R371: a toll word that the hub checker has read, written at `time`: it counts against the interval of its timestamp unless its
epoch is stale; two silent intervals that close at or before that stamp are a fault first (R42), and its WAIT_FRAC joins the slack of the partitions of PEAL_PARTS unless the word is poisoned (R230). -/
def State.countToll (s : State) (w : W64) (time : Nat) (poisoned : Bool) : State :=
  let p := fld w 6 0
  let c := s.core p
  if 68 ≤ p then s
  else if c.epoch.toNat ≠ fld w 31 24 ∨ c.life ≠ .opened then s.dropAtPort p 1
  else
    let s := (s.missTolls p (time / 64000)).modCore p fun c => { c with toll := { c.toll with tollAt := max c.toll.tollAt (time / 64000) } }
    match s.cmdOf p with
    | none => s
    | some (i, _) =>
      let n := (s.ctx i.ctx).part.toNat
      if s.peal.parts.getLsbD n && !poisoned then
        { s with
          car := { s.car with slackSum := s.car.slackSum + fld w 63 48, slackN := s.car.slackN + 1 }
          damper := { s.damper with slackSum := s.damper.slackSum + fld w 63 48, slackN := s.damper.slackN + 1 } }
      else s

/-- R100, R230: the hub toll checker reads the oldest toll packet of quadrant q. A further word of R228 is a poisoned toll of unknown content. -/
def State.checkToll (s : State) (q : Nat) (u : List MqUpset) : State :=
  let time := ((s.mqueue (24 + q)).pkts.head?.map Packet.time).getD 0
  match s.takeFrom (24 + q) 1 false u with
  | none => s
  | some (t, s) =>
    match t.words with
    | (w, bad) :: _ => s.countToll w time bad
    | [] => if t.cutOff then s.draw.2.countToll s.draw.1 time true else s

/-! ### Flush (R227) -/

/-- R227, R236: a write of MQ_FLUSH. The QIDs that are not used have no entry to flush, while their counters read as zero (DESIGN CHOICE, log
entry 61). -/
def execMqFlush (pr : Principal) (qid : Fin 32) (v : BitVec 8) (s : State) : Out :=
  let allowed := prHost pr || prCp pr || (decide (qid.val < 16) && prOwns pr qid.val)
  .next (s.dictWrite pr allowed false fun s =>
    if 1 < v.toNat then (rRANGE, s)
    else if mqDepth qid.val = 0 then (rNO_ENTRY, s)
    else if v = 0 then (rOK, s)
    else (rOK, s.flushQueue qid.val))

/-- R227: the first packet boundary after a request: no packet is partly written and none partly read. -/
def execFlushEffect (qid : Fin 32) (s : State) : Out := .next (s.applyFlush qid.val)

/-! ### Delivery rings (R231) -/

def State.ring (s : State) (r : Nat) : Ring := sget Ring.reset s.mq.rings r
def State.setRing (s : State) (r : Nat) (x : Ring) : State := { s with mq := { s.mq with rings := sset Ring.reset s.mq.rings r x } }

/-- Write words from an offset of a ring, continuing at offset 0 past its end: the pieces (offset, bytes). -/
def ringPieces (size off : Nat) (data : List Byte) : List (Nat × List Byte) :=
  let off := off % size
  if off + data.length ≤ size then [(off, data)]
  else [(off, data.take (size - off)), (0, data.drop (size - off))]

/-- The bytes of words. -/
def wordBytes (l : List W64) : List Byte := l.flatMap fun w => leBytes 8 w.toNat

/-- R204: may the partition write the n bytes from pa, which meet at most two slabs and pages? -/
def State.rangeAccess (s : State) (part pa n : Nat) : Got Unit :=
  match s.access part pa with
  | .ok _ => s.access part (pa + (n - 1))
  | g => g

/-- R231: deliver the oldest packet of queue qid to a ring, of function fn, raising a vector: payload words first, the header word last.
A packet that a queue reset cuts short takes the room of its LEN, and the words omitted are not written (DESIGN CHOICE, log entry 61). -/
def State.deliver (s : State) (qid ringNo fn vec : Nat) (u : List MqUpset) : State :=
  let r := s.ring ringNo
  let m := s.mqueue qid
  match m.pkts with
  | [] => s
  | k :: _ =>
    let need := 8 * (k.words.length + 1)
    let used := (r.off + r.size - r.cons % r.size) % r.size
    let dev := bitN r.base 0 && decide (ringNo < 16)
    let base := if dev then r.base.toNat / 2 * 2 else r.base.toNat
    let room := decide (r.size ≠ 0 ∧ ¬ r.stopped ∧ used + need < r.size)
    if !room || (!dev && !s.canMaster fn) then s
    else
      let pieces := ringPieces r.size (r.off + 8) (List.replicate (need - 8) 0) ++ ringPieces r.size r.off (List.replicate 8 0)
      let got := pieces.map fun e => s.rangeAccess ringNo (base + e.1) e.2.length
      if dev ∧ got.contains .held then s
      else match s.takeFrom qid k.words.length r.phase u with
        | none => s
        | some (t, s') =>
          let (fill, s') := if t.cutOff then ([(s'.draw.1, true)], s'.draw.2) else ([], s')
          let words := t.words ++ fill
          let bad := (List.range words.length).filter fun i => (words.getD i (0, false)).2
          let h := t.header.getD 0
          let h := if bad.isEmpty || h.getLsbD 62 then h else mqHeader r.phase false bad k.seq qid k.words.length
          let body := ringPieces r.size (r.off + 8) (wordBytes (words.map Prod.fst))
          let head := ringPieces r.size r.off (wordBytes [h])
          let off' := r.off + need
          let r' := { r with off := off' % r.size, phase := if r.size ≤ off' then !r.phase else r.phase }
          if dev then
            let l := body ++ head
            let good := l.takeWhile fun e => decide (s.rangeAccess ringNo (base + e.1) e.2.length = .ok ())
            let write (s : State) : State := good.foldl (fun s e => s.memWrite (base + e.1) e.2) s
            if good.length = l.length then (write (s'.setRing ringNo r')).msix fn vec
            else write ((if t.reset then s' else s).setRing ringNo { r with stopped := true })
          else (((s'.setRing ringNo r').emits ((body ++ head).map fun e => Emit.hostWrite fn (base + e.1) e.2 false false))).msix fn vec

/-- R231: the ring, the function and the vector of a delivered queue: event queues go to their partition's ring (vector 1 of the VF), trace
queues to the trace ring (vector 2 of the PF). -/
def State.deliverQueue (s : State) (qid : Nat) (u : List MqUpset) : State :=
  if qid < 16 then s.deliver qid qid (fnOfPart qid) 1 u
  else if qid < 21 then s.deliver qid 16 0 2 u
  else s

/-- R231: the delivery engine copies one packet. -/
def execDeliverPacket (qid : Fin 32) (s : State) (u : List MqUpset := []) : Out := .next (s.deliverQueue qid.val u)

/-- The clean packet, as words, whose last word a read of up to n words of queue qid brings; none where it brings none. -/
def State.readsOut (s : State) (qid n : Nat) (u : List MqUpset) : Option (List W64) :=
  if !s.consumerRuns qid then none
  else match (s.mqueue qid).pkts, s.takeFrom qid n false u with
    | k :: _, some (t, _) =>
      let k := k.strike u
      if !t.reset && k.words.length - (s.mqueue qid).reading.getD 0 ≤ t.words.length && k.bad.isEmpty then some (k.words.map Slot.data) else none
    | _, _ => none

/-- R273: a function writes a ring's consumer offset; a VF reaches its own partition's ring only. -/
def execRingConsumerWrite (fn ring : Fin 17) (v : W64) (s : State) (ide : Bool := true) : Out :=
  if s.takesRequest fn.val ide ∧ (fn.val = 0 ∨ ring.val + 1 = fn.val) then .next (s.setRing ring.val { s.ring ring.val with cons := fld v 19 0 }) else .next s

/-- R231: sizes that a ring may have: 0 disables delivery. -/
def ringSizeOk (n : Nat) : Bool := n == 0 || ((List.range 9).map fun i => 4096 * 2 ^ i).contains n

/-- R231, R236: a write of a ring's base or size restarts the ring; HOST may not while the partition is confidential (R413). -/
def execRingRestart (pr : Principal) (ring : Fin 17) (setBase : Bool) (v : W64) (s : State) : Out :=
  let allowed := (prHost pr && !(decide (ring.val < 16) && s.confidential ring.val)) || (decide (ring.val < 16) && prOwns pr ring.val)
  .next (s.dictWrite pr allowed false fun s =>
    let r := s.ring ring.val
    if !setBase && !ringSizeOk v.toNat then (rRANGE, s)
    else
      let base := if setBase then v else r.base
      let size := if setBase then r.size else v.toNat
      (rOK, s.setRing ring.val { base := base, size := size, off := 0, phase := true, cons := 0, stopped := false }))

end Sys2Proof.Machine
end

