-- ==== Sys2Proof/Machine/Resilience.lean ====
section
/-! DEFINITION. Tolls, core faults and chokes (R99, R100, R363 to R369). -/

namespace Sys2Proof.Machine

/-! ### Tolls (R99, R100) -/

/-- The 64 µs interval of the hub timer. -/
def State.interval64 (s : State) : Nat := s.now / 64000

/-- R99: the hub timer has reached a prompt of the busy core p. One that was on its way when the core was choked in this interval is dropped
and counted (R101). -/
def execTollPrompt (p : Fin 68) (s : State) : Out :=
  let c := s.core p
  if c.toll.promptAt < s.interval64 then
    if c.run.isSome && c.life == .opened then
      .next (s.setCore p { c with toll := { c.toll with prompted := true, promptAt := s.interval64 } })
    else if c.life == .choked && c.toll.tollAt == s.interval64 then
      .next ((s.setCore p { c with toll := { c.toll with promptAt := s.interval64 } }).dropAtPort p 1)
    else .next s
  else .next s

/-- R99: STATE of a toll. A WAIT on a gang semaphore or on the engines counts as running; STATE 1 covers every stall of the last issue, also
one on a busy register (R77), a SIGNAL fence (R186) or a busy PEAL slot (R184), while issue that waits for an instruction line (R169) keeps the
state of the instruction before it (DESIGN CHOICE, log entry 38: the table names queues and the scoreboard alone). -/
def tollState (q : Seq) : Nat :=
  if q.ending then 3
  else match q.wait with
    | some (.tag _) => 2
    | some (.peal _) => 2
    | _ => if q.stalled then 1 else 0

/-- R99: WAIT_FRAC in units of 1/65,536, at most 65,535. -/
def waitFrac (t : TollState) : Nat := if t.steps = 0 then 0 else min 65535 (t.waitSteps * 65536 / t.steps).floor.toNat

/-- R99: the toll word of core p. -/
def tollWord (p : Nat) (c : Core) : W64 :=
  w64 (waitFrac c.toll * 2 ^ 48 + c.seq.retired.toNat * 2 ^ 32 + c.epoch.toNat * 2 ^ 24 + tollState c.seq * 2 ^ 16 + p)

/-- R99: the issue stage of core p answers a prompt. An answer that was on its way when the core was choked is dropped and counted (R101,
R386). -/
def execToll (p : Fin 68) (s : State) : Out :=
  let c := s.core p
  if c.run.isSome && c.life == .opened && c.toll.prompted && !c.seq.halted then
    let s := s.post (24 + quadOf p) [tollWord p c] (unitToll p)
    .next (s.setCore p { c with toll := { c.toll with prompted := false, steps := 0, waitSteps := 0 } })
  else if c.life == .choked && c.toll.prompted then
    .next ((s.setCore p { c with toll := { c.toll with prompted := false } }).dropAtPort p 1)
  else .next s

/-- R100, R230: the hub toll checker reads the oldest toll of quadrant q. -/
def execTollCheck (q : Fin 4) (u : List MqUpset) (s : State) : Out := .next (s.checkToll q.val u)

/-- R100: two consecutive intervals of a busy core have closed without a toll. -/
def execMissedTolls (p : Fin 68) (s : State) : Out := .next (s.missTolls p s.interval64)

/-- R364: a handshake of a unit has been unanswered since a time for STALL_LIMIT. -/
def execStallWatchdog (p : Fin 68) (since : Nat) (s : State) : Out :=
  let c := s.core p
  if c.life == .opened && c.fault.isNone && decide (since + s.disp.stallLimit * 1000 ≤ s.now) then
    .next (s.setCore p { c with fault := some { cause := 5, time := s.now } })
  else .next s

/-! ### The choke (R365 to R368) -/

/-- The logical slot that a physical core fills. -/
def State.slotOf (s : State) (p : Nat) : Option Nat :=
  (s.disp.map.find? fun e => e.2.toNat == p).map Prod.fst

def State.mapAt (s : State) (n : Nat) : BitVec 8 := sget 0xFF s.disp.map n
def State.spareOf (s : State) (q : Nat) : BitVec 8 := sget 0xFF s.disp.spare q

/-- R239: the partition that owns a logical slot. -/
def State.partOfSlot (s : State) (n : Nat) : Option Nat := (List.range 16).find? fun k => (s.part k).cores.getLsbD n

/-- R17: core p leaves the map; the spare of its quadrant takes its slot, or the slot becomes vacant. -/
def State.unmap (s : State) (p : Nat) : State :=
  let q := quadOf p
  let sp := s.spareOf q
  match s.slotOf p with
  | some n =>
    if sp = 0xFF then { s with disp := { s.disp with map := sset 0xFF s.disp.map n 0xFF } }
    else { s with disp := { s.disp with map := sset 0xFF s.disp.map n sp, spare := sset 0xFF s.disp.spare q 0xFF } }
  | none => if sp.toNat = p then { s with disp := { s.disp with spare := sset 0xFF s.disp.spare q 0xFF } } else s

/-- R366: the three words of a choke packet; `time` is the hub timer at row 1 of R365. -/
def chokeWords (time p cause : Nat) (slot : Option Nat) (taker : BitVec 8) (epoch : BitVec 8) (cmd : Option Issued) : List W64 :=
  let w0 := 0x08 * 2 ^ 56 + cause * 2 ^ 48 + p * 2 ^ 40 + slot.getD 0xFF * 2 ^ 32 + epoch.toNat * 2 ^ 24 + taker.toNat * 2 ^ 16 + 0x0801
  let w2 := match cmd with
    | some i => i.ctx % 4096 * 2 ^ 40 + i.queue % 4 * 2 ^ 38 + i.idx % 65536
    | none => 0
  [w64 w0, w64 time, w64 w2]

/-- R365: rows 3 to 7: the port closes, the epoch advances, the packet and the record are posted, the command's kill
begins or its fault is raised (R367, R368), the map changes, and the event is posted. `time` is that of row 1; `drops` counts the requests of
the core and the deliveries to it that meet the closed port (R101); an answer to a prompt may still be on its way. A trace packet that the core
has written in part is abandoned (R223). -/
def State.choke (s : State) (p cause time drops : Nat) : State :=
  let c := s.core p
  let cmd := (s.cmdOf p).map Prod.fst
  let slot := s.slotOf p
  let epoch := c.epoch + 1
  let taker := match slot with
    | some _ => s.spareOf (quadOf p)
    | none => 0xFF
  let words := chokeWords time p cause slot taker epoch cmd
  let part := match cmd with
    | some i => some (s.ctx i.ctx).part.toNat
    | none => slot.bind s.partOfSlot
  let c' := { c.discard.release with life := .choked, cause := BitVec.ofNat 8 cause, chokes := BitVec.ofNat 32 (satAdd 32 c.chokes.toNat 1),
                                     epoch := epoch, fault := none, portDrops := BitVec.ofNat 64 (satAdd 64 c.portDrops.toNat drops)
                                     toll := { TollState.reset with prompted := c.toll.prompted, promptAt := c.toll.promptAt, tollAt := s.interval64 } }
  let s := (s.setCore p c').stopProducer (16 + quadOf p) (p % 17 + mqUnits)
  let s := (s.post qidChoke words).post qidFault words unitHub
  let s := match cmd with
    | some i =>
      if i.restart then (s.modCmd i.uid fun i => { i with choked := true }).killCmd i.uid else s.faultCmd i.uid stCORE_CHOKED
    | none => s
  let s := s.unmap p
  match part with
  | some n => if n < 16 then s.post n (words.take 2) else s
  | none => s

end Sys2Proof.Machine
end

