-- ==== Sys2Proof/Machine/Window.lean ====
section
/-! DEFINITION. The window into device memory (R274 to R278): the check of an access, what serves it, and the accesses that
a wipe holds. The pages that a context's tables map, which the window and the teardown both look up. -/

namespace Sys2Proof.Machine

/-! ### Pages that tables map (R209 to R211) -/

/-- The indices of a table of n entries at a physical address that hold a listed byte. -/
def State.tableHits (s : State) (base n : Nat) : List Nat :=
  (s.mem.bytes.filterMap fun c => if base ≤ c.1 ∧ c.1 < base + 8 * n then some ((c.1 - base) / 8) else none).dedup

/-- R216: a word of a table as a walk of partition n reads it: none in a poisoned word or a slab that the partition
does not own. -/
def State.walkEntry (s : State) (n pa : Nat) : Nat :=
  if s.slabLife (pa / 2 ^ 25) = .assigned ∧ (s.slab (pa / 2 ^ 25)).owner.toNat = n ∧ !s.poisoned pa 8 then leNat (s.memRead pa 8)
  else 0

/-- R213, R214, R216: the walk of a teardown reads a table, in what the partition owns of it, and meets the errors that stand there. -/
def State.meetTable (s : State) (n pa len : Nat) : State :=
  let own (a : Nat) : Bool := s.slabLife (a / 2 ^ 25) == .assigned && (s.slab (a / 2 ^ 25)).owner.toNat == n
  (s.mem.latent.filter fun h => rangesMeet (pa, len) (h.word * 64, 64) && own (h.word * 64)).foldl (fun s h => s.meetErr h false) s

/-- R213, R214, R216: the tables at a base, level by level, before the pages that they map are looked up: an error that is found in a word is
corrected, or poisons the word, before the walk uses it. After a thermal shutdown no word is read (R397). -/
def State.meetTables (s : State) (n base : Nat) : State :=
  if s.mem.latent.isEmpty || s.damper.shutdown then s
  else
    let s := s.meetTable n base (8 * 4096)
    let l2 := ((s.tableHits base 4096).map fun i => s.walkEntry n (base + 8 * i)).filter fun e => ptePointer e (2 ^ 18)
    let s := l2.foldl (fun s e => s.meetTable n (ptePA e) (8 * 32768)) s
    let l3 := l2.flatMap fun e => ((s.tableHits (ptePA e) 32768).map fun j => s.walkEntry n (ptePA e + 8 * j)).filter fun e => ptePointer e (2 ^ 12)
    l3.foldl (fun s e => s.meetTable n (ptePA e) (8 * 512)) s

/-- A page that tables map. -/
structure Page where
  va   : Nat
  pa   : Nat
  size : Nat
  priv : Bool
  deriving DecidableEq, Repr

/-- The pages that the tables at a base map, found by the table words that hold a nonzero byte. -/
def State.pages (s : State) (n base : Nat) : List Page :=
  (s.tableHits base 4096).flatMap fun i =>
    let e1 := s.walkEntry n (base + 8 * i)
    if !ptePointer e1 (2 ^ 18) then []
    else (s.tableHits (ptePA e1) 32768).flatMap fun j =>
      let e2 := s.walkEntry n (ptePA e1 + 8 * j)
      let va := i * 2 ^ 40 + j * 2 ^ 25
      if pteLeafOk e2 (2 ^ 25) then [{ va := va, pa := ptePA e2, size := 2 ^ 25, priv := ptePriv e2 }]
      else if !ptePointer e2 (2 ^ 12) then []
      else (s.tableHits (ptePA e2) 512).filterMap fun k =>
        let e3 := s.walkEntry n (ptePA e2 + 8 * k)
        if pteLeafOk e3 (2 ^ 16) then some { va := va + k * 2 ^ 16, pa := ptePA e3, size := 2 ^ 16, priv := ptePriv e3 } else none

/-- R249, R278: does the byte lie in the write set of an issued, uncommitted command? -/
def State.unsettled (s : State) (pa : Nat) : Bool :=
  s.disp.issued.any fun i =>
    let x := s.ctx i.ctx
    (s.pages x.part.toNat x.ptbase.toNat).any fun g =>
      decide (g.pa ≤ pa ∧ pa < g.pa + g.size) && i.entry.writes.any fun w => rangesMeet w (g.va + (pa - g.pa), 1)

/-! ### Accesses (R275, R276) -/

/-- What the check of R275 decides, row 1 aside. -/
inductive WinCheck where
  | served | refused | denied | wait
  deriving DecidableEq, Repr

/-- R412: is the slab's partition being reset for a change of its confidentiality, which takes effect with the reset's end? -/
def State.confTurns (s : State) (n : Nat) : Bool := s.slabLife n == .assigned && (s.part (s.slab n).owner.toNat).confNext.isSome

/-- R216: does a wipe that has not ended cover a byte of the access? The reset for a change of confidentiality holds every access to the slabs of
its partition until the new value is in force, so that none carries data across it (R412). -/
def State.wipeMeets (s : State) (a : HeldAccess) : Bool :=
  (s.slab (a.pa / 2 ^ 25)).wipe || s.confTurns (a.pa / 2 ^ 25) || s.mem.wipes.any fun j => rangesMeet (j.base, j.len) (a.pa, a.len)

/-- R275, and the wait of R219 and R276 before WBIAS decides; after it rows 3 to 6 are checked. After a thermal shutdown every access waits
(R397). -/
def State.windowCheck (s : State) (a : HeldAccess) : WinCheck :=
  let n := a.pa / 2 ^ 25
  let e := s.slab n
  let assigned := s.slabLife n == .assigned
  if a.shut then .refused
  else if !a.passed && assigned && s.confidential e.owner.toNat then .denied
  else if !assigned || (a.fn != 0 && e.owner.toNat + 1 != a.fn) then .refused
  else if s.wipeMeets a || s.damper.shutdown then .wait
  else if e.wbias == 2 || (e.wbias == 1 && a.write.isNone) then .served
  else .refused

/-- R275: a refused access completes normally, reads with all-ones, and is counted. -/
def State.windowRefused (s : State) (a : HeldAccess) : State :=
  let f := s.fn a.fn
  let s := s.setFn a.fn { f with winRefused := satAdd 64 f.winRefused 1 }
  match a.write with
  | none => s.emit (.completion a.fn (List.replicate a.len 0xFF) false)
  | some _ => s

/-- R233: the fault queue's WINDOW_DENIED event. -/
def State.windowDenied (s : State) (a : HeldAccess) : State :=
  let sub := if a.fn = 0 then 0x11 else a.fn
  s.statusEvent qidFault 4 stWINDOW_DENIED (some (s.slab (a.pa / 2 ^ 25)).owner.toNat) none
    (sub * 2 ^ 52 + b2n a.write.isSome * 2 ^ 48 + a.pa % 2 ^ 41) unitWindow

/-- R278: the bytes that a window read returns; those of an uncommitted write set are free values. -/
def State.windowBytes (s : State) (pa len : Nat) : List Byte :=
  (List.range len).map fun i =>
    if s.unsettled (pa + i) then (Config.freeValue (s.hub.free + i)).setWidth 8 else sget 0 s.mem.bytes (pa + i)

/-- R213, R276: a served access. A read of a poisoned word completes with EP; the trace lists no data for it. -/
def State.windowServe (s : State) (a : HeldAccess) : State :=
  match a.write with
  | some data => (s.memErrs (mergeWords a.pa data.length) a.errs).memWrite a.pa data
  | none =>
    let s := s.memErrs [(a.pa, a.len)] a.errs
    if s.poisoned a.pa a.len then s.emit (.completion a.fn [] true)
    else
      let b := s.windowBytes a.pa a.len
      ({ s with hub := { s.hub with free := s.hub.free + a.len } }).emit (.completion a.fn b false)

/-- An access is decided, or waits (none). -/
def State.windowStep (s : State) (a : HeldAccess) : Option State :=
  match s.windowCheck a with
  | .served => some (s.windowServe a)
  | .refused => some (s.windowRefused a)
  | .denied => some ((s.windowDenied a).windowRefused a)
  | .wait => none

/-- Held accesses are taken up in their order; one that still waits holds the later ones of its function. -/
def State.serveEach (s : State) (kept : List HeldAccess) : List HeldAccess → State
  | [] => { s with mem := { s.mem with held := kept } }
  | a :: r =>
    if kept.any fun k => k.fn == a.fn then State.serveEach s (kept ++ [a]) r
    else match s.windowStep a with
      | none => State.serveEach s (kept ++ [{ a with passed := true }]) r
      | some t => State.serveEach t kept r

def State.serveHeld (s : State) : State := s.serveEach [] s.mem.held

/-- R274 to R277: a window access of function fn at offset off. Row 1 is decided as it arrives; behind a held access of its function it
is held, whatever decides it (R282). -/
def State.windowAccess (s : State) (fn off len : Nat) (write : Option (List Byte)) (errs : List EccHit) (ide : Bool := true) : State :=
  if !s.takesRequest fn ide then (if s.host.linkUp then s.emit (.unsupported fn) else s)
  else
    let f := s.fn fn
    let n := f.winBase.toNat + off / 2 ^ 25
    let a : HeldAccess := { fn := fn, pa := n * 2 ^ 25 + off % 2 ^ 25, len := len, write := write,
                            shut := !f.wen || decide (65535 < n), passed := false, errs := errs }
    let hold (b : HeldAccess) : State := { s with mem := { s.mem with held := s.mem.held ++ [b] } }
    if s.mem.held.any fun k => k.fn == fn then hold a
    else match s.windowStep a with
      | some t => t
      | none => hold { a with passed := true }

/-- WINDOW_READ. -/
def execWindowRead (fn : Fin 17) (off : BitVec 28) (len : Nat) (s : State) (m : List EccHit := []) (ide : Bool := true) : Out :=
  .next (s.windowAccess fn.val off.toNat len none m ide)

/-- WINDOW_WRITE. -/
def execWindowWrite (fn : Fin 17) (off : BitVec 28) (data : List Byte) (s : State) (m : List EccHit := []) (ide : Bool := true) : Out :=
  .next (s.windowAccess fn.val off.toNat data.length (some data) m ide)

end Sys2Proof.Machine
end

