-- ==== Sys2Proof/Machine/Slabs.lean ====
section
/-! DEFINITION. The memory family: SLAB_OP in its four operations (R205 to R207), the wipe engines (R216, R217), the patrol
scrub and the retire list (R213 to R215), and the pattern test of a stack (R473). -/

namespace Sys2Proof.Machine

/-! ### SLAB_OP (R205, R206) -/

def slabFirst (v : W64) : Nat := fld v 15 0
def slabCount (v : W64) : Nat := fld v 47 32 + 1
def slabRangeOf (v : W64) : List Nat := (List.range (slabCount v)).map (slabFirst v + ·)

/-- R218: slabs held by a partition. -/
def State.slabsHeld (s : State) (n : Nat) : Nat :=
  (s.mem.slabs.filter fun e => s.slabLife e.1 == .assigned && e.2.owner.toNat == n).length

/-- R200, R473: does the placement of the slab include stack st? -/
def State.slabUses (s : State) (n st : Nat) : Bool :=
  match s.slabGroup n with
  | some (b, g) => decide (st / 8 = slabQuad n ∧ b ≤ st % 8 ∧ st % 8 < b + g)
  | none => false

/-- SLAB_OP_STATE: [15:8] reason, [1:0] 1 BUSY, 2 DONE, 3 REJECTED. -/
def opBusy : BitVec 16 := 1
def opDone : BitVec 16 := 2
def opRejected (reason : Nat) : BitVec 16 := BitVec.ofNat 16 (reason * 256 + 3)

def State.setOpState (s : State) (v : BitVec 16) : State := { s with mem := { s.mem with opState := v } }

/-- R215: a slab that has become RETIRED is recorded in the retire list, in flash too. -/
def State.noteRetired (s : State) (n : Nat) : State :=
  if (s.slab n).life = .retired then
    { s with mem := { s.mem with retiredSlabs := setIns s.mem.retiredSlabs n }
             fw := { s.fw with flashRetired := setIns s.fw.flashRetired n } }
  else s

/-- R10, R205, R206: one SLAB_OP write, its reserved bits ignored. `reason` gives the reason with which a slab fails, 0 where it meets
the condition; a slab number above 65,535 fails with RANGE, and the first failing slab decides. A reserved WBIAS concerns the whole request and
comes before every slab's reason, and a slab that is not FREE fails before the quota does (DESIGN CHOICE, log entry 60: R206 gives no
precedence there). `effect` is the new entry. An operation without a wipe is done at once. -/
def State.slabOp (s : State) (pr : Principal) (v : W64) (reserved : Bool) (reason : State → Nat → Nat)
    (effect : SlabEntry → SlabEntry) (wipes : Bool) : State :=
  s.dictWrite pr (prHost pr) false fun s =>
    if s.mem.opState = opBusy then (rBUSY, s)
    else
      let slabs := slabRangeOf v
      let fails (n : Nat) : Nat := if 65536 ≤ n then 4 else reason s n
      let why := if reserved then 5 else match slabs.find? fun n => fails n != 0 with | some n => fails n | none => 0
      if why ≠ 0 then (rREFUSED, s.setOpState (opRejected why))
      else
        let s := slabs.foldl (fun s n => (s.setSlab n (effect (s.slab n))).noteRetired n) s
        if wipes then
          let jobs : List WipeJob := slabs.map fun n => { base := n * 2 ^ 25, len := 2 ^ 25, why := .release, running := false }
          (rOK, { s with mem := { s.mem with wipes := s.mem.wipes ++ jobs, opState := opBusy, opSlabs := slabs } })
        else (rOK, s.setOpState opDone)

/-- R206: ASSIGN. WBIAS 3 is a reserved value; the quota is checked for the whole range. -/
def execAssign (pr : Principal) (v : W64) (s : State) : Out :=
  let n := fld v 59 56
  .next (s.slabOp pr v
    (fld v 55 54 == 3)
    (fun s k => if s.slabLife k ≠ .free ∨ s.bist.hbmRunning.any (s.slabUses k) then 1
      else if sget 0 s.mem.quota n < s.slabsHeld n + slabCount v then 3 else 0)
    (fun e => { e with life := .assigned, owner := BitVec.ofNat 4 n, wbias := BitVec.ofNat 2 (fld v 55 54), chx := bitN v 53 })
    false)

/-- R206, R207: RELEASE, row 2: WIPE 1 and STATE FREE, or RETIRED where a retirement is pending. -/
def execRelease (pr : Principal) (v : W64) (s : State) : Out :=
  .next (s.slabOp pr v false (fun s k => if s.slabLife k ≠ .assigned then 2 else 0)
    (fun e => { e with wipe := true, life := if e.rp then .retired else .free }) true)

/-- R206: SET_WBIAS. -/
def execSetWbias (pr : Principal) (v : W64) (s : State) : Out :=
  .next (s.slabOp pr v (fld v 55 54 == 3) (fun s k => if s.slabLife k ≠ .assigned then 2 else 0)
    (fun e => { e with wbias := BitVec.ofNat 2 (fld v 55 54) }) false)

/-- R206: SET_CHX. -/
def execSetChx (pr : Principal) (v : W64) (s : State) : Out :=
  .next (s.slabOp pr v false
    (fun s k => if s.slabLife k ≠ .free then 1 else if (s.slab k).wipe then 6 else 0)
    (fun e => { e with chx := bitN v 53 }) false)

/-! ### Wipes (R216, R217) -/

def WipeJob.quad (j : WipeJob) : Nat := j.base / 2 ^ 39 % 4

/-- R217: the wipe engine of quadrant q begins its oldest pending wipe; it wipes one at a time, and none after a thermal shutdown (R397). -/
def execSlabWipeStart (q : Fin 4) (s : State) : Out :=
  if s.damper.shutdown || s.mem.wipes.any (fun j => j.running && j.quad == q.val) then .next s
  else .next { s with mem := { s.mem with
    wipes := modFirst (fun j => j.quad == q.val) (fun j => { j with running := true }) s.mem.wipes } }

/-- Is the job the wipe of a slab, rather than of a context's PRIV page? -/
def WipeJob.slabWide (j : WipeJob) : Bool := j.len == 2 ^ 25 && match j.why with
  | .teardown .. => false
  | _ => true

/-- Does a wipe of the slab remain, other than those already taken from the list? -/
def wipeLeft (l : List WipeJob) (slab : Nat) : Bool := l.any fun j => j.slabWide && j.base / 2 ^ 25 == slab

/-- The running wipe of a quadrant ends: zeros are written with valid ECC, and WIPE falls with the slab's last wipe. -/
def State.endWipe (s : State) (j : WipeJob) : State :=
  let rest := delFirst (fun x => x == j) s.mem.wipes
  let slab := j.base / 2 ^ 25
  let s := { s with mem := { s.mem with
    wipes := rest
    bytes := bzero s.mem.bytes j.base j.len
    poison := setDel s.mem.poison (j.base / 64) ((j.base + j.len) / 64)
    latent := s.mem.latent.filter fun h => !rangesMeet (h.word * 64, 64) (j.base, j.len) } }
  let s := if j.slabWide && !wipeLeft rest slab then s.setSlab slab { s.slab slab with wipe := false } else s
  match j.why with
  | .release =>
    let left := s.mem.opSlabs.filter fun n => n != slab
    let s := { s with mem := { s.mem with opSlabs := left } }
    if left.isEmpty && s.mem.opState = opBusy then s.setOpState opDone else s
  | _ => s

/-- R415: are debug instructions allowed? -/
def State.debugOk (s : State) : Bool :=
  match s.sec.lc with
  | .scrapped => false
  | .operational => s.sec.debugEn && !s.anyConfidential
  | _ => true

/-- R474: the board-test instructions are available in every state but SCRAPPED, EXTEST and its like while DEVRST_N is asserted. -/
def State.tapOk (s : State) : Bool := s.sec.lc != .scrapped
def State.boardOk (s : State) : Bool := s.tapOk && !s.hub.devrstN

/-- R415, R474: is a test instruction available? -/
def State.tapAvailable (s : State) : TapInstr → Bool
  | .bypass => true
  | .idcode => s.tapOk
  | .sample => s.tapOk
  | .hbm1500 _ => s.debugOk
  | .debug => s.debugOk
  | _ => s.boardOk

/-- R415, R474, R475: the instruction that was shifted in acts as itself while it is available, and as BYPASS while it is not. -/
def State.retap (s : State) : State :=
  { s with hub := { s.hub with tap := if s.tapAvailable s.hub.tapLoaded then s.hub.tapLoaded else .bypass } }

/-- R223, R234: when the first partition becomes confidential, the trace points stop, a packet that one has written in part is abandoned, and the
trace queues are flushed. -/
def State.flushTraces (s : State) : State :=
  (List.range 5).foldl (fun s i =>
    let m := s.mqueue (16 + i)
    let m := (m.writing.toList.map Writing.src ++ m.waiting.map Ask.src ++ m.cut).foldl (fun m src => m.abandon s.now (16 + i) src) m
    (s.setQueue (16 + i) m).flushQueue (16 + i)) s

/-- R412: a changed PART_CONF takes effect when its reset ends, and then ends any debug session (R415); window accesses that waited for that are
checked against the new value. R266: PART_RESET_STATE becomes 2 when the last wipe of the reset, and of the teardowns it began, ends; R384 counts the partition as reset. -/
def State.finishPartReset (s : State) (n : Nat) : State :=
  let p := s.part n
  let wiping := s.mem.wipes.any fun j => j.why == .reset n
  let open_ := s.disp.ctxs.any fun e => e.2.part.toNat == n && e.2.life == .teardown
  if p.resetState = 1 ∧ !wiping ∧ !open_ then
    let v := p.confNext.getD p.conf
    let s := if v && !p.conf then { s with sec := { s.sec with debugEn := false } } else s
    let s := if v && !s.anyConfidential then s.flushTraces else s
    let held := if v == p.conf then s.mem.held
      else s.mem.held.map fun a => if (s.slab (a.pa / 2 ^ 25)).owner.toNat = n then { a with passed := false } else a
    { s.setPart n { p with resetState := 2, conf := v, confNext := none } with mem := { s.mem with held := held }, car := { s.car with unreset := s.car.unreset &&& ~~~((1 : BitVec 16) <<< n) } }.retap
  else s

/-- R207 row 6, R276: the running wipe of quadrant q ends; accesses of the window that it held are taken up again. -/
def execSlabWipeEnd (q : Fin 4) (s : State) : Out :=
  if s.damper.shutdown then .next s
  else match s.mem.wipes.find? fun j => j.running && j.quad == q.val with
  | none => .next s
  | some j =>
    let s := s.endWipe j
    .next (match j.why with
      | .reset n => (s.finishPartReset n).serveHeld
      | _ => s.serveHeld)

/-! ### The patrol scrub (R213) -/

/-- The next word that the scrub of a quadrant visits from word w on: RETIRED slabs are skipped (R213). -/
def State.scrubNext (s : State) (q : Nat) (w : Nat) : Nat :=
  let words := 2 ^ 39 / 64
  let slab := q * 16384 + (w % words) * 64 / 2 ^ 25
  if s.slabLife slab = .retired then ((w % words) * 64 / 2 ^ 25 + 1) * 2 ^ 25 / 64 % words else w % words

/-- R213: the error that the code finds in a word: the one that stands there, else what nature gives with the read. -/
def Mem.standing (m : Mem) (word : Nat) (e : EccFinding) : Option EccHit :=
  match m.latent.find? fun h => h.word == word with
  | some h => some h
  | none => match e with
    | .clean => none
    | .corrected => some { word := word, bad := false }
    | .uncorrectable => some { word := word, bad := true }

/-- R213: the patrol scrub of quadrant q reads its next word, in which the code finds what stands there or what `e` says. A word already
poisoned stays as it is. It runs once the memory has been wiped after reset, and until a thermal shutdown (R397). -/
def execPatrolScrub (q : Fin 4) (e : EccFinding) (s : State) : Out :=
  if !s.alive || !s.hub.trained || s.damper.shutdown then .next s
  else
  let pos := sget 0 s.mem.scrubPos q.val
  let w := s.scrubNext q.val pos
  let pa := q.val * 2 ^ 39 + w * 64
  let next := (w + 1) % (2 ^ 39 / 64)
  let s := { s with mem := { s.mem with scrubPos := sset 0 s.mem.scrubPos q.val next } }
  if s.slabLife (pa / 2 ^ 25) = .retired then .next s
  else match s.mem.standing (pa / 64) e with
    | none => .next s
    | some h => .next (s.meetErr h true)

end Sys2Proof.Machine
end

