-- ==== Sys2Proof/Machine/Dispatcher.lean ====
section
/-! DEFINITION. What the dispatch unit does (chapter 11): command entries, hazards, placement, completion records,
teardown and partition reset, as operations that the commands of Commands.lean and Contexts.lean share. -/

namespace Sys2Proof.Machine

/-! ### Command entries (R242, R243, R246 to R248) -/

/-- The qword at an offset of an entry. -/
def qwordAt (b : List Byte) (o : Nat) : W64 := w64 (natAt b o 8)

/-- The ranges in use among four 16-byte fields at an offset: base [51:0], length [52:0]; length 0 is unused. -/
def entryRanges (b : List Byte) (o : Nat) : List (Nat × Nat) :=
  ((List.range 4).map fun i => (fld (qwordAt b (o + 16 * i)) 63 0, fld (qwordAt b (o + 16 * i + 8)) 52 0)).filter
    fun r => decide (r.2 ≠ 0)

/-- R242, R243: the entry that 256 bytes spell. The bits beside the listed fields of the WAIT, REL and IRQ words are treated as reserved, also
where EN is 0 (DESIGN CHOICE, log entry 70). -/
def decodeEntry (b : List Byte) : CmdEntry :=
  let h := qwordAt b 0
  let waitAt (o : Nat) : List (Nat × Nat) :=
    if bitN (qwordAt b o) 63 then [(fld (qwordAt b o) 11 0, (qwordAt b (o + 8)).toNat)] else []
  let relAt (o : Nat) : List (Nat × Nat) :=
    if bitN (qwordAt b o) 63 then [(fld (qwordAt b o) 43 32, fld (qwordAt b o) 31 0)] else []
  let irq := qwordAt b 0xE0
  let resRange (o : Nat) : Bool := (List.range 4).any fun i => fld (qwordAt b (o + 16 * i + 8)) 63 53 != 0
  { opc := BitVec.ofNat 8 (fld h 55 48)
    demote := bitN h 47
    cplen := bitN h 46
    cplloc := bitN h 45
    qmask := BitVec.ofNat 4 (fld h 43 40)
    gang := fld h 38 32
    prog := qwordAt b 0x08
    args := qwordAt b 0x10
    seed := qwordAt b 0x18
    waits := waitAt 0x20 ++ waitAt 0x30
    reads := entryRanges b 0x40
    writes := entryRanges b 0x80
    cpladdr := qwordAt b 0xC0
    cpltag := qwordAt b 0xC8
    rels := relAt 0xD0 ++ relAt 0xD8
    irq := if bitN irq 63 then some (fld irq 10 0) else none
    irqWord := irq
    reserved := fld h 62 56 != 0 || bitN h 44 || bitN h 39 || fld h 31 0 != 0 || fld (qwordAt b 0x20) 62 12 != 0 ||
      fld (qwordAt b 0x30) 62 12 != 0 || resRange 0x40 || resRange 0x80 || fld (qwordAt b 0xD0) 62 44 != 0 ||
      fld (qwordAt b 0xD8) 62 44 != 0 || fld irq 62 11 != 0 || !zeroAt b 0xE8 24
    divert := false }

/-- R243: PHASE of an entry. -/
def entryPhase (b : List Byte) : Bool := bitN (qwordAt b 0) 63

/-- Mapped logical cores of a partition in the quadrants that QMASK allows: (slot, physical core), slots rising. -/
def State.mappedCores (s : State) (n : Nat) (qmask : BitVec 4) : List (Nat × Nat) :=
  (List.range 64).filterMap fun k =>
    if (s.part n).cores.getLsbD k && (qmask == 0 || qmask.getLsbD (k / 16)) && s.mapAt k != 0xFF then some (k, (s.mapAt k).toNat)
    else none

/-- R246, R419, R463: is a consumed entry of context x malformed? -/
def State.badEntry (s : State) (x : Ctx) (e : CmdEntry) : Bool :=
  let run := e.opc == 1
  let wide (a : W64) : Bool := decide (2 ^ 52 ≤ a.toNat)
  s.fw.run == some .recovery || s.fw.run == some .loader || (e.opc != 1 && e.opc != 2) || e.reserved ||
    (run && (e.gang == 0 || decide (64 < e.gang) || decide ((s.mappedCores x.part.toNat e.qmask).length < e.gang))) ||
    (run && (e.prog.toNat % 8 != 0 || wide e.prog || wide e.args)) ||
    (e.reads ++ e.writes).any (fun r => decide (2 ^ 52 < r.1 + r.2)) ||
    (e.cplen && (e.cpladdr.toNat % 32 != 0 || (e.cplloc && wide e.cpladdr))) ||
    (e.demote && x.bestEffort) ||
    (e.writes.any fun w => x.seals.any fun r => rangesMeet w r) ||
    (run && s.confidential x.part.toNat && !(x.seals.any fun r => decide (r.1 ≤ e.prog.toNat ∧ e.prog.toNat < r.1 + r.2)))

/-- R248: restartable: no READ range meets a WRITE range. -/
def CmdEntry.restartable (e : CmdEntry) : Bool := !(e.writes.any fun w => e.reads.any fun r => rangesMeet w r)

/-- R249: a hazard of a fetched command with an earlier issued one. -/
def hazard (c e : CmdEntry) : Bool :=
  ((c.reads ++ c.writes).any fun x => e.writes.any fun y => rangesMeet x y) ||
    (c.writes.any fun x => e.reads.any fun y => rangesMeet x y)

/-! ### Queues -/

def State.modQueue (s : State) (c q : Nat) (f : CmdQueue → CmdQueue) : State :=
  let x := s.ctx c
  s.setCtx c (x.setQueue q (f (x.queue q)))

/-- R250: the head of a queue may issue, cores aside. -/
def State.issuable (s : State) (c q : Nat) : Bool :=
  let x := s.ctx c
  match (x.queue q).fetched with
  | none => false
  | some f =>
    x.life == .active && x.pending.isNone && s.commandsRun && decide (x.skipTil ≤ s.now) &&
      !(s.disp.issued.any fun i => i.ctx == c && hazard f.entry i.entry) &&
      f.entry.waits.all (fun w => decide (w.2 ≤ (sget 0 (s.part x.part.toNat).sems w.1).toNat)) &&
      decide ((s.disp.issued.filter fun i => i.ctx == c && i.queue == q).length < 8)

/-! ### Placement (R251, R256) -/

/-- R256: the class of a command: latency-critical? -/
def latencyCritical (x : Ctx) (e : CmdEntry) : Bool := !x.bestEffort && !e.demote

/-- Free cores of a partition in the allowed quadrants, by rising logical number. -/
def State.freeCores (s : State) (n : Nat) (qmask : BitVec 4) : List Nat :=
  ((s.mappedCores n qmask).map Prod.snd).filter fun p => (s.core p).run.isNone && (s.core p).life == .opened

/-- R256: r minus the partition cores that the context's own commands occupy. -/
def State.outstanding (s : State) (c : Nat) : Nat :=
  let used := ((s.mappedCores (s.ctx c).part.toNat 0).filter fun m => match s.cmdOf m.2 with
    | some (i, _) => i.ctx == c
    | none => false).length
  (s.ctx c).reserve - used

/-- Does a context have an issuable RUN command at a head? -/
def State.hasIssuable (s : State) (c : Nat) : Bool := (List.range 4).any fun q => s.issuable c q

/-- R256: the sum of reservations that a command of context c must leave free. -/
def State.reserved (s : State) (c : Nat) (e : CmdEntry) (restart : Bool) : Nat :=
  let x := s.ctx c
  let lc := latencyCritical x e
  if !lc && restart then 0
  else ((s.disp.ctxs.filter fun k =>
      k.2.life == .active && !k.2.bestEffort && k.2.part == x.part && (if lc then k.1 != c && s.hasIssuable k.1 else true)).map
    fun k => s.outstanding k.1).sum

/-- R251, R256: the gang that a command would be placed on now. -/
def State.placement (s : State) (c : Nat) (e : CmdEntry) (restart : Bool) : Option (List Nat) :=
  let n := (s.ctx c).part.toNat
  let free := s.freeCores n e.qmask
  if free.length < e.gang then none
  else if (s.freeCores n 0).length - e.gang < s.reserved c e restart then none
  else some (free.take e.gang)

/-- Contexts and queues whose head is an issuable RUN of the given class in partition n. -/
def State.waitingHeads (s : State) (n : Nat) (lc : Bool) : List (Nat × Nat × Fetched) :=
  s.disp.ctxs.flatMap fun k =>
    if k.2.part.toNat = n then
      (List.range 4).filterMap fun q =>
        match (k.2.queue q).fetched with
        | some f => if f.entry.opc == 1 && s.issuable k.1 q && latencyCritical k.2 f.entry == lc then some (k.1, q, f) else none
        | none => none
    else []

/-- R256: would a latency-critical head of the partition, or a latency-critical command that waits for its re-run, be
placed now? -/
def State.lcWins (s : State) (n : Nat) : Bool :=
  ((s.waitingHeads n true).any fun h => (s.placement h.1 h.2.2.entry h.2.2.restart).isSome) ||
    s.disp.issued.any fun i =>
      i.stage == .waitRerun && (s.ctx i.ctx).part.toNat == n && latencyCritical (s.ctx i.ctx) i.entry &&
        (s.placement i.ctx i.entry i.restart).isSome

/-- R367: a choked command of the partition and class waits for its re-run. -/
def State.rerunWaits (s : State) (n : Nat) (lc : Bool) : Bool :=
  s.disp.issued.any fun i =>
    i.stage == .waitRerun && i.choked && (s.ctx i.ctx).part.toNat == n && latencyCritical (s.ctx i.ctx) i.entry == lc

/-- R257: a latency-critical command kills restartable best-effort commands that hold cores it waits for: while it lacks cores that it may
use, or cores that reservations keep free, and the newest command first (log entry 16). Kills that have begun count. -/
def State.killFor (s : State) (c : Nat) (e : CmdEntry) (restart : Bool) : State :=
  let n := (s.ctx c).part.toNat
  let allowed := (s.mappedCores n e.qmask).map Prod.snd
  let every := (s.mappedCores n 0).map Prod.snd
  let held (l : List Nat) (i : Issued) : Nat := (i.gang.filter fun p => l.contains p && (s.core p).runs i.uid).length
  let coming := s.disp.issued.filter fun i => i.stage == .killing
  let lack (l : List Nat) (want free : Nat) : Nat := want - (free + (coming.map (held l)).sum)
  let victims := s.disp.issued.filter fun i =>
    i.stage == .running && i.restart && (s.ctx i.ctx).part.toNat == n && !latencyCritical (s.ctx i.ctx) i.entry
  (victims.reverse.foldl (fun (acc : State × Nat × Nat) i =>
    let (t, a, b) := acc
    if (0 < a ∧ 0 < held allowed i) ∨ (0 < b ∧ 0 < held every i) then (t.killCmd i.uid, a - held allowed i, b - held every i) else acc)
    (s, lack allowed e.gang (s.freeCores n e.qmask).length, lack every (e.gang + s.reserved c e restart) (s.freeCores n 0).length)).1

/-- R256, R262: the heads of a partition and class that ask for cores and would be placed now, as inputs of the arbiter of command issue:
input 4 × context + queue, population 1. A head whose cores are not free asks for no grant (DESIGN CHOICE, log entry 62). -/
def State.runAsks (s : State) (n : Nat) (lc : Bool) : List (Nat × Nat) :=
  ((s.waitingHeads n lc).filter fun h => (s.placement h.1 h.2.2.entry h.2.2.restart).isSome).map fun h => (4 * h.1 + h.2.1, 1)

def State.runArb (s : State) (n : Nat) (lc : Bool) : Arbiter := sget Arbiter.reset s.disp.arbs (2 * n + b2n lc)

/-- R262: is the head of the queue the one that the arbiter grants now? -/
def State.runGrant (s : State) (c q : Nat) (lc : Bool) : Bool :=
  let n := (s.ctx c).part.toNat
  (s.runArb n lc).pick (s.runAsks n lc) == some (4 * c + q)

/-- R262: the arbiter after that grant. -/
def State.takeGrant (s : State) (c q : Nat) (lc : Bool) : State :=
  let n := (s.ctx c).part.toNat
  let asks := s.runAsks n lc
  let a := ((s.runArb n lc).grant asks (4 * c + q)).drop (asks.filter fun x => x.1 != 4 * c + q)
  { s with disp := { s.disp with arbs := sset Arbiter.reset s.disp.arbs (2 * n + b2n lc) a } }

/-- R262: inputs that ask no longer have no credit. -/
def State.dropIdle (s : State) : State :=
  { s with disp := { s.disp with arbs := s.disp.arbs.map fun e => (e.1, e.2.drop (s.runAsks (e.1 / 2) (e.1 % 2 == 1))) } }

/-- R259: the length of the slice that opens for a context: none where the debt eats a whole slice. -/
def Ctx.openSlice (x : Ctx) : Ctx × Option Nat :=
  if x.sliceNs ≤ x.debt then ({ x with debt := x.debt - x.sliceNs }, none)
  else ({ x with debt := 0 }, some (x.sliceNs - x.debt))

/-! ### Completion records (R252, R253, R287) -/

/-- R253: the 32 bytes of a record. -/
def recordBytes (tag : W64) (flags : BitVec 6) (status : BitVec 16) (secondary : Bool) (reruns cseq c q idx : Nat) : List Byte :=
  leBytes 8 tag.toNat ++
    leBytes 8 (flags.toNat * 2 ^ 52 + status.toNat * 2 ^ 32 + b2n secondary * 2 ^ 8 + min reruns 255) ++
    leBytes 8 (cseq % 2 ^ 64) ++ leBytes 8 (2 ^ 63 + c % 4096 * 2 ^ 32 + q % 4 * 2 ^ 16 + idx % 65536)

/-- R287: can the partition's backlog take an entry? -/
def State.backlogOk (s : State) (n : Nat) : Bool :=
  let p := s.part n
  p.backlogSlab != 0xFFFF && decide (p.backlogCount < 524288) && s.access n (p.backlogSlab.toNat * 2 ^ 25) == .ok ()

/-- Can the record of an entry be posted now (R252 row 5, R286, R287)? -/
def State.recordReady (s : State) (c : Nat) (e : CmdEntry) : Got Unit :=
  let n := (s.ctx c).part.toNat
  if !e.cplen then .ok ()
  else if e.cplloc then
    (match s.translate c e.cpladdr.toNat true with
      | .ok _ => .ok ()
      | .fault st => .fault st
      | .held => .held)
  else if e.divert || s.quarantined (fnOfPart n) then (if s.backlogOk n then .ok () else .held)
  else if s.canMaster (fnOfPart n) then .ok () else .held

/-- R213, R214: the walk for a record in device memory meets the errors that stand in the table words. -/
def State.meetRecord (s : State) (c : Nat) (e : CmdEntry) : State :=
  if e.cplen && e.cplloc then s.meetWrites [(c, e.cpladdr.toNat, 32)] else s

/-- Post a record to where its entry sends it: device memory, the backlog where the function is quarantined or the entry's host is lost
(R288), or host memory. -/
def State.putRecord (s : State) (c : Nat) (e : CmdEntry) (bytes : List Byte) : State :=
  let n := (s.ctx c).part.toNat
  if !e.cplen then s
  else if e.cplloc then
    (match s.vaWrite c e.cpladdr.toNat bytes with
      | .ok t => t
      | _ => s)
  else if e.divert || s.quarantined (fnOfPart n) then
    if s.backlogOk n then
      let p := s.part n
      let ent := bytes ++ leBytes 8 e.cpladdr.toNat ++ leBytes 8 e.irqWord.toNat ++ List.replicate 16 0
      (s.memWrite (p.backlogSlab.toNat * 2 ^ 25 + 64 * p.backlogCount) ent).setPart n { p with backlogCount := p.backlogCount + 1 }
    else s
  else if s.canMaster (fnOfPart n) then s.emit (.hostWrite (fnOfPart n) e.cpladdr.toNat bytes false false)
  else s

/-- R260: a record is posted, behind those of its context that are still owed; one that cannot be posted now is owed. -/
def State.postRecord (s : State) (c : Nat) (e : CmdEntry) (bytes : List Byte) : State :=
  let s := s.meetRecord c e
  if (s.ctx c).owed.isEmpty && s.recordReady c e != .held then s.putRecord c e bytes
  else s.setCtx c { s.ctx c with owed := (s.ctx c).owed ++ [{ entry := e, bytes := bytes }] }

/-- R260: the records that a context owes are posted, oldest first, as far as they can be. -/
def State.payRecords (s : State) (c : Nat) : List OwedRecord → State
  | [] => s.setCtx c { s.ctx c with owed := [] }
  | r :: l =>
    let s := s.meetRecord c r.entry
    if s.recordReady c r.entry == .held then s.setCtx c { s.ctx c with owed := r :: l }
    else State.payRecords (s.putRecord c r.entry r.bytes) c l

def State.payOwed (s : State) (c : Nat) : State := if (s.ctx c).owed.isEmpty then s else s.payRecords c (s.ctx c).owed

/-- The phase and index behind entry idx of a queue whose head and expected phase are known (R245). -/
def CmdQueue.after (k : CmdQueue) (size idx : Nat) : Nat × Bool :=
  let ph := if idx < k.head then k.phase else !k.phase
  if idx + 1 = size then (0, !ph) else (idx + 1, ph)

/-- R253: the record of an entry takes its CSEQ value and is posted; the queue resumes behind it (R241). -/
def State.completeEntry (s : State) (c q idx : Nat) (e : CmdEntry) (status : BitVec 16) (flags : BitVec 6) (secondary : Bool)
    (reruns : Nat) : State :=
  let x := s.ctx c
  let k := x.queue q
  let cseq := k.cseq + 1
  let (ri, rp) := k.after (x.qSize q) idx
  let s := s.modQueue c q fun k => { k with cseq := cseq, resume := ri, resumePhase := rp }
  s.postRecord c e (recordBytes e.cpltag flags status secondary reruns cseq c q idx)

/-- R196, R253: the OR of the run records that the gang slots reported. -/
def Issued.flags (i : Issued) : BitVec 6 :=
  i.ended.foldl (fun g e => g ||| e.2.getD 0) 0

/-- R13: STATUS of a command that commits. -/
def Issued.status (i : Issued) : BitVec 16 :=
  if i.flags.getLsbD 5 then stNONFINITE
  else if !i.restart then stWRITESET_OVERLAP
  else if 0 < i.reruns then stKILLED_RERUN
  else stOK

/-- R254: add to a commit semaphore, saturating at 2^64 − 1. -/
def State.semAdd (s : State) (n idx amount : Nat) : State :=
  let p := s.part n
  s.setPart n { p with sems := smod 0 p.sems idx fun v => w64 (satAdd 64 v.toNat amount) }

/-! ### The measurement log (R418, R419) -/

def zeros64 : List Byte := List.replicate 64 0
def State.mlog (s : State) (n : Nat) : List LogEntry := sget [] s.sec.logs n
def State.logHash (s : State) (n : Nat) : List Byte := sget zeros64 s.sec.loghash n

/-- R418: the 96 bytes of a log entry. -/
def logEntry (kind : Nat) (sealed : Bool) (c pos va len : Nat) (digest : List Byte) : List Byte :=
  [BitVec.ofNat 8 kind, BitVec.ofNat 8 (b2n sealed)] ++ leBytes 2 c ++ leBytes 4 pos ++ leBytes 8 va ++ leBytes 8 len ++
    List.replicate 8 0 ++ bytesAt digest 0 64

/-- R418: append an entry and extend LOGHASH. The caller has checked for LOG_FULL. -/
def State.appendLog (s : State) (n kind : Nat) (sealed : Bool) (c va len : Nat) (digest : List Byte) : State :=
  let e := logEntry kind sealed c (s.mlog n).length va len digest
  let h := shake256 (s.logHash n ++ e)
  { s with sec := { s.sec with logs := sset [] s.sec.logs n (s.mlog n ++ [{ bytes := e }])
                               loghash := sset zeros64 s.sec.loghash n h } }

/-- R260, R419: does an issued, uncommitted command of the context, or its teardown until the wipes have ended, hold a write range that meets the
range? -/
def State.measureBusy (s : State) (j : MeasureJob) : Bool :=
  (s.ctx j.ctx).torn.any (fun w => rangesMeet w (j.va, j.len)) || s.disp.issued.any fun i => i.ctx == j.ctx && i.entry.writes.any fun w => rangesMeet w (j.va, j.len)

/-- R419: take a MEASURE up now, or let it wait. Its read meets the errors that stand in the range (R213, R214). -/
def State.tryMeasure (s : State) (j : MeasureJob) : State :=
  let wait := { s with sec := { s.sec with measures := s.sec.measures ++ [j] } }
  if s.measureBusy j then wait
  else if 256 ≤ (s.mlog j.part).length then s.answer rREFUSED
  else match s.vaReadErrs j.ctx j.va j.len [] with
    | (.held, _) => wait
    | (.fault _, s) => s.answer rREFUSED
    | (.ok b, s) =>
      let s := s.appendLog j.part 1 j.fix j.ctx j.va j.len (shake256 b)
      let x := s.ctx j.ctx
      let s := if j.fix then s.setCtx j.ctx { x with seals := x.seals ++ [(j.va, j.len)] } else s
      s.answer rOK

/-- R419: the waiting MEASUREs, oldest first, are taken up where their ranges are free. -/
def State.runMeasures (s : State) : State :=
  s.sec.measures.foldl State.tryMeasure { s with sec := { s.sec with measures := [] } }

/-- R428: the teardown of a context aborts its waiting MEASUREs. -/
def State.abortMeasures (s : State) (c : Nat) : State :=
  let gone := s.sec.measures.filter fun j => j.ctx == c
  gone.foldl (fun s _ => s.answer rREFUSED) { s with sec := { s.sec with measures := s.sec.measures.filter fun j => j.ctx != c } }

/-- R241: a STOPPING context whose last issued command is gone becomes STOPPED. -/
def State.settle (s : State) (c : Nat) : State :=
  let x := s.ctx c
  if x.life = .stopping ∧ !(s.disp.issued.any fun i => i.ctx == c) then s.setCtx c { x with life := .stopped } else s

/-! ### Teardown (R216, R241, R260) -/

/-- R216: the PRIV pages (base, size) that the tables of a context map. -/
def State.privPages (s : State) (n base : Nat) : List (Nat × Nat) :=
  ((s.pages n base).filter fun g => g.priv).map fun g => (g.pa, g.size)

/-- R90: the scratchpads of cores that a context used are wiped: at once, or, on a core where another command runs already, as soon as
that command has left it (log entry 41). -/
def State.wipeCores (s : State) (l : List Nat) : State :=
  l.foldl (fun s p => s.modCore p fun c => if c.run.isNone then c.wipeScratch else { c with wipeDue := true }) s

/-- R260: every issued command of context c leaves the dispatch unit; with `status` each gets its record, the faulted one
(`uid`) as its own and the others as SECONDARY. Their write ranges stay hazard ranges until the teardown's wipes have ended. -/
def State.dropCommands (s : State) (c : Nat) (status : Option (BitVec 16)) (uid : Option Nat) : State :=
  let gone := s.disp.issued.filter fun i => i.ctx == c
  let s := if gone.isEmpty then s else s.setCtx c { s.ctx c with torn := (s.ctx c).torn ++ gone.flatMap fun i => i.entry.writes }
  (s.disp.issued.filter fun i => i.ctx == c).foldl (fun s i =>
    let s := (s.releaseGang i.uid i.gang).cancelUid i.uid
    let s := match status with
      | some st => s.completeEntry c i.queue i.idx i.entry st i.flags (uid != some i.uid) i.reruns
      | none => s
    s.delCmd i.uid) s

/-- R424: package loads of a context or partition: queued ones are discarded, the running one is aborted. -/
def State.abortPkgs (s : State) (p : PkgJob → Bool) : State :=
  match s.sec.pkgs with
  | [] => s
  | j :: r =>
    let gone := r.filter p
    let rest := (if p j then { j with aborted := true } else j) :: r.filter fun k => !p k
    let done := gone.filter fun k => !(rest.any fun m => m.part == k.part)
    { s with sec := { s.sec with pkgs := rest, pkgState := done.foldl (fun t k => sset 0 t k.part 0x0503) s.sec.pkgState } }

/-- R216, R241, R260: context c enters TEARDOWN: its commands are gone, its PRIV pages and its cores' scratchpads are
wiped. A PRIV leaf that maps a page in a slab that the partition does not own wipes nothing (DESIGN CHOICE, log entry 71). After a thermal shutdown
the walk of the tables waits, as a wipe that has no page yet and does not begin before the device reset (R397). -/
def State.teardown (s : State) (c : Nat) (toFree : Bool) (status : Option (BitVec 16)) (uid : Option Nat) : State :=
  let s := s.dropCommands c status uid
  let x := s.ctx c
  let n := x.part.toNat
  let s := s.meetTables n x.ptbase.toNat
  let own (pa : Nat) : Bool := s.slabLife (pa / 2 ^ 25) == .assigned && (s.slab (pa / 2 ^ 25)).owner.toNat == n
  let pages := (s.privPages n x.ptbase.toNat).filter fun g => own g.1
  let found := if s.damper.shutdown then [(0, 0)] else pages
  let jobs : List WipeJob := found.map fun g => { base := g.1, len := g.2, why := .teardown c, running := false }
  let s := { s with mem := { s.mem with wipes := s.mem.wipes ++ jobs } }
  let s := s.wipeCores x.used
  let s := ((s.abortPkgs fun j => j.ctx == c).abortMeasures c).cancelCtx c
  (s.setCtx c { s.ctx c with life := .teardown, toFree := toFree, seals := [] }).dropIdle

/-- R241: DESTROY and partition reset: no completion records. -/
def State.destroy (s : State) (c : Nat) : State :=
  let x := s.ctx c
  match x.life with
  | .free => s
  | .teardown => s.setCtx c { x with toFree := true, pending := none, owed := [] }
  | _ => (s.setCtx c { x with pending := none }).teardown c true none none

/-! ### Partition reset (R266) -/

/-- R266: the partition's contexts are destroyed, its peal instances cancelled, its queue flushed, its semaphores, backlog,
log and seals cleared, its slabs and cores' scratchpads wiped. Seals and waiting MEASUREs of a FREE context end with it too. -/
def State.resetPart (s : State) (n : Nat) : State :=
  let cs := (s.disp.ctxs.filter fun e => e.2.part.toNat == n).map Prod.fst
  let s := cs.foldl State.destroy s
  let s := cs.foldl (fun s c => (s.abortMeasures c).setCtx c { s.ctx c with seals := [] }) s
  let s := s.cancelPart n
  let s := s.flushQueue n
  let p := s.part n
  let s := s.setPart n { p with sems := [], backlogCount := 0, resetState := 1 }
  let s := { s with sec := { s.sec with logs := sset [] s.sec.logs n [], loghash := sset zeros64 s.sec.loghash n zeros64 } }
  let s := s.abortPkgs fun j => j.part == n
  let owned := (s.mem.slabs.filter fun e => s.slabLife e.1 == .assigned && e.2.owner.toNat == n).map Prod.fst
  let jobs : List WipeJob := owned.map fun k => { base := k * 2 ^ 25, len := 2 ^ 25, why := .reset n, running := false }
  let s := owned.foldl (fun s k => s.setSlab k { s.slab k with wipe := true }) s
  let s := { s with mem := { s.mem with wipes := s.mem.wipes ++ jobs } }
  let s := s.wipeCores ((s.mappedCores n 0).map Prod.snd)
  s.finishPartReset n

end Sys2Proof.Machine
end

