-- ==== Sys2Proof/Machine/Geril.lean ====
section
/-! DEFINITION. The Geril family: packets received (R316 to R325, R334, R337, R339, R344, R377) and the transport's timers. -/

namespace Sys2Proof.Machine

/-! ### What every packet is checked for (R312, R315, R316, R324) -/

/-- R324: FENCED goes to a sender at most once a second for its source address; its payload is the rank-table entry of `rank`. -/
def State.answerStale (s : State) (rank k : Nat) (own src : BitVec 128) : State :=
  let due := !s.peal.fenced.any fun e => e.1 == src && decide (s.now < e.2 + 1000000000)
  if due && (s.port k).st == .up then
    let s := { s with peal := { s.peal with fenced := (src, s.now) :: s.peal.fenced.filter fun e => e.1 != src } }
    (s.sendGeril k 6 (s.mkPkt k (own, src) { s.newHdr rank with op := BitVec.ofNat 8 ctlFENCED } (s.rankEntry rank).bytes)).gcount cFenced
  else s

/-- R324, R371: FENCED answers a stale management frame that claims `rank`. It goes to the frame's sender, at the address by which packets go to
the rank-table entry that lists the sender; where none does, or no port reaches it, none is sent (DESIGN CHOICE, log entry 47). -/
def State.fenceRank (s : State) (rank : Nat) (sender : Option Nat) : State :=
  match sender with
  | none => s
  | some r =>
    match s.pathPorts r with
    | [] => s
    | k :: _ => match s.path k r with
      | some a => s.answerStale rank k a.1 a.2
      | none => s

/-- R297, R315: is a packet for the peal engine: at one of the port's addresses, on the Geril UDP port? -/
def State.forGeril (s : State) (k : GPkt) : Bool :=
  let p := s.port k.port.val
  k.dport == s.peal.udpPort && ((p.ipv4 != 0 && k.dstIp == p.addr4) || (p.ipv6 != 0 && k.dstIp == p.addr6))

/-- R315, R316: the port, the address, the checksum and the header of a packet of the given type and code. -/
def State.headerOk (s : State) (k : GPkt) (typ : Nat) (op : Option Nat) (f : State → State) : State :=
  if (s.port k.port.val).st ≠ .up ∨ !s.forGeril k then s
  else if !s.car.en then s.gcount cDisabled
  else if !k.cksumOk then s.gcount cCksum
  else
    let s := s.gcount cRx
    let s := if k.ce then s.gcount cCe else s
    let codeOk := match op with
      | some o => k.op.toNat == o
      | none => true
    if k.typ.toNat ≠ typ ∨ !codeOk ∨ k.ver ≠ 1 ∨ k.dst ≠ s.car.ownRank ∨ 8192 < k.payload.length ∨ (typ = 3 ∧ 256 < k.payload.length) then
      s.gcount cBadHdr
    else f s

/-- R324: the incarnation check, then `f`. -/
def State.receive (s : State) (k : GPkt) (typ : Nat) (op : Option Nat) (f : State → State) : State :=
  s.headerOk k typ op fun s =>
    let e := s.rankEntry k.src.toNat
    if 255 ≤ k.src.toNat ∨ !e.present then s.gcount cBadHdr
    else if k.inc = e.inc then f s
    else if k.inc.toNat < e.inc.toNat then ((s.gcount cStale).netEvent 3 stFENCED_PEER k.src.toNat).answerStale k.src.toNat k.port.val k.dstIp k.srcIp
    else s.gcount cStale

/-! ### The receiver of DATA (R320, R337, R339) -/

def State.rxStream (s : State) (rank stream : Nat) : Option RxStream := s.peal.rx.find? fun r => r.rank == rank && r.stream == stream
def State.modRx (s : State) (rank stream : Nat) (f : RxStream → RxStream) : State :=
  { s with peal := { s.peal with rx := modFirst (fun r => r.rank == rank && r.stream == stream) f s.peal.rx } }

/-- Bytes in the early pool: what waits for an instance to start, delivered in its turn or held behind a gap. -/
def State.earlyBytes (s : State) : Nat :=
  (s.peal.early.map fun k => k.payload.length).sum +
    (s.peal.rx.map fun r => ((r.held.filter fun h => (s.inst h.pkt.opid).isNone).map fun h => h.pkt.payload.length).sum).sum

/-- R320: the receive window of an operation. -/
def State.rwndOf (s : State) (opid : BitVec 32) : Nat :=
  if (s.inst opid).isSome then 16777216 else if 16777216 ≤ s.earlyBytes then 0 else 65536

/-- R322, R323: do the two ends of the connection report CE marks to each other: is ECN a feature that both set? -/
def Conn.reportsCe (c : Conn) : Bool := !c.up || c.features.getLsbD 2

/-- R320, R317: an ACK of a stream. -/
def State.ackStream (s : State) (rank stream : Nat) : State :=
  match s.rxStream rank stream with
  | none => s
  | some r =>
    let bit (i : Nat) : Nat := b2n (r.held.any fun k => k.pkt.seq.toNat == (r.expected + 1 + i) % 2 ^ 32) * 2 ^ i
    let map := ((List.range 64).map bit).sum
    let ce := if (s.conn rank).reportsCe then r.ce else 0
    let body := leBytes 8 map ++ leBytes 4 (s.rwndOf r.opid) ++ leBytes 2 (min ce 65535) ++ leBytes 2 0
    let s := s.modRx rank stream fun r => { r with since := 0, ackAt := none, ce := 0 }
    match s.pathPorts rank with
    | [] => s
    | k :: _ => s.sendGeril k 6 (s.newPkt k rank { s.newHdr rank with
        typ := 2, ece := decide (0 < ce), seq := BitVec.ofNat 32 r.expected, stream := BitVec.ofNat 14 stream, opid := r.opid } body)

/-- R337, R338: a chunk of a PUT lands in its region, by the entry in force when it arrived; a failed check drops it, posts
REGION_REFUSED and ends the sender's PEAL. None while a wipe holds the memory. -/
def State.landPut (s : State) (k : GPkt) (e : BitVec 256) : Option State :=
  let rank := k.src.toNat
  let refuse (s : State) (st : BitVec 16) : State :=
    (s.netEvent 6 0 rank).sendControl rank ctlABORT k.opid 0 0 (leBytes 2 st.toNat)
  match s.regionIn e (k.at_.toNat + k.offset.toNat) k.payload.length with
  | .held => none
  | .fault st => some (refuse s st)
  | .ok a =>
    match s.vaWrite a.1 a.2 k.payload with
    | .held => none
    | .fault st => some (refuse (s.meetWrites [(a.1, a.2, k.payload.length)]) st)
    | .ok s =>
      let l : Landing := { rank := rank, opid := k.opid, region := k.region.toNat }
      some (if s.peal.landed.contains l then s else { s with peal := { s.peal with landed := s.peal.landed ++ [l] } })

/-- R299, R339: the request of a GET opens the streams that serve it from the region, in the class that the GET's descriptor names. -/
def State.serveGet (s : State) (k : GPkt) : Option State :=
  let rank := k.src.toNat
  match s.regionAt k.region.toNat k.at_.toNat k.want with
  | .held => none
  | .fault st => some ((s.netEvent 6 0 rank).sendControl rank ctlABORT k.opid 0 0 (leBytes 2 st.toNat))
  | .ok a =>
    let r := s.openTransfer rank k.opid 7 k.tc.toNat 0 (some a) [k.want]
    if r.2 then some r.1 else none

/-- R320: a packet in its turn goes to where it belongs; none when it cannot be taken now. One of a cancelled instance, and before a new rank's
first PEAL one of any instance that the device does not hold, is acknowledged and discarded (R344, R376). -/
def State.deliverData (s : State) (h : HeldPkt) : Option State :=
  let k := h.pkt
  if s.peal.cancelled.contains k.opid ∨ (s.car.fresh ∧ (s.inst k.opid).isNone) then some s
  else if k.op = 6 ∨ k.op = 8 then s.landPut k h.entry
  else if k.op = 7 ∧ 0 < k.want then s.serveGet k
  else match s.inst k.opid with
    | some i => s.takeChunk i k.src.toNat k.offset.toNat k.payload
    | none =>
        let mine := ((s.peal.early.filter fun e => e.src == k.src && e.stream == k.stream).map fun e => e.payload.length).sum
        if 16777216 < s.earlyBytes + k.payload.length ∨ 65536 < mine + k.payload.length then none
        else some { s with peal := { s.peal with early := s.peal.early ++ [k] } }

/-- Packets held behind the one just delivered follow it; `n` bounds them. -/
def State.drainHeld (s : State) (rank stream : Nat) : Nat → State
  | 0 => s
  | n + 1 =>
    match s.rxStream rank stream with
    | none => s
    | some r =>
      match r.held.find? fun k => k.pkt.seq.toNat == r.expected with
      | none => s
      | some k =>
        match (s.modRx rank stream fun r => { r with held := delFirst (fun x => x == k) r.held }).deliverData k with
        | none => s
        | some t => State.drainHeld (t.modRx rank stream fun r => { r with expected := (r.expected + 1) % 2 ^ 32 }) rank stream n

/-- R320: the receiver's bookkeeping after a new packet: an ACK after eight, or within 4 µs. -/
def State.noteData (s : State) (rank stream : Nat) : State :=
  match s.rxStream rank stream with
  | none => s
  | some r =>
    if 8 ≤ r.since + 1 then s.ackStream rank stream
    else s.modRx rank stream fun r => { r with since := r.since + 1, ackAt := some (r.ackAt.getD (s.now + 4000)) }

/-- R42, R320: an ACK that is due goes out. -/
def State.dueAck (s : State) (rank stream : Nat) : State :=
  match (s.rxStream rank stream).bind fun r => r.ackAt with
  | some t => if t ≤ s.now then s.ackStream rank stream else s
  | none => s

/-- R319: the receive stream of a packet, opened where it is new; while 16,384 streams are open none opens, and the packet is left to the
sender's retransmission. An ACK of the stream whose 4 µs have closed comes first (R42). A stream toward a device that has just taken its rank over is taken up where its first packet stands (DEDUCED, log
entry 47). -/
def State.openRx (s : State) (k : GPkt) : State :=
  let rank := k.src.toNat
  let stream := k.stream.toNat
  let discard := s.peal.cancelled.contains k.opid || (s.car.fresh && (s.inst k.opid).isNone)
  if (s.rxStream rank stream).isSome then (s.dueAck rank stream).modRx rank stream fun r => { r with opid := k.opid, ce := r.ce + b2n k.ce }
  else if 16384 ≤ s.peal.tx.length + s.peal.rx.length then s
  else
    let r : RxStream := { rank := rank, stream := stream, opid := k.opid, op := k.op.toNat,
                          expected := if discard then k.seq.toNat else 0, held := [], since := 0, ackAt := none, ce := b2n k.ce }
    { s with peal := { s.peal with rx := s.peal.rx ++ [r] } }

/-- R320: a DATA packet of an accepted sender. -/
def State.takeData (s : State) (k : GPkt) : State :=
  let rank := k.src.toNat
  let stream := k.stream.toNat
  let h : HeldPkt := { pkt := k, entry := s.region k.region.toNat }
  let s := s.openRx k
  match s.rxStream rank stream with
  | none => s
  | some r =>
    let delta := (k.seq - BitVec.ofNat 32 r.expected).toNat
    if delta = 0 then
      match s.deliverData h with
      | none => if k.op = 7 ∧ 0 < k.want ∧ !(s.conn rank).up then s.greet rank else s
      | some t =>
        let t := t.modRx rank stream fun r => { r with expected := (r.expected + 1) % 2 ^ 32 }
        ((t.drainHeld rank stream r.held.length).noteData rank stream).pump
    else if 2 ^ 31 ≤ delta ∨ r.held.any (fun x => x.pkt.seq == k.seq) then (s.gcount cDup).ackStream rank stream
    else if s.rwndOf k.opid < (r.held.map fun x => x.pkt.payload.length).sum + k.payload.length then s
    else (s.modRx rank stream fun r => { r with held := r.held ++ [h] }).ackStream rank stream

/-- GERIL_DATA. -/
def execGerilData (k : GPkt) (s : State) : Out := .next (s.receive k 1 none fun s => s.takeData k)

/-- ACK_TIMER: 4 µs have passed since the first packet not yet acknowledged. -/
def execAckTimer (rank : BitVec 16) (stream : BitVec 14) (s : State) : Out :=
  .next (s.dueAck rank.toNat stream.toNat)

/-! ### The sender: ACKs, timeouts, the congestion window (R321, R322) -/

/-- R322, R43: the samples of the 10 s window that ends at a time, that time aside. -/
def Conn.window (c : Conn) (now : Nat) : List (Nat × Nat) := c.samples.filter fun e => decide (now ≤ e.1 + 10000000000 ∧ e.1 < now)

/-- R321: one round-trip sample in ns; the first one sets srtt, and half of it rttvar (log entry 23). -/
def Conn.sample (c : Conn) (now rtt : Nat) : Conn :=
  let r : Rat := rtt
  let c := if c.measured then
      { c with rttvar := c.rttvar + (|c.srtt - r| - c.rttvar) / 4, srtt := c.srtt + (r - c.srtt) / 8 }
    else { c with srtt := r, rttvar := r / 2, measured := true }
  { c with samples := (now, rtt) :: c.samples.filter fun e => decide (now ≤ e.1 + 10000000000) }

/-- R322: the change of cwnd after the ACKs of one RTT. Where the window [t − 10 s, t) holds no sample, the round trip just measured is base_rtt
(DESIGN CHOICE, log entry 23). -/
def Conn.adjust (c : Conn) (now chunk target gain : Nat) : Conn :=
  let f : Rat := if c.acked = 0 then 0 else (c.marked : Rat) / c.acked
  let rtt : Rat := match c.samples with
    | e :: _ => e.2
    | [] => c.srtt
  let base : Rat := match (c.window now).map fun e => e.2 with
    | [] => rtt
    | e :: r => (r.foldl min e : Nat)
  let t : Rat := target * 1000
  let alpha := c.alpha + (f - c.alpha) / 16
  let w : Rat :=
    if 0 < f then c.cwnd * (1 - alpha / 2)
    else if base + t < rtt then c.cwnd * max (1 / 2) (1 - (rtt - base - t) / rtt)
    else c.cwnd + chunk * gain
  { c with alpha := alpha, cwnd := max (chunk : Rat) (min 16777216 w), acked := 0, marked := 0, roundAt := now }

/-- Is a packet acknowledged by an ACK with the given SEQ and map? -/
def acked (seq map : Nat) (u : Unacked) : Bool :=
  let d := (BitVec.ofNat 32 u.seq - BitVec.ofNat 32 seq).toNat
  decide (2 ^ 31 ≤ d) || (decide (1 ≤ d ∧ d ≤ 64) && map / 2 ^ (d - 1) % 2 == 1)

/-- R321, R324, R325: may a packet of a stream be sent again: its port is up and leads to the rank, and the device is not fenced? -/
def State.maySend (s : State) (t : TxStream) : Bool :=
  s.car.en && s.car.st != 3 && (s.port t.port).st == .up && (s.path t.port t.rank).isSome

/-- R321: the wait after the n-th retransmission: the timeout doubles up to 100 ms, and after RETX_LIMIT of them it is 100 ms. -/
def State.backoff (s : State) (rank n : Nat) : Nat :=
  if s.peal.retxLimit ≤ n then 100000000 else min 100000000 (s.rto (s.conn rank) * 2 ^ n)

/-- R321: after RETX_LIMIT retransmissions of one packet PEER_UNREACHABLE is posted, once for the peer. -/
def State.noteUnreach (s : State) (rank n : Nat) : State :=
  let c := s.conn rank
  if s.peal.retxLimit ≤ n ∧ !c.unreach then (s.setConn rank { c with unreach := true }).netEvent 1 0 rank else s

/-- R321: a packet of a stream, as it was kept, is sent again and takes the timeout of its next round; the retransmission counts toward
PEER_UNREACHABLE. -/
def State.resend (s : State) (t : TxStream) (u : Unacked) : State :=
  if !s.maySend t then s
  else
    let n := u.retx + 1
    (((s.sendGeril t.port t.tc (s.again u.pkt)).gcount cRetx).modStream t.rank t.stream fun t => { t with
      unacked := modFirst (fun x => x.seq == u.seq) (fun x =>
        { x with retx := n, deadline := s.now + s.backoff t.rank n }) t.unacked }).noteUnreach t.rank n

/-- R42, R321: the packets of a stream whose timeout has closed by now are sent again. -/
def State.expire (s : State) (rank stream : Nat) : State :=
  match s.txStream rank stream with
  | none => s
  | some t => (t.unacked.filter fun u => decide (u.deadline ≤ s.now)).foldl (fun s u => s.resend t u) s

/-- R321: packets that the map shows missing behind three or more later ones. -/
def missing (map seq : Nat) (l : List Unacked) : List Unacked :=
  l.filter fun u =>
    let d := (BitVec.ofNat 32 u.seq - BitVec.ofNat 32 seq).toNat
    decide (d < 64) && decide (3 ≤ ((List.range 64).filter fun i => decide (d ≤ i) && map / 2 ^ i % 2 == 1).length)

/-- R42, R321, R322: an ACK of an accepted sender. A timeout that closes as it arrives comes first. -/
def State.takeAck (s : State) (k : GPkt) : State :=
  let rank := k.src.toNat
  let stream := k.stream.toNat
  let map := natAt k.payload 0 8
  let s := s.expire rank stream
  let s := if (s.conn rank).unreach then (s.setConn rank { s.conn rank with unreach := false }).netEvent 2 0 rank else s
  match s.txStream rank stream with
  | none => s
  | some t =>
    let done := t.unacked.filter (acked k.seq.toNat map)
    let left := t.unacked.filter fun u => !acked k.seq.toNat map u
    let c := (done.filter fun u => u.retx == 0).foldl (fun c u => c.sample s.now (s.now - u.sentAt)) (s.conn rank)
    let c := { c with rwnd := natAt k.payload 8 4, acked := c.acked + done.length
                      marked := c.marked + if c.reportsCe then natAt k.payload 12 2 else 0 }
    let c := if c.roundAt + c.srtt.floor.toNat ≤ s.now then c.adjust s.now (s.chunkSize rank) s.peal.ccTarget s.peal.ccGain else c
    let recent := t.fastAt.filter fun a => decide (s.now < a.2 + c.srtt.floor.toNat)
    let gaps := if s.maySend t then (missing map k.seq.toNat left).filter fun u => !recent.any fun a => a.1 == u.seq else []
    let s := (s.setConn rank c).modStream rank stream fun t =>
      { t with unacked := left, fastAt := recent ++ gaps.map fun u => (u.seq, s.now) }
    let s := gaps.foldl (fun s u => s.resend t u) s
    (s.closeDone rank stream).pump

/-- GERIL_ACK. -/
def execGerilAck (k : GPkt) (s : State) : Out := .next (s.receive k 2 none fun s => s.takeAck k)

/-- R321, R376: an ANNOUNCE that a rank has not answered is sent again when its timeout closes; while no port reaches the rank none is sent, and
none counts. -/
def State.reannounce (s : State) (rank : Nat) : State :=
  match s.car.takeover with
  | none => s
  | some t =>
    match t.waiting.find? fun a => a.rank == rank && decide (a.due ≤ s.now) with
    | none => s
    | some a =>
      if (s.pathPorts rank).isEmpty || !s.car.en then s
      else
      let n := a.retx + 1
      let s := { s with car := { s.car with takeover := some { t with
        waiting := modFirst (fun x => x.rank == rank) (fun x => { x with retx := n, due := s.now + s.backoff rank n }) t.waiting } } }
      let s := (s.sendCtl true rank ctlANNOUNCE 0 0 0 (leBytes 8 s.deviceId.toNat ++ leBytes 4 s.car.ownInc.toNat)).gcount cRetx
      s.noteUnreach rank n

/-- R323: a HELLO that a rank has not answered is sent again when its timeout closes (log entry 19). -/
def State.rehello (s : State) (rank : Nat) : State :=
  match (s.conn rank).asked with
  | some (n, due) => if due ≤ s.now then s.sayHello rank (n + 1) else s
  | none => s

/-- R42, R376: the window of TAKEOVER_LIMIT has closed: TAKEOVER_REFUSED names the first active rank that has not answered, once;
retransmission goes on. -/
def State.closeTakeover (s : State) : State :=
  match s.car.takeover with
  | none => s
  | some t =>
    if t.refused ∨ s.now < t.deadline then s
    else
      let s := { s with car := { s.car with takeover := some { t with refused := true } } }
      match t.waiting.find? fun a => decide (a.rank < s.car.activeRanks) with
      | some a => s.carEvent 5 stRANK_TAKEOVER a.rank
      | none => s

/-- RTO_EXPIRY: a packet's timeout has closed: it is sent again with twice the timeout, and PEER_UNREACHABLE is posted once
after RETX_LIMIT retransmissions. -/
def execRtoExpiry (rank : BitVec 16) (stream : BitVec 14) (seq : BitVec 32) (s : State) : Out :=
  let r := rank.toNat
  match (s.txStream r stream.toNat).bind fun t => (t.unacked.find? fun u => u.seq == seq.toNat && decide (u.deadline ≤ s.now)).map fun u => (t, u) with
  | none => .next ((s.reannounce r).rehello r)
  | some (t, u) =>
    if !s.maySend t then .next s
    else .next (s.resend t u)

/-! ### Connections (R323) -/

/-- R323: the connection that the peer's capabilities allow; none without a common version. A HELLO of the device whose timeout closes as the
packet arrives is sent again first (R42). -/
def State.connect (s : State) (rank : Nat) (caps : List Byte) : State :=
  let s := s.rehello rank
  let lo := natAt caps 0 1
  let hi := natAt caps 1 1
  if 1 < lo ∨ hi < 1 then s.netEvent 7 0 rank
  else
    let own := natAt s.capabilities 2 2
    s.setConn rank { s.conn rank with
      up := true, asked := none, version := 1, maxFrame := min own (natAt caps 2 2), streams := natAt caps 4 4,
      features := BitVec.ofNat 8 (natAt caps 8 1) &&& 0x1F }

/-- HELLO is answered with HELLO_ACK. -/
def execHello (k : GPkt) (s : State) : Out :=
  .next (s.receive k 3 (some ctlHELLO) fun s =>
    ((s.connect k.src.toNat k.payload).sendControl k.src.toNat ctlHELLO_ACK 0 0 0 s.capabilities).pump)

/-- HELLO_ACK completes the connection. -/
def execHelloAck (k : GPkt) (s : State) : Out :=
  .next (s.receive k 3 (some ctlHELLO_ACK) fun s => (s.connect k.src.toNat k.payload).pump)

/-! ### Fencing and takeover (R324, R325, R377) -/

/-- FENCED: the entry that it carries gives the device's own rank a newer incarnation: the device stops its streams, and the
carillon key is cleared (R422). -/
def execFenced (k : GPkt) (s : State) : Out :=
  .next (s.receive k 3 (some ctlFENCED) fun s =>
    if s.car.ownInc.toNat < natAt k.payload 8 4 ∧ s.car.st ≠ 3 then s.becomeFenced.netEvent 4 stFENCED_PEER s.ownRank else s)

/-- R325: the RESUME that answers an ANNOUNCE: every stream held open from the rank with the next SEQ expected; 32 streams fill one
packet's 256 bytes (R318), so more of them take further packets. -/
def State.sendResume (s : State) (rank : Nat) : State :=
  let l := s.peal.rx.filter fun r => r.rank == rank
  (List.range (max 1 ((l.length + 31) / 32))).foldl (fun s i =>
    s.sendControl rank ctlRESUME 0 0 0 (((l.drop (32 * i)).take 32).flatMap fun r => leBytes 4 r.stream ++ leBytes 4 r.expected)) s

/-- R377: one-sided writes of the superseded incarnation end; those that had landed without a notice are torn. -/
def State.endTorn (s : State) (rank : Nat) : State :=
  let torn := s.peal.landed.filter fun l => l.rank == rank
  let s := torn.foldl (fun s l =>
    let n := regPart (s.region l.region)
    let p := s.part n
    (s.setPart n { p with torn := satAdd 32 p.torn 1 }).carEvent 6 0 rank) s
  { s with peal := { s.peal with
    landed := s.peal.landed.filter fun l => l.rank != rank
    rx := s.peal.rx.filter fun r => !(r.rank == rank && (r.op == 6 || r.op == 8)) } }

/-- R325: every unacknowledged packet toward the rank is sent again. -/
def State.resendAll (s : State) (rank : Nat) : State :=
  (s.peal.tx.filter fun t => t.rank == rank).foldl (fun s t => t.unacked.foldl (fun s u => s.resend t u) s) s

/-- ANNOUNCE: exempt from the incarnation check; accepted for an active rank's next incarnation by a spare of the table. -/
def execAnnounce (k : GPkt) (s : State) : Out :=
  .next (s.headerOk k 3 (some ctlANNOUNCE) fun s =>
    let r := k.src.toNat
    let e := s.rankEntry r
    let id := BitVec.ofNat 64 (natAt k.payload 0 8)
    if s.car.activeRanks ≤ r ∨ 255 ≤ r then s.gcount cBadHdr
    else if k.inc = e.inc ∧ id = e.ident then s.sendResume r
    else match (List.range 255).find? fun x => (s.rankEntry x).state == 2 && (s.rankEntry x).ident == id with
      | none => s.gcount cBadHdr
      | some x =>
        if k.inc.toNat ≠ e.inc.toNat + 1 then s.gcount cBadHdr
        else
          let sp := s.rankEntry x
          let s := (s.setRank r { sp with inc := k.inc, state := 1 }).setRank x { sp with state := 3 }
          let s := (s.netEvent 5 stRANK_TAKEOVER r).endTorn r
          (s.sendResume r).resendAll r)

/-- R325: the streams that a RESUME lists, those known already aside. -/
def State.addResumed (s : State) (k : GPkt) : State :=
  let r := k.src.toNat
  let listed : List Resumed := (List.range (k.payload.length / 8)).map fun i =>
    { rank := r, stream := natAt k.payload (8 * i) 4 % 16384, seq := natAt k.payload (8 * i + 4) 4 }
  let new := listed.filter fun x =>
    !(s.peal.resumed.any (fun y => y.rank == r && y.stream == x.stream)) && (s.txStream r x.stream).isNone
  { s with peal := { s.peal with resumed := s.peal.resumed ++ new } }

/-- RESUME: the rank has answered; its open streams go on from the SEQ that it gives. TAKEOVER_DONE follows the last active
rank's answer (R376). Windows that close as it arrives come first (R42). -/
def execResume (k : GPkt) (s : State) : Out :=
  .next (s.receive k 3 (some ctlRESUME) fun s =>
    let s := (s.reannounce k.src.toNat).closeTakeover
    match s.car.takeover with
    | none => if s.car.fresh then s.addResumed k else s
    | some t =>
      let r := k.src.toNat
      let s := s.addResumed k
      if !(t.waiting.any fun a => a.rank == r) then s
      else
        let left := t.waiting.filter fun a => a.rank != r
        if left.any (fun a => decide (a.rank < s.car.activeRanks)) then { s with car := { s.car with takeover := some { t with waiting := left } } }
        else ({ s with car := { s.car with takeover := none } }).carEvent 4 0 s.ownRank)

/-! ### The other CONTROL packets (R319, R334, R339, R344) -/

/-- STEP_END. -/
def execStepEndReceive (k : GPkt) (s : State) : Out :=
  .next (s.receive k 3 (some ctlSTEP_END) fun s =>
    ({ s with peal := { s.peal with stepGen := smod 0 s.peal.stepGen k.src.toNat fun g => max g (k.gen.toNat + 1) } }).releaseGens)

/-- COMMIT_NOTICE: the region's commit semaphore rises by one (R262: heads that a command woken by it bars have no credit), and the sender's landings in it are results. -/
def execCommitNotice (k : GPkt) (s : State) : Out :=
  .next (s.receive k 3 (some ctlCOMMIT_NOTICE) fun s =>
    let g := natAt k.payload 0 1
    let e := s.region g
    let s := { s with peal := { s.peal with landed := s.peal.landed.filter fun l => !(l.rank == k.src.toNat && l.region == g) } }
    if 64 ≤ g ∨ !regEnable e then s
    else
      let p := s.part (regPart e)
      (s.setPart (regPart e) { p with sems := smod 0 p.sems (regSem e) fun v => w64 (satAdd 64 v.toNat 1) }).dropIdle)

/-- ABORT ends the member's PEAL with the status given, or waits with the early packets of its OPID. A payload that is no code of
the class fault (R12, R14) is dropped and counted as a bad header (DESIGN CHOICE, log entry 46). -/
def execAbortPeer (k : GPkt) (s : State) : Out :=
  .next (s.receive k 3 (some ctlABORT) fun s =>
    let code := BitVec.ofNat 16 (natAt k.payload 0 2)
    if k.payload.length < 2 ∨ !faultCodes.contains code then s.gcount cBadHdr
    else if (s.inst k.opid).isSome then s.failPeal k.opid code false
    else if s.peal.cancelled.contains k.opid ∨ s.car.fresh then s
    else { s with peal := { s.peal with early := s.peal.early ++ [k] } })

/-- CLOSE ends a stream; an instance that waited for a free stream may open it. -/
def execClose (k : GPkt) (s : State) : Out :=
  .next (s.receive k 3 (some ctlCLOSE) fun s =>
    ({ s with peal := { s.peal with rx := s.peal.rx.filter fun r => !(r.rank == k.src.toNat && r.stream == k.stream.toNat) } }).pump)

end Sys2Proof.Machine
end

