-- ==== Sys2Proof/Machine/Carillon.lean ====
section
/-! DEFINITION. The carillon family: CARILLON_EN (R312), takeover and rejoin (R376, R384), device tolls (R371, R372). -/

namespace Sys2Proof.Machine

/-! ### CARILLON_EN (R312) -/

/-- R312: the state that a write of 1 leads to from state 0. -/
def State.joinState (s : State) : BitVec 8 :=
  if s.car.ownRank = 0xFFFF then 0
  else if s.isActive then 1
  else if (s.rankEntry s.ownRank).present then 2
  else 0

def execCarillonEn (pr : Principal) (v : BitVec 8) (s : State) : Out :=
  .next (s.dictWrite pr (prHost pr || prCp pr) false fun s =>
    if 1 < v.toNat then (rRANGE, s)
    else if s.car.st = 3 then (rOK, { s with car := { s.car with en := v == 1 } })
    else if v = 1 then
      (rOK, { s with car := { s.car with en := true, st := if s.car.st = 0 then s.joinState else s.car.st } })
    else
      let s := (((s.peal.insts.map Inst.uid).dedup.foldl State.cancelUid s)).endLoans
      (rOK, { s with car := { s.car with en := false, st := 0 } }))

/-! ### Takeover (R376) -/

/-- R376: the device takes rank r over. -/
def State.takeOver (s : State) (r : Nat) : State :=
  let e := s.rankEntry r
  let own := s.ownRank
  let mine := s.rankEntry own
  let inc := e.inc + 1
  let s := (s.setRank r { ident := s.deviceId, inc := inc, state := 1, mac := mine.mac, addrs := mine.addrs }).setRank own
    { mine with state := 3 }
  let s := { s with car := { s.car with ownRank := BitVec.ofNat 16 r, ownInc := inc, st := 1, fresh := true } }
  let ws : List AnnounceTo := s.peers.map fun p => { rank := p, retx := 0, due := s.now + s.rto (s.conn p) }
  let s := s.peers.foldl (fun s p => s.sendControl p ctlANNOUNCE 0 0 0 (leBytes 8 s.deviceId.toNat ++ leBytes 4 inc.toNat)) s
  if ws.any (fun a => decide (a.rank < s.car.activeRanks)) then
    { s with car := { s.car with takeover := some { deadline := s.now + s.car.limit * 1000000, refused := false, waiting := ws } } }
  else s.carEvent 4 0 r

def execTakeover (pr : Principal) (r : BitVec 16) (s : State) : Out :=
  .next (s.dictWrite pr (prHost pr || prCp pr) true fun s =>
    let e := s.rankEntry r.toNat
    if s.car.st ≠ 2 ∨ s.car.activeRanks ≤ r.toNat ∨ 255 ≤ r.toNat ∨ e.state = 0 ∨ e.inc = 0xFFFFFFFF then (rREFUSED, s)
    else (rOK, s.takeOver r.toNat))

/-- TAKEOVER_LIMIT: TAKEOVER_REFUSED names the first active rank that has not answered; retransmission goes on. -/
def execTakeoverLimit (s : State) : Out := .next s.closeTakeover

/-- CARILLON_REJOIN (R384). -/
def execCarillonRejoin (pr : Principal) (r : BitVec 16) (s : State) : Out :=
  .next (s.dictWrite pr (prHost pr || prCp pr) true fun s =>
    let e := s.rankEntry r.toNat
    if !s.car.en ∨ s.car.st ≠ 3 ∨ s.car.unreset &&& s.peal.parts ≠ 0 ∨ 255 ≤ r.toNat ∨ e.state ≠ 2 ∨ e.ident ≠ s.deviceId then (rREFUSED, s)
    else (rOK, { s with car := { s.car with ownRank := r, ownInc := e.inc, st := 2, fencedToll := false } }))

/-! ### Device tolls (R371, R372) -/

/-- R371: SLACK, the mean of WAIT_FRAC over the period. -/
def Carillon.slack (c : Carillon) : Nat := if c.slackN = 0 then 0 else min 65535 (c.slackSum / c.slackN)

/-- R371: the 32 bytes of a device toll. -/
def tollBytes (m : TollMsg) : List Byte :=
  [1, m.ver] ++ leBytes 2 m.rank.toNat ++ leBytes 4 m.inc.toNat ++ leBytes 4 m.seq.toNat ++ leBytes 2 m.slack.toNat ++ [m.state, 0] ++
    leBytes 8 m.ident.toNat ++ leBytes 8 0

/-- DEV_TOLL_SEND: one toll to every other device of the rank table; a fenced device sends one with STATE 2 and no more. -/
def execDevTollSend (s : State) : Out :=
  let c := s.car
  if !c.en ∨ s.now < c.nextToll ∨ (c.st = 3 ∧ c.fencedToll) then .next s
  else
    let st : BitVec 8 := if c.st = 3 then 2 else if s.hub.fault ≠ 0 then 1 else 0
    let seq := c.tollSeq + 1
    let m : TollMsg := { ver := 1, rank := c.ownRank, inc := c.ownInc, seq := seq, slack := BitVec.ofNat 16 c.slack, state := st, ident := s.deviceId }
    let s := { s with car := { c with
      tollSeq := seq, nextToll := s.now + c.period * 1000, fencedToll := c.fencedToll || c.st == 3, slackSum := 0, slackN := 0 } }
    .next (s.peers.foldl (fun s r => s.sendLowest { tc := 7, len := 64, body := .toll (tollBytes m) r }) s)

/-- R372: a rank whose toll age has reached DEV_TOLL_MISS periods is silent; PEER_SILENT is posted once. -/
def State.goSilent (s : State) (r : Nat) : State :=
  if s.car.en && (s.rankEntry r).present && r != s.ownRank && !s.car.silent.contains r &&
      decide (s.car.miss * s.car.period * 1000 ≤ s.tollAge r) then
    { s with car := { s.car with silent := setIns s.car.silent r } }.carEvent 1 0 r
  else s

/-- DEVICE_TOLL: the incarnation is checked as R324 checks packets, one of a rank that the table does not hold being counted in GERIL_BAD_HDR; the
device whose identity a stale toll carries is fenced. An accepted toll resets the rank's age, after a silence that it has reached (R42). -/
def execDeviceToll (m : TollMsg) (s : State) : Out :=
  let r := m.rank.toNat
  let e := s.rankEntry r
  if !s.car.en ∨ m.ver ≠ 1 then .next s
  else if !s.rankKnown r then .next (s.gcount cBadHdr)
  else if m.inc ≠ e.inc then
    let s := { s with car := { s.car with stale := satAdd 64 s.car.stale 1 } }
    if m.inc.toNat < e.inc.toNat then .next ((s.netEvent 3 stFENCED_PEER r).fenceRank r (s.rankOfIdent m.ident)) else .next s
  else
    let s := s.goSilent r
    let heard := s.car.silent.contains r
    let s := { s with
      car := { s.car with lastToll := sset 0 s.car.lastToll r s.now, silent := setDel s.car.silent r (r + 1) }
      damper := { s.damper with peerSlack := sset 0 s.damper.peerSlack r m.slack } }
    let s := if heard then s.carEvent 2 0 r else s
    .next (if m.state = 1 then s.carEvent 3 0 r else s)

/-- PEER_SILENT: the rank's toll age has reached DEV_TOLL_MISS periods; posted once. -/
def execPeerSilent (r : Fin 255) (s : State) : Out := .next (s.goSilent r.val)

end Sys2Proof.Machine
end

