-- ==== Sys2Proof/Machine/Ports.lean ====
section
/-! DEFINITION. The port family (chapter 13): lanes and link states, receive, transmit and gate schedules, priority flow control
and the pause watchdog. -/

namespace Sys2Proof

/-! What a frame's bytes say, by the layouts of IEEE 802.3, 802.1Q, IP, UDP and ICMPv6 (PRESUMED, log entry 66). -/

/-- The n bytes at an offset as a number, the first byte highest. -/
def beAt (b : List Byte) (i n : Nat) : Nat := ((b.drop i).take n).foldl (fun a x => 256 * a + x.toNat) 0

def RxFrame.tagged (f : RxFrame) : Bool := beAt f.bytes 12 2 == 0x8100
/-- The PCP of the tag. -/
def RxFrame.pcp (f : RxFrame) : Option Nat := if f.tagged then some (beAt f.bytes 14 1 / 32) else none
/-- Where the EtherType stands, and its value. -/
def RxFrame.etypeAt (f : RxFrame) : Nat := if f.tagged then 16 else 12
def RxFrame.etype (f : RxFrame) : Nat := beAt f.bytes f.etypeAt 2
/-- The n bytes at an offset of the frame's payload. -/
def RxFrame.at (f : RxFrame) (i n : Nat) : Nat := beAt f.bytes (f.etypeAt + 2 + i) n
def RxFrame.srcMac (f : RxFrame) : BitVec 48 := BitVec.ofNat 48 (beAt f.bytes 6 6)

/-- R297 row 4: ARP, ICMPv6 types 133 to 137, LLDP. -/
def RxFrame.isNeighbour (f : RxFrame) : Bool :=
  f.etype == 0x0806 || f.etype == 0x88CC || (f.etype == 0x86DD && f.at 6 1 == 58 && decide (133 ≤ f.at 40 1 ∧ f.at 40 1 ≤ 137))

end Sys2Proof

namespace Sys2Proof.Machine

/-! ### Counters of a port (R309) -/

def pRxFrames : Nat := 0x00
def pRxBytes : Nat := 0x01
def pTxFrames : Nat := 0x02
def pTxBytes : Nat := 0x03
def pRxFcs : Nat := 0x04
def pRxRunt : Nat := 0x05
def pRxOversize : Nat := 0x06
def pRxSymbol : Nat := 0x07
def pRxNoq : Nat := 0x08
def pRxRingFull : Nat := 0x09
def pRxCpqFull : Nat := 0x0A
def pRxMgmtRefused : Nat := 0x0B
def pTxLinkdown : Nat := 0x0C
def pPauseBreaks : Nat := 0x0D
def pFecCorrected : Nat := 0x0E
def pFecUncorrected : Nat := 0x0F
def pGateOversize : Nat := 0x10
def pGateOverrun : Nat := 0x11
def pRxBufDrop : Nat := 0x20
def pPfcRx : Nat := 0x21
def pPfcTx : Nat := 0x22
def pPfcIgnored : Nat := 0x23
def pTxClassFrames : Nat := 0x24

def State.modPort (s : State) (k : Nat) (f : Port → Port) : State := s.setPort k (f (s.port k))

/-! ### Link states (R291, R293 to R295) -/

/-- R295, R262: a port takes a state: leaving UP discards and counts every queued frame and ends the transmission that runs, and no class has
credit; every change is an event. -/
def State.setLink (s : State) (k : Nat) (st : PortState) : State :=
  let p := s.port k
  if p.st = st then s
  else
    let waiting := (p.txq.map fun e => e.2.length).sum
    let p := if p.st = .up then { p with txq := [], arb := p.arb.drop [], txTil := min p.txTil p.ticks }.count pTxLinkdown waiting else p
    (s.setPort k { p with st := st }).portEvent k 1 0

/-- R291, R294: a port whose lanes or medium change goes down and retrains: from UP straight to TRAINING, or to DISABLED without lanes, with one
LINK_CHANGE event and no stay in DOWN (DESIGN CHOICE, log entry 48: the rule names no state between). -/
def State.retrain (s : State) (k : Nat) : State := s.setLink k (if (s.port k).lanes = 0 then .disabled else .training)

/-- LINK_CHANGE: a port with lanes trains, comes up or goes down; a port without is DISABLED. The lane rate is the one that
both partners advertise, or PORT_FORCE's (R293). -/
def execLinkChange (port : Fin 8) (st : PortState) (fast : Bool) (s : State) : Out :=
  if !s.alive then .next s else
  let k := port.val
  let p := s.port k
  let okState := if p.lanes = 0 then st == .disabled else st != .disabled
  if !okState ∨ (st = .up ∧ !s.hub.refclkE) then .next s
  else
    let rate := if p.an then fast else p.force == 0
    let s := if st = .up then s.modPort k fun p => { p with fast := rate } else s
    let s := s.setLink k st
    .next (if st = .up then s.pump else s)

/-- TRAINING_RETRY: the port tries again and stays in TRAINING until a partner shares a mode (LINK_CHANGE). -/
def execTrainingRetry (port : Fin 8) (s : State) : Out :=
  if (s.port port.val).st = .training then .next (s.setLink port.val .training) else .next s

/-- R308: HOST and CP write the port entries. -/
def portWriter (pr : Principal) : Bool := prHost pr || prCp pr

/-- PORT_LANES. -/
def execPortLanes (pr : Principal) (port : Fin 8) (v : BitVec 8) (s : State) : Out :=
  .next (s.dictWrite pr (portWriter pr) false fun s =>
    let k := port.val
    let n := v.toNat
    if n ≠ 0 ∧ n ≠ 1 ∧ n ≠ 2 ∧ n ≠ 4 then (rRANGE, s)
    else if (n = 4 ∧ (k % 2 = 1 ∨ (s.port (k + 1)).lanes ≠ 0)) ∨ (k % 2 = 1 ∧ n ≠ 0 ∧ (s.port (k - 1)).lanes = 4) then (rREFUSED, s)
    else if (s.port k).lanes = v then (rOK, s)
    else
      let s := s.modPort k fun p => { p with
        lanes := v, classes := (List.range 8).foldl (fun m t =>
          sset ClassState.reset m t { sget ClassState.reset m t with pauseEnd := none, pauseSince := 0, broken := false, recoverAt := 0 }) p.classes }
      (rOK, s.retrain k))

/-- PORT_MEDIA. -/
def execPortMedia (pr : Principal) (port : Fin 8) (v : BitVec 8) (s : State) : Out :=
  .next (s.dictWrite pr (portWriter pr) false fun s =>
    let p := s.port port.val
    if 2 < v.toNat then (rRANGE, s)
    else if v = 2 ∧ p.an then (rREFUSED, s)
    else if p.media = v then (rOK, s)
    else (rOK, (s.setPort port.val { p with media := v }).retrain port.val))

/-- PORT_AN. Like PORT_FORCE it is used when the port next comes up; a port in state UP is not retrained by the write (DESIGN CHOICE, log entry 48: the
rule does not say when a write takes effect). -/
def execPortAn (pr : Principal) (port : Fin 8) (v : BitVec 8) (s : State) : Out :=
  .next (s.dictWrite pr (portWriter pr) false fun s =>
    let p := s.port port.val
    if 1 < v.toNat then (rRANGE, s)
    else if v = 1 ∧ p.media = 2 then (rREFUSED, s)
    else (rOK, s.setPort port.val { p with an := v == 1 }))

/-! ### PFC and the pause watchdog (R304, R305) -/

/-- R304: the classes that PFC serves: PFC_EN, whose bit 7 is reserved. -/
def Port.pfcOn (p : Port) (t : Nat) : Bool := p.pfcEn.getLsbD t && t != 7

/-- The device sends PFC for an enabled class t of a port in state UP, with quanta q, at once. The frame counts in PFC_TX, and not in TX_FRAMES and
TX_BYTES (DESIGN CHOICE, log entry 48). -/
def State.sendPfc (s : State) (k t : Nat) (q : BitVec 16) : State :=
  let p := s.port k
  if p.st = .up && p.pfcOn t then
    (s.modPort k fun p => p.countTc pPfcTx t 1).emit (.frame k 0 0 { tc := t, len := 64, body := .pfc (BitVec.ofNat 8 (2 ^ t)) q })
  else s

/-- R304: the time of a pause of q quanta at rate R, in ns. -/
def pauseNs (q r : Nat) : Nat := if r = 0 then 0 else (q * 512 + r - 1) / r

/-- R305: the end of the PAUSE_LIMIT window of a class that has been paused since `pauseSince`. -/
def Port.limitAt (p : Port) (t : Nat) : Nat := (p.cls t).pauseSince + p.pauseLimit * 1000000

/-- R305, R42: has a pause of class t reached PAUSE_LIMIT? -/
def Port.breaks (p : Port) (t : Nat) : Bool :=
  let c := p.cls t
  !c.broken && decide (p.limitAt t ≤ p.ticks) && c.pauseEnd.any fun e => decide (p.limitAt t ≤ e)

/-- R304: is class t paused now? -/
def Port.paused (p : Port) (t : Nat) : Bool := (p.cls t).pauseEnd.any (fun e => decide (p.ticks < e)) && !p.breaks t

/-- R305: a pause that has reached PAUSE_LIMIT is broken. -/
def State.breakPause (s : State) (k t : Nat) : State :=
  let p := s.port k
  if p.breaks t then
    let c := p.cls t
    let p' := (p.setCls t { c with pauseEnd := none, broken := true, recoverAt := p.limitAt t + p.pauseRecovery * 1000000 }).count pPauseBreaks 1
    (s.setPort k p').portEvent k 2 t
  else s

/-- R305, R42: a recovery interval that has closed ends in ARMED. -/
def State.rearm (s : State) (k t : Nat) : State :=
  let p := s.port k
  let c := p.cls t
  if c.broken ∧ c.recoverAt ≤ p.ticks then (s.setPort k (p.setCls t { c with broken := false })).portEvent k 3 t else s

/-- One class of a received PFC frame; a class that it pauses has no credit (R262). -/
def Port.pfcClass (p : Port) (t q : Nat) : Port :=
  let c := p.cls t
  let p := p.countTc pPfcRx t 1
  if !p.pfcOn t then p.countTc pPfcIgnored t 1
  else if c.broken then
    (if q = 0 then p else (p.countTc pPfcIgnored t 1).setCls t { c with recoverAt := p.ticks + p.pauseRecovery * 1000000 })
  else if q = 0 then p.setCls t { c with pauseEnd := none }
  else { p with arb := p.arb.leave t }.setCls t { c with
    pauseEnd := some (p.ticks + pauseNs q p.rate), pauseSince := if c.pauseEnd.any (fun e => decide (p.ticks < e)) then c.pauseSince else p.ticks }

/-! ### Gate schedules (R300 to R303) -/

/-- The entries of a cycle as (start, end, gates): cut at the cycle's end, the last one stretched to it. -/
def Sched.spans (g : Sched) : List (Nat × Nat × BitVec 8) :=
  let r := g.list.foldl (fun (acc : Nat × List (Nat × Nat × BitVec 8)) e =>
    if g.cycle ≤ acc.1 then acc
    else (min g.cycle (acc.1 + e.2), acc.2 ++ [(acc.1, min g.cycle (acc.1 + e.2), e.1)])) (0, [])
  match r.2.reverse with
  | [] => []
  | (a, _, m) :: l => (l.reverse) ++ [(a, g.cycle, m)]

/-- The gates open at a timer value. -/
def Sched.gatesAt (g : Sched) (t : Nat) : BitVec 8 :=
  if t < g.base ∨ g.cycle = 0 then 0xFF
  else
    let o := (t - g.base) % g.cycle
    match g.spans.find? fun e => decide (e.1 ≤ o ∧ o < e.2.1) with
    | some e => e.2.2
    | none => 0xFF

/-- How long class tc stays open over consecutive spans. -/
def openRun (tc : Nat) : List (Nat × Nat × BitVec 8) → Nat
  | [] => 0
  | (a, b, m) :: r => if m.getLsbD tc then (b - a) + openRun tc r else 0

/-- The time from timer value t to the close of the continuous window of class tc; none where it never closes. -/
def Sched.openFor (g : Sched) (tc t : Nat) : Option Nat :=
  let sp := g.spans
  if sp.all fun e => e.2.2.getLsbD tc then none
  else if t < g.base then some (g.base - t + openRun tc sp)
  else
    let o := (t - g.base) % g.cycle
    let later := sp.filter fun e => decide (o < e.2.1)
    match later with
    | [] => some 0
    | (_, b, m) :: r => some (if m.getLsbD tc then (b - o) + openRun tc (r ++ sp) else 0)

/-- R303: the longest continuous window of class tc. -/
def Sched.longest (g : Sched) (tc : Nat) : Nat :=
  let sp := g.spans
  ((List.range sp.length).map fun i => openRun tc (sp.drop i ++ sp)).foldl max 0

/-- The schedule that rules the gates while GATE_EN is 1: the active one, or from its change time on the armed one (R301, R307). -/
def Port.sched (p : Port) : Option Sched :=
  if p.gateEn then
    (match p.armed with
    | some (g, t) => if t ≤ p.timer then some g else p.active
    | none => p.active)
  else none

/-- The gates open now. -/
def Port.gatesNow (p : Port) : BitVec 8 :=
  match p.sched with
  | none => 0xFF
  | some g => g.gatesAt p.timer

/-- R302: the time of a frame on the wire, in ns. -/
def Port.wireNs (p : Port) (len : Nat) : Nat := if p.rate = 0 then 0 else ((len + 20) * 8 + p.rate - 1) / p.rate

/-- R303: does the frame exceed every window of its class? -/
def Port.oversize (p : Port) (tc len : Nat) : Bool :=
  match p.sched with
  | none => false
  | some g =>
    let w := g.longest tc
    !(g.spans.all fun e => e.2.2.getLsbD tc) && decide (0 < w ∧ w < p.wireNs len + p.guard)

/-- R302: does the gate of class tc let a frame start now? -/
def Port.gateLets (p : Port) (tc len : Nat) : Bool :=
  match p.sched with
  | none => true
  | some g => p.gatesNow.getLsbD tc && match g.openFor tc p.timer with
    | none => true
    | some w => decide (p.wireNs len + p.guard ≤ w)

/-- R302, R304: may the frame start now, other classes aside? -/
def Port.mayStart (p : Port) (tc len : Nat) : Bool :=
  p.st == .up && !p.paused tc && decide (p.txTil ≤ p.ticks) && p.gateLets tc len

/-- R262, R299: a class asks for the wire while it has a frame that its gate lets start and no pause holds, be another frame in transmission or
not. -/
def Port.asksWire (p : Port) (tc : Nat) : Bool :=
  match sget [] p.txq tc with
  | [] => false
  | f :: _ => p.st == .up && !p.paused tc && p.gateLets tc f.len

/-- R262: classes that ask no longer have no credit. -/
def Port.dropIdle (p : Port) : Port :=
  { p with arb := p.arb.drop (((List.range 4).filter p.asksWire).map fun t => (t, 1)) }

/-! ### PFC frames and the ends of pauses (R304, R305) -/

/-- PFC_FRAME: the watchdog's windows that have closed come first (R42). As MAC control it is counted by its class alone, and not in RX_FRAMES and
RX_BYTES (DESIGN CHOICE, log entry 48). -/
def execPfcFrame (port : Fin 8) (classes : BitVec 8) (quanta : List (BitVec 16)) (s : State) : Out :=
  let k := port.val
  if (s.port k).st ≠ .up then .next s
  else .next ((List.range 8).foldl (fun s t =>
    if classes.getLsbD t then ((s.breakPause k t).rearm k t).modPort k fun p => (p.pfcClass t (quanta.getD t 0).toNat).dropIdle else s) s)

/-- PAUSE_EXPIRE: a pause that ends at its PAUSE_LIMIT or later is broken, not expired. -/
def execPauseExpire (port tc : Fin 8) (s : State) : Out :=
  let s := s.breakPause port.val tc.val
  let p := s.port port.val
  let c := p.cls tc.val
  match c.pauseEnd with
  | none => .next s
  | some e => if e ≤ p.ticks then .next (s.setPort port.val (p.setCls tc.val { c with pauseEnd := none })) else .next s

/-- PFC_REPEAT: after half the pause time, while the share stays at or above 64 KiB. -/
def execPfcRepeat (port tc : Fin 8) (s : State) : Out :=
  let p := s.port port.val
  let c := p.cls tc.val
  match c.pfcAt with
  | none => .next s
  | some a =>
    if p.st = .up ∧ p.pfcOn tc.val ∧ 65536 ≤ c.share ∧ a + pauseNs 65535 p.rate / 2 ≤ p.ticks then
      .next ((s.setPort port.val (p.setCls tc.val { c with pfcAt := some p.ticks })).sendPfc port.val tc.val 0xFFFF)
    else .next s

/-- PAUSE_LIMIT: the pause is broken. -/
def execPauseLimit (port tc : Fin 8) (s : State) : Out := .next (s.breakPause port.val tc.val)

/-- PAUSE_RECOVERY: the recovery interval has closed. -/
def execPauseRecovery (port tc : Fin 8) (s : State) : Out := .next (s.rearm port.val tc.val)

/-! ### Receive (R296 to R298, R304) -/

/-- R297 row 1: a Geril packet: UDP to the port's address and the Geril port. -/
def Port.isGeril (p : Port) (f : RxFrame) (udp : Nat) : Bool :=
  (f.etype == 0x0800 && f.at 9 1 == 17 && p.ipv4 != 0 && f.at 16 4 == p.ipv4.toNat && f.at (4 * (f.at 0 1 % 16) + 2) 2 == udp) ||
    (f.etype == 0x86DD && f.at 6 1 == 17 && p.ipv6 != 0 && f.at 24 16 == p.ipv6.toNat && f.at 42 2 == udp)

/-- R297: the class of a received frame. -/
def Port.rxClass (p : Port) (pcp : Option Nat) : Nat :=
  match pcp with
  | none => 0
  | some c => p.pcpToTc.toNat / 2 ^ (3 * c) % 8

/-- R298: slots of the host receive ring. -/
def Port.slots (p : Port) : Nat := p.rxrSize / 16384

/-- R298: a frame goes to the host receive ring; `bits` are SYMBOL, OVERSIZE, RUNT, FCS from the top. While the PF cannot master the bus, or has
diverted the ring's frames, the frame is dropped and counted as for a quarantined PF (DESIGN CHOICE, log entry 48). -/
def State.toRing (s : State) (k tc bits : Nat) (frame : List Byte) : State :=
  let p := s.port k
  let n := p.slots
  if n = 0 ∨ (p.rxrProd + 1) % n = p.rxrCons % n ∨ !s.canMaster 0 ∨ p.rxrLost then s.setPort k (p.count pRxRingFull 1)
  else
    let at_ := p.rxrBase.toNat + 16384 * p.rxrProd
    let body := frame.take 16320
    let w0 := b2n p.rxrPhase * 2 ^ 63 + b2n (decide (16320 < frame.length)) * 2 ^ 56 + bits % 16 * 2 ^ 52 + tc % 8 * 2 ^ 40 + k * 2 ^ 32 + body.length
    let next := p.rxrProd + 1
    let p := { p with rxrProd := next % n, rxrPhase := if next = n then !p.rxrPhase else p.rxrPhase }
    (s.setPort k p).emits [.hostWrite 0 (at_ + 64) body false false,
      .hostWrite 0 (at_ + 8) (leBytes 8 p.timer ++ List.replicate 48 0) false false,
      .hostWrite 0 at_ (leBytes 8 w0) false false]

/-- R297: a frame goes to the control processor's receive queue; one that finds it full is dropped and gets no answer. -/
def State.toCp (s : State) (k : Nat) (frame : List Byte) (reply : Option (List Byte)) : State :=
  s.modPort k fun p => if 256 ≤ p.cpq.length then p.count pRxCpqFull 1 else { p with cpq := p.cpq ++ [{ bytes := frame, reply := reply }] }

/-- R297: is the source MAC address one of a device's of the rank table: its MAC base to base + 7 (log entry 25)? -/
def State.macListed (s : State) (src : BitVec 48) : Bool := (s.rankOfMac src).isSome

/-- R297, R306: a management frame that is not accepted; MGMT_REFUSED is posted at most once per second. -/
def State.refuseMgmt (s : State) (k : Nat) : State :=
  let p := (s.port k).count pRxMgmtRefused 1
  let due := match p.refusedAt with
    | none => true
    | some a => decide (a + 1000000000 ≤ p.ticks)
  if due then (s.setPort k { p with refusedAt := some p.ticks }).portEvent k 6 0 else s.setPort k p

/-- R449: a management frame that carries a Voxyx prefix whose incarnation is not that of its sender's rank, or whose rank the table does not
hold. -/
def State.stalePrefix (s : State) (f : RxFrame) : Bool :=
  let o := f.etypeAt + 2
  let r := natAt f.bytes (o + 2) 2
  (natAt f.bytes o 1 == 0x10 || natAt f.bytes o 1 == 0x11) && !(s.rankKnown r && natAt f.bytes (o + 4) 4 == (s.rankEntry r).inc.toNat)

/-- R324, R449: a stale frame is dropped and counted in VOXYX_PEER_STALE; one of a lower incarnation is fenced as a stale packet is, and one of a
rank that the table does not hold is dropped and counted in GERIL_BAD_HDR. -/
def State.dropStale (s : State) (f : RxFrame) : State :=
  let o := f.etypeAt + 2
  let r := natAt f.bytes (o + 2) 2
  if !s.rankKnown r then s.gcount cBadHdr
  else
  let s := { s with dict := { s.dict with counters := smod 0 s.dict.counters 0x402 (satAdd 64 · 1) } }
  if natAt f.bytes (o + 4) 4 < (s.rankEntry r).inc.toNat then (s.netEvent 3 stFENCED_PEER r).fenceRank r (s.rankOfMac f.srcMac) else s

/-- R299: the control processor's answer to ARP, neighbour discovery or LLDP joins TC4. -/
def State.neighbourReply (s : State) (k : Nat) (reply : Option (List Byte)) : State :=
  match reply with
  | some b => s.queueFrame k { tc := 4, len := max 64 (b.length + 20), body := .neighbour b }
  | none => s

/-- R297, R299: the control processor takes the oldest frame of port k's queue and answers it. -/
def State.takeCpq (s : State) (k : Nat) : State :=
  match (s.port k).cpq with
  | [] => s
  | f :: r => (s.modPort k fun p => { p with cpq := r }).neighbourReply k f.reply

/-- While it runs, the control processor takes one frame of each port's queue in a tick; the manual gives it no rate (DESIGN CHOICE, log
entry 26). -/
def State.serveCpqs (s : State) : State := if s.fw.run.isSome then (List.range 8).foldl State.takeCpq s else s

/-- R297: where a good frame goes; the frames of the peal engine, the damper and the dictionary have commands of their own. `reply` is
what the control processor answers to a frame of its queue. -/
def State.sortFrame (s : State) (k tc : Nat) (f : RxFrame) (reply : Option (List Byte)) : State :=
  let p := s.port k
  if p.isGeril f s.peal.udpPort.toNat then s
  else if f.etype = s.eth.mgmtEtype.toNat then
    (if p.mgmtEn && s.car.en && s.macListed f.srcMac then (if s.stalePrefix f then s.dropStale f else s) else s.refuseMgmt k)
  else if f.isNeighbour then s.toCp k f.bytes reply
  else if p.rxrSize = 0 then s.modPort k fun p => p.count pRxNoq 1
  else s.toRing k tc 0 f.bytes

/-- R297, R304: the frame takes its place in its class's share of 256 KiB; at 128 KiB the device sends PFC. -/
def State.takeShare (s : State) (k tc len : Nat) : State :=
  let p := s.port k
  let c := p.cls tc
  let share := c.share + len
  if p.st = .up ∧ p.pfcOn tc ∧ 131072 ≤ share ∧ c.pfcAt.isNone then
    (s.setPort k (p.setCls tc { c with share := share, pfcAt := some p.ticks })).sendPfc k tc 0xFFFF
  else s.setPort k (p.setCls tc { c with share := share })

/-- FRAME_RECEIVE: with it come the codewords that FEC has corrected and failed to correct since the last one (R292). A frame with an error counts
in RX_FRAMES and RX_BYTES too, and takes no room of its class's share (DESIGN CHOICE, log entry 48). -/
def execFrameReceive (port : Fin 8) (f : RxFrame) (s : State) (fec : Nat × Nat := (0, 0)) (reply : Option (List Byte) := none) : Out :=
  let k := port.val
  let p := s.port k
  if p.st ≠ .up then .next s
  else
    let len := f.bytes.length
    let tc := p.rxClass f.pcp
    let runt := decide (len < 64)
    let big := decide (p.maxFrame < len)
    let s := s.modPort k fun p =>
      (((p.count pRxFrames 1).count pRxBytes len).count pFecCorrected fec.1).count pFecUncorrected fec.2
    if f.fcs || runt || big || f.symbol then
      let s := s.modPort k fun p =>
        (((p.count pRxFcs (b2n f.fcs)).count pRxRunt (b2n runt)).count pRxOversize (b2n big)).count pRxSymbol (b2n f.symbol)
      let off := s.anyConfidential
      if p.badHost ∧ !off ∧ p.rxrSize ≠ 0 then .next (s.toRing k tc (8 * b2n f.symbol + 4 * b2n big + 2 * b2n runt + b2n f.fcs) f.bytes)
      else if p.badCp ∧ !off then .next (s.toCp k f.bytes none)
      else .next s
    else if 262144 < (p.cls tc).share + len ∧ !p.pfcOn tc then .next (s.modPort k fun p => p.countTc pRxBufDrop tc 1)
    else .next ((s.takeShare k tc len).sortFrame k tc f reply)

/-- What one tick of 10 ns takes from the shares of a port, at its rate (log entry 26): the shares, and the classes whose
pause the device ends. -/
def Port.drain (p : Port) : Port × List Nat :=
  (List.range 8).foldl (fun (acc : Port × List Nat) t =>
    let c := acc.1.cls t
    let share := c.share - p.rate * 10 / 8
    if c.pfcAt.isSome ∧ share < 65536 then (acc.1.setCls t { c with share := share, pfcAt := none }, acc.2 ++ [t])
    else (acc.1.setCls t { c with share := share }, acc.2)) (p, [])

/-! ### Transmission and the commit of gate schedules (R299, R301 to R303) -/

/-- R299: does a class of higher priority have a frame that may start? TC0 to TC3 share one priority. -/
def Port.outranked (p : Port) (tc : Nat) : Bool :=
  (List.range 8).any fun t => decide (4 ≤ t ∧ tc < t) &&
    match sget [] p.txq t with
    | f :: _ => p.mayStart t f.len
    | [] => false

/-- R299: the population of TC0 to TC3 on port k: the class's active Geril streams. -/
def State.tcPopulation (s : State) (k t : Nat) : Nat :=
  max 1 (min 4095 (s.peal.tx.filter fun x => x.port == k && x.tc == t).length)

/-- R299, R262: the inputs of the arbiter of TC0 to TC3: the classes whose head frame may start, with their populations. -/
def State.tcAsks (s : State) (k : Nat) : List (Nat × Nat) :=
  let p := s.port k
  ((List.range 4).filter fun t => match sget [] p.txq t with
    | f :: _ => p.mayStart t f.len
    | [] => false).map fun t => (t, s.tcPopulation k t)

/-- R299, R262: is it the turn of class t of port k? -/
def State.tcTurn (s : State) (k t : Nat) : Bool := decide (4 ≤ t) || (s.port k).arb.pick (s.tcAsks k) == some t

/-- R262: the arbiter of a port once class t has been granted. -/
def State.tcGrant (s : State) (k t : Nat) : Arbiter := if 4 ≤ t then (s.port k).arb else (s.port k).arb.grant (s.tcAsks k) t

/-- FRAME_TRANSMIT: the head frame of class tc starts, or is discarded as GATE_OVERSIZE. A class whose next frame may not start then has no credit
(R262). -/
def execFrameTransmit (port tc : Fin 8) (s : State) : Out :=
  let k := port.val
  let t := tc.val
  let p := s.port k
  match sget [] p.txq t with
  | [] => .next s
  | f :: r =>
    let rest := { p with txq := sset [] p.txq t r }
    if p.st = .up ∧ p.oversize t f.len then .next ((s.setPort k (rest.count pGateOversize 1).dropIdle).portEvent k 4 t)
    else if !p.mayStart t f.len ∨ p.outranked t ∨ !s.tcTurn k t then .next s
    else
      let sent := ((rest.count pTxFrames 1).count pTxBytes f.len).countTc pTxClassFrames t 1
      .next ((s.setPort k { sent with txTil := p.ticks + p.wireNs f.len, txTc := t, arb := s.tcGrant k t }.dropIdle).emit
        (.frame k p.vlan (p.tcToPcp.toNat / 2 ^ (3 * t) % 8) f))

/-- GATE_ENTRY: the open gates follow the port timer. -/
def execGateEntry (port : Fin 8) (s : State) : Out := .next (s.modPort port.val fun p => { p with gates := p.gatesNow })

/-- R300, R10: a pending list as it is kept: the reserved bits of its entries read as zero. -/
def gateMask (b : List Byte) : List Byte :=
  (List.range (b.length / 8)).flatMap fun i => leBytes 8 (natAt b (8 * i) 8 % 2 ^ 30 + natAt b (8 * i + 4) 1 * 2 ^ 32)

/-- The entries of a pending list. -/
def gateList (b : List Byte) : List (BitVec 8 × Nat) :=
  (List.range (b.length / 8)).map fun i =>
    let w := natAt b (8 * i) 8
    (BitVec.ofNat 8 (w / 2 ^ 32 % 256), w % 2 ^ 30)

/-- R301: the change time: the first cycle start of the pending schedule at or after the timer plus 1,000 ns. -/
def changeTime (base cycle t : Nat) : Nat :=
  let a := t + 1000
  if a ≤ base then base else base + (a - base + cycle - 1) / cycle * cycle

/-- R301: an armed schedule whose change time has come becomes active; a frame in transmission whose gate it closes is counted. -/
def State.changeGates (s : State) (k : Nat) : State :=
  let p := s.port k
  match p.armed with
  | none => s
  | some (g, t) =>
    if p.timer < t then s
    else
      let p := { p with active := some g, armed := none }
      let p := ({ p with gates := p.gatesNow } : Port).dropIdle
      let cut := decide (p.ticks < p.txTil) && !p.gates.getLsbD p.txTc
      let p := if cut then p.count pGateOverrun 1 else p
      (s.setPort k p).portEvent k 5 0

/-- GATE_COMMIT: a write of 1 arms the pending schedule; one that is not a schedule of R300 is refused. It replaces an armed schedule only
before its change time. -/
def execGateCommit (pr : Principal) (port : Fin 8) (v : BitVec 8) (s : State) : Out :=
  .next (s.dictWrite pr (portWriter pr) false fun s =>
    let p := s.port port.val
    let l := gateList p.pendList
    if 1 < v.toNat then (rRANGE, s)
    else if v = 0 then (rOK, s)
    else if l.isEmpty ∨ 256 < l.length ∨ l.any (fun e => decide (e.2 = 0 ∨ 1000000000 < e.2)) ∨ p.pendCycle < 1000 ∨ 1000000000 < p.pendCycle then
      (rREFUSED, s)
    else
      let g : Sched := { list := l, cycle := p.pendCycle, base := p.pendBase }
      let s := s.changeGates port.val
      let p := s.port port.val
      (rOK, s.setPort port.val { p with armed := some (g, changeTime p.pendBase p.pendCycle p.timer) }))

/-- GATE_CHANGE. -/
def execGateChange (port : Fin 8) (s : State) : Out := .next (s.changeGates port.val)

/-- PORT_TIMER: a load moves every gate position; pauses and the watchdog go on. A schedule whose change time came before it is active. -/
def execPortTimer (pr : Principal) (port : Fin 8) (v : W64) (s : State) : Out :=
  .next (s.dictWrite pr (portWriter pr) false fun s =>
    let s := s.changeGates port.val
    let p := { s.port port.val with timer := v.toNat }
    (rOK, s.setPort port.val ({ p with gates := p.gatesNow } : Port).dropIdle))

end Sys2Proof.Machine
end

