-- ==== Sys2Proof/Machine/Boot.lean ====
section
/-! DEFINITION. Reset, boot and the choice of an image (R437, R455 to R462, R464), as operations that the firmware, life-cycle and
self-test commands share. -/

namespace Sys2Proof.Machine

/-! ### Images (R457, R458) -/

def imgVersion (b : List Byte) : Nat := natAt b 8 4
def imgBodyLen (b : List Byte) : Nat := natAt b 0x0C 4
def imgFence (b : List Byte) : Bool := natAt b 7 1 % 2 == 1
def imgMaxBody (kind : Nat) : Nat := if kind = 1 then 20967424 else 16773120

/-- R458: does the image verify, of kind 1 (slot) or 2 (recovery), at the fused version? -/
def imageOk (kind fused : Nat) (b : List Byte) : Bool :=
  natAt b 0 4 == 0x7A704657 && natAt b 4 2 == 1 && natAt b 6 1 == kind && decide (natAt b 7 1 < 2) &&
    decide (1 ≤ imgBodyLen b ∧ imgBodyLen b ≤ imgMaxBody kind) && zeroAt b 0x10 48 && zeroAt b 0x80 128 && zeroAt b 0xDED 531 &&
    Config.mldsaVerify 0 (bytesAt b 0 256) (bytesAt b 0x100 3309) &&
    shake256 (bytesAt b 4096 (imgBodyLen b)) == bytesAt b 0x40 64 && (kind == 2 || decide (fused ≤ imgVersion b))

/-! ### The boot record (R455, R456) -/

/-- R462: FW_FUSED_VERSION. -/
def Fw.fusedNow (f : Fw) : Nat := (f.fused.headD 0).toNat

/-- Slot A (false) or B (true). -/
def Fw.slot (f : Fw) (b : Bool) : SlotState := if b then f.slotB else f.slotA
def Fw.image (f : Fw) (b : Bool) : List Byte := if b then f.imageB else f.imageA
def Fw.setSlot (f : Fw) (b : Bool) (v : SlotState) : Fw := if b then { f with slotB := v } else { f with slotA := v }

/-- R456: the code of a slot state, and the state of a code; a code above 4, which no write of the device gives, reads as BAD (DESIGN CHOICE,
log entry 53). -/
def slotCode : SlotState → Nat
  | .empty => 0
  | .pending => 1
  | .trial => 2
  | .confirmed => 3
  | .bad => 4
def slotOf (v : Nat) : SlotState := [SlotState.empty, .pending, .trial, .confirmed].getD v .bad

/-- R455: is a copy of the boot record valid? -/
def bootValid (b : List Byte) : Bool := natAt b 0 4 == 0x7A704252 && shake256 (bytesAt b 0 64) == bytesAt b 0x40 64

/-- R455: the higher SEQ by serial-number arithmetic. -/
def serialAbove (a b : Nat) : Bool := let d := (a + 2 ^ 32 - b) % 2 ^ 32; decide (0 < d ∧ d < 2 ^ 31)

/-- R455: the current copy, true for copy 1; none where neither is valid. Of two valid copies that serial-number arithmetic does not order,
copy 0 is taken (DESIGN CHOICE, log entry 53). -/
def Fw.current (f : Fw) : Option Bool :=
  match bootValid f.copy0, bootValid f.copy1 with
  | false, false => none
  | true, false => some false
  | false, true => some true
  | true, true => some (serialAbove (natAt f.copy1 4 4) (natAt f.copy0 4 4))

/-- R455, R464: ROM reads both copies and takes the current one; where neither is valid both slots are taken to be EMPTY. -/
def Fw.load (f : Fw) : Fw :=
  match f.current with
  | none => { f with bootSeq := 0, active := false, slotA := .empty, slotB := .empty, trialBoots := 0 }
  | some c =>
    let b := if c then f.copy1 else f.copy0
    { f with bootSeq := BitVec.ofNat 32 (natAt b 4 4), active := natAt b 8 1 == 1, slotA := slotOf (natAt b 9 1), slotB := slotOf (natAt b 10 1), trialBoots := natAt b 11 1 }

/-- R455: a change of the boot record, with SEQ + 1, is written to the copy that is not current. -/
def Fw.record (f : Fw) : Fw :=
  let b := bootBytes (f.bootSeq + 1).toNat f.active (slotCode f.slotA) (slotCode f.slotB) f.trialBoots
  let f' := { f with bootSeq := f.bootSeq + 1 }
  if f.current = some false then { f' with copy1 := b, recordAt := some true } else { f' with copy0 := b, recordAt := some false }

/-- R455, R465: a power loss while the record of a start was written leaves the copy that was being written without a valid record, and the other
as it was; before a start has begun to write there is none to lose. -/
def Fw.cut (f : Fw) : Fw :=
  match f.recordAt with
  | none => f
  | some c => if c then { f with copy1 := [] } else { f with copy0 := [] }
def slotRun (b : Bool) : FwRun := if b then .slotB else .slotA
/-- The slot that an image runs from. -/
def FwRun.slot : FwRun → Option Bool
  | .slotA => some false
  | .slotB => some true
  | _ => none

/-- R456: a slot is selected at a start: its new state, and whether its image runs. -/
def Fw.trySlot (f : Fw) (b : Bool) : Fw × Bool :=
  let ok := imageOk 1 f.fusedNow (f.image b)
  match f.slot b with
  | .pending => if ok then ({ f.setSlot b .trial with trialBoots := 1 }, true) else (f.setSlot b .bad, false)
  | .trial => if ok ∧ f.trialBoots < 3 then ({ f with trialBoots := f.trialBoots + 1 }, true) else (f.setSlot b .bad, false)
  | .confirmed => if ok then (f, true) else (f.setSlot b .bad, false)
  | _ => (f, false)

/-- R459: the cases in their order, each a slot that is selected when it is in the state that its row names. -/
def Fw.tryCases (f : Fw) : List (Bool × Bool) → Fw
  | [] => { f with selected := if imageOk 2 0 f.recovery then .recovery else .loader }
  | (b, fresh) :: r =>
    let here := if fresh then f.slot b == .pending || f.slot b == .trial else f.slot b == .confirmed
    if !here then Fw.tryCases f r
    else match f.trySlot b with
      | (f', true) => { f' with selected := slotRun b }
      | (f', false) => Fw.tryCases f' r

/-- R459: the selection of a start, and the boot record that it writes. -/
def Fw.select (f : Fw) : Fw := (f.tryCases [(false, true), (true, true), (f.active, false), (!f.active, false)]).record

/-! ### Reset (R216, R437, R438, R464, R470, R475) -/

/-- What flash and the fuses keep of the control processor's state through a device reset. -/
def Fw.afterReset (f : Fw) : Fw :=
  { f with run := none, recordAt := none, loaded := [], trialFrom := none, wdtFrom := 0, restarts := 0, lastCause := 0, wdt := f.flashWdt.getD 1000, restarting := none }

/-- What fuses and flash keep of the security block: life cycle, disabled seed, ID_CERT; a fresh LC_CHALLENGE is drawn. -/
def Sec.afterReset (k : Sec) : Sec :=
  { Sec.reset with lc := k.lc, transitions := k.transitions, challenges := k.challenges + 1, seedOff := k.seedOff, idCertFlash := k.idCertFlash }

/-- Slabs and limits that flash keeps (R215, R438). -/
def memAfterReset (f : Fw) : Mem :=
  { Mem.reset with
    retireList := f.flashRetire, retiredSlabs := f.flashRetired
    slabs := f.flashRetired.map fun n => (n, { SlabEntry.reset with life := .retired })
    retireCeLimit := f.flashCeLimit.getD 1024, scrubPeriod := f.flashScrub.getD 86400 }

/-- R390, R438: the damper at reset with the stored CAP_SET. -/
def damperAfterReset (f : Fw) : Damper :=
  { Damper.reset with capSet := f.flashCap.getD Config.capFused, capInForce := f.flashCap.getD Config.capFused }

/-- R475: a core BIST that a reset or a life-cycle transition cuts off leaves its core CHOKED with the abort bit set. -/
def State.abortTests (s : State) (l : List Nat) : State :=
  let s := { s with bist := { s.bist with cores := [], aborted := l } }
  l.foldl (fun s p =>
    let s := s.modCore p fun c => { c with life := .choked }
    (({ s with bist := { s.bist with statusCore := sset 0 s.bist.statusCore p 7 } }).unmap p)) s

/-- R475: the cores whose BIST is aborted now, or was since the dictionary was last served. -/
def Bist.abortList (b : Bist) : List Nat := (b.cores.map BistRun.target).foldl setIns b.aborted

/-- R397, R487: a device that is in thermal shutdown stays in it through a device reset. -/
def State.keepShutdown (s : State) : State :=
  { s with damper := { s.damper with shutdown := true, vcq := [(0, 620), (1, 620), (2, 620), (3, 620)] }, hub := { s.hub with fault := 4 } }

/-- The device as a reset leaves it: pins, fuses, flash, the trace, a thermal shutdown and the waiting commands stay. -/
def State.resetKeep (s : State) : State :=
  let h := s.hub
  let t := ({ State.reset with
      pending := s.pending
      hub := { Hub.reset with pwrgd := h.pwrgd, devrstN := h.devrstN, perstN := h.perstN, thermN := h.thermN, refclkH := h.refclkH,
                              refclkE := h.refclkE, maddr := h.maddr, tap := h.tap, tapLoaded := h.tapLoaded, boundary := h.boundary, free := h.free, out := h.out }
      mem := memAfterReset s.fw
      damper := damperAfterReset s.fw
      sec := s.sec.afterReset
      fw := s.fw.afterReset
      bist := { Bist.reset with statusDev := s.bist.statusDev, sigDev := s.bist.sigDev } }).abortTests s.bist.abortList
  (if s.damper.shutdown then t.keepShutdown else t).retap

/-- R464, rows 1 to 4: the boot begins and ROM selects an image. -/
def State.boot (s : State) : State :=
  let s := s.resetKeep
  { s with fw := s.fw.load.select }

/-! ### The control processor (R370, R453, R461) -/

/-- The image that a selection names; the ROM loader has none. -/
def Fw.imageOf (f : Fw) : FwRun → List Byte
  | .slotA => f.imageA
  | .slotB => f.imageB
  | .recovery => f.recovery
  | .loader => []

/-- The selected image starts; a TRIAL slot opens its window. -/
def State.startImage (s : State) : State :=
  let trial : Bool := match s.fw.selected.slot with
    | some b => s.fw.slot b == .trial
    | none => false
  { s with hub := { s.hub with started := true }, fw := { s.fw with run := some s.fw.selected, loaded := s.fw.imageOf s.fw.selected, trialFrom := if trial then some s.now else none, wdtFrom := s.now } }

/-- R223, R370: the control processor is gone from its queues: a request that it reads in part is not read further, a response that it writes in
part is abandoned, and the request channel is flushed. -/
def State.leaveQueues (s : State) : State :=
  let m := s.mqueue qidCpRsp
  let m := (m.writing.toList.map Writing.src ++ m.waiting.map Ask.src ++ m.cut).foldl (fun m src => m.abandon s.now qidCpRsp src) m
  ((s.setQueue qidCpRsp m).setQueue qidCpReq { s.mqueue qidCpReq with reading := none }).flushQueue qidCpReq

/-- R230, R370, R448: a waiting request gets no response: the mailbox that it came from is free again. -/
def State.loseWait (s : State) (w : VWait) : State :=
  match w.ch with
  | .mailbox fn =>
    if w.quiet then s else s.setFn fn.val { s.fn fn.val with mailbox := { (s.fn fn.val).mailbox with busy := false } }
  | _ => s

/-- R370: the requests that stand in the CP request channel are lost with its flush. -/
def State.losePassed (s : State) : State :=
  let s := (s.dict.waiting.filter VWait.passed).foldl State.loseWait s
  { s with dict := { s.dict with waiting := s.dict.waiting.filter fun w => !w.passed } }

/-- A restart with a cause begins: the request channel is flushed, snapshots and transfers are discarded, ROM reads the boot record and
selects. -/
def State.restartCp (s : State) (cause : Nat) : State :=
  let s := s.leaveQueues.losePassed
  { s with dict := { s.dict with chans := s.dict.chans.map fun c => { c with snapshot := none, transfer := none } }
           fw := { s.fw with run := none, trialFrom := none, restarting := some (BitVec.ofNat 8 cause) }.load.select }

end Sys2Proof.Machine
end

