-- ==== Sys2Proof/Machine/Contexts.lean ====
section
/-! DEFINITION. The context family (R241, R260, R261, R266): the operations of CTX_OP, teardown and its end, and partition
reset. -/

namespace Sys2Proof.Machine

/-! ### Valid records (R240) -/

/-- R240: is the queue's descriptor valid? -/
def Ctx.queueOk (x : Ctx) (q : Nat) : Bool :=
  recField x.record (64 + 64 * q + 7) 5 == 0 &&
    (!x.qEn q || (decide (x.qLog q ≤ 12) && x.qBase q % (256 * x.qSize q) == 0))

/-- R240: is the record valid for CREATE and RESUME? -/
def Ctx.valid (x : Ctx) : Bool :=
  recField x.record 320 192 == 0 && recField x.record 48 16 == 0 && recField x.record 12 2 == 0 && recField x.record 0 12 == 0 &&
    decide (recField x.record 32 16 ≤ 50000) && decide (1 ≤ recField x.record 22 10 ∧ recField x.record 22 10 ≤ 1000) &&
    decide (x.reserve ≤ 64) && (x.reserve == 0 || !x.bestEffort) && x.ptbase.toNat % 32768 == 0 && (List.range 4).all x.queueOk

/-- R241: would the RESERVE values of the partition's ACTIVE latency-critical contexts, with context c among them, exceed
its mapped cores? -/
def State.overReserved (s : State) (c : Nat) : Bool :=
  let x := s.ctx c
  let sum := ((s.disp.ctxs.filter fun k => k.1 != c && k.2.life == .active && !k.2.bestEffort && k.2.part == x.part).map
    fun k => k.2.reserve).sum
  decide ((s.mappedCores x.part.toNat 0).length < sum + (if x.bestEffort then 0 else x.reserve))

/-- R490: contexts of partition n that are not FREE. -/
def State.ctxsHeld (s : State) (n : Nat) : Nat := (s.disp.ctxs.filter fun k => k.2.life != .free && k.2.part.toNat == n).length

/-! ### CTX_OP (R241, R265, R413, R436) -/

/-- The context that a principal's CTX_SELECT names. -/
def State.selected (s : State) (pr : Principal) : Nat := sget 0 s.disp.ctxSel (prKey pr)

/-- R241, R413: may the principal act on the context? HOST may not while its partition is confidential, but for
DESTROY. -/
def State.mayOp (s : State) (pr : Principal) (destroy : Bool) : Bool :=
  let n := (s.ctx (s.selected pr)).part.toNat
  (prHost pr && (destroy || !s.confidential n)) || prOwns pr n

/-- One CTX_OP write: `f` gives the new state, none where the operation is refused. -/
def State.ctxOp (s : State) (pr : Principal) (destroy : Bool) (f : State → Nat → Option State) : State :=
  s.dictWrite pr (s.mayOp pr destroy) false fun s =>
    match f s (s.selected pr) with
    | some t => (rOK, t)
    | none => (rREFUSED, s)

/-- CREATE: the queues start afresh, and CTX_STARVE, CTX_DEBT and CTX_RERUNS are cleared. Ranges that a MEASURE of the FREE context sealed stay
sealed until its teardown (R419). -/
def execCreate (pr : Principal) (s : State) : Out :=
  .next (s.ctxOp pr false fun s c =>
    let x := s.ctx c
    let n := x.part.toNat
    if x.life ≠ .free ∨ 16 ≤ n ∨ !x.valid ∨ s.overReserved c ∨ (s.part n).ctxQuota ≤ s.ctxsHeld n ∨ (s.part n).resetState = 1 ∨
        s.sec.lc = .blank then none
    else some (s.setCtx c { x with
      life := .active, starve := 0, debt := 0, skipTil := 0, reruns := 0, queues := [], pending := none, owed := [], used := [] }).dropIdle)

/-- STOP: no further fetch; with nothing issued the context is STOPPED at once. A head that was consumed and has not issued stays through STOPPED
and issues after RESUME, not checked again against a record rewritten meanwhile (DESIGN CHOICE, log entry 71: R241 is silent on it). -/
def execStop (pr : Principal) (s : State) : Out :=
  .next (s.ctxOp pr false fun s c =>
    let x := s.ctx c
    if x.life = .active then some ((s.setCtx c { x with life := .stopping }).settle c).dropIdle else none)

/-- RESUME. -/
def execCtxResume (pr : Principal) (s : State) : Out :=
  .next (s.ctxOp pr false fun s c =>
    let x := s.ctx c
    if x.life = .stopped ∧ x.valid ∧ !s.overReserved c then some (s.setCtx c { x with life := .active }).dropIdle else none)

/-- R241: after RESET a queue resumes at the entry behind the last one that was completed or faulted at fetch. -/
def CmdQueue.rewind (k : CmdQueue) : CmdQueue :=
  { k with head := k.resume, phase := k.resumePhase, fetched := none, stale := 0, refetch := none, parked := false }

/-- RESET. -/
def execCtxReset (pr : Principal) (s : State) : Out :=
  .next (s.ctxOp pr false fun s c =>
    let x := s.ctx c
    if x.life = .faulted then
      some (s.setCtx c { (List.range 4).foldl (fun x q => x.setQueue q (x.queue q).rewind) x with life := .stopped })
    else none)

/-- DESTROY. -/
def execDestroy (pr : Principal) (s : State) : Out :=
  .next (s.ctxOp pr true fun s c => if (s.ctx c).life = .free then none else some (s.destroy c))

/-! ### Teardown (R260, R261) -/

/-- R261: the entry that faulted at fetch: its record, where it can be read, and the place where its queue resumes. -/
def State.fetchRecord (s : State) (c : Nat) (f : CtxFault) : State :=
  if !f.atFetch then s
  else match f.entry with
    | some e => s.completeEntry c f.queue f.idx e f.status 0 false 0
    | none =>
      let x := s.ctx c
      let a := (x.queue f.queue).after (x.qSize f.queue) f.idx
      s.modQueue c f.queue fun k => { k with resume := a.1, resumePhase := a.2 }

/-- CONTEXT_TEARDOWN: the context's pending fault tears it down at once; a record that cannot be posted yet is owed. -/
def execContextTeardown (c : Fin 4096) (s : State) : Out :=
  let x := s.ctx c.val
  match x.pending with
  | none => .next s
  | some f =>
    match x.life with
    | .active | .stopping | .stopped =>
      let s := s.dropCommands c.val (some f.status) f.uid
      .next ((s.fetchRecord c.val f).teardown c.val false none none)
    | _ => .next s

/-- R216, R260: does the teardown of the context still wait: for a wipe of a PRIV page or of a scratchpad (R90), or for a record that
cannot be posted? The last is a DESIGN CHOICE (log entry 71). -/
def State.teardownWaits (s : State) (c : Nat) : Bool :=
  s.mem.wipes.any (fun j => j.why == .teardown c) || (s.ctx c).used.any (fun p => (s.core p).wipeDue) || !(s.ctx c).owed.isEmpty

/-- R260: the owed records of the contexts in TEARDOWN, as soon as they can be posted. -/
def State.payTeardowns (s : State) : State :=
  ((s.disp.ctxs.filter fun k => k.2.life == .teardown && !k.2.owed.isEmpty).map (·.1)).foldl (fun s c => (s.payOwed c).dropIdle) s

/-- TEARDOWN_END: the last wipe has ended: FREE with the record's reset values, or FAULTED with its status and event. The hazard ranges are
released, and MEASUREs that waited for them are taken up (R419). -/
def execTeardownEnd (c : Fin 4096) (s : State) : Out :=
  let s := if (s.ctx c.val).life = .teardown then s.payOwed c.val else s
  let x := s.ctx c.val
  if x.life ≠ .teardown ∨ s.teardownWaits c.val then .next s
  else
    let n := x.part.toNat
    match x.toFree, x.pending with
    | false, some f =>
      let s := s.setCtx c.val { x with life := .faulted, fault := f.status, pending := none, used := [], torn := [] }
      .next (s.statusEvent n 5 f.status (some n) (some (c.val, f.queue)) (f.idx + b2n f.atFetch * 2 ^ 16)).runMeasures
    | _, _ =>
      let s := s.setCtx c.val { x with
        life := .free, toFree := true, record := Ctx.recordReset, ptbase := 0, queues := [], pending := none, seals := [], used := [], torn := [] }
      .next ((s.finishPartReset n).serveHeld.runMeasures)

/-- PART_RESET: a second write joins the running reset. -/
def execPartReset (pr : Principal) (n : Fin 16) (v : BitVec 8) (s : State) : Out :=
  .next (s.dictWrite pr (prHost pr || prCp pr || prOwns pr n.val) false fun s =>
    if 1 < v.toNat then (rRANGE, s)
    else if v = 0 ∨ (s.part n.val).resetState = 1 then (rOK, s)
    else (rOK, s.resetPart n.val))

end Sys2Proof.Machine
end

