-- ==== Sys2Proof/Machine/Commands.lean ====
section
/-! DEFINITION. The command family (chapter 11): doorbells, semaphore additions, fetch, issue, commit, slices, kills,
re-runs and overruns. -/

namespace Sys2Proof.Machine

/-! ### The doorbell page (R244, R245, R254, R271) -/

/-- R268, R271, R426: may the function use the doorbell page of the context? The page of a FREE context drops writes. -/
def State.ownsPage (s : State) (fn c : Nat) (ide : Bool := true) : Bool :=
  let x := s.ctx c
  s.takesRequest fn ide && x.life != .free && (fn == 0 || fn == x.part.toNat + 1)

/-- R244, R245, R254: a write at an offset of a doorbell page that the function may use. A TAIL ends the back-off or the wait of
DOORBELL_AHEAD, and fetch restarts with a fresh count. A register that is read-only, or an offset that names none, keeps nothing. -/
def State.pageWrite (s : State) (c off : Nat) (v : W64) : State :=
  if off = 0x100 then (s.semAdd (s.ctx c).part.toNat (fld v 43 32) (fld v 31 0)).dropIdle
  else if off = 0x108 then s.setCtx c { s.ctx c with semsel := BitVec.ofNat 12 v.toNat }
  else if off < 0x20 ∧ off % 8 = 0 then
    s.modQueue c (off / 8) fun k => { k with tail := fld v 15 0 % (s.ctx c).qSize (off / 8), parked := false, refetch := none, stale := 0 }
  else s

/-- DOORBELL: a write of TAIL, or of the page's other registers. -/
def execDoorbell (fn : Fin 17) (c : Fin 4096) (off : BitVec 12) (v : W64) (s : State) (ide : Bool := true) : Out :=
  if s.ownsPage fn.val c.val ide then .next (s.pageWrite c.val off.toNat v) else .next s

/-- R254: SEM_ADD. -/
def execSemAdd (fn : Fin 17) (c : Fin 4096) (v : W64) (s : State) (ide : Bool := true) : Out :=
  if s.ownsPage fn.val c.val ide then .next (s.pageWrite c.val 0x100 v) else .next s

/-! ### Fetch (R245, R246, R261) -/

/-- R245: the 256 bytes of the entry at the head: from device memory, where the read may meet errors (R213), or from the host as the
command supplies them, by a snooped read request of the partition's VF (R269, R280). -/
def State.readEntry (s : State) (c q : Nat) (hostData : List Byte) (m : List EccHit) : Got (List Byte) × State :=
  let x := s.ctx c
  if x.qLoc q then s.vaReadErrs c (x.qBase q + 256 * (x.queue q).head) 256 m
  else
    let f := fnOfPart x.part.toNat
    if s.canMaster f then (.ok (bytesAt hostData 0 256), s.emit (.hostRead f (x.qBase q + 256 * (x.queue q).head) 256 false))
    else (.held, s)

/-- R245: the head moves to the next entry; the expected phase flips as it wraps to entry 0. -/
def CmdQueue.advance (k : CmdQueue) (size : Nat) : CmdQueue :=
  let h := k.head + 1
  { k with head := if h = size then 0 else h, phase := if h = size then !k.phase else k.phase, refetch := none, stale := 0 }

/-- R261: a fault found at fetch; the entry counts as consumed. -/
def State.fetchFault (s : State) (c q : Nat) (st : BitVec 16) (e : Option CmdEntry) : State :=
  let idx := ((s.ctx c).queue q).head
  let s := s.modQueue c q fun k => k.advance ((s.ctx c).qSize q)
  s.setCtx c { s.ctx c with pending := some { status := st, queue := q, idx := idx, atFetch := true, uid := none, entry := e } }

/-- R245: the entry is stale after n stale re-fetches: the next re-fetch is due 2^n µs from now, and after the eighth
DOORBELL_AHEAD is posted and fetch waits for a doorbell. -/
def State.staleEntry (s : State) (c q n : Nat) : State :=
  let x := s.ctx c
  if n < 8 then s.modQueue c q fun k => { k with stale := n, refetch := some (s.now + 1000 * 2 ^ n) }
  else
    let s := s.modQueue c q fun k => { k with stale := 0, refetch := none, parked := true }
    s.statusEvent x.part.toNat 1 stDOORBELL_AHEAD (some x.part.toNat) (some (c, q)) (x.queue q).head

/-- One fetch of the head entry; `n` counts the stale re-fetches made if this one is stale too. -/
def State.fetchHead (s : State) (c q n : Nat) (hostData : List Byte) (m : List EccHit) : State :=
  let x := s.ctx c
  let k := x.queue q
  match s.readEntry c q hostData m with
  | (.held, s) => s
  | (.fault st, s) => s.fetchFault c q st none
  | (.ok b, s) =>
    if entryPhase b != k.phase then s.staleEntry c q n
    else
      let e := decodeEntry b
      if s.badEntry x e then s.fetchFault c q stBAD_COMMAND (some e)
      else (s.modQueue c q fun k =>
        { k.advance (x.qSize q) with fetched := some { idx := k.head, entry := e, restart := e.restartable } }).dropIdle

/-- R245: may the head of the queue be fetched, the back-off aside? -/
def State.mayFetch (s : State) (c q : Nat) : Bool :=
  let x := s.ctx c
  let k := x.queue q
  x.life == .active && x.pending.isNone && s.commandsRun && x.qEn q && k.fetched.isNone && !k.parked && k.head != k.tail

/-- COMMAND_FETCH. -/
def execCommandFetch (c : Fin 4096) (q : Fin 4) (hostData : List Byte) (s : State) (m : List EccHit := []) : Out :=
  if s.mayFetch c.val q.val && ((s.ctx c.val).queue q.val).refetch.isNone then .next (s.fetchHead c.val q.val 0 hostData m)
  else .next s

/-- REFETCH_TIMER: a back-off interval has passed. -/
def execRefetchTimer (c : Fin 4096) (q : Fin 4) (hostData : List Byte) (s : State) (m : List EccHit := []) : Out :=
  let k := (s.ctx c.val).queue q.val
  match k.refetch with
  | none => .next s
  | some t =>
    if s.mayFetch c.val q.val && decide (t ≤ s.now) then .next (s.fetchHead c.val q.val (k.stale + 1) hostData m) else .next s

/-! ### Issue (R250, R251, R256, R257, R259) -/

/-- The head leaves the queue and becomes an issued command on its gang. -/
def State.issueHead (s : State) (c q : Nat) (f : Fetched) (gang : List Nat) (stage : Stage) (len : Nat) : State :=
  let uid := s.disp.nextUid
  let i : Issued :=
    { uid := uid, ctx := c, queue := q, idx := f.idx, entry := f.entry, restart := f.restart, gang := gang, ended := [],
      gsems := [], stage := stage, sliceAt := s.now, sliceLen := len, allow := none, reruns := 0, choked := false }
  let s := { s with disp := { s.disp with issued := s.disp.issued ++ [i], nextUid := uid + 1 } }
  s.modQueue c q fun k => { k with fetched := none }

/-- R90: the context has used the cores. -/
def State.noteUsed (s : State) (c : Nat) (gang : List Nat) : State :=
  let x := s.ctx c
  s.setCtx c { x with used := gang.foldl setIns x.used }

/-- R256, R367: may a command of context c with entry e be granted cores before others that wait? -/
def State.mayPlace (s : State) (c : Nat) (e : CmdEntry) : Bool :=
  let x := s.ctx c
  latencyCritical x e || !s.lcWins x.part.toNat

/-- R259, R262: the context's heads are passed over until the skipped slice has ended, and their inputs have no credit. -/
def State.skipSlice (s : State) (c : Nat) (x : Ctx) (til : Nat) : State := (s.setCtx c { x with skipTil := til }).dropIdle

/-- RUN: the head that the arbiter of its class grants (R262) is placed and its gang starts, or, latency-critical, it kills best-effort
commands for their cores. A slice that the debt consumes is skipped instead, and the arbiter's grant is then not used (DESIGN CHOICE, log entry
62). -/
def execRun (c : Fin 4096) (q : Fin 4) (s : State) : Out :=
  let x := s.ctx c.val
  match (x.queue q.val).fetched with
  | none => .next s
  | some f =>
    let lc := latencyCritical x f.entry
    if f.entry.opc ≠ 1 ∨ !s.issuable c.val q.val ∨ s.rerunWaits x.part.toNat lc ∨ !s.mayPlace c.val f.entry then .next s
    else match s.placement c.val f.entry f.restart with
      | none => .next (if lc then s.killFor c.val f.entry f.restart else s)
      | some gang =>
        if !s.runGrant c.val q.val lc then .next s
        else match x.openSlice with
        | (x', none) => .next (s.skipSlice c.val x' (s.now + x.sliceNs))
        | (x', some len) =>
          let uid := s.disp.nextUid
          let s := ((s.takeGrant c.val q.val lc).setCtx c.val x').issueHead c.val q.val f gang .running len
          .next ((s.noteUsed c.val gang).startGang uid gang f.entry.prog f.entry.args).dropIdle

/-- MARK: no work; it waits for its place in the commit order. -/
def execMark (c : Fin 4096) (q : Fin 4) (s : State) : Out :=
  match ((s.ctx c.val).queue q.val).fetched with
  | none => .next s
  | some f =>
    if f.entry.opc = 2 ∧ s.issuable c.val q.val then .next (s.issueHead c.val q.val f [] .ended 0).dropIdle else .next s

/-! ### Commit (R252, R253) -/

/-- The oldest uncommitted command of a queue. -/
def State.oldest (s : State) (c q : Nat) : Option Issued := s.disp.issued.find? fun i => i.ctx == c && i.queue == q

/-- R252, rows 4 to 7. -/
def State.commitCmd (s : State) (i : Issued) : State :=
  let n := (s.ctx i.ctx).part.toNat
  let s := s.commitPeals i.uid
  let s := s.completeEntry i.ctx i.queue i.idx i.entry i.status i.flags false i.reruns
  let s := i.entry.rels.foldl (fun s r => s.semAdd n r.1 r.2) s
  let s := match i.entry.irq with
    | some v => s.msix (fnOfPart n) v
    | none => s
  ((s.delCmd i.uid).settle i.ctx).runMeasures.dropIdle

/-- COMMIT: the oldest command of the queue has ended, and its record can be posted; the walk for it meets the errors that stand in the table
words (R213). After a thermal shutdown none
commits (R397). -/
def execCommit (c : Fin 4096) (q : Fin 4) (s : State) : Out :=
  match s.oldest c.val q.val with
  | none => .next s
  | some i =>
    if i.stage ≠ .ended ∨ (s.ctx c.val).pending.isSome ∨ s.damper.shutdown then .next s
    else
      let s := s.meetRecord c.val i.entry
      match s.recordReady c.val i.entry with
      | .held => .next s
      | .fault st => .next (s.faultCmd i.uid st)
      | .ok _ => .next (s.commitCmd i)

/-! ### Slices, kills and re-runs (R257 to R259, R367) -/

/-- R257: does a command of another context of the same or a higher class wait for a core of the command? One that free cores suffice for waits
for none of them. -/
def State.contended (s : State) (i : Issued) : Bool :=
  let x := s.ctx i.ctx
  let n := x.part.toNat
  let lc := latencyCritical x i.entry
  let wants (c : Nat) (e : CmdEntry) (restart : Bool) : Bool :=
    (s.placement c e restart).isNone && ((s.mappedCores n e.qmask).map Prod.snd).any fun p => i.gang.contains p
  let heads := s.waitingHeads n true ++ (if lc then [] else s.waitingHeads n false)
  heads.any (fun h => h.1 != i.ctx && wants h.1 h.2.2.entry h.2.2.restart) ||
    s.disp.issued.any fun j => j.stage == .waitRerun && j.ctx != i.ctx && (s.ctx j.ctx).part.toNat == n &&
      (latencyCritical (s.ctx j.ctx) j.entry || !lc) && wants j.ctx j.entry j.restart

/-- SLICE_CLOSE: a new slice opens at the close, or the command is killed, or it runs on its allowance. -/
def execSliceClose (uid : Nat) (s : State) : Out :=
  match s.cmd uid with
  | none => .next s
  | some i =>
    let close := i.sliceAt + i.sliceLen
    if i.stage ≠ .running ∨ i.allow.isSome ∨ s.now < close then .next s
    else if !s.contended i then
      let x := s.ctx i.ctx
      match x.openSlice with
      | (x', some len) =>
        .next ((s.setCtx i.ctx x').modCmd uid fun i => { i with sliceAt := close, sliceLen := len })
      | (x', none) =>
        .next ((s.skipSlice i.ctx x' (close + x.sliceNs)).modCmd uid fun i =>
          { i with sliceAt := close, sliceLen := x.sliceNs })
    else if i.restart then .next (s.killCmd uid)
    else .next (s.modCmd uid fun i => { i with allow := some close })

/-- KILL_COMPLETE: rows 4 and 5 of R258. -/
def execKillComplete (uid : Nat) (s : State) : Out :=
  match s.cmd uid with
  | none => .next s
  | some i =>
    if i.stage = .killing then
      .next ((s.releaseGang uid i.gang).modCmd uid fun i => { i with stage := .waitRerun, gang := [] })
    else .next s

/-- RERUN: the killed command is placed again and starts from R95; a choked one whose gang no longer fits the partition
faults (R367). -/
def execRerun (uid : Nat) (s : State) : Out :=
  match s.cmd uid with
  | none => .next s
  | some i =>
    let x := s.ctx i.ctx
    let n := x.part.toNat
    let lc := latencyCritical x i.entry
    if i.stage ≠ .waitRerun ∨ x.pending.isSome ∨ !s.commandsRun ∨ s.now < x.skipTil then .next s
    else if i.choked ∧ (s.mappedCores n i.entry.qmask).length < i.entry.gang then .next (s.faultCmd uid stBAD_COMMAND)
    else if (s.rerunWaits n lc ∧ !i.choked) ∨ !s.mayPlace i.ctx i.entry then .next s
    else match s.placement i.ctx i.entry i.restart with
      | none => .next (if lc then s.killFor i.ctx i.entry i.restart else s)
      | some gang =>
        match x.openSlice with
        | (x', none) => .next (s.skipSlice i.ctx x' (s.now + x.sliceNs))
        | (x', some len) =>
          let s := s.setCtx i.ctx { x' with reruns := satAdd 64 x'.reruns 1 }
          let s := s.modCmd uid fun i =>
            { i with gang := gang, ended := [], gsems := [], stage := .running, sliceAt := s.now, sliceLen := len, allow := none,
                     reruns := i.reruns + 1, choked := false }
          .next ((s.noteUsed i.ctx gang).startGang uid gang i.entry.prog i.entry.args).dropIdle

/-- OVERRUN: the allowance of a non-restartable command has closed. -/
def execOverrun (uid : Nat) (s : State) : Out :=
  match s.cmd uid with
  | none => .next s
  | some i =>
    match i.stage, i.allow with
    | .running, some t => .next (if t + (s.ctx i.ctx).ovrNs ≤ s.now then s.faultCmd uid stOVERRUN else s)
    | _, _ => .next s

end Sys2Proof.Machine
end

