-- ==== Sys2Proof/Machine/Peal.lean ====
section
/-! DEFINITION. The PEAL family: issue of the fourteen operations (R184, R328, R329, R333 to R336), and the completion of an
instance (R342). -/

namespace Sys2Proof.Machine

/-! ### The checks of R328 -/

def PealDesc.grouped (d : PealDesc) : Bool := decide (d.op ≤ 7) || d.op == 9
def PealDesc.isHost (d : PealDesc) : Bool := d.op == 10 || d.op == 11
def PealDesc.reduces (d : PealDesc) : Bool := d.op == 1 || d.op == 3
/-- R328: the copying operations, whose IFMT and OFMT must agree: the gathers, exchanges and one-sided moves. PERMUTE, HOST_READ and HOST_WRITE, whose
tables and lengths count bytes, are left out (DESIGN CHOICE, log entry 46: the rule does not list them). -/
def PealDesc.copies (d : PealDesc) : Bool := d.op == 2 || d.op == 4 || d.op == 5 || d.op == 6 || d.op == 7 || d.op == 8

/-- The buffers that an operation reads on a member, and the ranges that it names in a region: (address, length). -/
def PealDesc.readsOf (d : PealDesc) (v : View) : List (Nat × Nat) :=
  let cs := fmtBytes d.ifmt d.count
  match d.op with
  | 1 => (d.src.take d.nsrc).map fun a => (a, fmtBytes d.ifmt (v.n * d.count))
  | 2 => if d.genEn then [] else [(d.src0, cs)]
  | 3 => (d.src.take d.nsrc).map fun a => (a, cs)
  | 4 => [(d.src0, v.n * cs)]
  | 5 => if v.me = d.peer then [(d.src0, cs)] else []
  | 6 | 8 => [(d.src0, cs), (d.dst, cs)]
  | 7 | 12 => [(d.src0, cs)]
  | 9 => (d.table, 64) :: (v.perm.filter fun e => e.src == v.me).map fun e => (d.dst + e.srcOff, e.len)
  | 11 => [(d.src0, d.count)]
  | _ => []

/-- The buffers that an operation writes on a member. -/
def PealDesc.writesOf (d : PealDesc) (v : View) : List (Nat × Nat) :=
  let cs := fmtBytes d.ofmt d.count
  let body : List (Nat × Nat) := match d.op with
    | 1 | 3 | 5 | 7 => [(d.dst, cs)]
    | 2 | 4 => [(d.dst, v.n * cs)]
    | 9 => (v.pages.map fun a => (a, 2 ^ 25)) ++ (v.perm.filter fun e => e.dst == v.me).map fun e => (d.dst + e.dstOff, e.len)
    | 10 => [(d.dst, d.count)]
    | _ => []
  (d.recAt, 32) :: body

/-- R310, R312, R328: the checks of a descriptor of command i, once it has been read. -/
def State.pealOk (s : State) (i : Issued) (d : PealDesc) (v : View) : Bool :=
  let part := (s.ctx i.ctx).part.toNat
  s.peal.parts.getLsbD part && (s.car.en || d.isHost) && decide (1 ≤ d.op ∧ d.op ≤ 14) && decide (d.alg ≤ 1) && !d.rsvd &&
    (!d.grouped || (s.isActive && d.group != 0 && decide (d.group.toNat < 16) && v.ms.contains s.ownRank && (d.alg == 0 || v.n == 2 ^ Nat.log2 v.n))) &&
    (d.op != 8 || s.isActive) &&
    (!(d.op == 5 || d.op == 6 || d.op == 7) || decide (d.peer < v.n)) &&
    (!d.reduces || ((d.ifmt == 2 || d.ifmt == 3 || d.ifmt == 4) && (d.ofmt == 2 || d.ofmt == d.ifmt))) &&
    (!d.copies || (d.ifmt == d.ofmt && isAnyFmt d.ifmt)) && (d.op != 12 || isAnyFmt d.ifmt) &&
    (!(d.copies || d.op == 12) || d.ifmt != 7 || d.count % 1024 == 0) &&
    (!(d.op == 12 || d.op == 13 || (d.op == 2 && (d.genEn || decide (2 ≤ d.policy)))) || decide (d.layer < 4096)) &&
    v.perm.all (fun e => decide (e.src < v.n ∧ e.dst < v.n ∧ e.len ≤ 2 ^ 25)) &&
    (d.readsOf v ++ d.writesOf v).all (fun r => decide (r.1 + r.2 ≤ 2 ^ 52)) &&
    (d.writesOf v).all (fun r => inUnion i.entry.writes r.1 r.2) &&
    !(s.peal.insts.any fun k => k.desc.opid == d.opid && k.uid != i.uid && !(k.done && (s.cmd k.uid).isNone))

/-! ### The start of an instance (R329, R333 to R336, R341) -/

/-- R333: may a PUBLISH be marked? Its status where not. -/
def State.publishCheck (s : State) (part : Nat) (d : PealDesc) : Got Nat :=
  match s.shardAt part d.layer with
  | .fault e => .fault e
  | .held => .held
  | .ok pa =>
    let b := s.memRead pa 64
    if (entCurValid b ∧ d.gen.toNat ≠ entCurGen b + 1) ∨ entPrevValid b ∨ (entPending b ∧ entPendOpid b ≠ d.opid.toNat) then
      .fault stBAD_COMMAND
    else .ok pa

/-- What an operation does at its start beyond its transfers. -/
def State.startOp (s : State) (p part : Nat) (d : PealDesc) : State :=
  match d.op with
  | 12 =>
    match s.publishCheck part d with
    | .ok pa =>
      let b := s.memRead pa 64
      (s.memWrite (pa + 0x1F) (entFlags (entCurValid b) (entPrevValid b) true)).memWrite (pa + 0x24) (leBytes 4 d.opid.toNat)
    | .fault st => s.faultCore p st
    | .held => s
  | 14 =>
    let s := { s with peal := { s.peal with stepGen := smod 0 s.peal.stepGen s.ownRank fun g => max g (d.gen.toNat + 1) } }
    let s := ((List.range s.car.activeRanks).filter fun r => r != s.ownRank).foldl (fun s r => s.sendControl r ctlSTEP_END d.opid d.gen 0 []) s
    s.releaseGens
  | _ => s

/-- R329: a new instance of the PEAL that slot `slot` of core p waits on. -/
def State.startPeal (s : State) (p slot : Nat) (i : Issued) (d : PealDesc) : State :=
  let part := (s.ctx i.ctx).part.toNat
  let hit := d.op == 2 && decide (2 ≤ d.policy) && (s.keeps part).any (keepMatch d (s.gatherLen d))
  let stalled := d.isHost && s.quarantined (fnOfPart part)
  let x : Inst :=
    { desc := d, uid := i.uid, part := part, ctx := i.ctx, waiters := [(p, slot)], rx := [], status := none, done := false, flags := 0,
      opened := [], hit := hit, dropped := false, stall := if stalled then some s.now else none, serve := none, staged := [],
      copied := [] }
  let s := { s with
    peal := { s.peal with insts := s.peal.insts ++ [x], cancelled := s.peal.cancelled.filter fun o => o != d.opid }
    car := { s.car with fresh := false } }
  (s.startOp p part d).pump

/-! ### Issue (R184) -/

/-- R379: is the PEAL a GET from the buddy's region, as LOAD's is? -/
def State.fromBuddy (s : State) (d : PealDesc) : Bool := d.op == 7 && d.group == 0x0F && d.peer == s.buddy

/-- R379: is a GET that of a LOAD (PHASE 6 of its argument block, R350) whose buddy has been replaced since the image was complete? LOAD's
comparison of BUDDY_INC is made here, where its GET issues: an argument block that is poisoned faults (R214), one that a wipe holds stalls, and
one that cannot be read is no LOAD's (DESIGN CHOICE, log entry 63). -/
def State.loadCheck (s : State) (i : Issued) (d : PealDesc) : Got Bool :=
  if !s.fromBuddy d then .ok false
  else match s.vaRead i.ctx i.entry.args.toNat 128 with
    | .ok b => .ok (natAt b 0 1 == 6 && natAt b 0x68 1 == d.region &&
        (natAt b 0x6C 4 != (s.rankEntry s.buddy).inc.toNat || (s.rankEntry s.buddy).state != 1))
    | .fault st => if st = stPOISON_READ then .fault st else .ok false
    | .held => .held

/-- R379: the LOAD ends with STALE_GENERATION and the device posts BUDDY_LOST. -/
def State.failLoad (s : State) (p : Nat) : State := (s.carEvent 7 stSTALE_GENERATION s.buddy).faultCore p stSTALE_GENERATION

/-- The PEAL of command i joins its instance or starts it. -/
def joinPeal (s : State) (p slot : Nat) (i : Issued) (d : PealDesc) (c : Core) : Issue :=
  let busy : Core := { c with eng := { c.eng with slots := setIns c.eng.slots slot } }
  match s.peal.insts.find? fun k => k.desc.opid == d.opid && k.desc.group == d.group with
  | some k =>
    if k.done then .go { c with seq := { c.seq with record := c.seq.record ||| k.flags } }
    else .act busy fun s => s.modInst d.opid d.group fun k => { k with waiters := k.waiters ++ [(p, slot)] }
  | none =>
    if 1024 ≤ s.peal.insts.length then .stall
    else if d.op = 12 ∧ s.publishCheck (s.ctx i.ctx).part.toNat d = .held then .stall
    else .act busy fun s => s.startPeal p slot i d

/-- The checks of R328 on a descriptor that has been read, those of PERMUTE's table last, and R379's. -/
def checkPeal (s : State) (p slot : Nat) (i : Issued) (d : PealDesc) (c : Core) : Issue :=
  if !s.pealOk i d (s.groupView d) then .bad
  else match s.view i.ctx d with
    | .held => .stall
    | .fault st => .act c fun s => s.faultCore p st
    | .ok v =>
      if !s.pealOk i d v then .bad
      else match s.loadCheck i d with
        | .held => .stall
        | .fault st => .act c fun s => s.faultCore p st
        | .ok true => .act c fun s => s.failLoad p
        | .ok false => joinPeal s p slot i d c

/-- The issue of a PEAL on core p. -/
def pealIssue (s : State) (p : Nat) (w : W64) (c : Core) : Issue :=
  let sa := reg5 w 52
  let slot := fld w 51 49
  let a := (c.seq.reg sa).toNat
  if !opOk 0x0D w false || !zeroBits w 48 0 then .bad
  else if c.seq.anyBusy [sa] || c.eng.slots.contains slot then .stall
  else if a % 64 ≠ 0 then .bad
  else match s.cmdOf p with
  | none => .stall
  | some (i, _) =>
    match s.vaRead i.ctx a 128 with
    | .held => .stall
    | .fault st => .act c fun s => s.faultCore p st
    | .ok b => checkPeal s p slot i (decodePeal b) c

/-- The operation code of the descriptor that a PEAL word names, where it can be read. -/
def State.pealOp (s : State) (p : Nat) (w : W64) : Option Nat :=
  match s.cmdOf p with
  | none => none
  | some (i, _) =>
    match s.vaRead i.ctx ((s.core p).seq.reg (reg5 w 52)).toNat 1 with
    | .ok b => some (natAt b 0 1)
    | _ => none

/-- R213, R214: what the issue of a PEAL reads meets the errors that stand there: its descriptor, PERMUTE's table and staging pages, a LOAD's
argument block, and PUBLISH's entry of the shard table. -/
def State.meetPeal (s : State) (p : Nat) (w : W64) : State :=
  let c := s.core p
  if s.mem.latent.isEmpty || !c.issuing || (c.seq.missing 1).isSome then s
  else match s.cmdOf p with
  | none => s
  | some (i, _) =>
    let a := (c.seq.reg (reg5 w 52)).toNat
    let s := s.meetRanges i.ctx [(a, 128)]
    match s.vaRead i.ctx a 128 with
    | .ok b =>
      let d := decodePeal b
      let s := if d.op = 12 then s.meetShard (s.ctx i.ctx).part.toNat d.layer else s
      let s := if s.fromBuddy d then s.meetRanges i.ctx [(i.entry.args.toNat, 128)] else s
      if d.op ≠ 9 then s
      else
        let s := s.meetRanges i.ctx [(d.table, 64)]
        match s.vaRead i.ctx d.table 64 with
        | .ok h =>
          let s := s.meetRanges i.ctx [(d.table + 64, 32 * natAt h 0 4)]
          (match s.permTable i.ctx d (s.groupView d).me with
          | .ok t => s.meetRanges i.ctx [(natAt h 8 8, 8 * t.2.length)]
          | _ => s)
        | _ => s
    | _ => s

/-- A PEAL of the operation `code`: a descriptor of another operation is another command's (log entry 22). -/
def State.peal1 (s : State) (code p : Nat) (w : W64) : State :=
  let s := s.meetPeal p w
  match s.pealOp p w with
  | some op => if 1 ≤ op ∧ op ≤ 14 ∧ op ≠ code then s else issueRequest s p 1 (pealIssue s p w)
  | none => issueRequest s p 1 (pealIssue s p w)

def execReduceScatter (p : Fin 68) (w : W64) (s : State) : Out := .next (s.peal1 1 p w)
def execAllGather (p : Fin 68) (w : W64) (s : State) : Out := .next (s.peal1 2 p w)
def execAllReduce (p : Fin 68) (w : W64) (s : State) : Out := .next (s.peal1 3 p w)
def execAllToAll (p : Fin 68) (w : W64) (s : State) : Out := .next (s.peal1 4 p w)
def execBroadcast (p : Fin 68) (w : W64) (s : State) : Out := .next (s.peal1 5 p w)
def execPut (p : Fin 68) (w : W64) (s : State) : Out := .next (s.peal1 6 p w)
def execGet (p : Fin 68) (w : W64) (s : State) : Out := .next (s.peal1 7 p w)
def execMirrorPut (p : Fin 68) (w : W64) (s : State) : Out := .next (s.peal1 8 p w)
def execPermute (p : Fin 68) (w : W64) (s : State) : Out := .next (s.peal1 9 p w)
def execHostRead (p : Fin 68) (w : W64) (s : State) : Out := .next (s.peal1 10 p w)
def execHostWrite (p : Fin 68) (w : W64) (s : State) : Out := .next (s.peal1 11 p w)
def execPublish (p : Fin 68) (w : W64) (s : State) : Out := .next (s.peal1 12 p w)
def execClaim (p : Fin 68) (w : W64) (s : State) : Out := .next (s.peal1 13 p w)
def execStepEnd (p : Fin 68) (w : W64) (s : State) : Out := .next (s.peal1 14 p w)

/-! ### Completion (R342) -/

/-- What an instance still writes when its transfers are done (context, address, bytes), the flags it raises and its sum of squares. The
chunks that it received have landed (R320). -/
structure PealResult where
  puts  : List (Nat × Nat × List Byte)
  flags : Flags
  sumsq : BitVec 32
  deriving DecidableEq, Repr

/-- All of a list of answers, or the first that is not there. -/
def gotAll {α : Type} : List (Got α) → Got (List α)
  | [] => .ok []
  | g :: r => match g, gotAll r with
    | .ok a, .ok l => .ok (a :: l)
    | .fault e, _ => .fault e
    | .held, _ => .held
    | _, .fault e => .fault e
    | _, .held => .held

/-- R330: a short ALL_REDUCE: all local sums added in member order. -/
def State.shortSum (s : State) (i : Inst) (v : View) : Got (List Byte × Flags) :=
  match s.localSum i 0 i.desc.count with
  | .fault e => .fault e
  | .held => .held
  | .ok own =>
    let term (j : Nat) : Got (List FVal) :=
      if j = v.me then .ok own.1 else (i.rxSeg v j fun g => g.kind == .whole).map b32Vals
    (gotAll ((List.range v.n).map term)).map fun ls =>
      let r := (ls.drop 1).foldl (fun (acc : List FVal × Flags) l =>
        let t := addAll acc.1 l
        (t.1, acc.2 ||| t.2)) (ls.headD [], own.2)
      let t := storeVals i.desc.ofmt r.1
      (t.1, (t.2 ||| r.2) &&& pealFlags)

/-- R73: NONFINITE where a stored value is not finite. -/
def storedFlags (fmt : Nat) (b : List Byte) : Flags := orFlags ((elemsOf fmt b).map nonfiniteFlag)

/-- R331, R73: the sum of squares of a stored shard, with its flags; it is a value that the instance writes. -/
def sumSquares (fmt : Nat) (b : List Byte) : BitVec 32 × Flags :=
  let r := reduceRow fmtB32 .sumsq ((elemsOf fmt b).map fun x => (x, x))
  (toB32 r.1, (r.2 ||| nonfiniteFlag r.1) &&& pealFlags)

/-! ### Host transfers (R280, R341) -/

/-- R280: is a host line device-owned for the function? The lowest-numbered valid entry that holds it says so. -/
def Fn.deviceOwned (f : Fn) (addr : Nat) : Bool :=
  match (List.range 256).find? fun k =>
      let e := (sget 0 f.hpat k).toNat
      e % 2 == 1 && decide (e / 4096 % 2 ^ 52 * 4096 ≤ addr ∧ addr < (e / 4096 % 2 ^ 52 + (e / 2 ^ 64 % 2 ^ 32 + 1)) * 4096) with
  | some k => (sget 0 f.hpat k).toNat / 2 % 2 == 1
  | none => false

/-- R341: the 512-byte requests of the host bytes [addr, addr + len): (address, length, offset). A transfer that is not aligned to 512
bytes begins with the rest of its first block (log entry 65); so one request lies in one page. -/
def hostReqs (addr len : Nat) : List (Nat × Nat × Nat) :=
  (List.range ((addr % 512 + len + 511) / 512)).map fun k =>
    let lo := max addr (addr / 512 * 512 + 512 * k)
    let hi := min (addr + len) (addr / 512 * 512 + 512 * (k + 1))
    (lo, hi - lo, lo - addr)

/-- The bytes of a line in the cache. -/
def State.cached (s : State) (fn line : Nat) : Option (List Byte) :=
  (s.host.cache.find? fun l => l.fn == fn && l.line == line).map CacheLine.data

/-- The 64-byte lines that a range touches. -/
def linesOf (addr len : Nat) : List Nat := (List.range ((addr % 64 + len + 63) / 64)).map fun i => addr / 64 + i

/-- R280: the bytes of a read that the cache serves: those of a device-owned request whose every line it holds. -/
def State.fromCache (s : State) (fn addr len : Nat) : Option (List Byte) :=
  let ls := linesOf addr len
  if (s.fn fn).deviceOwned addr && ls.all fun l => (s.cached fn l).isSome then
    some (((ls.flatMap fun l => (s.cached fn l).getD []).drop (addr % 64)).take len)
  else none

/-- What a HOST_READ reads: from the cache, or as the host answers. -/
def State.hostBytes (s : State) (fn addr len : Nat) (hostData : List Byte) : List Byte :=
  (hostReqs addr len).flatMap fun r => (s.fromCache fn r.1 r.2.1).getD (bytesAt hostData r.2.2 r.2.1)

/-- R280: the cache after a read: whole device-owned lines of it join, newest first; 4 MiB are held. -/
def State.cacheLines (s : State) (fn addr : Nat) (data : List Byte) : State :=
  let new := ((linesOf addr data.length).filter fun l =>
      decide (addr ≤ 64 * l ∧ 64 * (l + 1) ≤ addr + data.length) && (s.fn fn).deviceOwned (64 * l)).map fun l =>
        ({ fn := fn, line := l, data := (data.drop (64 * l - addr)).take 64 } : CacheLine)
  let old := s.host.cache.filter fun c => !new.any fun n => n.fn == c.fn && n.line == c.line
  { s with host := { s.host with cache := (new.reverse ++ old).take 65536 } }

/-- R280: a write to host memory updates the cached copies. -/
def State.cacheWrite (s : State) (fn addr : Nat) (data : List Byte) : State :=
  { s with host := { s.host with cache := s.host.cache.map fun c =>
      if c.fn = fn then
        { c with data := (c.data.zipIdx).map fun b =>
            let a := 64 * c.line + b.2
            if addr ≤ a ∧ a < addr + data.length then data.getD (a - addr) b.1 else b.1 }
      else c } }

/-- R341: the host side of a host operation: its requests, by the bias of each (R280), and the cache. -/
def State.hostSide (s : State) (i : Inst) (hostData : List Byte) : Got State :=
  let d := i.desc
  let fn := fnOfPart i.part
  let own (a : Nat) : Bool := (s.fn fn).deviceOwned a
  if d.op = 11 then
    match s.vaRead i.ctx d.src0 d.count with
    | .fault e => .fault e
    | .held => .held
    | .ok b =>
      let rlx := match s.cmd i.uid with
        | some k => (s.ctx i.ctx).qRlx k.queue
        | none => false
      .ok ((s.emits ((hostReqs d.host d.count).map fun r =>
        Emit.hostWrite fn r.1 ((b.drop r.2.2).take r.2.1) rlx (own r.1))).cacheWrite fn d.host b)
  else if d.op = 10 then
    let data := s.hostBytes fn d.host d.count hostData
    let reqs := (hostReqs d.host d.count).filter fun r => (s.fromCache fn r.1 r.2.1).isNone
    .ok ((s.emits (reqs.map fun r => Emit.hostRead fn r.1 r.2.1 (own r.1))).cacheLines fn d.host data)
  else .ok s

/-- The results of an instance whose transfers are done. -/
def State.results (s : State) (i : Inst) (v : View) (hostData : List Byte) : Got PealResult :=
  let d := i.desc
  let c := i.ctx
  let cs := fmtBytes d.ofmt (d.shard v.n)
  let plain (l : List (Nat × Nat × List Byte)) : PealResult := { puts := l, flags := 0, sumsq := 0 }
  if i.hit then .ok (plain [])
  else match d.op with
  | 1 => (s.reduced i v).map fun r =>
      let q : BitVec 32 × Flags := if d.sumsq then sumSquares d.ofmt r.1 else (0, 0)
      { puts := [(c, d.dst, r.1)], flags := r.2 ||| q.2, sumsq := q.1 }
  | 2 => (s.finalOf i v v.me).map fun b => plain [(c, d.dst + v.me * cs, b)]
  | 3 =>
    if d.short v.n then (s.shortSum i v).map fun r => { puts := [(c, d.dst, r.1)], flags := r.2, sumsq := 0 }
    else
      match s.reduced i v, gotAll ((List.range v.n).map (s.finalOf i v)) with
      | .ok r, .ok l =>
        .ok { puts := [(c, d.dst + v.me * cs, r.1)], flags := r.2 ||| orFlags (l.map (storedFlags d.ofmt)), sumsq := 0 }
      | .fault e, _ => .fault e
      | _, .fault e => .fault e
      | _, _ => .held
  | 4 => (s.vaRead c (d.src0 + v.me * cs) cs).map fun b => plain [(c, d.dst + v.me * cs, b)]
  | 5 => if v.me = d.peer then (s.vaRead c d.src0 cs).map fun b => plain [(c, d.dst, b)] else .ok (plain [])
  | 6 | 8 =>
    if s.target d ≠ s.ownRank then .ok (plain [])
    else match s.vaRead c d.src0 cs, s.regionAt d.region d.dst cs with
      | .ok b, .ok r => .ok (plain [(r.1, r.2, b)])
      | .fault e, _ => .fault e
      | _, .fault e => .fault e
      | _, _ => .held
  | 7 =>
    if s.target d ≠ s.ownRank then .ok (plain [])
    else match s.regionAt d.region d.src0 cs with
      | .ok r => (s.vaRead r.1 r.2 cs).map fun b => plain [(c, d.dst, b)]
      | .fault e => .fault e
      | .held => .held
  | 10 => .ok (plain [(c, d.dst, s.hostBytes (fnOfPart i.part) d.host d.count hostData)])
  | 13 =>
    match s.shardAt i.part d.layer with
    | .ok pa => if entPrevValid (s.memRead pa 64) then .held else .ok (plain [])
    | .fault e => .fault e
    | .held => .held
  | _ => .ok (plain [])

/-- R213, R214: the memory that the results of an instance are formed from: (context, address, bytes). -/
def State.resultReads (s : State) (i : Inst) (v : View) : List (Nat × Nat × Nat) :=
  let d := i.desc
  let cs := fmtBytes d.ofmt (d.shard v.n)
  if i.hit then []
  else match d.op with
  | 1 => i.sumReads (v.me * d.count) d.count
  | 2 => i.ownReads v 0 cs
  | 3 => if d.short v.n then i.sumReads 0 d.count else i.sumReads (v.me * d.shard v.n) (d.shard v.n)
  | 4 => [(i.ctx, d.src0 + v.me * cs, cs)]
  | 5 => if v.me = d.peer then [(i.ctx, d.src0, cs)] else []
  | 6 | 8 => if s.target d = s.ownRank then [(i.ctx, d.src0, cs)] else []
  | 7 =>
    if s.target d ≠ s.ownRank then []
    else match s.regionAt d.region d.src0 cs with
      | .ok r => [(r.1, r.2, cs)]
      | _ => []
  | 11 => [(i.ctx, d.src0, d.count)]
  | _ => []

/-- Those reads, and then the walks for the writes of the results and of the result record, meet the errors that stand there. -/
def State.meetResults (s : State) (i : Inst) (v : View) : State :=
  let s := s.meetReads (s.resultReads i v)
  let s := if i.desc.op = 13 then s.meetShard i.part i.desc.layer else s
  if s.mem.latent.isEmpty then s
  else match s.results i v [] with
    | .ok r => (s.meetPuts r.puts).meetWrites [(i.ctx, i.desc.recAt, 32)]
    | _ => s

/-- R337: does the check of a PUT whose target is this device itself fail at its region? -/
def State.putRefused (s : State) (i : Inst) : Bool :=
  let d := i.desc
  let cs := fmtBytes d.ofmt d.count
  (d.op == 6 || d.op == 8) && s.target d == s.ownRank && match s.vaRead i.ctx d.src0 cs, s.regionAt d.region d.dst cs with
    | .ok b, .ok r => (match s.vaWrite r.1 r.2 b with
      | .fault _ => true
      | _ => false)
    | .ok _, .fault _ => true
    | _, _ => false

/-- R342, R340: has every chunk been acknowledged and received, and every range of a PERMUTE been copied? -/
def State.transfersDone (s : State) (i : Inst) (v : View) : Bool :=
  (s.sends i v).all (fun e => i.opened.contains e.1) && !(s.peal.tx.any fun t => t.opid == i.desc.opid && t.source.isNone) &&
    (s.receives i v).all (fun e => (i.got e.1 0 e.2).isSome) &&
    (i.desc.op != 9 || v.permOwn.all fun x => i.copied.contains x.2.1) &&
    (!i.desc.isHost || (s.canMaster (fnOfPart i.part) && i.stall.isNone))

/-- R336: on a KEEP miss the completion reserves a keep-table entry: whether one was reserved. -/
def State.reserveKeep (s : State) (i : Inst) : State × Bool :=
  if i.desc.op ≠ 2 ∨ i.desc.policy ≠ 2 ∨ i.hit then (s, false)
  else
    let len := s.gatherLen i.desc
    let l := s.keeps i.part
    if 1024 ≤ l.length ∨ (s.part i.part).keepQuota * 2 ^ 25 < (l.map Keep.len).sum + len then (s, true)
    else (s.setKeeps i.part (l ++ [{ layer := i.desc.layer, gen := i.desc.gen, dst := i.desc.dst, len := len, ctx := i.ctx, uid := i.uid,
                                     standing := false }]), false)

/-- R342: the 32 bytes of the result record. -/
def resultRecord (gen : Nat) (hit dropped : Bool) (flags : Flags) (sumsq : BitVec 32) : List Byte :=
  leBytes 4 gen ++ leBytes 2 0 ++ [BitVec.ofNat 8 (b2n hit + 2 * b2n dropped), BitVec.ofNat 8 flags.toNat] ++ leBytes 4 sumsq.toNat ++
    List.replicate 20 0

/-- R342: completion is reported to the core's slot, and FLAGS join its run record. -/
def State.reportSlot (s : State) (uid : Nat) (flags : Flags) (w : Nat × Nat) : State :=
  s.modCore w.1 fun c =>
    if c.runs uid && !c.seq.halted then
      { c with eng := { c.eng with slots := c.eng.slots.filter fun k => k != w.2 }, seq := { c.seq with record := c.seq.record ||| flags } }
    else c

/-- The instance is complete: results, record, keep table, slots. -/
def State.finishPeal (s : State) (i : Inst) (r : PealResult) (hostData : List Byte) : Got State :=
  match s.putAll r.puts with
  | .fault e => .fault e
  | .held => .held
  | .ok s =>
    match s.hostSide i hostData with
    | .fault e => .fault e
    | .held => .held
    | .ok s =>
      let (s, dropped) := s.reserveKeep i
      let gen := if i.desc.op = 2 ∧ i.desc.genEn then i.desc.gen.toNat else 0
      match s.vaWrite i.ctx i.desc.recAt (resultRecord gen i.hit dropped r.flags r.sumsq) with
      | .fault e => .fault e
      | .held => .held
      | .ok s =>
        let s := i.waiters.foldl (fun s w => s.reportSlot i.uid r.flags w) s
        .ok (s.modInst i.desc.opid i.desc.group fun i => { i with done := true, flags := r.flags, dropped := dropped, waiters := [] })

/-- R344: has the instance's command faulted? -/
def State.cmdFaulted (s : State) (uid : Nat) : Bool :=
  (s.cmd uid).any fun k => match k.stage with
    | .faulted _ => true
    | _ => false

/-- R288: is the host to which the instance's command would write lost? -/
def State.hostLost (s : State) (i : Inst) : Bool := i.desc.op == 11 && (s.cmd i.uid).any fun k => k.entry.divert

/-- The completion of an instance whose group and table stand; the flags of the sums that it passed on stand beside its results'. -/
def State.completeInst (s : State) (i : Inst) (v : View) (hostData : List Byte) : Got State :=
  if !s.transfersDone i v then .held
  else match s.results i v hostData with
    | .held => .held
    | .fault st => .fault st
    | .ok r => s.finishPeal i { r with flags := i.flags ||| r.flags } hostData

/-- PEAL_COMPLETE: the instance (opid, group) has every chunk acknowledged and received. `hostData` is what the host answers
to a HOST_READ. A fenced device leaves its instances waiting, the host operations aside (R324). The instance of a command that has faulted does
not complete, and a HOST_WRITE of a command that DIVERT found issued ends with PAGE_FAULT (R288, log entry 71). -/
def execPealComplete (opid : BitVec 32) (group : BitVec 8) (hostData : List Byte) (s : State) : Out :=
  match s.peal.insts.find? fun i => i.desc.opid == opid && i.desc.group == group with
  | none => .next s
  | some i =>
    if i.done || i.status.isSome || (s.car.st == 3 && !i.desc.isHost) || s.cmdFaulted i.uid then .next s
    else if s.hostLost i then .next (s.failPeal opid stPAGE_FAULT true)
    else match s.view i.ctx i.desc with
      | .held => .next s
      | .fault st => .next (s.failPeal opid st true)
      | .ok v =>
        if !s.transfersDone i v then .next s
        else
          let s := s.meetResults i v
          match s.completeInst i v hostData with
          | .held => .next s
          | .fault st => .next ((if s.putRefused i then s.netEvent 6 0 s.ownRank else s).failPeal opid st true)
          | .ok t => .next t

end Sys2Proof.Machine
end

