-- ==== Sys2Proof/Machine/HostIf.lean ====
section
/-! DEFINITION. The host-interface family (chapter 12), the window aside: BAR0 registers, the host page attribute table,
MSI-X, the link, the PCIe resets, quarantine and re-attach. -/

namespace Sys2Proof.Machine

/-! ### Requests to BAR0 (R269, R272, R277, R279, R281) -/

/-- A write to BAR0, which a function that takes no request drops. -/
def State.barWrite (s : State) (fn : Nat) (ide : Bool) (f : Fn → Fn) : State := if s.takesRequest fn ide then s.setFn fn (f (s.fn fn)) else s

/-- WINDOW_CONTROL_WRITE. -/
def execWindowControlWrite (fn : Fin 17) (v : W64) (s : State) (ide : Bool := true) : Out :=
  .next (s.barWrite fn.val ide fun f => { f with wen := bitN v 63, winBase := BitVec.ofNat 16 (fld v 15 0) })

/-- R279: an entry of the host page attribute table as it is stored: reserved bits read as zero. -/
def hpatMask (v : BitVec 128) : BitVec 128 := v &&& 0x00000000FFFFFFFFFFFFFFFFFFFFF003

/-- PAGE_ATTRIBUTE_WRITE. -/
def execPageAttributeWrite (fn : Fin 17) (e : Fin 256) (v : BitVec 128) (s : State) (ide : Bool := true) : Out :=
  .next (s.barWrite fn.val ide fun f => { f with hpat := sset 0 f.hpat e.val (hpatMask v) })

/-- R281: cached lines of ranges that are no longer device-owned are invalidated. -/
def State.invalidate (s : State) (fn : Nat) : State :=
  { s with host := { s.host with cache := s.host.cache.filter fun l => l.fn != fn || (s.fn fn).deviceOwned (64 * l.line) } }

/-- R268, R272: is the link below 6.0 x16? -/
def HostIf.degraded (h : HostIf) : Bool := h.linkUp && !(h.gen == 6 && h.width == 16)

/-- R271 to R273, R279, R244: the 64-bit register at an offset of a function's BAR0, a multiple of 8; an offset that names none, and the
page of a foreign or FREE context, read as zero. -/
def State.barReg (s : State) (fn off : Nat) (ide : Bool := true) : Nat :=
  let f := s.fn fn
  if off = 0 then (if fn = 0 then 2 ^ 8 else fn - 1)
  else if off = 8 then b2n f.wen * 2 ^ 63 + f.winBase.toNat
  else if off = 0x10 then
    b2n (fn == 0 && s.host.degraded) * 4 + b2n (fn != 0 && decide (0 < (s.part (fn - 1)).backlogCount)) * 2 + b2n (s.quarantined fn)
  else if 0x1000 ≤ off ∧ off ≤ 0x1080 then
    (if fn = 0 then (s.ring ((off - 0x1000) / 8)).cons else if off = 0x1000 then (s.ring (fn - 1)).cons else 0)
  else if 0x10000 ≤ off ∧ off < 0x11000 then
    (sget 0 f.hpat ((off - 0x10000) / 16)).toNat / 2 ^ (8 * (off % 16)) % 2 ^ 64
  else if 0x1000000 ≤ off ∧ off < 0x2000000 then
    let c := (off - 0x1000000) / 0x1000
    let x := s.ctx c
    if !s.ownsPage fn c ide then 0
    else if off % 0x1000 = 0x108 then x.semsel.toNat
    else if off % 0x1000 = 0x110 then (sget 0 (s.part x.part.toNat).sems x.semsel.toNat).toNat
    else 0
  else 0

/-- HPAT_READ: a read of BAR0; one of the host page attribute table completes after the invalidation. -/
def execHpatRead (fn : Fin 17) (off : BitVec 25) (s : State) (ide : Bool := true) : Out :=
  let o := off.toNat / 8 * 8
  if s.takesRequest fn.val ide then
    let s := if 0x10000 ≤ o ∧ o < 0x11000 then s.invalidate fn.val else s
    .next (s.emit (.completion fn.val (leBytes 8 (s.barReg fn.val o ide)) false))
  else if s.host.linkUp then .next (s.emit (.unsupported fn.val)) else .next s

/-- ATOMICOP_REQUEST: no AtomicOps as completer. -/
def execAtomicopRequest (fn : Fin 17) (_bar : Fin 6) (s : State) : Out :=
  if s.host.linkUp then .next (s.emit (.unsupported fn.val)) else .next s

/-! ### MSI-X (R284) -/

/-- The pending vectors of a function that are unmasked are sent, once each, while it can master the bus. -/
def State.sendPending (s : State) (fn : Nat) : State :=
  let f := s.fn fn
  if f.fnMask || !f.msixEn || !s.canMaster fn then s
  else
    let go := f.pendingVec.filter fun v => f.unmasked.contains v
    (s.setFn fn { f with pendingVec := f.pendingVec.filter fun v => !f.unmasked.contains v }).emits (go.map fun v => f.message fn v)

/-- R284: a write to a function's MSI-X table or function mask. -/
def Fn.msixWrite (f : Fn) : MsixWrite → Fn
  | .entry v a d mask =>
    { f with msixTable := sset MsixEntry.reset f.msixTable v.val { addr := a, data := d }
             unmasked := if mask then f.unmasked.filter fun x => x != v.val else setIns f.unmasked v.val }
  | .fnMask on => { f with fnMask := on }

/-- MSIX_UNMASK: a write to the MSI-X structures; what it unmasks goes out. -/
def execMsixUnmask (fn : Fin 17) (w : MsixWrite) (s : State) (ide : Bool := true) : Out :=
  .next (if s.takesRequest fn.val ide then (s.barWrite fn.val ide fun f => f.msixWrite w).sendPending fn.val else s)

/-! ### Quarantine (R286, R288, R426) -/

/-- R286: host transfers of quarantined functions stall from now. -/
def State.stallHost (s : State) : State :=
  { s with peal := { s.peal with insts := s.peal.insts.map fun i =>
    if i.desc.isHost && !i.done && i.stall.isNone && s.quarantined (fnOfPart i.part) then { i with stall := some s.now } else i } }

/-- R286: has the window of HOST_WAIT_LIMIT from an instance's stall closed? The limit is the entry's value at the event that looks, also where it
was written while the command waited (DESIGN CHOICE, log entry 49). -/
def State.waitedOut (s : State) (i : Inst) : Bool := i.stall.any fun t => decide (t + s.host.waitLimit * 1000000000 ≤ s.now)

/-- R42, R286: host transfers of a function whose quarantine has ended go on, but for those whose window has closed: their commands fault first.
A transfer that goes on has no stall any more: a later quarantine stalls it anew, from an S of its own (DESIGN CHOICE, log entry 49). -/
def State.unstallHost (s : State) : State :=
  let free (i : Inst) : Bool := i.stall.isSome && !s.quarantined (fnOfPart i.part)
  let late := s.peal.insts.filter fun i => free i && s.waitedOut i
  let t := late.foldl (fun s i => s.faultCmd i.uid stPAGE_FAULT) s
  { t with peal := { t.peal with insts := t.peal.insts.map fun i => if free i && !s.waitedOut i then { i with stall := none } else i } }

/-- R287: the backlog entries of a partition: address and record; one that is poisoned cannot be read (log entry 49). -/
def State.backlog (s : State) (n : Nat) : List (Nat × List Byte) :=
  let p := s.part n
  ((List.range p.backlogCount).filterMap fun k =>
    let a := p.backlogSlab.toNat * 2 ^ 25 + 64 * k
    if s.poisoned a 64 then none else some (leNat (s.memRead (a + 32) 8), s.memRead a 32))

/-- R204, R288: may the backlog of a partition be read? Held while a wipe of its slab is pending. -/
def State.backlogAccess (s : State) (n : Nat) : Got Unit :=
  if (s.part n).backlogCount = 0 then .ok () else s.access n ((s.part n).backlogSlab.toNat * 2 ^ 25)

/-- R213, R288: the backlog is read, goes to the host in its order and is cleared; a slab that the partition no longer owns gives nothing. -/
def State.drainBacklog (s : State) (n : Nat) : State :=
  let s := if s.backlogAccess n = .ok () then s.memErrs [((s.part n).backlogSlab.toNat * 2 ^ 25, 64 * (s.part n).backlogCount)] [] else s
  let s := if s.backlogAccess n = .ok () then s.emits ((s.backlog n).map fun e => Emit.hostWrite (fnOfPart n) e.1 e.2 false false) else s
  s.setPart n { s.part n with backlogCount := 0 }

/-- R288, R289: a KEEP re-attach of function fn completes once the function can master the bus: the backlog in its order,
the deferred vectors, the end of quarantine, vector 0. -/
def State.finishKeep (s : State) (fn : Nat) : State :=
  let f := s.fn fn
  if !f.keeping || !s.busReady fn || s.ideLacks fn || (fn != 0 && s.backlogAccess (fn - 1) == .held) then s
  else
    let s := if fn = 0 then s else s.drainBacklog (fn - 1)
    let s := s.setFn fn { f with quar := false, keeping := false, deferred := [] }
    let s := f.deferred.foldl (fun s v => s.msix fn v) s
    (s.unstallHost).msix fn 0

/-- A function may master the bus again: what waited for that goes out. -/
def State.busWake (s : State) (fn : Nat) : State := (s.finishKeep fn).sendPending fn

/-! ### The link and its resets (R267, R268, R285) -/

/-- R267: the generations and widths of the table. -/
def linkModeOk (gen width : Nat) : Bool := [4, 5, 6].contains gen && [4, 8, 16].contains width

/-- LINK_TRAINING: below 6.0 x16 the management vector is raised. -/
def execLinkTraining (gen width : BitVec 8) (s : State) : Out :=
  if !s.alive || !s.hub.refclkH || !linkModeOk gen.toNat width.toNat then .next s
  else
    let s := { s with host := { s.host with linkUp := true, gen := gen, width := width }, hub := { s.hub with perstN := true } }
    let s := if gen = 6 ∧ width = 16 then s else s.msix 0 0
    .next ((List.range 17).foldl State.busWake s)

/-- R285, R448: a function's configuration space, window, tables and mailbox after a reset of the link or of the function.
What its vectors deferred, and its counter, stay. -/
def Fn.linkReset (f : Fn) : Fn := { Fn.reset with winRefused := f.winRefused, deferred := f.deferred }

/-- R448: a request of a function that is reset goes on, without a response in its mailbox. -/
def State.quietWaits (s : State) (k : Nat) : State :=
  { s with dict := { s.dict with waiting := s.dict.waiting.map fun w => match w.ch with
      | .mailbox fn => if fn.val = k then { w with quiet := true } else w
      | _ => w } }

/-- R285, R289, R428: PERST_N and hot reset. Reads in flight are lost, accepted writes stand, IDE streams end. -/
def State.linkReset (s : State) : State :=
  let s := (List.range 17).foldl (fun s k => (s.setFn k (s.fn k).linkReset).quietWaits k) s
  let s := { s with host := { s.host with linkUp := false, cache := [], vfEnable := false, numVfs := 0, vfBars := [0, 0, 0] }
                    mem := { s.mem with held := s.mem.held.filter fun a => a.write.isSome }
                    sec := s.sec.linkEnd }
  s.stallHost

/-- PERST_N: the pin falls; it is high again when the link has trained. -/
def execPerstN (s : State) : Out :=
  if s.alive then .next ({ s with hub := { s.hub with perstN := false } }).linkReset else .next s

/-- HOT_RESET, and the PF's FLR. -/
def execHotReset (s : State) : Out := if s.alive then .next s.linkReset else .next s

/-- R285: the FLR of one VF. -/
def State.vfFlr (s : State) (k : Nat) : State :=
  let s := (s.setFn k (s.fn k).linkReset).quietWaits k
  ({ s with host := { s.host with cache := s.host.cache.filter fun l => l.fn != k }
            mem := { s.mem with held := s.mem.held.filter fun a => a.fn != k || a.write.isSome } }).stallHost

/-- VF_FLR: a configuration write to the VF, which that of an IDE-required partition takes on its secure stream alone (R426). -/
def execVfFlr (n : Fin 16) (s : State) (ide : Bool := true) : Out :=
  if !s.alive || !s.host.linkUp || !s.fnThere (n.val + 1) then .next s
  else if !s.ideOk (n.val + 1) ide then .next (s.emit (.unsupported (n.val + 1)))
  else .next (s.vfFlr (n.val + 1))

/-- R270: a BAR of the given number as it is kept: its base, a multiple of its size, and the bits of a 64-bit prefetchable BAR. -/
def barValue (n : Fin 3) (v : W64) : W64 :=
  let size : Nat := if n = 0 then 2 ^ 25 else if n = 1 then 2 ^ 28 else 2 ^ 16
  w64 (v.toNat / size * size + 0xC)

/-- R268, R269: a configuration write to a function. -/
def Fn.config (f : Fn) : ConfigSet → Fn
  | .busMaster on => { f with bme := on }
  | .d3hot on => { f with d3 := on }
  | .maxPayload b => if [128, 256, 512].contains b then { f with maxPayload := b } else f
  | .maxRead b => if [128, 256, 512, 1024, 2048, 4096].contains b then { f with maxRead := b } else f
  | .extTags on => { f with extTags := on }
  | .tenBitTags on => { f with tenBitTags := on }
  | .msixEnable on => { f with msixEn := on }
  | _ => f

/-- R269, R270: a configuration write to the PF's BARs or SR-IOV capability. The VFs that VF Enable takes away are reset. -/
def State.configPf (s : State) (c : ConfigSet) : State :=
  let h := s.host
  match c with
  | .bar n v => s.setFn 0 { s.fn 0 with bars := (s.fn 0).bars.set n.val (barValue n v) }
  | .vfBar n v => { s with host := { h with vfBars := h.vfBars.set n.val (barValue n v) } }
  | .numVfs n => if h.vfEnable then s else { s with host := { h with numVfs := n.val } }
  | .vfEnable on =>
    let t := if h.vfEnable && !on then (List.range h.numVfs).foldl (fun s k => s.vfFlr (k + 1)) s else s
    { t with host := { t.host with vfEnable := on } }
  | _ => s

/-- CONFIGURATION_REQUEST: a function in D3hot answers it too; the VF of an IDE-required partition only on its secure stream (R426). -/
def execConfigurationRequest (fn : Fin 17) (c : ConfigSet) (s : State) (ide : Bool := true) : Out :=
  if !s.host.linkUp then .next s
  else if !s.fnThere fn.val || !s.ideOk fn.val ide then .next (s.emit (.unsupported fn.val))
  else match c with
    | .readIds => .next (s.emit (.completion fn.val (leBytes 2 Config.vendorId.toNat ++ leBytes 2 (if fn = 0 then 0x7A70 else 0x7A71)) false))
    | _ =>
      let s := s.setFn fn.val ((s.fn fn.val).config c)
      let s := if fn = 0 then s.configPf c else s
      .next ((List.range 17).foldl State.busWake s)

/-! ### Host loss and re-attach (R286 to R289) -/

/-- HOST_WAIT_LIMIT: the window from the stall has closed, by the entry's value now (DESIGN CHOICE, log entry 49). -/
def execHostWaitLimit (uid : Nat) (s : State) : Out :=
  if s.peal.insts.any fun i => i.uid == uid && s.waitedOut i then .next (s.faultCmd uid stPAGE_FAULT) else .next s

/-- R288: the target's function, where the write's TARGET names one. -/
def reattachFn (target : BitVec 8) : Option Nat :=
  if target = 0xFF then some 0 else if target.toNat < 16 then some (target.toNat + 1) else none

/-- R288, R290: the credential of a target; one of zeros never matches. -/
def State.credOk (s : State) (fn : Nat) (cred : BitVec 128) : Bool :=
  let own := if fn = 0 then s.host.cred else (s.part (fn - 1)).cred
  own != 0 && own == cred

/-- R288, R289, R290: a write of REATTACH, with what its mode does to the function. -/
def State.reattach (s : State) (pr : Principal) (target : BitVec 8) (cred : BitVec 128) (f : State → Nat → State) : State :=
  s.dictWrite pr (prHost pr || (decide (target.toNat < 16) && prOwns pr target.toNat)) true fun s =>
    match reattachFn target with
    | none => (rRANGE, s)
    | some fn =>
      let refused := { s with host := { s.host with reattachRefused := satAdd 32 s.host.reattachRefused 1 } }
      if (s.fn fn).keeping then (rBUSY, refused)
      else if !s.credOk fn cred then (rREFUSED, refused)
      else (rOK, f s fn)

/-- REATTACH_KEEP. -/
def execReattachKeep (pr : Principal) (target : BitVec 8) (cred : BitVec 128) (s : State) : Out :=
  .next (s.reattach pr target cred fun s fn => (s.setFn fn { s.fn fn with keeping := true }).finishKeep fn)

/-- R288: commands of the partition that are stalled on host data fault. -/
def State.faultStalled (s : State) (n : Nat) : State :=
  (s.peal.insts.filter fun i => i.part == n && i.stall.isSome && !i.done).foldl (fun s i => s.faultCmd i.uid stPAGE_FAULT) s

/-- R241, R288: STOP applied to every ACTIVE context of the partition. -/
def State.stopPart (s : State) (n : Nat) : State :=
  (((s.disp.ctxs.filter fun k => k.2.part.toNat == n && k.2.life == .active).map Prod.fst).foldl
    (fun s c => (s.setCtx c { s.ctx c with life := .stopping }).settle c) s).dropIdle

/-- R288: the records of a partition's commands that are fetched, issued or faulting, and those that are owed, go to the backlog: their host is lost.
An entry that was fetched and has not issued keeps the mark after RESUME, so that a HOST_WRITE of its command ends with PAGE_FAULT, whatever host
address it names by then (DESIGN CHOICE, log entry 71). -/
def State.divertCmds (s : State) (n : Nat) : State :=
  let mine := s.disp.ctxs.filter fun k => k.2.part.toNat == n
  let s := mine.foldl (fun s k => s.setCtx k.1 { s.ctx k.1 with
      pending := (s.ctx k.1).pending.map fun f => { f with entry := f.entry.map fun e => { e with divert := true } }
      owed := (s.ctx k.1).owed.map fun r => { r with entry := { r.entry with divert := true } }
      queues := (s.ctx k.1).queues.map fun q => (q.1, { q.2 with fetched := q.2.fetched.map fun f => { f with entry := { f.entry with divert := true } } }) }) s
  { s with disp := { s.disp with issued := s.disp.issued.map fun i =>
      if (s.ctx i.ctx).part.toNat = n then { i with entry := { i.entry with divert := true } } else i } }

/-- R288: the rings that lie in the lost host's memory stop: a partition's event ring; the trace ring and the ports' receive rings. -/
def State.stopRings (s : State) (fn : Nat) : State :=
  if fn = 0 then
    let s := s.setRing 16 { s.ring 16 with stopped := true }
    { s with eth := { s.eth with ports := s.eth.ports.map fun p => { p with rxrLost := true } } }
  else if bitN (s.ring (fn - 1)).base 0 then s
  else s.setRing (fn - 1) { s.ring (fn - 1) with stopped := true }

/-- REATTACH_DIVERT: nothing goes to the old host addresses; the deferred vectors of the lost host are dropped. -/
def execReattachDivert (pr : Principal) (target : BitVec 8) (cred : BitVec 128) (s : State) : Out :=
  .next (s.reattach pr target cred fun s fn =>
    let s := if fn = 0 then s else ((s.stopPart (fn - 1)).faultStalled (fn - 1)).divertCmds (fn - 1)
    let s := (s.stopRings fn).setFn fn { s.fn fn with quar := false, deferred := [] }
    (s.unstallHost).msix fn 0)

end Sys2Proof.Machine
end

