-- ==== Sys2Proof/Machine/Security.lean ====
section
/-! DEFINITION. The security family (chapter 18): life cycle, confidential mode, debug, measurement and attestation, the carillon
key, weight packages, PCIe IDE. -/

namespace Sys2Proof.Machine

/-! ### Life cycle (R409 to R411) -/

/-- R411, rows 1 to 3: the transition is accepted, every partition is reset with its wipes left to row 4, the carillon key is cleared
and the carillon's functions stop; a core BIST is aborted (R475). -/
def State.lcAccept (s : State) (t : LifeCycle) : State :=
  let s := (List.range 16).foldl State.resetPart s
  let s := s.endLoans
  let s := s.abortTests s.bist.abortList
  { s with mem := { s.mem with wipes := [], opSlabs := [] }
           car := { s.car with en := false, st := 0 }
           sec := { s.sec with ckey := none, ckeyId := zeros64, lcTarget := some t } }

/-- R410: one LC_REQUEST. `who` may request the transition, `token` says whether its token verifies (true where none is asked). -/
def State.lcRequest (s : State) (pr : Principal) (who : Bool) (start : LifeCycle → Bool) (t : LifeCycle) (token : State → Bool)
    (uses : Bool) : State :=
  s.dictWrite pr (prHost pr || prBmc pr) true fun s =>
    if !who ∨ !start s.sec.lc ∨ (15 ≤ s.sec.transitions ∧ t ≠ .scrapped) ∨ !token s then (rREFUSED, s)
    else
      let s := if uses then { s with sec := { s.sec with challenges := s.sec.challenges + 1 } } else s
      (rOK, s.lcAccept t)

/-- R410: a token from BLANK is a signature by Scaboica's provisioning key over the ID_CERT that follows it; from RETURNED a signature
over DEVICE_ID and the current LC_CHALLENGE. -/
def State.tokenOk (s : State) (token : List Byte) : Bool :=
  match s.sec.lc with
  | .blank => decide (3309 ≤ token.length) && Config.mldsaVerify 1 (token.drop 3309) (token.take 3309)
  | _ => Config.mldsaVerify 2 (leBytes 8 s.deviceId.toNat ++ s.sec.challenge) token

/-- LC_TO_PROVISIONED: from BLANK the token's ID_CERT is kept in flash. -/
def execLcToProvisioned (pr : Principal) (token : List Byte) (s : State) : Out :=
  let blank := s.sec.lc == .blank
  let t := s.lcRequest pr (prHost pr) (fun l => l == LifeCycle.blank || l == LifeCycle.returned) .provisioned (·.tokenOk token) true
  .next (if blank ∧ t.sec.lcTarget = some .provisioned ∧ s.sec.lcTarget.isNone then
    { t with sec := { t.sec with idCertFlash := some (token.drop 3309) } } else t)

/-- LC_TO_OPERATIONAL. -/
def execLcToOperational (pr : Principal) (_token : List Byte) (s : State) : Out :=
  .next (s.lcRequest pr (prHost pr) (fun l => l == LifeCycle.provisioned) .operational (fun _ => true) false)

/-- LC_TO_RETURNED. -/
def execLcToReturned (pr : Principal) (_token : List Byte) (s : State) : Out :=
  .next (s.lcRequest pr (prHost pr || prBmc pr) (fun l => l == LifeCycle.operational) .returned (fun _ => true) false)

/-- LC_TO_SCRAPPED. -/
def execLcToScrapped (pr : Principal) (_token : List Byte) (s : State) : Out :=
  .next (s.lcRequest pr (prHost pr || prBmc pr) (fun l => l != LifeCycle.scrapped) .scrapped (fun _ => true) false)

/-- LC_WIPE_END: rows 4 to 6: one fuse is blown (with those of the seed for SCRAPPED), RETURNED clears the retire list, and the device
resets in the new state. In a thermal shutdown the memories are halted and the wipe does not end (R397). -/
def execLcWipeEnd (s : State) : Out :=
  match s.sec.lcTarget with
  | none => .next s
  | some t =>
    if s.damper.shutdown then .next s else
    let s := { s with sec := { s.sec with lc := t, transitions := s.sec.transitions + 1, seedOff := s.sec.seedOff || t == LifeCycle.scrapped } }
    let s := if t = .returned then { s with fw := { s.fw with flashRetire := [], flashRetired := [] } } else s
    .next s.boot

/-! ### Confidential mode and debug (R412, R415) -/

/-- R412: every context of partition n is FREE. -/
def State.allFree (s : State) (n : Nat) : Bool := s.ctxsHeld n == 0

/-- PART_CONF: a changed value resets the partition, once more where a reset already runs, and takes effect when that reset ends. -/
def execPartConf (pr : Principal) (n : Fin 16) (v : BitVec 8) (s : State) : Out :=
  .next (s.dictWrite pr (prHost pr) false fun s =>
    if 1 < v.toNat then (rRANGE, s)
    else if s.sec.lc ≠ .operational ∨ !s.allFree n.val then (rREFUSED, s)
    else
      let p := s.part n.val
      if p.conf = (v == 1) ∧ p.confNext.isNone then (rOK, s)
      else
        (rOK, (s.setPart n.val { p with confNext := some (v == 1) }).resetPart n.val))

/-- DEBUG_EN: a session that is no longer allowed ends; a debug instruction that stands in the port acts as itself from when it is allowed. -/
def execDebugEn (pr : Principal) (v : BitVec 8) (s : State) : Out :=
  .next (s.dictWrite pr (prHost pr) false fun s =>
    if 1 < v.toNat then (rRANGE, s)
    else if v = 1 ∧ s.anyConfidential then (rREFUSED, s)
    else
      let s := { s with sec := { s.sec with debugEn := v == 1 } }
      (rOK, s.retap))

/-! ### Measurement and attestation (R418 to R420) -/

/-- The result of a DOMAIN write of the wrong length. -/
def lenBad (n : Nat) (data : List Byte) : Option (BitVec 8) :=
  if n < data.length then some rTOO_LARGE else if data.length < n then some rRANGE else none

/-- R419: the 24 bytes of a MEASURE. -/
def measureOf (n : Nat) (d : List Byte) : MeasureJob :=
  { part := n, ctx := natAt d 0 2, va := natAt d 8 8, len := natAt d 16 8, fix := natAt d 2 1 % 2 == 1 }

/-- R419: what a MEASURE is answered with at once. -/
def State.measureBad (s : State) (n : Nat) (d : List Byte) : Option (BitVec 8) :=
  let j := measureOf n d
  match lenBad 24 d with
  | some r => some r
  | none =>
    if 1 < natAt d 2 1 ∨ !zeroAt d 3 5 ∨ j.va % 8 ≠ 0 ∨ j.len % 8 ≠ 0 ∨ j.len < 8 ∨ 2 ^ 24 < j.len then some rRANGE
    else if 4096 ≤ j.ctx ∨ (s.ctx j.ctx).part.toNat ≠ n then some rREFUSED
    else none

/-- MEASURE: it waits for the range, then digests, logs and seals it; the answer follows. -/
def execMeasure (pr : Principal) (n : Fin 16) (data : List Byte) (s : State) : Out :=
  .next (if !s.hub.ready then s
  else match s.writeGate 8 (prOwns pr n.val) true with
    | some r => (s.counted pr r).answer r
    | none =>
      match s.measureBad n.val data with
      | some r => (s.counted pr r).answer r
      | none => (s.counted pr rOK).tryMeasure (measureOf n.val data))

def lcCode : LifeCycle → Nat
  | .blank => 0
  | .provisioned => 1
  | .operational => 2
  | .returned => 3
  | .scrapped => 4

/-- R420: partition n of a report, 32 bytes. -/
def State.reportPart (s : State) (n : Nat) : List Byte :=
  let p := s.part n
  [BitVec.ofNat 8 (b2n p.conf + 2 * b2n p.ideReq + 4 * b2n (s.peal.parts.getLsbD n)), 0] ++ leBytes 2 p.ctxQuota ++ leBytes 4 (s.slabsHeld n) ++
    leBytes 8 p.cores.toNat ++ leBytes 4 (s.mlog n).length ++ List.replicate 12 0

/-- R420: a report up to its signature. -/
def State.reportBody (s : State) (scope : Nat) (nonce : List Byte) : List Byte :=
  let img := s.fw.loaded
  let entries := if scope < 16 then s.mlog scope else []
  leBytes 4 0x7A704154 ++ leBytes 2 1 ++ [BitVec.ofNat 8 scope, BitVec.ofNat 8 (lcCode s.sec.lc)] ++ leBytes 8 s.deviceId.toNat ++
    [if Config.gradeA70 then 2 else 1, 0xB1, 0, 0] ++ leBytes 4 (imgVersion img) ++ leBytes 4 s.fw.fusedNow ++ leBytes 4 (s.sec.reports + 1) ++
    bytesAt Config.romDigest 0 64 ++ shake256 img ++ shake256 s.fw.recovery ++
    shake256 s.sec.transportEk ++ bytesAt s.sec.ckeyId 0 64 ++ bytesAt nonce 0 64 ++
    (List.range 16).flatMap s.reportPart ++ (List.range 16).flatMap (fun n => bytesAt (s.logHash n) 0 64) ++ leBytes 4 entries.length ++
    List.replicate 28 0 ++ entries.flatMap (fun e => bytesAt e.bytes 0 96)

/-- R420: the signed report. -/
def State.attReport (s : State) (scope : Nat) (nonce : List Byte) : List Byte :=
  let b := s.reportBody scope nonce
  b ++ bytesAt (s.sec.sign b) 0 3309

/-- ATT_REQUEST: PART may request its own scope only; the digests of the last four device-scope reports are kept. -/
def execAttRequest (pr : Principal) (data : List Byte) (s : State) : Out :=
  let scope := natAt data 0 1
  .next (s.dictWrite pr (prHost pr || prBmc pr || prOwns pr scope) true fun s =>
    match lenBad 65 data with
    | some r => (r, s)
    | none =>
      if scope ≠ 0xFF ∧ 16 ≤ scope then (rRANGE, s)
      else
        let r := s.attReport scope (bytesAt data 1 64)
        let ds := if scope = 0xFF then (shake256 r :: s.sec.digests).take 4 else s.sec.digests
        (rOK, { s with sec := { s.sec with report := sset [] s.sec.report (prKey pr) r, reports := s.sec.reports + 1, digests := ds } }))

/-! ### The carillon key (R421, R422) -/

/-- CKEY_INSTALL: tag, report digest and key identity must hold; a refused install is counted. -/
def execCkeyInstall (pr : Principal) (data : List Byte) (s : State) : Out :=
  .next (s.dictWrite pr (prHost pr || prBmc pr) true fun s =>
    match lenBad 1792 data with
    | some r => (r, s)
    | none =>
      let refused := { s with sec := { s.sec with ckeyRefused := satAdd 32 s.sec.ckeyRefused 1 } }
      if s.sec.lc ≠ .operational ∨ !s.sec.digests.contains (bytesAt data 0x670 64) then (rREFUSED, refused)
      else match s.sec.ckeyOpen data with
        | none => (rREFUSED, refused)
        | some k => (rOK, { s with sec := { s.sec with ckey := some k, ckeyId := bytesAt data 0x630 64 } }))

/-- CKEY_CLEAR. -/
def execCkeyClear (pr : Principal) (v : BitVec 8) (s : State) : Out :=
  .next (s.dictWrite pr (prHost pr || prBmc pr || prCp pr) false fun s =>
    if 1 < v.toNat then (rRANGE, s)
    else if v = 0 then (rOK, s)
    else (rOK, { s with sec := { s.sec with ckey := none, ckeyId := zeros64 } }))

/-! ### Weight packages (R423, R424, R428) -/

def pkgPlain (h : List Byte) : Nat := natAt h 8 8
def pkgLog (h : List Byte) : Nat := natAt h 0x10 1
def pkgCount (h : List Byte) : Nat := natAt h 0x14 4

/-- R424: the bytes of the whole package. -/
def pkgBytes (h : List Byte) : Nat := 4096 + pkgPlain h + 16 * pkgCount h

/-- R423, R424: reason FORMAT does not hold. -/
def pkgFormatOk (h : List Byte) (destLen : Nat) : Bool :=
  natAt h 0 4 == 0x7A705750 && natAt h 4 2 == 1 && zeroAt h 6 2 && zeroAt h 0x11 3 && zeroAt h 0x6C0 2368 &&
    decide (1 ≤ pkgPlain h ∧ pkgPlain h ≤ 2 ^ 41 ∧ 16 ≤ pkgLog h ∧ pkgLog h ≤ 30 ∧ pkgPlain h ≤ destLen) &&
    pkgCount h == (pkgPlain h + 2 ^ pkgLog h - 1) / 2 ^ pkgLog h

/-- A load that becomes the running one takes the key held now (R428). -/
def State.startPkg (s : State) : State :=
  match s.sec.pkgs with
  | [] => s
  | j :: r => { s with sec := { s.sec with pkgs := { j with key := s.sec.ckey, keyId := s.sec.ckeyId } :: r } }

/-- R424: the 26 bytes of a PKG_LOAD. -/
def pkgOf (n : Nat) (d : List Byte) : PkgJob :=
  { part := n, ctx := natAt d 0 2, src := natAt d 2 8, dst := natAt d 10 8, len := natAt d 18 8, key := none, keyId := [], aborted := false }

/-- R419, R424: is the load refused before its header is looked at? -/
def State.pkgBarred (s : State) (j : PkgJob) : Bool :=
  s.sec.lc != .operational || !s.peal.parts.getLsbD j.part || decide (4096 ≤ j.ctx) || (s.ctx j.ctx).part.toNat != j.part ||
    (s.ctx j.ctx).seals.any fun r => rangesMeet r (j.dst, j.len)

/-- R424: do the source and the destination of a load meet? The source range is as long as its header says, where the header can be read. -/
def State.pkgOverlaps (s : State) (j : PkgJob) : Bool :=
  let srcLen := match s.vaRead j.ctx j.src 4096 with
    | .ok h => pkgBytes h
    | _ => 4096
  rangesMeet (j.src, srcLen) (j.dst, j.len)

/-- PKG_LOAD: one load runs and up to 16 wait. The read of the header meets the errors that stand in it and in its table words (R213,
R214). -/
def execPkgLoad (pr : Principal) (n : Fin 16) (data : List Byte) (s : State) : Out :=
  .next (s.dictWrite pr (prHost pr || prOwns pr n.val) true fun s =>
    match lenBad 26 data with
    | some r => (r, s)
    | none =>
      let j := pkgOf n.val data
      if s.pkgBarred j then (rREFUSED, s)
      else
      let s := s.meetRanges j.ctx [(j.src, 4096)]
      if s.pkgOverlaps j then (rREFUSED, s)
      else if 17 ≤ s.sec.pkgs.length then (rBUSY, s)
      else
        let first := s.sec.pkgs.isEmpty
        let s := { s with sec := { s.sec with pkgs := s.sec.pkgs ++ [j], pkgState := sset 0 s.sec.pkgState n.val 1 } }
        (rOK, if first then s.startPkg else s))

/-- R424: the segments from i on, `k` of them left: the state with their plaintext written, or a reason and the state so far. The walks for the
writes meet the errors that stand in the table words (R213, R214). -/
def State.pkgSegs (s : State) (j : PkgJob) (key h : List Byte) (i : Nat) : Nat → Got (Option Nat × State)
  | 0 => .ok (none, s)
  | k + 1 =>
    let size := 2 ^ pkgLog h
    let n := min size (pkgPlain h - i * size)
    match s.vaRead j.ctx (j.src + 4096 + i * (size + 16)) (n + 16) with
    | .held => .held
    | .fault _ => .ok (some 4, s)
    | .ok c =>
      match pkgSegment key h i c with
      | none => .ok (some 3, s)
      | some p =>
        match s.vaWrite j.ctx (j.dst + i * size) (bytesAt p 0 n) with
        | .held => .held
        | .fault _ => .ok (some 4, s.meetWrites [(j.ctx, j.dst + i * size, n)])
        | .ok t => State.pkgSegs t j key h (i + 1) k

/-- R424: how many plaintext bytes a load that stopped had written, found by running it again up to its segment. -/
def State.pkgWritten (s : State) (j : PkgJob) (key h : List Byte) (i : Nat) : Nat → Nat
  | 0 => 0
  | k + 1 =>
    let size := 2 ^ pkgLog h
    let n := min size (pkgPlain h - i * size)
    match s.vaRead j.ctx (j.src + 4096 + i * (size + 16)) (n + 16) with
    | .ok c =>
      match pkgSegment key h i c with
      | some p =>
        match s.vaWrite j.ctx (j.dst + i * size) (bytesAt p 0 n) with
        | .ok t => n + State.pkgWritten t j key h (i + 1) k
        | _ => 0
      | none => 0
    | _ => 0

/-- The running load ends with a reason (0 for DONE) and the next one starts. -/
def State.pkgDone (s : State) (j : PkgJob) (reason : Nat) : State :=
  let v := if reason = 0 then 2 else reason * 256 + 3
  ({ s with sec := { s.sec with pkgs := s.sec.pkgs.drop 1, pkgState := sset 0 s.sec.pkgState j.part (BitVec.ofNat 16 v) } }).startPkg

/-- R424: the running load as a whole; none while a wipe holds one of its accesses. Its reads meet the errors that stand in the memory (R214). -/
def State.runPkg (s : State) (j : PkgJob) : Option State :=
  let s := s.meetRanges j.ctx [(j.src, 4096)]
  if j.aborted then some (s.pkgDone j 5)
  else match s.vaRead j.ctx j.src 4096 with
    | .held => none
    | .fault _ => some (s.pkgDone j 4)
    | .ok h =>
      match j.key with
      | none => some (s.pkgDone j 1)
      | some key =>
        if bytesAt h 0x20 64 ≠ j.keyId then some (s.pkgDone j 1)
        else if !pkgFormatOk h j.len then some (s.pkgDone j 2)
        else
          let s := s.meetRanges j.ctx [(j.src, pkgBytes h)]
          match s.vaRead j.ctx j.src (pkgBytes h), s.pkgSegs j key h 0 (pkgCount h) with
          | .held, _ => none
          | _, .held => none
          | _, .fault _ => some (s.pkgDone j 4)
          | whole, .ok (r, t) =>
            let undo (why : Nat) : State :=
              match t.vaWrite j.ctx j.dst (List.replicate (s.pkgWritten j key h 0 (pkgCount h)) 0) with
              | .ok u => u.pkgDone j why
              | _ => (t.meetWrites [(j.ctx, j.dst, s.pkgWritten j key h 0 (pkgCount h))]).pkgDone j why
            match r, whole with
            | some why, _ => some (undo why)
            | none, .ok b =>
              if 256 ≤ (t.mlog j.part).length then some (undo 6)
              else some ((t.appendLog j.part 2 false j.ctx j.dst (pkgPlain h) (shake256 b)).pkgDone j 0)
            | none, _ => some (undo 4)

/-- PKG_LOAD_END. -/
def execPkgLoadEnd (s : State) : Out :=
  match s.sec.pkgs with
  | [] => .next s
  | j :: _ => .next ((s.runPkg j).getD s)

/-! ### PCIe IDE (R425, R426) -/

/-- IDE_KM: inside the SPDM session it programs a stream's key; a stream is secure once its keys are set. -/
def execIdeKm (stream : Fin 17) (o : IdeOp) (s : State) : Out :=
  if !s.hub.ready || !s.host.linkUp || !s.sec.spdm || s.sec.lc == .scrapped then .next s
  else
    let k := stream.val + 1
    let now := sget 0 s.sec.ide k
    let v : BitVec 8 := match o with
      | .program _ => if now = 2 then 2 else 1
      | .secure => if now = 0 then 0 else 2
      | .off => 0
    let keys := match o with
      | .program key => sset 0 s.sec.ideKeys k key
      | .secure => s.sec.ideKeys
      | .off => sset 0 s.sec.ideKeys k 0
    let s := { s with sec := { s.sec with ide := sset 0 s.sec.ide k v, ideKeys := keys } }
    .next ((List.range 17).foldl State.busWake (s.stallHost.unstallHost))

/-- SPDM_REQUEST: a message of the session that the identity key authenticates; the session is open once its transcript does. -/
def execSpdmRequest (msg : List Byte) (s : State) : Out :=
  if !s.hub.ready || !s.host.linkUp || s.sec.lc == .scrapped then .next s
  else
    let log := s.sec.spdmLog ++ [msg]
    match s.sec.spdmAnswer log with
    | none => .next s
    | some (r, opens) => .next ({ s with sec := { s.sec with spdm := s.sec.spdm || opens, spdmLog := log ++ [r] } }.emit (.doe r))

end Sys2Proof.Machine
end

