-- ==== Sys2Proof/Machine/Firmware.lean ====
section
/-! DEFINITION. The firmware and boot family (chapter 20; R27, R370, R484, R487): reset and boot, control-processor restarts, the trial
window, FW_CONFIRM, and the faults of links and clocks. -/

namespace Sys2Proof.Machine

/-! ### Reset and boot (R464, R484, R487) -/

/-- R404, R474, R484: what the removal of the rails ends: a thermal shutdown with THERM_N, and what the test access port holds. It needs PWRGD
low. -/
def State.powerCycle (s : State) : State :=
  if s.hub.pwrgd then s
  else { s with hub := { s.hub with thermN := true, tap := .idcode, tapLoaded := .idcode, boundary := .idle }, damper := { s.damper with shutdown := false } }

/-- DEVICE_RESET: DEVRST_N has risen with PWRGD high and both reference clocks stable (R485); the MADDR balls are sampled (R484), and the boot
begins. `power`: the rails were removed since PWRGD went low. -/
def execDeviceReset (s : State) (power : Bool := false) (maddr : BitVec 2 := 0) : Out :=
  let s := if power then s.powerCycle else s
  .next { s with hub := { s.hub with pwrgd := true, devrstN := true, refclkH := true, refclkE := true, maddr := maddr } }.boot

/-- PWRGD_LOW: the device enters reset, as DEVRST_N low does. `cut`: it goes low while ROM writes the boot record of a start (R465). -/
def execPwrgdLow (s : State) (cut : Bool := false) : Out :=
  let s := if cut && s.alive && s.fw.run.isNone then { s with fw := s.fw.cut } else s
  .next { s with hub := { s.hub with pwrgd := false } }.resetKeep

/-- DEVRST_N_LOW. -/
def execDevrstNLow (s : State) : Out := .next { s with hub := { s.hub with devrstN := false } }.resetKeep

/-- IMAGE_START, row 6: the selected image has been verified and starts. -/
def execImageStart (s : State) : Out := if s.alive ∧ s.fw.run.isNone then .next s.startImage else .next s

/-- HBM_TRAINING_END, row 7: failed stacks are retired with the slabs whose placement includes them (R20, R200); rows of the retire
list have been repaired but for `rows`, and the slabs whose placement holds one of these have their retirement pending (R215). In a thermal
shutdown memory stays halted (R397). -/
def execHbmTrainingEnd (failed : List (Fin 32)) (rows : List Nat) (slabs : List (Fin 65536)) (s : State) : Out :=
  if !s.alive ∨ s.hub.trained ∨ s.damper.shutdown then .next s
  else
    let s := { s with
      hub := { s.hub with trained := true }
      mem := { s.mem with failed := (failed.map Fin.val).foldl setIns [], rowsRepaired := (s.mem.retireList.filter fun r => !rows.contains r).length } }
    .next (slabs.foldl (fun s n => s.setSlab n.val { s.slab n.val with rp := true }) s)

/-- DICT_READY, row 8. -/
def execDictReady (s : State) : Out :=
  if s.alive ∧ s.hub.trained ∧ s.hub.started then
    .next { s with hub := { s.hub with ready := true }, bist := { s.bist with aborted := if s.hub.ready then s.bist.aborted else [] } }
  else .next s

/-! ### Restarts (R370, R461, R465) -/

/-- CP_RESTART with a cause: 1 watchdog, 2 ECC, 3 exception, 4 request. -/
def execCpRestart (cause : BitVec 8) (s : State) : Out :=
  if s.alive ∧ s.fw.run.isSome ∧ 1 ≤ cause.toNat ∧ cause.toNat ≤ 4 then .next (s.restartCp cause.toNat) else .next s

/-- CP_WATCHDOG: it expires no earlier than CP_WDT after the image's start; the refreshes that firmware makes later are its own (DESIGN CHOICE,
log entry 67). -/
def execCpWatchdog (s : State) : Out :=
  if s.alive ∧ s.fw.run.isSome ∧ s.fw.wdtFrom + s.fw.wdt * 1000000 ≤ s.now then .next (s.restartCp 1) else .next s

/-- CP_RESTART_END: the image runs, CP_RESTARTS rises, and a fault-queue packet names the cause. -/
def execCpRestartEnd (s : State) : Out :=
  match s.fw.restarting with
  | none => .next s
  | some cause =>
    let s := if s.fw.run.isNone then s.startImage else s
    .next ({ s with fw := { s.fw with restarts := satAdd 32 s.fw.restarts 1, lastCause := cause, restarting := none } }.postCause qidFault cause.toNat)

/-- R461: 600 s in ns. -/
def trialNs : Nat := 600000000000

/-- R461: has the trial window closed? -/
def State.trialOver (s : State) : Bool :=
  match s.fw.trialFrom with
  | some t => decide (t + trialNs ≤ s.now)
  | none => false

/-- TRIAL_WINDOW_CLOSE: the slot becomes BAD and the control processor restarts with cause 1. -/
def execTrialWindowClose (s : State) : Out :=
  if !s.trialOver then .next s
  else match s.fw.selected.slot with
    | none => .next s
    | some b => .next ({ s with fw := (s.fw.setSlot b .bad).record }.restartCp 1)

/-- R456, R462: slot b is confirmed. With FENCE its higher VERSION is fused while a record is left, and a CONFIRMED slot below it becomes
BAD. -/
def Fw.confirm (f : Fw) (b : Bool) : Fw :=
  let f := ({ f.setSlot b .confirmed with active := b, trialFrom := none }).record
  let v := imgVersion (f.image b)
  if imgFence (f.image b) ∧ f.fusedNow < v ∧ f.fused.length < 64 then
    let f := { f with fused := BitVec.ofNat 32 v :: f.fused }
    if f.slot (!b) = .confirmed ∧ imgVersion (f.image !b) < v then (f.setSlot (!b) .bad).record else f
  else f

/-- FW_CONFIRM: of a slot in TRIAL whose window is open; else it has no effect. -/
def execFwConfirm (pr : Principal) (v : BitVec 8) (s : State) : Out :=
  .next (s.dictWriteAt pr 9 (prHost pr || prCp pr) true fun s =>
    if 1 < v.toNat then (rRANGE, s)
    else if v = 0 then (rOK, s)
    else match s.fw.selected.slot with
      | none => (rOK, s)
      | some b =>
        if s.fw.slot b = .trial ∧ s.fw.trialFrom.isSome ∧ !s.trialOver then (rOK, { s with fw := s.fw.confirm b }) else (rOK, s))

/-! ### Faults of links and clocks (R27, R487) -/

/-- LINK_FAULT: a hub link (code 2) or a ring link (code 3) cannot retrain. -/
def execLinkFault (ring : Bool) (s : State) : Out := if s.alive then .next (s.deviceFault (if ring then 3 else 2)) else .next s

/-- REFCLK_H_LOSS: the PCIe link drops, and the reads that it carried are lost; the hub timer stops, and the hub die is at fault (code 1). -/
def execRefclkHLoss (s : State) : Out :=
  let s := { s with hub := { s.hub with refclkH := false } }
  if s.alive then .next ({ s with host := { s.host with linkUp := false }
                                  mem := { s.mem with held := s.mem.held.filter fun a => a.write.isSome }
                                  sec := s.sec.linkEnd }.stallHost.deviceFault 1)
  else .next s

/-- REFCLK_E_LOSS: every port that is not disabled goes DOWN. -/
def execRefclkELoss (s : State) : Out :=
  let s := { s with hub := { s.hub with refclkE := false } }
  if !s.alive then .next s
  else .next ((List.range 8).foldl (fun s k => if (s.port k).st = .disabled then s else s.setLink k .down) s)

end Sys2Proof.Machine
end

