-- ==== Sys2Proof/Machine/Bist.lean ====
section
/-! DEFINITION. The self-test family (chapter 21): BIST at its four scopes and the pattern test of one HBM stack. -/

namespace Sys2Proof.Machine

/-! ### Starts (R467, R468) -/

def bistScope (v : BitVec 16) : Nat := v.toNat / 4096
def bistKind (v : BitVec 16) : Nat := v.toNat / 1024 % 4
def bistTarget (v : BitVec 16) : Nat := v.toNat % 128

/-- R10, R467: the run that a value of BIST_START asks for, its reserved bits [9:7] ignored; none where it holds a reserved value. -/
def bistRun (v : BitVec 16) : Option BistRun :=
  let r : BistRun := { scope := bistScope v, logic := bistKind v % 2 == 1, memory := decide (2 ≤ bistKind v), target := bistTarget v }
  let top := if r.scope = 1 then 68 else if r.scope = 2 then 4 else 1
  if bistKind v = 0 ∨ r.scope = 0 ∨ 4 < r.scope ∨ top ≤ r.target then none else some r

/-- R468: is the device in maintenance? No FW_IMAGE transfer is incomplete. -/
def State.inMaintenance (s : State) : Bool :=
  s.disp.ctxs.all (fun c => c.2.life == .free) && s.car.st != 1 &&
    !(s.dict.chans.any fun c => match c.transfer with
      | some t => t.index == 0x9001
      | none => false)

/-- R471: a core without scratchpad contents, registers, banks and translations. -/
def Core.wiped (c : Core) : Core := { c with run := none, seq := Seq.reset, eng := Engines.reset, sp := Scratch.reset, toll := TollState.reset, tlb := Tlb.reset }

/-- R467, R475: one write of BIST_START at the given scope. In a thermal shutdown a test is accepted and touches nothing (R397, log entry 45). -/
def State.bistStart (s : State) (pr : Principal) (v : BitVec 16) (scope : Nat) : State :=
  s.dictWriteAt pr 10 (prHost pr || prBmc pr || prCp pr) true fun s =>
    match bistRun v with
    | none => (rRANGE, s)
    | some r =>
      if r.scope ≠ scope then (rRANGE, s)
      else if scope = 1 then
        if (s.core r.target).life ≠ .choked ∨ s.bist.cores.any (fun k => quadOf k.target == quadOf r.target) then (rREFUSED, s)
        else
          let s := s.modCore r.target fun c => { (if s.damper.shutdown then c else c.wiped) with life := .testing }
          (rOK, { s with bist := { s.bist with cores := s.bist.cores ++ [r], statusCore := sset 0 s.bist.statusCore r.target 1 } })
      else if !s.inMaintenance ∨ s.bist.maint.isSome ∨ !s.bist.cores.isEmpty then (rREFUSED, s)
      else (rOK, { s with bist := { s.bist with maint := some r } })

def execBistCore (pr : Principal) (v : BitVec 16) (s : State) : Out := .next (s.bistStart pr v 1)
def execBistQuadrant (pr : Principal) (v : BitVec 16) (s : State) : Out := .next (s.bistStart pr v 2)
def execBistHub (pr : Principal) (v : BitVec 16) (s : State) : Out := .next (s.bistStart pr v 3)
def execBistDevice (pr : Principal) (v : BitVec 16) (s : State) : Out := .next (s.bistStart pr v 4)

/-! ### Ends (R469 to R472, R476) -/

/-- R469: the memory signature of a run, which equals the expected value exactly when no word fails. -/
def bistMemSig (x : BistResult) (expected : BitVec 64) : BitVec 64 :=
  if x.failing = 0 then expected else if x.memory = expected then ~~~expected else x.memory

/-- R467, R472: the signatures that a run produces: those of its KIND, and both for a device run, which always ends with the HBM pattern test. -/
def BistRun.signs (r : BistRun) : Bool × Bool := (r.logic || r.scope == 4, r.memory || r.scope == 4)

/-- R476: BIST_STATUS of an ended run against its expected logic and memory signatures. -/
def bistStatus (r : BistRun) (x : BistResult) (logic memory : BitVec 64) : BitVec 16 :=
  let badL := r.signs.1 && x.logic != logic
  let badM := r.signs.2 && bistMemSig x memory != memory
  BitVec.ofNat 16 ((if badL || badM then 3 else 2) + 8 * b2n badL + 16 * b2n badM + 256 * (if r.signs.2 then min 255 x.failing else 0))

/-- R469: does the run pass? -/
def bistPass (r : BistRun) (x : BistResult) (logic memory : BitVec 64) : Bool :=
  !(r.signs.1 && x.logic != logic) && !(r.signs.2 && bistMemSig x memory != memory)

/-- CORE_BIST_END: rows 2 to 5 of R471 have run on core p; in a thermal shutdown they do not (R397). -/
def execCoreBistEnd (p : Fin 68) (x : BistResult) (s : State) : Out :=
  if s.damper.shutdown then .next s else
  match s.bist.cores.find? fun k => k.target == p.val with
  | none => .next s
  | some r =>
    let eL := Config.bistExpect 0
    let eM := Config.bistExpect 1
    let s := s.modCore p.val fun c => { c.wiped with life := if bistPass r x eL eM then .passed else .choked }
    let b := s.bist
    .next { s with bist := { b with
      cores := b.cores.filter fun k => k.target != p.val
      statusCore := sset 0 b.statusCore p.val (bistStatus r x eL eM)
      sigCore := if r.logic then sset 0 b.sigCore p.val x.logic else b.sigCore
      msigCore := if r.memory then sset 0 b.msigCore p.val (bistMemSig x eM) else b.msigCore } }

/-- R476: the fused signatures of the scopes above a core. -/
def bistExpected (scope : Nat) : BitVec 64 × BitVec 64 :=
  if scope = 2 then (Config.bistExpect 2, Config.bistExpect 3)
  else if scope = 3 then (Config.bistExpect 4, Config.bistExpect 5)
  else (Config.bistExpect 7, Config.bistExpect 6)

/-- MAINT_BIST_END: the results are stored under their scope (R470), failing rows of a device run join the retire list (R472), and the device resets.
In a thermal shutdown the run does not end (R397). -/
def execMaintBistEnd (x : BistResult) (rows : List Nat) (s : State) : Out :=
  if s.damper.shutdown then .next s else
  match s.bist.maint with
  | none => .next s
  | some r =>
    let e := bistExpected r.scope
    let k := r.scope - 2
    let s := if r.scope = 4 then rows.foldl State.addRetire s else s
    let s := { s with bist := { s.bist with
      statusDev := sset 0 s.bist.statusDev k (bistStatus r x e.1 e.2)
      sigDev := sset 0 s.bist.sigDev k (if r.signs.1 then x.logic else bistMemSig x e.2) } }
    .next s.boot

/-! ### HBM stacks (R473) -/

/-- HBM_TEST: refused unless every slab whose placement includes the stack is FREE or RETIRED, with WIPE 0. In a thermal shutdown the test that it
starts waits (R397, log entry 45). -/
def execHbmTest (pr : Principal) (st : Fin 32) (v : BitVec 8) (s : State) : Out :=
  .next (s.dictWriteAt pr 10 (prHost pr || prBmc pr || prCp pr) true fun s =>
    if 1 < v.toNat then (rRANGE, s)
    else if v = 0 then (rOK, s)
    else if s.bist.hbmRunning.contains st.val ∨
        s.mem.slabs.any (fun e => s.slabUses e.1 st.val && (e.2.life == .assigned || e.2.wipe)) then (rREFUSED, s)
    else (rOK, { s with bist := { s.bist with
      hbmRunning := setIns s.bist.hbmRunning st.val, hbmStatus := sset 0 s.bist.hbmStatus st.val 1 } }))

/-- HBM_TEST_END: failing rows join the retire list, the stack's slabs are wiped, and HBM_STATUS says what was found. In a thermal shutdown memory
is halted and the test does not end (R397). -/
def execHbmTestEnd (st : Fin 32) (rows : List Nat) (s : State) : Out :=
  if !s.bist.hbmRunning.contains st.val || s.damper.shutdown then .next s
  else
    let before := s.mem.retireList.length
    let s := rows.foldl State.addRetire s
    let added := s.mem.retireList.length - before
    let keep (pa : Nat) : Bool := !s.slabUses (pa / 2 ^ 25) st.val
    let v := BitVec.ofNat 32 (min 65535 added * 65536 + if rows.isEmpty then 2 else 3)
    .next { s with
      mem := { s.mem with
        bytes := s.mem.bytes.filter fun c => keep c.1
        poison := s.mem.poison.filter fun w => keep (w * 64)
        latent := s.mem.latent.filter fun h => keep (h.word * 64) }
      bist := { s.bist with hbmRunning := s.bist.hbmRunning.filter (fun k => k != st.val), hbmStatus := sset 0 s.bist.hbmStatus st.val v } }

end Sys2Proof.Machine
end

