-- ==== Sys2Proof/Machine/Chokes.lean ====
section
/-! DEFINITION. The choke of a core and its re-admission as commands (R365, R369). -/

namespace Sys2Proof.Machine

/-- R363, R365: a core fault report reaches the hub. The cause is the fault that the core holds, else the one that nature
supplies (codes 1 to 6). -/
def execChoke (p : Fin 68) (cause : BitVec 8) (s : State) (drops : Nat := 0) : Out :=
  let c := s.core p
  let f := c.fault.getD { cause := cause, time := s.now }
  if s.alive && c.life == .opened && decide (1 ≤ f.cause.toNat ∧ f.cause.toNat ≤ 6) then .next (s.choke p f.cause.toNat f.time drops).dropIdle
  else .next s

/-- R369: a write of CORE_CHOKE. -/
def execCoreChoke (pr : Principal) (v : BitVec 8) (s : State) (drops : Nat := 0) : Out :=
  .next (s.dictWrite pr (prHost pr || prCp pr) false fun s =>
    if 68 ≤ v.toNat then (rRANGE, s)
    else match (s.core v.toNat).life with
      | .opened => (rOK, (s.choke v.toNat 7 s.now drops).dropIdle)
      | .passed => (rOK, s.modCore v.toNat fun c => { c with life := .choked, cause := 7 })
      | _ => (rREFUSED, s))

/-- R17: a re-admitted core fills the lowest vacant slot of its quadrant, else becomes the spare. -/
def State.remap (s : State) (p : Nat) : State :=
  let q := quadOf p
  match ((List.range 16).map (16 * q + ·)).find? fun n => s.mapAt n == 0xFF with
  | some n => { s with disp := { s.disp with map := sset 0xFF s.disp.map n (BitVec.ofNat 8 p) } }
  | none => { s with disp := { s.disp with spare := sset 0xFF s.disp.spare q (BitVec.ofNat 8 p) } }

/-- R369: a write of CORE_READMIT. -/
def execCoreReadmit (pr : Principal) (v : BitVec 8) (s : State) : Out :=
  .next (s.dictWrite pr (prHost pr || prCp pr) false fun s =>
    if 68 ≤ v.toNat then (rRANGE, s)
    else if (s.core v.toNat).life = .passed then
      (rOK, (s.modCore v.toNat fun c => { c with life := .opened }).remap v.toNat)
    else (rREFUSED, s))

end Sys2Proof.Machine
end

