-- ==== Sys2Proof/Machine/MatrixUnit.lean ====
section
/-! DEFINITION. What the matrix array computes (chapter 5): operand columns and rows, accumulation, and the ABFT check. -/

namespace Sys2Proof.Machine

/-! ### Operands (R105 to R107, R122) -/

/-- R106: a TH4B operand supplies 128 lanes at 8 reduction steps per row. -/
def lanesOf (d : BitVec 256) : Nat := if dFmt d = 7 then 128 else dExt d 0
def depthOf (d : BitVec 256) : Nat := if dFmt d = 7 then 8 * dExt d 1 else dExt d 1

/-- The element of lane l at reduction index k outside tap mode. -/
def laneElem (d : BitVec 256) (l k : Nat) : Nat :=
  if dFmt d = 7 then k / 8 * 1024 + k % 8 * 128 + l else k * dExt d 0 + l

/-- R122: the tile and kernel of a tap-mode pass, from its extension word. -/
def tapT (x : W64) : Nat × Nat × Nat := (fld x 32 26 + 1, fld x 25 19 + 1, fld x 18 12 + 1)
def tapK (x : W64) : Nat × Nat × Nat := (fld x 11 8 + 1, fld x 7 4 + 1, fld x 3 0 + 1)

/-- R122: the channel, and the element of its patch, that lane m receives at reduction index k. -/
def tapElem (d : BitVec 256) (x : W64) (m k : Nat) : Nat × Nat :=
  let (tw, th, _) := tapT x
  let (kw, kh, kt) := tapK x
  let w := m % tw
  let h := m / tw % th
  let t := m / (tw * th)
  let jw := k % kw
  let jh := k / kw % kh
  let jt := k / (kw * kh) % kt
  (k / (kw * kh * kt), (w + jw) + dExt d 0 * ((h + jh) + dExt d 1 * (t + jt)))

/-- R123: the tap line loads channel c of A into a patch buffer. -/
def loadPatch (m : Scratch) (t : Strm) (c : Nat) : Patch :=
  let n := dExt t.d 0 * dExt t.d 1 * dExt t.d 2
  { chan := c, raw := (List.range n).map fun i => inputRaw m t (c * n + i) }

/-- The patches of every channel of a tap-mode pass, in the order in which the two buffers receive them; none of another pass. -/
def passPatches (m : Scratch) (q : PassInstr) : List Patch :=
  if q.tap.isSome then (List.range (dExt q.a.d 3)).map (loadPatch m q.a) else []

/-- R54, R83: an operand element as read from its stream, with no scale (R64). -/
def arrayElem (m : Scratch) (t : Strm) (j : Nat) : FVal × Flags :=
  if t.kept m j then storedVal m false t.d j else (FVal.zero, 0)

/-- R105, R122: the A operand of lane `row` at reduction index k: an element of the stream or, in tap mode, of the patch of its channel.
Lanes at or above M, and B lanes at or above N, receive +0. -/
def aElem (m : Scratch) (q : PassInstr) (ps : List Patch) (row k : Nat) : FVal × Flags :=
  if q.m ≤ row then (FVal.zero, 0)
  else match q.tap with
    | some x =>
      let (c, i) := tapElem q.a.d x row k
      ((fmtOf (dFmt q.a.d)).decode ((ps.getD c { chan := c, raw := [] }).raw.getD i 0), 0)
    | none => arrayElem m q.a (laneElem q.a.d row k)
def bElem (m : Scratch) (q : PassInstr) (col k : Nat) : FVal × Flags :=
  if q.n ≤ col then (FVal.zero, 0) else arrayElem m q.b (laneElem q.b.d col k)

/-- R67: an operand of a sub-pass that rounds; only binary32 operands are rounded. -/
def prepRound (t : Strm) (v : FVal) : FVal × Flags := if dFmt t.d = 2 then arrayRound v else (v, 0)

/-- R107: the operands of sub-pass i of a pass. -/
def subOperands (q : PassInstr) (i : Nat) (a b : FVal) : FVal × FVal × Flags :=
  if q.passes = 1 then
    let (x, g) := prepRound q.a a
    let (y, h) := prepRound q.b b
    (x, y, g ||| h)
  else if q.passes = 2 then
    let (hi, lo) := arraySplit a
    let (y, h) := prepRound q.b b
    (if i = 0 then hi else lo, y, h)
  else
    let (ah, al) := arraySplit a
    let (bh, bl) := arraySplit b
    if i = 0 then (ah, bh, 0) else if i = 1 then (ah, bl, 0) else (al, bh, 0)

/-- R73: the array reports INVALID and OVERFLOW only. -/
def arrayFlags (g : Flags) : Flags := g &&& (fINVALID ||| fOVERFLOW)

/-- R109: the next value of a cell: the first product is stored, each later one is added with one rounding. -/
def accStep (first : Bool) (acc p : FVal) : FVal × Flags := if first then (p, 0) else fadd fmtB32 acc p

/-- R109: one output cell over one pass: its value and flags, from its value before (`fresh`: none). -/
def cellPass (m : Scratch) (q : PassInstr) (ps : List Patch) (row col : Nat) (fresh : Bool) (acc : BitVec 32) : BitVec 32 × Flags :=
  let (v, _, g) := ((List.range q.passes).flatMap fun i => (List.range q.k).map fun k => (i, k)).foldl
    (fun (st : FVal × Bool × Flags) ik =>
      let (a, ga) := aElem m q ps row ik.2
      let (b, gb) := bElem m q col ik.2
      let (x, y, gp) := subOperands q ik.1 a b
      let (p, g1) := fmul fmtB32 x y
      let (w, g2) := accStep st.2.1 st.1 p
      (w, false, st.2.2 ||| ga ||| gb ||| gp ||| g1 ||| g2)) (ofB32 acc, fresh, 0)
  (toB32 v, arrayFlags g)

/-- An exact sum rounded once to binary32 (R124). -/
def exactSum (l : List FVal) : FVal := l.foldl (fun a v => (a.addX v).1) FVal.zero
def roundedSum (l : List FVal) : FVal := (fmtB32.round .rne (exactSum l)).1

/-- R124: the accumulation of one check cell over the reduction indices: products formed exactly, one rounding per add. -/
def checkAcc (fresh : Bool) (acc : BitVec 32) (ps : List FVal) : BitVec 32 :=
  let (v, _) := ps.foldl (fun (st : FVal × Bool) p =>
    let s := if st.2 then p else (st.1.addX p).1
    ((fmtB32.round .rne s).1, false)) (ofB32 acc, fresh)
  toB32 v

def prodOf (a b : FVal) : FVal := (a.mulX b).1
def magOf (v : FVal) : FVal := v.abs.1

/-- A table with the same value at each of the keys. -/
def spread (t : Sparse (BitVec 32)) (keys : List Nat) (v : BitVec 32) : Sparse (BitVec 32) :=
  keys.foldl (fun t k => if sget 0 t k = v then t else sset 0 t k v) t

/-- The numbers from n to 127: the lanes that an operand of n lanes leaves at +0. -/
def padLanes (n : Nat) : List Nat := (List.range (128 - n)).map (n + ·)

/-- R116: the product of the two scales, one binary32 multiplication with its flags. -/
def scaleMul (a b : BitVec 256) : FVal × Flags := fmul fmtB32 (ofB32 (dScale a)) (ofB32 (dScale b))

/-- R107, R109, R124: a pass enters: its products and check terms are accumulated in its bank. `fresh` starts a new accumulation, and
with it the scale product is formed and its flags are raised (log entry 32). The lanes beyond an operand's extent receive +0, so every cell
of a row or column beyond it takes one value, which the first of them stands for. -/
def enterPass (m : Scratch) (q : PassInstr) (bk : Bank) : Bank × Flags :=
  let fresh := !q.hold
  let ps := passPatches m q
  let rows := List.range q.m
  let cols := List.range q.n
  let ks := List.range q.k
  let bk0 := if fresh then { bk with cells := [], chkRow := [], chkCol := [], gRow := [], gCol := [], prods := 0, rounded := false,
                                     three := false } else bk
  let cell (rc : Nat × Nat) : BitVec 32 × Flags := cellPass m q ps rc.1 rc.2 fresh (sget 0 bk0.cells (128 * rc.1 + rc.2))
  let inner := (rows.flatMap fun r => cols.map fun c => (r, c)).foldl
    (fun (st : Sparse (BitVec 32) × Flags) rc =>
      let (v, g) := cell rc
      (sset 0 st.1 (128 * rc.1 + rc.2) v, st.2 ||| g)) (bk0.cells, 0)
  let below := if 128 ≤ q.m then inner else cols.foldl
    (fun (st : Sparse (BitVec 32) × Flags) c =>
      let (v, g) := cell (q.m, c)
      (spread st.1 ((padLanes q.m).map fun r => 128 * r + c) v, st.2 ||| g)) inner
  let (cells, g) := if 128 ≤ q.n then below else rows.foldl
    (fun (st : Sparse (BitVec 32) × Flags) r =>
      let (v, g) := cell (r, q.n)
      (spread st.1 ((padLanes q.n).map fun c => 128 * r + c) v, st.2 ||| g)) below
  let aAt (r k : Nat) : FVal := (aElem m q ps r k).1
  let bAt (c k : Nat) : FVal := (bElem m q c k).1
  let colSum (k : Nat) : FVal := roundedSum (rows.map fun r => aAt r k)
  let rowSum (k : Nat) : FVal := roundedSum (cols.map fun c => bAt c k)
  let colMag (k : Nat) : FVal := roundedSum (rows.map fun r => magOf (aAt r k))
  let rowMag (k : Nat) : FVal := roundedSum (cols.map fun c => magOf (bAt c k))
  let upd (t : Sparse (BitVec 32)) (n : Nat) (f : Nat → Nat → FVal) : Sparse (BitVec 32) :=
    let acc (i : Nat) : BitVec 32 := checkAcc fresh (sget 0 t i) (ks.map (f i))
    let u := (List.range n).foldl (fun u i => sset 0 u i (acc i)) t
    if 128 ≤ n then u else spread u (padLanes n) (acc n)
  let isB32 (t : Strm) : Bool := dFmt t.d == 2
  let sc := scaleMul q.a.d q.b.d
  let bk1 := { bk0 with
    cells := cells
    chkRow := upd bk0.chkRow q.n fun c k => prodOf (colSum k) (bAt c k)
    gRow := upd bk0.gRow q.n fun c k => prodOf (colMag k) (magOf (bAt c k))
    chkCol := upd bk0.chkCol q.m fun r k => prodOf (aAt r k) (rowSum k)
    gCol := upd bk0.gCol q.m fun r k => prodOf (magOf (aAt r k)) (rowMag k)
    scale := if fresh then toB32 sc.1 else bk0.scale
    prods := bk0.prods + q.passes * q.k
    rounded := bk0.rounded || (q.passes == 1 && (isB32 q.a || isB32 q.b)) || (q.passes == 2 && isB32 q.b)
    three := bk0.three || q.passes == 3 }
  (bk1, if fresh then g ||| sc.2 else g)

/-! ### The ABFT comparison (R124, R125) -/

/-- τ in units of 2^−23: (n + 2) × 2^−23, with 2^−11 or 2^−22 added by the operands. -/
def abftTau (bk : Bank) : Nat := (if bk.rounded then 4096 else if bk.three then 2 else 0) + bk.prods + 2

/-- Does a drained row or column fail against its check value and magnitude? -/
def abftFails (bk : Bank) (chk g : BitVec 32) (vals : List FVal) : Bool :=
  let c := ofB32 chk
  let gv := ofB32 g
  if c.nonfinite || gv.nonfinite then false
  else if vals.any FVal.nonfinite then true
  else
    let d := (c.addX (exactSum vals).negate).1.abs.1
    let lim := ((FVal.mulX (.fin false (abftTau bk) (-23)) gv).1.addX (.fin false (bk.prods + 2) (-149))).1
    lim.lt d

/-- The cells of one of the 128 rows, or columns, of a bank; the cells that are not listed hold +0 and add nothing to a sum. -/
def Bank.rowCells (bk : Bank) (r : Nat) : List FVal := (bk.cells.filter fun e => e.1 / 128 == r).map fun e => ofB32 e.2
def Bank.colCells (bk : Bank) (c : Nat) : List FVal := (bk.cells.filter fun e => e.1 % 128 == c).map fun e => ofB32 e.2

/-- Does any of the 128 rows and 128 columns of the drained bank fail? -/
def abftBad (bk : Bank) : Bool :=
  (List.range 128).any fun i =>
    abftFails bk (sget 0 bk.chkCol i) (sget 0 bk.gCol i) (bk.rowCells i) || abftFails bk (sget 0 bk.chkRow i) (sget 0 bk.gRow i) (bk.colCells i)

end Sys2Proof.Machine
end

