-- ==== Sys2Proof/Machine/Matrix.lean ====
section
/-! DEFINITION. The matrix family: MPASS, MDRAIN and the events of passes and drains (chapter 5, R171, R172). -/

namespace Sys2Proof.Machine

def Engines.bank (e : Engines) (b : Bool) : Bank := if b then e.a1 else e.a0
def Engines.setBank (e : Engines) (b : Bool) (k : Bank) : Engines := if b then { e with a1 := k } else { e with a0 := k }

/-- R44: the formats that an array operand may have; `second` is the B operand. -/
def arrayFmtOk (passes : Nat) (second : Bool) (f : Nat) : Bool :=
  if passes = 1 then decide (2 ≤ f ∧ f ≤ 7)
  else if passes = 2 then (if second then decide (2 ≤ f ∧ f ≤ 7) else f == 2)
  else f == 2

/-- R105, R106: the geometry of an operand outside tap mode. -/
def operandOk (d : BitVec 256) : Bool :=
  dExt d 2 == 1 && dExt d 3 == 1 &&
    (if dFmt d = 7 then dExt d 0 == 1024 && decide (dExt d 1 ≤ 8192) else decide (dExt d 0 ≤ 128))

/-- R122: the geometry of the A operand of a tap-mode pass. -/
def tapOk (d : BitVec 256) (x : W64) : Bool :=
  let (tw, th, tt) := tapT x
  let (kw, kh, kt) := tapK x
  zeroBits x 63 33 && dFmt d != 7 && decide (tw * th * tt ≤ 128) &&
    dExt d 0 == tw + kw - 1 && dExt d 1 == th + kh - 1 && dExt d 2 == tt + kt - 1 &&
    decide (dExt d 0 * dExt d 1 * dExt d 2 ≤ 1024)

/-- R116: the scale product of a pass. -/
def scaleProduct (a b : BitVec 256) : BitVec 32 := toB32 (scaleMul a b).1

/-- R111, R171: the pass that an MPASS word describes, before its bank is known: (M, N, K), or none when a check fails. -/
def passGeometry (a b : Strm) (tap : Bool) (x : W64) : Option (Nat × Nat × Nat) :=
  let kb := depthOf b.d
  if tap then
    let (tw, th, tt) := tapT x
    let (kw, kh, kt) := tapK x
    let k := dExt a.d 3 * kt * kh * kw
    if tapOk a.d x && operandOk b.d && decide (k ≤ 65536) && k == kb then some (tw * th * tt, lanesOf b.d, k) else none
  else
    if operandOk a.d && operandOk b.d && decide (kb ≤ 65536) && depthOf a.d == kb then some (lanesOf a.d, lanesOf b.d, kb) else none

/-- R111, R112, R115: the bank of a pass, or none where the rules refuse it. -/
def passBank (e : Engines) (hold : Bool) (m n : Nat) (scale : BitVec 32) : Option Bool :=
  if hold then
    match e.lastPass with
    | none => none
    | some q =>
      if (e.bank q.bank).st = .accumulating ∧ q.m = m ∧ q.n = n ∧ scaleProduct q.a.d q.b.d = scale then some q.bank else none
  else
    let b := match e.lastBank with
      | none => false
      | some x => !x
    if (e.bank b).st = .accumulating then none else some b

/-- R171: issue of a matrix pass. A DRAIN_PENDING bank that a pass without HOLD takes is ACCUMULATING from this issue on, although its drain has not
ended and the pass still waits at entry: HOLD and MDRAIN of the new accumulation are accepted (DESIGN CHOICE, log entry 70: both rows of R112's table
fit it). -/
def issueMpass (c : Core) (w x : W64) : Issue :=
  let passes := fld w 46 45
  let hold := bitN w 44
  let tap := bitN w 43
  let a := strmOf c.seq.descs (fld w 56 52)
  let b := strmOf c.seq.descs (fld w 51 47)
  if !opOk 0x01 w tap || !zeroBits w 42 0 || passes == 0 then .bad
  else if !a.ok (arrayFmtOk passes false) || !b.ok (arrayFmtOk passes true) then .bad
  else match passGeometry a b tap x with
    | none => .bad
    | some (m, n, k) =>
      match passBank c.eng hold m n (scaleProduct a.d b.d) with
      | none => .bad
      | some bank =>
        let id := c.seq.nextId
        let entries := sbEntries id [a, b] []
        if 4 ≤ c.eng.arrayQ.length || sbStalls c.eng.score entries then .stall
        else
          let q : PassInstr := { id := id, a := a, b := b, passes := passes, hold := hold, tap := if tap then some x else none,
                                 bank := bank, m := m, n := n, k := k }
          let e := { c.eng with arrayQ := c.eng.arrayQ ++ [q], score := c.eng.score ++ entries, lastBank := some bank,
                                lastPass := some q }
          .go { c with
            eng := e.setBank bank { e.bank bank with st := .accumulating, m := m, n := n }
            seq := { c.seq with nextId := id + 1 } }

def execMpass (p : Fin 68) (w x : W64) (s : State) : Out :=
  .next (issue s p (wordsOf (bitN w 43)) fun c => issueMpass c w x)

/-- Is the operation a drain of bank b? -/
def VecInstr.drains (v : VecInstr) (b : Bool) : Bool :=
  match v.op with
  | .mdrain k .. => k == b
  | _ => false

/-- R113: the pass at the head of the array queue may begin entry: with HOLD nothing further, without HOLD its bank is
free of drains issued before it. -/
def entryReady (e : Engines) (q : PassInstr) : Bool :=
  q.hold || !((e.vecQ ++ e.vecRun).any fun v => v.drains q.bank && decide (v.id < q.id))

/-- R76, R113, R119, R123: a queued pass enters, once the passes before it have entered and so have read their streams. Its products take
their places in the cells; its streams stay protected until its successor enters or its last wavefront leaves. In tap mode the two patch
buffers end with its last two channels. After a thermal shutdown the array admits nothing (R121, R397). -/
def execMpassEntry (p : Fin 68) (s : State) (e : List EccHit := []) : Out :=
  let c := s.core p
  match c.eng.arrayQ with
  | [] => .next s
  | q :: r =>
    if !entryReady c.eng q || c.seq.halted || s.damper.shutdown then .next s
    else
      let (bk, g) := enterPass c.sp q (c.eng.bank q.bank)
      let ps := passPatches c.sp q
      let g0 := c.eng.inArray.foldl (fun g k => g.release k.id) c.eng
      let e1 := { g0 with
        arrayQ := r, inArray := c.eng.inArray ++ [q], swelled := decide (1024 ≤ c.eng.idle), idle := 0
        patches := if q.tap.isSome then ps.drop (ps.length - 2) else c.eng.patches }
      .next (s.setCore p (({ c.scratchErrs s.now (readSpans [q.a, q.b] []) (readHits [q.a, q.b] [] e) with eng := e1.setBank q.bank bk }).raise g))

/-- R108, R119: the last wavefront of the oldest pass leaves the array, 256 steps after its last entry step: an array that holds no other
pass has admitted no operand wavefront for those steps. -/
def Engines.leave (e : Engines) : Engines :=
  match e.inArray with
  | [] => e
  | q :: r =>
    let e := ({ e with inArray := r }).release q.id
    if r.isEmpty then { e with idle := 256 } else e

def execLastWavefrontLeft (p : Fin 68) (s : State) : Out :=
  .next (if s.damper.shutdown then s else s.modCore p fun c => { c with eng := c.eng.leave })

/-- R172: the ROWRED operation. -/
def rropKind (n : Nat) : RedKind := if n = 0 then .sum else if n = 1 then .sumsq else .amax

/-- The extents of a stream are these. -/
def extsAre (t : Strm) (e0 e1 : Nat) : Bool := dExts t.d == [e0, e1, 1, 1]

/-- R172: issue of a drain. -/
def issueMdrain (c : Core) (w x : W64) : Issue :=
  let strm (lo : Nat) : Strm := strmOf c.seq.descs (fld w (lo + 4) lo)
  let sec := fld w 46 45
  let rrop := fld w 44 43
  let bias := fld w 37 36
  let res := bitN w 30
  let acten := bitN w 29
  let fn := fld w 28 25
  let bm := bitN w 19
  let bank := bitN w 18
  let elu := acten && fn == 6
  let bk := c.eng.bank bank
  let m := bk.m
  let n := bk.n
  let dp := strm 52
  let ds := strm 47
  let dbi := strm 38
  let drs := strm 31
  let dbm := strm 20
  let dsOk := match sec with
    | 0 => true
    | 1 => ds.ok isNum && extsAre ds m n
    | 2 => ds.ok isNum && extsAre ds n m
    | _ => ds.ok isNum && extsAre ds 1 m
  let ins := (if bias = 0 then [] else [dbi]) ++ (if res then [drs] else [])
  let outs := [dp] ++ (if sec = 0 then [] else [ds]) ++ (if bm then [dbm] else [])
  if !opOk 0x02 w elu || !zeroBits w 17 0 || rrop == 3 || bias == 3 || decide (9 ≤ fn) then .bad
  else if bm && !(acten && (fn == 7 || fn == 8)) then .bad
  else if elu && !alphaOk x then .bad
  else if bk.st ≠ .accumulating then .bad
  else if !(dp.ok isNum && extsAre dp n m) || !dsOk then .bad
  else if bias != 0 && !(dbi.ok (· == 2) && extsAre dbi (if bias = 1 then n else m) 1) then .bad
  else if res && !(drs.ok isNum && extsAre drs n m) then .bad
  else if bm && !(dbm.ok (· == 8) && extsAre dbm n m) then .bad
  else if !overlapOk ins outs then .bad
  else
    let op : VecOp := .mdrain bank (BitVec.ofNat 2 sec) (rropKind rrop) (BitVec.ofNat 2 bias) res acten (BitVec.ofNat 4 fn) bm
    match c.toVector op ins outs false (BitVec.ofNat 32 x.toNat) none with
    | .go c' => .go { c' with eng := c'.eng.setBank bank { c'.eng.bank bank with st := .drainPending } }
    | r => r

def execMdrain (p : Fin 68) (w x : W64) (s : State) : Out :=
  .next (issue s p (wordsOf (bitN w 29 && fld w 28 25 == 6)) fun c => issueMdrain c w x)

/-- R113, R115, R147: the drain at the head of the vector queue begins: its bank's passes issued before it have all
entered, and no drain runs in the engine. After a thermal shutdown none begins or ends (R397). -/
def execDrainStart (p : Fin 68) (s : State) : Out :=
  let c := s.core p
  match c.eng.vecQ with
  | [] => .next s
  | v :: r =>
    if !v.isDrainOp || c.seq.halted || s.damper.shutdown || c.eng.vecRun.any VecInstr.isDrainOp ||
        c.eng.arrayQ.any (fun q => v.drains q.bank && decide (q.id < v.id)) then .next s
    else .next (s.setCore p { c with eng := { c.eng.doneReading c.sp with vecQ := r, vecRun := c.eng.vecRun ++ [v] } })

/-- R88, R124: bits of the bank's cells that nature has changed before the drain read them. -/
def upsetCells (bk : Bank) (upset : List (Nat × BitVec 32)) : Bank :=
  { bk with cells := upset.foldl (fun t u => sset 0 t u.1 u.2) bk.cells }

/-- R112, R116, R124, R125, R145: the oldest running vector instruction is a drain and reads its last row: its outputs
are written, the check compares, and its bank returns to FREE. -/
def execDrainEnd (p : Fin 68) (upset : List (Nat × BitVec 32)) (s : State) (h : List EccHit := []) : Out :=
  if s.damper.shutdown then .next s else
  let c := s.core p
  match c.eng.vecRun with
  | [] => .next s
  | v :: r =>
    match v.op with
    | .mdrain bank sec rrop bias res acten fn bm =>
      let bk := upsetCells (c.eng.bank bank) upset
      let (m, g, _) := runDrain c.sp v (s.srKey p v.n) bk sec rrop bias res acten fn bm
      let e := ({ c.eng with vecRun := r }).release v.id
      let st := (e.bank bank).st
      let more := (e.vecQ ++ e.vecRun).any fun u => u.drains bank
      let bk' := { e.bank bank with st := if st = .drainPending && !more then .free else st }
      let hm := v.mergeHits c.sp h
      let hr := readHits v.ins v.outs h
      let c1 := (c.scratchErrs s.now (readSpans v.ins v.outs) hr).scratchErrs s.now (writeSpans v.outs) (hm.filter fun x => !hr.contains x)
      let fault := if abftBad bk then some (c.fault.getD { cause := 1, time := s.now }) else c1.fault
      .next (s.setCore p ((c1.unmerge { c1 with eng := e.setBank bank bk', sp := m, fault := fault } hm).raise g))
    | _ => .next s

end Sys2Proof.Machine
end

