-- ==== Sys2Proof/Machine/Moves.lean ====
section
/-! DEFINITION. The move family: LOAD, STORE, SEND and OPEN at issue (R91, R182), the arrival of a SEND (R94) and the
completion of a move (R183). -/

namespace Sys2Proof.Machine

/-! ### The pieces of a stream that a move copies (R55, R94) -/

/-- The pieces (offset from the base, bytes) of a stream in stream order: elements, or whole rows of BIT and TH4B. -/
def pieces (d : BitVec 256) : List (Int × Nat) :=
  if dFmt d = 7 ∨ dFmt d = 8 then
    (List.range (dExt d 1 * dExt d 2 * dExt d 3)).map fun r => (elemOffset d (r * dExt d 0), rowBytes d)
  else (List.range (dCount d)).map fun j => (elemOffset d j, elemSize (dFmt d))

/-- The number of valid bits in the last byte of a piece: 8 but for a BIT row that ends within a byte. -/
def tailBits (d : BitVec 256) : Nat := if dFmt d = 8 ∧ dExt d 0 % 8 ≠ 0 then dExt d 0 % 8 else 8

/-- Bytes of a piece over old bytes: of the last byte only the valid bits are taken. -/
def mergeTail (tail : Nat) (old new : List Byte) : List Byte :=
  if tail = 8 then new
  else
    let n := new.length
    let o := (old.getD (n - 1) 0).toNat
    let v := (new.getD (n - 1) 0).toNat
    new.take (n - 1) ++ [BitVec.ofNat 8 (o / 2 ^ tail * 2 ^ tail + v % 2 ^ tail)]

/-- R94: the packed form of a stream. -/
def packStream (m : Scratch) (d : BitVec 256) : List Byte :=
  (pieces d).flatMap fun u =>
    let a := ((dBase d : Int) + u.1).toNat
    let b := m.read a u.2
    mergeTail (tailBits d) (List.replicate u.2 0) b

/-- R94: the bytes of the packed form of a stream. -/
def packBytes (d : BitVec 256) : Nat :=
  if dFmt d = 7 ∨ dFmt d = 8 then dExt d 1 * dExt d 2 * dExt d 3 * rowBytes d else dCount d * elemSize (dFmt d)

/-- R488: the 64-byte requests that so many bytes take through the fabric port. -/
def requests (bytes : Nat) : Nat := (bytes + 63) / 64

/-- The byte intervals [lo, hi) of a stream's pieces in the scratchpad: those that a copy of it writes in full, and the bytes of which it writes
some bits. -/
def pieceBytes (d : BitVec 256) : List (Nat × Nat) × List (Nat × Nat) :=
  let at_ (u : Int × Nat) : Nat := ((dBase d : Int) + u.1).toNat
  if tailBits d = 8 then ((pieces d).map fun u => (at_ u, at_ u + u.2), [])
  else ((pieces d).map fun u => (at_ u, at_ u + (u.2 - 1)), (pieces d).map fun u => (at_ u + (u.2 - 1), at_ u + u.2))

/-- The bytes that a copy of a stream reads. -/
def pieceSpans (d : BitVec 256) : List (Nat × Nat) := (pieceBytes d).1 ++ (pieceBytes d).2

/-! ### Issue (R182) -/

/-- R182: KIND. -/
def moveCode (k : MoveKind) : Nat :=
  match k with
  | .load => 0
  | .store => 1
  | .send => 2
  | .openWin => 3

/-- R182: the fixed fields of a MOVE of kind k. -/
def moveOk (k : MoveKind) (w : W64) : Bool := opOk 0x0C w false && fld w 56 55 == moveCode k && zeroBits w 30 0

/-- R75, R170: the places of the move queue that are taken. A move holds its place from its issue to its completion, a SEND to its arrival
at the peer, and an OPEN, whose effect is its issue, holds none afterwards (DESIGN CHOICE, log entry 35: the spec does not say when a
move leaves the queue). -/
def Engines.movePlaces (e : Engines) : Nat := (e.moves.filter fun m => m.kind != .openWin && !m.arrived).length

/-- The checks and the entry of a move into the core's list. Every kind stalls on a queue of 16 that is full. -/
def Core.addMove (c : Core) (k : MoveKind) (w : W64) (write : Bool) : Issue :=
  let id := c.seq.nextId
  let dl := sget 0 c.seq.descs (fld w 50 46)
  let dm := sget 0 c.seq.descs (fld w 45 41)
  let tag := fld w 54 51
  let e : SbEntry := { owner := id, lo := (interval dl).1, hi := (interval dl).2, write := write }
  if decide (16 ≤ c.eng.movePlaces) || sbStalls c.eng.score [e] then .stall
  else
    let mv : MoveInstr := { id := id, kind := k, tag := tag, dl := dl, dm := dm, sa := c.seq.reg (reg5 w 36),
                            sb := c.seq.reg (reg5 w 31), arrived := false }
    let win : List Window := if k = .openWin then [{ id := id, tag := tag, lo := e.lo, len := e.hi - e.lo, received := 0 }] else []
    .go { c with
      eng := { c.eng with moves := c.eng.moves ++ [mv], tags := smod 0 c.eng.tags tag (· + 1), score := c.eng.score ++ [e],
                          windows := c.eng.windows ++ win }
      seq := { c.seq with nextId := id + 1 } }

/-- R91, R182: LOAD and STORE. -/
def issueTransfer (k : MoveKind) (c : Core) (w : W64) : Issue :=
  let dl := sget 0 c.seq.descs (fld w 50 46)
  let dm := sget 0 c.seq.descs (fld w 45 41)
  let sa := reg5 w 36
  if !moveOk k w then .bad
  else if c.seq.anyBusy [sa] then .stall
  else if 2 ^ 52 ≤ (c.seq.reg sa).toNat then .bad
  else if !plainOk isAnyFmt dl || dFmt dm != dFmt dl || dExts dm != dExts dl || !stridesOk dm then .bad
  else c.addMove k w (k == .load)

/-- R101, R488: the requests of a LOAD, STORE or SEND that its word and its scratchpad descriptor allow (R84, R182): 64 bytes each, in the
packed order of the stream. -/
def Core.moveRequests (c : Core) (k : MoveKind) (w : W64) : Nat :=
  let dl := sget 0 c.seq.descs (fld w 50 46)
  if moveOk k w && plainOk isAnyFmt dl then requests (packBytes dl) else 0

def execLoad (p : Fin 68) (w : W64) (s : State) : Out :=
  .next (issueRequest s p ((s.core p).moveRequests .load w) fun c => issueTransfer .load c w)
def execStore (p : Fin 68) (w : W64) (s : State) : Out :=
  .next (issueRequest s p ((s.core p).moveRequests .store w) fun c => issueTransfer .store c w)

/-- R94, R182: SEND to a gang of so many slots. -/
def issueSend (gang : Nat) (c : Core) (w : W64) : Issue :=
  let dl := sget 0 c.seq.descs (fld w 50 46)
  let sa := reg5 w 36
  let sb := reg5 w 31
  if !moveOk .send w then .bad
  else if c.seq.anyBusy [sa, sb] then .stall
  else if !plainOk isAnyFmt dl || decide (gang ≤ (c.seq.reg sa).toNat) then .bad
  else c.addMove .send w false

def execSend (p : Fin 68) (w : W64) (s : State) : Out :=
  let gang := match s.cmdOf p with | some (i, _) => i.gang.length | none => 0
  .next (issueRequest s p ((s.core p).moveRequests .send w) fun c => issueSend gang c w)

/-- R84, R94, R182: OPEN, whose descriptor R84 checks whole: R91 spares the mask and ROUND only of the moves that copy. The window checks come before the stalls: with 8 windows open, or the tag's window open, the OPEN faults at once and does
not wait for a close (DESIGN CHOICE, log entry 70). -/
def issueOpen (c : Core) (w : W64) : Issue :=
  let tag := fld w 54 51
  if !moveOk .openWin w || !(strmOf c.seq.descs (fld w 50 46)).ok isAnyFmt then .bad
  else if decide (8 ≤ c.eng.windows.length) || c.eng.windows.any (fun v => v.tag == tag) then .bad
  else c.addMove .openWin w true

def execOpenWin (p : Fin 68) (w : W64) (s : State) : Out := .next (issue s p 1 fun c => issueOpen c w)

/-! ### Arrival and completion -/

/-- The k-th move of a core's list changed. -/
def Engines.modMove (e : Engines) (id : Nat) (f : MoveInstr → MoveInstr) : Engines :=
  { e with moves := modFirst (fun m => m.id == id) f e.moves }

/-- R94: the bytes of a SEND enter the peer's window, which closes when its length has been received. -/
def Core.receive (c : Core) (w : Window) (off : Nat) (data : List Byte) : Core :=
  let got := w.received + data.length
  let m := c.sp.write (w.lo + off) data
  if w.len ≤ got then
    { c with sp := m, eng := ({ c.eng with windows := delFirst (fun x => x.id == w.id) c.eng.windows }).release w.id }
  else { c with sp := m, eng := { c.eng with windows := modFirst (fun x => x.id == w.id) (fun x => { x with received := got }) c.eng.windows } }

/-- R94: the data of core p's k-th move, a SEND, reach the peer's fabric port. A port that is not open drops and counts
each 64-byte request of them (R101, R488). After a thermal shutdown none arrive (R397). -/
def execSendArrive (p : Fin 68) (k : Nat) (s : State) (e g : List EccHit := []) : Out :=
  let c := s.core p
  match c.eng.moves[k]?, s.cmdOf p with
  | some mv, some (i, _) =>
    if mv.kind ≠ .send ∨ mv.arrived ∨ s.damper.shutdown then .next s
    else
      let slot := mv.sa.toNat
      let peer := i.gang.getD slot 68
      let pc := s.core peer
      if (sget none i.ended slot).isSome || (pc.runs i.uid && pc.seq.ending) then .next (s.faultCore p stBAD_COMMAND)
      else if pc.life ≠ .opened ∨ !pc.runs i.uid then
        .next (s.dropAtPort peer (requests (packBytes mv.dl)))
      else match pc.eng.windows.find? fun w => w.tag == mv.tag with
        | none => .next s
        | some w =>
          let data := packStream c.sp mv.dl
          let c1 := c.scratchErrs s.now (pieceSpans mv.dl) e
          if w.len < mv.sb.toNat + data.length then .next (s.faultCore p stBAD_COMMAND)
          else if c1.fault.isSome && c.fault.isNone then .next (s.setCore p c1)
          else
            let s := s.setCore p { c1 with eng := (c1.eng.modMove mv.id fun m => { m with arrived := true }).release mv.id }
            let t := s.core peer
            let span := (w.lo + mv.sb.toNat, w.lo + mv.sb.toNat + data.length)
            let g := g.filter (mergesWord [span] [])
            let t1 := t.scratchErrs s.now [span] g
            .next (s.setCore peer (t1.unmerge (t1.receive w mv.sb.toNat data) g))
  | _, _ => .next s

/-- R183: the move leaves the list and its tag's count falls. -/
def Core.endMove (c : Core) (mv : MoveInstr) : Core :=
  { c with eng := ({ c.eng with
      moves := delFirst (fun m => m.id == mv.id) c.eng.moves
      tags := smod 0 c.eng.tags mv.tag (· - 1) }).release mv.id }

/-- What the pieces of a move leave: the result, the state with the errors that their reads found, and the TLB. -/
abbrev MoveRun (α : Type) := Got α × State × Tlb

/-- R211 to R214: the walks of an access of a core read their table words one by one, at most three to a page, and each meets the errors that
stand in it before the walk goes on. -/
def State.meetCoreWalk (s : State) (ctx va n : Nat) (write : Bool) (t : Tlb) : State :=
  if s.mem.latent.isEmpty then s
  else (List.range (3 * (n / 65536 + 2))).foldl (fun s k => s.memErrs ((s.coreSegs ctx va n write t).2.1.take (k + 1)) []) s

/-- R92, R212 to R214: the segments of an access of a core, after the errors that its table words and its bytes hold have been met. -/
def State.coreAccess (s : State) (ctx va n : Nat) (write : Bool) (t : Tlb) : MoveRun (List (Nat × Nat)) :=
  let s := s.meetCoreWalk ctx va n write t
  let (r, _, t) := s.coreSegs ctx va n write t
  match r with
  | .ok l => (.ok l, s.memErrs (if write then l.flatMap fun g => mergeWords g.1 g.2 else l) [], t)
  | g => (g, s, t)

/-- A core reads bytes of its context. -/
def State.coreRead (s : State) (ctx va n : Nat) (t : Tlb) : MoveRun (List Byte) :=
  let (r, s, t) := s.coreAccess ctx va n false t
  (match r with
    | .ok l => s.readSegs l
    | .fault e => .fault e
    | .held => .held, s, t)

/-- R92: read the pieces of a LOAD from device memory and place them in the scratchpad. -/
def loadPieces (ctx : Nat) (mv : MoveInstr) : List ((Int × Nat) × (Int × Nat)) → Scratch → State → Tlb → MoveRun Scratch
  | [], m, s, t => (.ok m, s, t)
  | (far, near) :: r, m, s, t =>
    let va := (mv.sa.toNat : Int) + far.1
    if va < 0 then (.fault stPAGE_FAULT, s, t)
    else
      let (g, s, t) := s.coreRead ctx va.toNat far.2 t
      match g with
      | .ok b =>
        let a := ((dBase mv.dl : Int) + near.1).toNat
        loadPieces ctx mv r (m.write a (mergeTail (tailBits mv.dl) (m.read a near.2) b)) s t
      | .fault e => (.fault e, s, t)
      | .held => (.held, s, t)

/-- R92: write the pieces of a STORE to device memory. A piece that fails leaves the bytes of the pieces before it written (DESIGN
CHOICE, log entry 35: the spec leaves the write set of a faulted command open, R237). A piece that lies outside the command's write set and has no
valid translation either ends with BAD_COMMAND (DESIGN CHOICE, log entry 70: R92 orders its two faults nowhere). -/
def storePieces (ctx : Nat) (writes : List (Nat × Nat)) (mv : MoveInstr) (sp : Scratch) :
    List ((Int × Nat) × (Int × Nat)) → State → Tlb → MoveRun Unit
  | [], s, t => (.ok (), s, t)
  | (far, near) :: r, s, t =>
    let va := (mv.sa.toNat : Int) + far.1
    if va < 0 then (.fault stPAGE_FAULT, s, t)
    else if !inUnion writes va.toNat far.2 then (.fault stBAD_COMMAND, s, t)
    else
      let (g, s, t) := s.coreAccess ctx va.toNat far.2 true t
      match g with
      | .ok l =>
        let b := sp.read ((dBase mv.dl : Int) + near.1).toNat near.2
        let old := l.flatMap fun g => s.memRead g.1 g.2
        storePieces ctx writes mv sp r (s.putSegs l (mergeTail (tailBits mv.dl) old b)) t
      | .fault e => (.fault e, s, t)
      | .held => (.held, s, t)

/-- The pieces of a move in device memory and in the scratchpad. -/
def MoveInstr.pairs (mv : MoveInstr) : List ((Int × Nat) × (Int × Nat)) := (pieces mv.dm).zip (pieces mv.dl)

/-- R183: core p's k-th move reaches its completion point. A LOAD or STORE whose slab is being wiped is held (R204); one
that fails faults its command (R92). `e` and `m` are the errors that its reads meet in the scratchpad and in device memory (R88, R213);
a STORE whose own read meets an uncorrectable one is not made. After a thermal shutdown no move goes on (R397). -/
def execMoveComplete (p : Fin 68) (k : Nat) (s : State) (e m : List EccHit := []) : Out :=
  if s.damper.shutdown then .next s else
  let c := s.core p
  match c.eng.moves[k]?, s.cmdOf p with
  | some mv, some (i, _) =>
    match mv.kind with
    | .load =>
      let (g, t, b) := loadPieces i.ctx mv mv.pairs c.sp { s with mem := s.mem.upset m } c.tlb
      (match g with
        | .ok sp =>
          let e := e.filter (mergesWord (pieceBytes mv.dl).1 (pieceBytes mv.dl).2)
          let c1 := c.scratchErrs s.now (pieceSpans mv.dl) e
          .next (t.setCore p ((c1.unmerge { c1 with sp := sp, tlb := b } e).endMove mv))
        | .fault st => .next (t.faultCore p st)
        | .held => .next s)
    | .store =>
      let c1 := c.scratchErrs s.now (pieceSpans mv.dl) e
      if c1.fault.isSome && c.fault.isNone then .next (s.setCore p c1)
      else
        let (g, t, b) := storePieces i.ctx i.entry.writes mv c.sp mv.pairs { s with mem := s.mem.upset m } c.tlb
        (match g with
          | .ok _ => .next (t.setCore p ({ c1 with tlb := b }.endMove mv))
          | .fault st => .next (t.faultCore p st)
          | .held => .next s)
    | .send => if mv.arrived then .next (s.modCore p fun c => c.endMove mv) else .next s
    | .openWin => if c.eng.windows.any (fun w => w.id == mv.id) then .next s else .next (s.modCore p fun c => c.endMove mv)
  | _, _ => .next s

end Sys2Proof.Machine
end

