-- ==== Sys2Proof/Machine/Scalar.lean ====
section
/-! DEFINITION. The instructions that the sequencer executes: DESC, LOOP, BR, CALL, RET, the scalar ALU, SLI, WAIT and SIGNAL
(R185 to R196), the arrival of an instruction line (R169), and the end of a work program (R97). -/

namespace Sys2Proof.Machine

/-! ### DESC (R189, R190) -/

/-- R190: a patch of a descriptor: none where the code is reserved or the value outside its range. -/
def patchDesc (d : BitVec 256) (code : Nat) (v : W64) : Option (BitVec 256) :=
  if code = 0 then some d
  else if code = 1 then (if v.toNat < scratchSize then some (dSet d 0 25 v.toNat) else none)
  else if code ≤ 5 then
    (if 1 ≤ v.toNat ∧ v.toNat ≤ 65536 then some (dSet d (32 + 16 * (code - 2)) 16 (v.toNat - 1)) else none)
  else if code ≤ 9 then
    (if -33554432 ≤ v.toInt ∧ v.toInt ≤ 33554431 then some (dSet d (96 + 26 * (code - 6)) 26 (v.toNat % 2 ^ 26)) else none)
  else if code = 10 then some (dSet d 200 32 v.toNat)
  else none

/-- A number of 256 bits from 32 bytes (R189: bits [7:0] at the lowest byte). -/
def descOfBytes (b : List Byte) : BitVec 256 := BitVec.ofNat 256 (leNat b)

/-- R189: issue of DESC at hub time `now`; `e` are the errors that its read of the scratchpad meets. The address SA + 32 × OFF is formed
without a wrap, so that one at or beyond the scratchpad's end is BAD_COMMAND (DESIGN CHOICE, log entry 59: the spec does not say
whether the sum wraps modulo 2^64). -/
def issueDesc (now : Nat) (e : List EccHit) (c : Core) (w : W64) : Issue :=
  let dd := fld w 56 52
  let src := bitN w 51
  let sa := reg5 w 46
  let f1 := fld w 40 37
  let r1 := reg5 w 32
  let f2 := fld w 31 28
  let r2 := reg5 w 23
  let regs := (if src then [] else [sa]) ++ (if f1 = 0 then [] else [r1]) ++ (if f2 = 0 then [] else [r2])
  let addr := (c.seq.reg sa).toNat + 32 * fld w 19 0
  if !opOk 0x12 w false || !zeroBits w 22 20 || decide (11 ≤ f1) || decide (11 ≤ f2) then .bad
  else if c.seq.anyBusy regs then .stall
  else if !src && ((c.seq.reg sa).toNat % 32 != 0 || decide (scratchSize < addr + 32)) then .bad
  else if !src && c.eng.score.any (fun e => e.write && meets (e.lo, e.hi) (addr, addr + 32)) then .stall
  else
    let d0 := if src then sget 0 c.seq.descs (fld w 45 41) else descOfBytes (c.sp.read addr 32)
    match patchDesc d0 f1 (c.seq.reg r1) with
    | none => .bad
    | some d1 =>
      match patchDesc d1 f2 (c.seq.reg r2) with
      | none => .bad
      | some d2 =>
        let c := if src then c else c.scratchErrs now [(addr, addr + 32)] e
        .go { c with seq := { c.seq with descs := sset 0 c.seq.descs dd d2 } }

def execDesc (p : Fin 68) (w : W64) (s : State) (e : List EccHit := []) : Out := .next (issue s p 1 fun c => issueDesc s.now e c w)

/-! ### Control flow (R191, R192) -/

/-- R191: the target named by OFF. -/
def offTarget (pc w : W64) : W64 := pc + BitVec.ofInt 64 (8 * sfld w 23 0)

def issueLoop (c : Core) (w : W64) : Issue :=
  let r := reg5 w 52
  if !opOk 0x14 w false || !zeroBits w 51 24 then .bad
  else if c.seq.anyBusy [r] then .stall
  else
    let v := c.seq.reg r - 1
    let c' := { c with seq := c.seq.setReg r v }
    if v ≠ 0 then .goto c' (offTarget c.seq.pc w) else .go c'

def execLoop (p : Fin 68) (w : W64) (s : State) : Out := .next (issue s p 1 fun c => issueLoop c w)

/-- R192: does the condition hold? -/
def brTaken (cond : Nat) (a b : W64) : Bool :=
  match cond with
  | 0 => true
  | 1 => a == b
  | 2 => a != b
  | 3 => decide (a.toNat < b.toNat)
  | 4 => decide (b.toNat ≤ a.toNat)
  | 5 => decide (a.toInt < b.toInt)
  | _ => decide (b.toInt ≤ a.toInt)

def issueBr (c : Core) (w : W64) : Issue :=
  let cond := fld w 56 54
  let ra := reg5 w 49
  let rb := reg5 w 44
  if !opOk 0x15 w false || !zeroBits w 43 24 || cond == 7 then .bad
  else if cond != 0 && c.seq.anyBusy [ra, rb] then .stall
  else if brTaken cond (c.seq.reg ra) (c.seq.reg rb) then .goto c (offTarget c.seq.pc w) else .go c

def execBr (p : Fin 68) (w : W64) (s : State) : Out := .next (issue s p 1 fun c => issueBr c w)

def issueCall (c : Core) (w : W64) : Issue :=
  let byReg := bitN w 56
  let r := reg5 w 51
  let target := if byReg then c.seq.reg r else offTarget c.seq.pc w
  if !opOk 0x16 w false || !zeroBits w 50 24 then .bad
  else if byReg && c.seq.anyBusy [r] then .stall
  else if target.toNat % 8 != 0 || decide (16 ≤ c.seq.ret.length) then .bad
  else .goto { c with seq := { c.seq with ret := (c.seq.pc + 8) :: c.seq.ret } } target

def execCall (p : Fin 68) (w : W64) (s : State) : Out := .next (issue s p 1 fun c => issueCall c w)

def issueRet (c : Core) (w : W64) : Issue :=
  if !opOk 0x17 w false || !zeroBits w 56 0 then .bad
  else match c.seq.ret with
    | a :: r => .goto { c with seq := { c.seq with ret := r } } a
    | [] => .go { c with seq := { c.seq with ending := true } }

def execRet (p : Fin 68) (w : W64) (s : State) : Out := .next (issue s p 1 fun c => issueRet c w)

/-! ### The scalar ALU (R193, R195) -/

inductive AluOp where
  | add | sub | mul | and | or | shl | shr
  deriving DecidableEq, Repr

/-- R167: the major opcodes 0x18 to 0x1E. -/
def aluCode (k : AluOp) : Nat :=
  match k with
  | .add => 0x18
  | .sub => 0x19
  | .mul => 0x1A
  | .and => 0x1B
  | .or => 0x1C
  | .shl => 0x1D
  | .shr => 0x1E

/-- R193: the result modulo 2^64; `arith` makes a right shift arithmetic. -/
def aluResult (k : AluOp) (arith : Bool) (a b : W64) : W64 :=
  match k with
  | .add => a + b
  | .sub => a - b
  | .mul => a * b
  | .and => a &&& b
  | .or => a ||| b
  | .shl => a <<< (b.toNat % 64)
  | .shr => if arith then a.sshiftRight (b.toNat % 64) else a >>> (b.toNat % 64)

/-- R193: which of SPA, WFL and ARITH the instruction allows. -/
def aluFieldsOk (k : AluOp) (spa wfl arith : Bool) : Bool :=
  match k with
  | .and | .or => !arith
  | .shr => !spa && !wfl
  | _ => !spa && !wfl && !arith

/-- R193: the sign-extended immediate. -/
def immOf (w : W64) : W64 := BitVec.ofInt 64 (sfld w 31 0)

def issueAlu (k : AluOp) (c : Core) (w : W64) : Issue :=
  let sd := reg5 w 52
  let sa := reg5 w 47
  let sb := reg5 w 42
  let immf := bitN w 41
  let spa := bitN w 40
  let wfl := bitN w 39
  let arith := bitN w 38
  let regs := [sd] ++ (if spa then [] else [sa]) ++ (if immf then [] else [sb])
  if !opOk (aluCode k) w false || !zeroBits w 37 32 || !aluFieldsOk k spa wfl arith then .bad
  else if c.seq.anyBusy regs then .stall
  else
    let a := if spa then c.seq.flagsWord else c.seq.reg sa
    let b := if immf then immOf w else c.seq.reg sb
    let r := aluResult k arith a b
    let q := c.seq.setReg sd r
    .go { c with seq := if wfl then q.clearFlags r else q }

def alu (k : AluOp) (p : Fin 68) (w : W64) (s : State) : Out := .next (issue s p 1 fun c => issueAlu k c w)

def execSadd (p : Fin 68) (w : W64) (s : State) : Out := alu .add p w s
def execSsub (p : Fin 68) (w : W64) (s : State) : Out := alu .sub p w s
def execSmul (p : Fin 68) (w : W64) (s : State) : Out := alu .mul p w s
def execSand (p : Fin 68) (w : W64) (s : State) : Out := alu .and p w s
def execSor (p : Fin 68) (w : W64) (s : State) : Out := alu .or p w s
def execSshl (p : Fin 68) (w : W64) (s : State) : Out := alu .shl p w s
def execSshr (p : Fin 68) (w : W64) (s : State) : Out := alu .shr p w s

/-! ### SLI (R194) -/

/-- FORMs 0 and 1: SD receives a value. -/
def issueSliValue (x : Bool) (v : W64) (c : Core) (w : W64) : Issue :=
  let sd := reg5 w 52
  if !opOk 0x1F w x || fld w 46 45 != b2n x || !zeroBits w 44 32 then .bad
  else if c.seq.anyBusy [sd] then .stall
  else .go { c with seq := c.seq.setReg sd v }

def execSliImm (p : Fin 68) (w : W64) (s : State) : Out := .next (issue s p 1 fun c => issueSliValue false (immOf w) c w)
def execSliExt (p : Fin 68) (w x : W64) (s : State) : Out := .next (issue s p 2 fun c => issueSliValue true x c w)

/-- FORMs 2 and 3: 8 bytes of scratchpad at SA + IMM, a sum modulo 2^64 as the scalar sums of R193 are (DESIGN CHOICE, log entry 59).
A load's read meets the errors `e`; a store writes a whole word and reads none (R88). -/
def issueSliMem (store : Bool) (now : Nat) (h : List EccHit) (c : Core) (w : W64) : Issue :=
  let sd := reg5 w 52
  let sa := reg5 w 47
  let a := (c.seq.reg sa + immOf w).toNat
  let e : SbEntry := { owner := c.seq.nextId, lo := a, hi := a + 8, write := store }
  if !opOk 0x1F w false || fld w 46 45 != (if store then 3 else 2) || !zeroBits w 44 32 then .bad
  else if c.seq.anyBusy [sd, sa] then .stall
  else if a % 8 != 0 || decide (scratchSize < a + 8) then .bad
  else if sbStalls c.eng.score [e] then .stall
  else if store then .go { c with sp := c.sp.write a (leBytes 8 (c.seq.reg sd).toNat) }
  else
    let c := c.scratchErrs now [(a, a + 8)] h
    .go { c with seq := c.seq.setReg sd (w64 (leNat (c.sp.read a 8))) }

def execSliLoad (p : Fin 68) (w : W64) (s : State) (e : List EccHit := []) : Out := .next (issue s p 1 fun c => issueSliMem false s.now e c w)
def execSliStore (p : Fin 68) (w : W64) (s : State) : Out := .next (issue s p 1 fun c => issueSliMem true s.now [] c w)

/-! ### WAIT and SIGNAL (R185 to R187) -/

/-- R185: KIND. -/
def waitCode (k : WaitFor) : Nat :=
  match k with
  | .tag _ => 0
  | .peal _ => 1
  | .gang _ _ => 2
  | .engines _ _ _ => 3

def issueWait (cond : WaitFor) (regs : List (BitVec 5)) (ok : Bool) (c : Core) (w : W64) : Issue :=
  if !opOk 0x10 w false || fld w 56 54 != waitCode cond || !zeroBits w 34 0 || !ok then .bad
  else if c.seq.anyBusy regs then .stall
  else .go { c with seq := { c.seq with wait := some cond } }

def execWaitTag (p : Fin 68) (w : W64) (s : State) : Out :=
  .next (issue s p 1 fun c => issueWait (.tag (fld w 53 50)) [] true c w)

def execWaitPeal (p : Fin 68) (w : W64) (s : State) : Out :=
  .next (issue s p 1 fun c => issueWait (.peal (fld w 49 47)) [] true c w)

def execWaitGang (p : Fin 68) (w : W64) (s : State) : Out :=
  .next (issue s p 1 fun c =>
    issueWait (.gang (fld w 46 43) ((c.seq.reg (reg5 w 38)).toNat % 2 ^ 32)) [reg5 w 38] true c w)

def execWaitEngines (p : Fin 68) (w : W64) (s : State) : Out :=
  .next (issue s p 1 fun c => issueWait (.engines (bitN w 35) (bitN w 36) (bitN w 37)) [] (fld w 37 35 != 0) c w)

/-- R185: are the engines idle? -/
def Engines.arrayIdle (e : Engines) : Bool := e.arrayQ.isEmpty && e.inArray.isEmpty
def Engines.vectorIdle (e : Engines) : Bool := e.vecQ.isEmpty && e.vecRun.isEmpty
def Engines.moveIdle (e : Engines) : Bool := e.moves.isEmpty

/-- R185: the condition of a WAIT on core p. -/
def State.waitHolds (s : State) (p : Nat) (k : WaitFor) : Bool :=
  let e := (s.core p).eng
  match k with
  | .tag t => sget 0 e.tags t == 0
  | .peal t => !e.slots.contains t
  | .gang sem threshold =>
    match s.cmdOf p with
    | some (i, _) => decide (threshold ≤ sget 0 i.gsems sem)
    | none => false
  | .engines a v m => (!a || e.arrayIdle) && (!v || e.vectorIdle) && (!m || e.moveIdle)

/-- R185: the condition of the pending WAIT holds and issue resumes; not after a thermal shutdown (R397). -/
def execWaitEnd (p : Fin 68) (s : State) : Out :=
  let c := s.core p
  match c.seq.wait with
  | some k => if s.waitHolds p k && !s.damper.shutdown then .next (s.setCore p { c with seq := { c.seq with wait := none } }) else .next s
  | none => .next s

/-- R187: a SIGNAL reaches the dispatch unit. -/
def State.signalGang (s : State) (p sem amount : Nat) : State :=
  match s.cmdOf p with
  | none => s
  | some (i, _) =>
    let v := sget 0 i.gsems sem + amount
    if 2 ^ 32 ≤ v then s.faultCore p stBAD_COMMAND
    else s.modCmd i.uid fun i => { i with gsems := sset 0 i.gsems sem v }

/-- R186: issue of SIGNAL; under FENCE it stalls while a move other than an open window is incomplete. -/
def issueSignal (p : Nat) (c : Core) (w : W64) : Issue :=
  let sv := reg5 w 48
  if !opOk 0x11 w false || !zeroBits w 46 0 then .bad
  else if c.seq.anyBusy [sv] then .stall
  else if bitN w 47 && c.eng.moves.any (fun m => m.kind != .openWin) then .stall
  else .act c fun s => s.signalGang p (fld w 56 53) ((c.seq.reg sv).toNat % 2 ^ 32)

def execSignal (p : Fin 68) (w : W64) (s : State) : Out := .next (issueRequest s p 1 fun c => issueSignal p c w)

/-! ### Instruction lines and the end of the program -/

/-- R96, R169: the awaited line arrives, or its fetch faults. -/
def execIcacheFill (p : Fin 68) (s : State) (m : List EccHit := []) : Out :=
  let c := s.core p
  if c.life == .choked then .next (s.dropAtPort p (requests 256))
  else match c.seq.miss, s.cmdOf p with
  | some l, some (i, _) =>
    let (g, t, b) := { s with mem := s.mem.upset m }.coreRead i.ctx (l * 256) 256 c.tlb
    (match g with
      | .ok _ => .next (t.setCore p { c with seq := { c.seq.touchLine l with miss := none }, tlb := b })
      | .fault e => .next (t.faultCore p e)
      | .held => .next s)
  | _, _ => .next s

/-- R97: may the core report the end of its gang slot? -/
def Core.slotDone (c : Core) : Bool :=
  c.seq.ending && !c.seq.halted && c.fault.isNone && c.eng.arrayIdle && c.eng.vectorIdle &&
    c.eng.moves.all (fun m => m.kind == .openWin) && c.eng.slots.isEmpty

/-- R97, R196: the core reports its slot ended with its run record, and is free. The last slot's report ends the command. After a
thermal shutdown no core reports (R397). -/
def execSlotEnd (p : Fin 68) (s : State) : Out :=
  let c := s.core p
  match s.cmdOf p with
  | none => .next s
  | some (i, slot) =>
    if !c.slotDone || s.damper.shutdown then .next s
    else
      let s := s.modCore p Core.release
      let ended := sset none i.ended slot (some c.seq.record)
      let s := s.modCmd i.uid fun i => { i with ended := ended }
      .next (if ended.length = i.gang.length then s.commandEnds i.uid else s)

end Sys2Proof.Machine
end

