-- ==== Sys2Proof/Machine/Tap.lean ====
section
/-! DEFINITION. The test access port (R474, R415): each command shifts an instruction in; where it is not available the port acts as under
BYPASS. -/

namespace Sys2Proof.Machine

/-- R474: an instruction is shifted in: it takes force where it is available, else the port acts as under BYPASS. -/
def State.setTap (s : State) (ok : Bool) (t : TapInstr) : State :=
  { s with hub := { s.hub with tap := if ok then t else .bypass, tapLoaded := t } }

/-- R474, R484: the levels of the status balls, true released: EXTEST and its like drive what the boundary register holds, CLAMP too, HIGHZ
releases them. -/
def State.ball (s : State) (cell level : Bool) : Bool :=
  match s.hub.tap with
  | .extest => cell
  | .extestPulse => cell
  | .extestTrain => cell
  | .clamp => cell
  | .highz => true
  | _ => level
def State.alertBall (s : State) : Bool := s.ball s.hub.boundary.alertN s.alertN
def State.thermBall (s : State) : Bool := s.ball s.hub.boundary.thermN s.hub.thermN

/-- R474, R481: do the instructions in force drive the lanes and the buses of the board from the boundary register? -/
def State.boundaryDrives (s : State) : Bool := [TapInstr.extest, .extestPulse, .extestTrain, .clamp].contains s.hub.tap

/-- R474, R481: what the device drives at the balls of `Driven`, given the levels that its units would drive: what the boundary register holds
under EXTEST and its like, nothing under HIGHZ. In a pulse of EXTEST_PULSE or EXTEST_TRAIN the AC-coupled lanes take the opposite level. -/
def State.drivenBalls (s : State) (units : Driven) (pulse : Bool) : Option Driven :=
  let d := s.hub.boundary.out
  if s.hub.tap = .highz then none
  else if !s.boundaryDrives then some units
  else if pulse && (s.hub.tap == .extestPulse || s.hub.tap == .extestTrain) then some { d with ethTx := ~~~d.ethTx, pcieTx := ~~~d.pcieTx }
  else some d

def execBypass (s : State) : Out := .next (s.setTap true .bypass)

/-- IDCODE selects its register, whose value is shifted out. -/
def execIdcode (s : State) : Out :=
  if s.tapOk then .next ((s.setTap true .idcode).emit (.tdo 0x17A70ABB 32)) else .next (s.setTap true .bypass)

/-- R474: a scan of the boundary register under the instruction in force: it captures the balls, those of the lanes and of the board's buses at the
levels that stand there, and then takes what is shifted in. -/
def State.scanBoundary (s : State) (b : Boundary) (pins : Pins) : State :=
  let h := s.hub
  { s with hub := { h with boundary := b } }.emit (.boundary h.pwrgd h.devrstN h.perstN h.maddr s.alertBall s.thermBall pins)

/-- R474: EXTEST or its like is shifted in, and the boundary register scanned under it; where the instruction acts as BYPASS the scan goes through the
bypass register. -/
def State.boardTest (s : State) (t : TapInstr) (scan : Option (Boundary × Pins)) : State :=
  let u := s.setTap s.boardOk t
  match scan with
  | some (b, pins) => if s.boardOk then u.scanBoundary b pins else u
  | none => u

/-- SAMPLE_PRELOAD: the balls keep what the units of the device drive. -/
def execSamplePreload (s : State) (b : Boundary := .idle) (pins : Pins := .idle) : Out :=
  .next (if s.tapOk then (s.setTap true .sample).scanBoundary b pins else s.setTap true .bypass)
def execExtest (s : State) (scan : Option (Boundary × Pins) := none) : Out := .next (s.boardTest .extest scan)
def execClamp (s : State) : Out := .next (s.setTap s.boardOk .clamp)
def execHighz (s : State) : Out := .next (s.setTap s.boardOk .highz)

/-- EXTEST_PULSE and EXTEST_TRAIN: what the test receivers of the AC-coupled lanes find is captured at their RX pairs. -/
def execExtestPulse (s : State) (scan : Option (Boundary × Pins) := none) : Out := .next (s.boardTest .extestPulse scan)
def execExtestTrain (s : State) (scan : Option (Boundary × Pins) := none) : Out := .next (s.boardTest .extestTrain scan)

/-- HBM1500: the port is routed to the wrapper of a stack. -/
def execHbm1500 (st : Fin 32) (s : State) : Out := .next (s.setTap s.debugOk (.hbm1500 st.val))

/-- DEBUG_INSTRUCTION: the port gives access to internal state. -/
def execDebugInstruction (s : State) : Out := .next (s.setTap s.debugOk .debug)

/-- TAP_RESET: IDCODE is the instruction in force after a reset of the port, where it is available. -/
def execTapReset (s : State) : Out := .next (s.setTap s.tapOk .idcode)

end Sys2Proof.Machine
end

