-- ==== Sys2Proof/Machine/Vector.lean ====
section
/-! DEFINITION. The vector family: VOP in its 23 operations, VRED, VCOMP, VEXPD, VPERM, VPACK and VUNPK at issue
(R173 to R181), and the events that start and finish them. -/

namespace Sys2Proof.Machine

/-! ### VOP (R173 to R176) -/

/-- R130, R174: how many inputs an operation reads. -/
def vopArity (k : VopKind) (fn : Nat) : Nat :=
  match k with
  | .abs | .neg | .cvt | .recip | .rsqrt | .exp2 | .log2 | .sin | .cos | .act => 1
  | .fma | .sel | .smbwd => 3
  | .dact => if fn = 7 ∨ fn = 8 then 3 else 2
  | _ => 2

/-- R131, R174: is F64 allowed? -/
def vopF64 (k : VopKind) : Bool :=
  match k with
  | .recip | .rsqrt | .exp2 | .log2 | .sin | .cos | .act | .dact | .smbwd => false
  | _ => true

/-- R130: does the primary output have format BIT? -/
def vopCmp (k : VopKind) : Bool :=
  match k with
  | .cmpEq | .cmpNe | .cmpLt | .cmpLe => true
  | _ => false

/-- R130: is input i a BIT stream? -/
def vopBitIn (k : VopKind) (i : Nat) : Bool :=
  match k with
  | .sel => i == 0
  | .dact => i == 2
  | _ => false

/-- R174: OP. -/
def vopCode (k : VopKind) : Nat :=
  match k with
  | .add => 0x01
  | .sub => 0x02
  | .mul => 0x03
  | .fma => 0x04
  | .min => 0x05
  | .max => 0x06
  | .abs => 0x07
  | .neg => 0x08
  | .cmpEq => 0x09
  | .cmpNe => 0x0A
  | .cmpLt => 0x0B
  | .cmpLe => 0x0C
  | .sel => 0x0D
  | .cvt => 0x0E
  | .recip => 0x10
  | .rsqrt => 0x11
  | .exp2 => 0x12
  | .log2 => 0x13
  | .sin => 0x14
  | .cos => 0x15
  | .act => 0x18
  | .dact => 0x19
  | .smbwd => 0x1A

/-- R173: the reduce-out operation. -/
def roopKind (n : Nat) : RedKind :=
  match n with
  | 0 => .sum
  | 1 => .sumsq
  | 2 => .max
  | 3 => .min
  | _ => .amax

/-- R173: does the instruction carry an extension word? -/
def vopElu (k : VopKind) (w : W64) : Bool := (k == .act || k == .dact) && fld w 17 14 == 6

/-- R173 to R176, R126, R127, R84: issue of a VOP. SEL's mask and DACT's branch mask are input streams as any other, checked and read under their own
descriptors (DESIGN CHOICE, log entry 59: R128 counts a branch mask among the mask streams, which R83 has read plainly). -/
def issueVop (k : VopKind) (c : Core) (w x : W64) : Issue :=
  let strm (lo : Nat) : Strm := strmOf c.seq.descs (fld w (lo + 4) lo)
  let o2 := fld w 25 24
  let roop := fld w 23 21
  let rdim := fld w 20 18
  let fn := fld w 17 14
  let f64 := bitN w 13
  let elu := vopElu k w
  let out := strm 31
  let exts := dExts out.d
  let inputs := [strm 46, strm 41, strm 36].take (vopArity k fn)
  let inOk := (inputs.zipIdx).all fun t =>
    t.1.ok (if vopBitIn k t.2 then (· == 8) else isNum) && dExts t.1.d == exts
  let second := strm 26
  let secondOk := match o2 with
    | 0 => true
    | 1 => !vopCmp k && !f64 && second.ok isNum && dExts second.d == redExts out.d rdim
    | _ => k == .act && (fn == 7 || fn == 8) && second.ok (· == 8) && dExts second.d == exts
  let outs := [out] ++ (if o2 = 0 then [] else [second])
  if !opOk 0x04 w elu || fld w 56 51 != vopCode k || !zeroBits w 12 0 || o2 == 3 || decide (5 ≤ roop) || decide (5 ≤ rdim) || decide (9 ≤ fn) then .bad
  else if f64 && !vopF64 k then .bad
  else if elu && !alphaOk x then .bad
  else if !out.ok (if vopCmp k then (· == 8) else isNum) || !inOk || !secondOk || !overlapOk inputs outs then .bad
  else c.toVector (.vop k (BitVec.ofNat 4 fn) (BitVec.ofNat 2 o2) (roopKind roop) rdim) inputs outs f64 (BitVec.ofNat 32 x.toNat)
    none

/-- A VOP on core p. -/
def vop (k : VopKind) (p : Fin 68) (w x : W64) (s : State) : Out := .next (issue s p (wordsOf (vopElu k w)) fun c => issueVop k c w x)

/-- VOP with result: a + b. -/
def execAdd (p : Fin 68) (w x : W64) (s : State) : Out := vop .add p w x s
/-- VOP with result: a − b. -/
def execSub (p : Fin 68) (w x : W64) (s : State) : Out := vop .sub p w x s
/-- VOP with result: a × b. -/
def execMul (p : Fin 68) (w x : W64) (s : State) : Out := vop .mul p w x s
/-- VOP with result: a × b + c, rounded once. -/
def execFma (p : Fin 68) (w x : W64) (s : State) : Out := vop .fma p w x s
/-- VOP with result: the NaN-propagating minimum (R58). -/
def execMinV (p : Fin 68) (w x : W64) (s : State) : Out := vop .min p w x s
/-- VOP with result: the NaN-propagating maximum (R58). -/
def execMaxV (p : Fin 68) (w x : W64) (s : State) : Out := vop .max p w x s
/-- VOP with result: |a|. -/
def execAbsV (p : Fin 68) (w x : W64) (s : State) : Out := vop .abs p w x s
/-- VOP with result: −a. -/
def execNegV (p : Fin 68) (w x : W64) (s : State) : Out := vop .neg p w x s
/-- VOP with result: equality into a BIT stream (R57). -/
def execCmpEq (p : Fin 68) (w x : W64) (s : State) : Out := vop .cmpEq p w x s
/-- VOP with result: inequality into a BIT stream (R57). -/
def execCmpNe (p : Fin 68) (w x : W64) (s : State) : Out := vop .cmpNe p w x s
/-- VOP with result: less-than into a BIT stream (R57). -/
def execCmpLt (p : Fin 68) (w x : W64) (s : State) : Out := vop .cmpLt p w x s
/-- VOP with result: less-or-equal into a BIT stream (R57). -/
def execCmpLe (p : Fin 68) (w x : W64) (s : State) : Out := vop .cmpLe p w x s
/-- VOP with result: b where the mask bit is 1, else c. -/
def execSel (p : Fin 68) (w x : W64) (s : State) : Out := vop .sel p w x s
/-- VOP with result: conversion through the scales and formats. -/
def execCvt (p : Fin 68) (w x : W64) (s : State) : Out := vop .cvt p w x s
/-- VOP with result: reciprocal (R71). -/
def execRecip (p : Fin 68) (w x : W64) (s : State) : Out := vop .recip p w x s
/-- VOP with result: reciprocal square root (R71). -/
def execRsqrt (p : Fin 68) (w x : W64) (s : State) : Out := vop .rsqrt p w x s
/-- VOP with result: 2^x (R71). -/
def execExp2 (p : Fin 68) (w x : W64) (s : State) : Out := vop .exp2 p w x s
/-- VOP with result: log2 x (R71). -/
def execLog2 (p : Fin 68) (w x : W64) (s : State) : Out := vop .log2 p w x s
/-- VOP with result: sine (R71). -/
def execSin (p : Fin 68) (w x : W64) (s : State) : Out := vop .sin p w x s
/-- VOP with result: cosine (R71). -/
def execCos (p : Fin 68) (w x : W64) (s : State) : Out := vop .cos p w x s
/-- VOP with result: a forward activation (R132), with its branch mask where O2 is 2 (R133). -/
def execAct (p : Fin 68) (w x : W64) (s : State) : Out := vop .act p w x s
/-- VOP with result: the activation gradient from the saved output (R134, R135). -/
def execDact (p : Fin 68) (w x : W64) (s : State) : Out := vop .dact p w x s
/-- VOP with result: the softmax gradient (R136). -/
def execSmbwd (p : Fin 68) (w x : W64) (s : State) : Out := vop .smbwd p w x s

/-! ### VRED (R178) -/

/-- ROP. -/
def vredCode (k : RedKind) : Nat :=
  match k with
  | .sum => 0
  | .sumsq => 1
  | .sumprod => 2
  | .max => 3
  | .min => 4
  | .amax => 5

/-- Issue of a VRED with operation k. -/
def issueVred (k : RedKind) (c : Core) (w : W64) : Issue :=
  let strm (lo : Nat) : Strm := strmOf c.seq.descs (fld w (lo + 4) lo)
  let dim := fld w 38 36
  let toreg := bitN w 35
  let a := strm 49
  let b := strm 44
  let out := strm 39
  let inputs := if k = .sumprod then [a, b] else [a]
  let outs := if toreg then [] else [out]
  if !opOk 0x05 w false || fld w 56 54 != vredCode k || !zeroBits w 27 0 || decide (5 ≤ dim) || (toreg && dim != 4) then .bad
  else if !a.ok isNum || (k == .sumprod && !(b.ok isNum && dExts b.d == dExts a.d)) then .bad
  else if !toreg && !(out.ok isNum && dExts out.d == redExts a.d dim) then .bad
  else if !overlapOk inputs outs then .bad
  else c.toVector (.vred k dim (bitN w 28)) inputs outs (bitN w 29) 0 (if toreg then some (reg5 w 30) else none)

def vred (k : RedKind) (p : Fin 68) (w : W64) (s : State) : Out := .next (issue s p 1 fun c => issueVred k c w)

/-- VRED SUM. -/
def execVredSum (p : Fin 68) (w : W64) (s : State) : Out := vred .sum p w s
/-- VRED SUMSQ. -/
def execVredSumsq (p : Fin 68) (w : W64) (s : State) : Out := vred .sumsq p w s
/-- VRED SUMPROD. -/
def execVredSumprod (p : Fin 68) (w : W64) (s : State) : Out := vred .sumprod p w s
/-- VRED MAX. -/
def execVredMax (p : Fin 68) (w : W64) (s : State) : Out := vred .max p w s
/-- VRED MIN. -/
def execVredMin (p : Fin 68) (w : W64) (s : State) : Out := vred .min p w s
/-- VRED AMAX. -/
def execVredAmax (p : Fin 68) (w : W64) (s : State) : Out := vred .amax p w s

/-! ### VCOMP and VEXPD (R179) -/

/-- R83, R141: the mask stream's descriptor, checked as a mask stream is, and its extents for a unit of one element or one row. -/
def unitMaskOk (d k : Strm) (unit : Bool) : Bool :=
  plainOk (· == 8) k.d && dExts k.d == (if unit then 1 :: (dExts d.d).drop 1 else dExts d.d)

/-- R83: a mask stream that an instruction names as an input is read plainly, under no mask of its own. -/
def plainStrm (t : Strm) : Strm := { t with mask := none }

def issueVcomp (c : Core) (w : W64) : Issue :=
  let strm (lo : Nat) : Strm := strmOf c.seq.descs (fld w (lo + 4) lo)
  let d := strm 52
  let k := plainStrm (strm 47)
  let q := strm 42
  let x := strm 37
  let xen := bitN w 36
  let unit := bitN w 35
  let u := if unit then dExt d.d 0 else 1
  let outs := [q] ++ (if xen then [x] else [])
  if !opOk 0x06 w false || !zeroBits w 27 0 || bitN w 33 then .bad
  else if !d.ok isAnyFmt || !unitMaskOk d k unit || !(q.ok isAnyFmt && dFmt q.d == dFmt d.d) then .bad
  else if dCount q.d % u != 0 then .bad
  else if xen && !(x.ok (· == 10) && dCount x.d == dCount q.d / u) then .bad
  else if !overlapOk [d, k] outs then .bad
  else c.toVector (.vcomp xen unit (bitN w 34)) [d, k] outs false 0 (some (reg5 w 28))

def execVcomp (p : Fin 68) (w : W64) (s : State) : Out := .next (issue s p 1 fun c => issueVcomp c w)

def issueVexpd (c : Core) (w : W64) : Issue :=
  let strm (lo : Nat) : Strm := strmOf c.seq.descs (fld w (lo + 4) lo)
  let d := strm 52
  let k := plainStrm (strm 47)
  let q := strm 42
  let unit := bitN w 35
  if !opOk 0x07 w false || !zeroBits w 27 0 || bitN w 36 then .bad
  else if !d.ok isAnyFmt || !unitMaskOk d k unit || !(q.ok isAnyFmt && dFmt q.d == dFmt d.d) then .bad
  else if !overlapOk [q, k] [d] then .bad
  else c.toVector (.vexpd unit (bitN w 34) (bitN w 33)) [q, k] [d] false 0 (some (reg5 w 28))

def execVexpd (p : Fin 68) (w : W64) (s : State) : Out := .next (issue s p 1 fun c => issueVexpd c w)

/-! ### VPERM (R180) -/

/-- R143: issue of a permute of the given mode. -/
def issueVperm (mode : Nat) (c : Core) (w : W64) : Issue :=
  let strm (lo : Nat) : Strm := strmOf c.seq.descs (fld w (lo + 4) lo)
  let i := strm 50
  let x := strm 45
  let o := strm 40
  let xFmt := if mode = 0 then 9 else 10
  let xExts := if mode = 2 then dExts i.d else dExts o.d
  if !opOk 0x08 w false || fld w 56 55 != mode || !zeroBits w 39 0 then .bad
  else if !i.ok isAnyFmt || !(o.ok isAnyFmt && dFmt o.d == dFmt i.d) then .bad
  else if !(x.ok (· == xFmt) && dExts x.d == xExts) || (mode == 0 && dExts i.d != dExts o.d) then .bad
  else if !overlapOk [i, x] [o] then .bad
  else c.toVector (.vperm mode) [i, x] [o] false 0 none

def vperm (mode : Nat) (p : Fin 68) (w : W64) (s : State) : Out := .next (issue s p 1 fun c => issueVperm mode c w)

def execVpermBlock (p : Fin 68) (w : W64) (s : State) : Out := vperm 0 p w s
def execVpermGather (p : Fin 68) (w : W64) (s : State) : Out := vperm 1 p w s
def execVpermScatter (p : Fin 68) (w : W64) (s : State) : Out := vperm 2 p w s

/-! ### VPACK and VUNPK (R181) -/

/-- R144: issue of a copy; `pack` requires an output that is not larger, else one that is not smaller. -/
def issueCopy (pack : Bool) (c : Core) (w : W64) : Issue :=
  let strm (lo : Nat) : Strm := strmOf c.seq.descs (fld w (lo + 4) lo)
  let i := strm 52
  let o := strm 47
  let order := fld w 46 45
  let fi := dFmt i.d
  let fo := dFmt o.d
  let sizeOk := if pack then decide (elemQuarters fo ≤ elemQuarters fi) else decide (elemQuarters fi ≤ elemQuarters fo)
  let turn := order == 1
  if !opOk (if pack then 0x09 else 0x0A) w false || !zeroBits w 44 0 || decide (2 ≤ order) then .bad
  else if !i.ok isAnyFmt || !o.ok isAnyFmt || !sizeOk then .bad
  else if fi != fo && !(isNum fi && isNum fo) then .bad
  else if dCount i.d != dCount o.d || (turn && dCount i.d % 16384 != 0) then .bad
  else if !overlapOk [i] [o] then .bad
  else c.toVector (.copy turn) [i] [o] false 0 none

def execVpack (p : Fin 68) (w : W64) (s : State) : Out := .next (issue s p 1 fun c => issueCopy true c w)
def execVunpk (p : Fin 68) (w : W64) (s : State) : Out := .next (issue s p 1 fun c => issueCopy false c w)

/-! ### Start and end of a vector instruction (R129) -/

/-- R129: the instruction at the head of the queue begins to read; a drain has its own start. After a thermal shutdown none begins
or ends (R397). -/
def execVectorStart (p : Fin 68) (s : State) (h : List EccHit := []) : Out :=
  let c := s.core p
  match c.eng.vecQ with
  | [] => .next s
  | v :: r =>
    if v.isDrainOp || c.seq.halted || s.damper.shutdown || c.eng.vecRun.any VecInstr.isDrainOp then .next s
    else .next (s.setCore p { c.scratchErrs s.now (readSpans v.ins v.outs) (readHits v.ins v.outs h) with
      eng := { c.eng.doneReading c.sp with vecQ := r, vecRun := c.eng.vecRun ++ [v] } })

/-- R76: the scratchpad as the running instruction v reads it. -/
def Core.readAs (c : Core) (v : VecInstr) : Scratch := ((c.eng.readOut.find? fun x => x.id == v.id).map ReadOut.sp).getD c.sp

/-- R76: what the finished instruction v leaves, from the inputs as it read them: the scratchpad now with its outputs, its flags and its
register's value. -/
def Core.finishVector (c : Core) (v : VecInstr) (key : W64 × Nat × Nat) : VecResult :=
  match c.eng.readOut.find? fun x => x.id == v.id with
  | none => runVector c.sp v key
  | some x =>
    let (m, g, reg) := runVector x.sp v key
    ((writeSpans v.outs).foldl (fun sp i => m.copySpan sp i) c.sp, g, reg)

/-- R77, R129: the oldest running vector instruction writes its last element: its outputs, its flags and its register
take their values, and its scoreboard entries are released. -/
def execLastElementWritten (p : Fin 68) (s : State) (h : List EccHit := []) : Out :=
  let c := s.core p
  match c.eng.vecRun with
  | [] => .next s
  | v :: r =>
    if v.isDrainOp || s.damper.shutdown then .next s
    else
      let (m, g, reg) := c.finishVector v (s.srKey p v.n)
      let q := { c.seq with busy := c.seq.busy.filter fun b => b.1 != v.id }
      let q := match v.sd, reg with
        | some d, some x => q.setReg d x
        | _, _ => q
      let h := v.mergeHits (c.readAs v) h
      let c1 := c.scratchErrs s.now (writeSpans v.outs) h
      .next (s.setCore p ((c1.unmerge { c1 with eng := ({ c.eng with vecRun := r }).release v.id, sp := m, seq := q } h).raise g))

end Sys2Proof.Machine
end

