-- ==== Sys2Proof/Machine/Dict.lean ====
section
/-! DEFINITION. The object dictionary (chapter 19 and the entry tables of every chapter): which entries there are, who may reach them,
what each reads as, and what a write does to an entry that has no command row of its own. -/

namespace Sys2Proof.Machine

/-! ### The tables (R430, R434, R450) -/

/-- R430. -/
inductive Typ where
  | bool | u8 | u16 | u32 | u64 | f32 | str | domain
  deriving DecidableEq, Repr

def Typ.code : Typ → Nat
  | .bool => 1
  | .u8 => 2
  | .u16 => 3
  | .u32 => 4
  | .u64 => 5
  | .f32 => 8
  | .str => 9
  | .domain => 10

/-- The size of a fixed-size type. -/
def Typ.size : Typ → Option Nat
  | .bool => some 1
  | .u8 => some 1
  | .u16 => some 2
  | .u32 => some 4
  | .u64 => some 8
  | .f32 => some 4
  | _ => none

/-- R434: the rights of a principal. -/
inductive Acc where
  | no | r | w | rw
  deriving DecidableEq, Repr

def Acc.reads : Acc → Bool
  | .r => true
  | .rw => true
  | _ => false
def Acc.writes : Acc → Bool
  | .w => true
  | .rw => true
  | _ => false

/-- The entries of an index from subindex lo to hi: type, rights of HOST, PART, BMC and CP, the qualifier own, persistence. -/
structure Ent where
  index : Nat
  lo    : Nat
  hi    : Nat
  typ   : Typ
  host  : Acc
  part  : Acc
  bmc   : Acc
  cp    : Acc
  own   : Bool
  pers  : Bool
  deriving DecidableEq, Repr

def ent (index lo hi : Nat) (typ : Typ) (host part bmc cp : Acc) (own pers : Bool) : Ent :=
  { index := index, lo := lo, hi := hi, typ := typ, host := host, part := part, bmc := bmc, cp := cp, own := own, pers := pers }

/-- Range 0x1000. -/
def dictIdentity : List Ent :=
  [ent 0x1000 0x01 0x01 .str .r .r .r .r false false,
   ent 0x1000 0x02 0x02 .u8 .r .r .r .r false false,
   ent 0x1000 0x03 0x03 .u8 .r .r .r .r false false,
   ent 0x1000 0x04 0x04 .u16 .r .r .r .r false false,
   ent 0x1000 0x05 0x05 .u16 .r .r .r .r false false,
   ent 0x1000 0x06 0x09 .u8 .r .r .r .r false false,
   ent 0x1001 0x01 0x01 .u16 .r .r .r .r false false,
   ent 0x1002 0x01 0x01 .u64 .r .r .r .r false false,
   ent 0x1010 0x01 0x01 .bool .rw .no .rw .rw false false,
   ent 0x1011 0x01 0x01 .u32 .r .no .r .r false false,
   ent 0x1011 0x02 0x02 .u8 .r .no .r .r false false,
   ent 0x1011 0x03 0x03 .u32 .rw .no .r .rw false true]

/-- Range 0x2000. -/
def dictDevice : List Ent :=
  [ent 0x2100 0x01 0x20 .bool .w .w .no .w true false,
   ent 0x2200 0x01 0x01 .u16 .r .no .r .r false false,
   ent 0x2200 0x02 0x02 .u32 .rw .no .r .rw false false,
   ent 0x2200 0x03 0x03 .domain .w .no .no .no false false]

/-- Range 0x3000. -/
def dictPower : List Ent :=
  [ent 0x3000 0x01 0x01 .u16 .r .r .r .r false false,
   ent 0x3000 0x02 0x02 .u16 .rw .no .rw .rw false true,
   ent 0x3000 0x03 0x03 .u32 .r .no .r .r false false,
   ent 0x3001 0x01 0x01 .f32 .r .no .r .r false false,
   ent 0x3001 0x02 0x02 .f32 .r .no .r .r false false,
   ent 0x3001 0x03 0x03 .u16 .r .no .r .r false false,
   ent 0x3002 0x01 0x04 .u16 .r .no .r .r false false,
   ent 0x3002 0x05 0x08 .f32 .r .no .r .r false false,
   ent 0x3003 0x01 0x01 .u16 .r .no .r .r false false,
   ent 0x3003 0x02 0x02 .u16 .r .no .r .r false false,
   ent 0x3003 0x03 0x03 .u16 .r .no .r .r false false,
   ent 0x3004 0x01 0x05 .f32 .r .no .r .r false false,
   ent 0x3005 0x01 0x03 .u8 .r .no .r .r false false,
   ent 0x3006 0x01 0x04 .u8 .r .no .r .r false false,
   ent 0x3006 0x05 0x08 .u8 .r .no .r .r false false,
   ent 0x3010 0x01 0x07 .u16 .r .no .r .r false false,
   ent 0x3011 0x01 0x07 .u32 .r .no .r .r false false,
   ent 0x3012 0x01 0x07 .u32 .r .no .r .r false false,
   ent 0x3013 0x01 0x07 .u32 .r .no .r .r false false,
   ent 0x3014 0x01 0x07 .u32 .r .no .r .r false false,
   ent 0x3015 0x01 0x01 .u32 .r .no .r .r false false,
   ent 0x3016 0x01 0x05 .f32 .r .no .r .r false false,
   ent 0x3020 0x01 0x01 .u64 .r .no .r .r false false,
   ent 0x3030 0x01 0x01 .bool .rw .no .r .rw false false,
   ent 0x3030 0x02 0x02 .u32 .rw .no .r .rw false false,
   ent 0x3030 0x03 0x03 .u32 .rw .no .r .rw false false,
   ent 0x3030 0x04 0x04 .u16 .rw .no .r .rw false false,
   ent 0x3030 0x05 0x05 .u32 .rw .no .r .rw false false,
   ent 0x3030 0x06 0x06 .u32 .rw .no .r .rw false false,
   ent 0x3031 0x01 0x01 .u32 .r .no .r .r false false,
   ent 0x3031 0x02 0x02 .u32 .r .no .r .r false false,
   ent 0x3032 0x01 0xFF .u16 .r .no .r .r false false]

/-- Range 0x4000. -/
def dictCores : List Ent :=
  [ent 0x4010 0x01 0x10 .u64 .rw .r .r .r true false,
   ent 0x4011 0x01 0x10 .u16 .rw .r .r .r true false,
   ent 0x4012 0x01 0x10 .u16 .rw .r .r .r true false,
   ent 0x4013 0x01 0x10 .u32 .rw .rw .r .r true false,
   ent 0x4014 0x01 0x10 .domain .w .no .no .no false false,
   ent 0x4015 0x01 0x01 .domain .w .w .no .no true false,
   ent 0x4015 0x02 0x02 .u32 .r .no .r .r false false,
   ent 0x4016 0x01 0x10 .bool .w .w .no .w true false,
   ent 0x4017 0x01 0x10 .u8 .r .r .r .r true false,
   ent 0x4020 0x01 0x01 .u16 .rw .rw .rw .rw false false,
   ent 0x4020 0x02 0x02 .domain .rw .rw .no .r true false,
   ent 0x4020 0x03 0x03 .u64 .rw .rw .no .r true false,
   ent 0x4020 0x04 0x04 .u8 .w .w .no .no true false,
   ent 0x4020 0x05 0x05 .u8 .r .r .r .r true false,
   ent 0x4020 0x06 0x06 .u16 .r .r .r .r true false,
   ent 0x4020 0x07 0x07 .u64 .r .r .r .r true false,
   ent 0x4020 0x08 0x08 .u32 .r .r .r .r true false,
   ent 0x4020 0x09 0x09 .u64 .r .r .r .r true false,
   ent 0x4020 0x0A 0x0A .u8 .rw .r .r .r true false,
   ent 0x4100 0x01 0x44 .u64 .r .no .r .r false false,
   ent 0x4101 0x01 0x44 .u8 .r .no .r .r false false,
   ent 0x4102 0x01 0x44 .u32 .r .no .r .r false false,
   ent 0x4103 0x01 0x44 .u8 .r .no .r .r false false,
   ent 0x4104 0x01 0x44 .u8 .r .no .r .r false false,
   ent 0x4105 0x01 0x44 .u32 .r .no .r .r false false,
   ent 0x4106 0x01 0x01 .u8 .w .no .no .w false false,
   ent 0x4106 0x02 0x02 .u8 .w .no .no .w false false,
   ent 0x4107 0x01 0x01 .u32 .rw .no .r .rw false false,
   ent 0x4108 0x01 0x40 .u8 .r .r .r .r false false,
   ent 0x4109 0x01 0x04 .u8 .r .no .r .r false false,
   ent 0x4200 0x01 0x10 .u64 .rw .rw .no .r true false,
   ent 0x4201 0x01 0x10 .u32 .rw .rw .no .r true false,
   ent 0x4202 0x01 0x01 .u64 .rw .no .no .r false false,
   ent 0x4202 0x02 0x02 .u32 .rw .no .no .r false false]

/-- Range 0x5000. -/
def dictPorts : List Ent :=
  [ent 0x5000 0x01 0x08 .u8 .rw .no .r .rw false false,
   ent 0x5001 0x01 0x08 .bool .rw .no .r .rw false false,
   ent 0x5002 0x01 0x08 .u8 .rw .no .r .rw false false,
   ent 0x5003 0x01 0x08 .u16 .r .r .r .r false false,
   ent 0x5004 0x01 0x08 .u64 .rw .no .r .rw false false,
   ent 0x5005 0x01 0x08 .u16 .rw .no .r .rw false false,
   ent 0x5006 0x01 0x08 .u16 .rw .no .r .rw false false,
   ent 0x5007 0x01 0x08 .u32 .rw .no .r .rw false false,
   ent 0x5008 0x01 0x08 .u32 .rw .no .r .rw false false,
   ent 0x5009 0x01 0x08 .u8 .rw .no .r .rw false false,
   ent 0x5010 0x01 0x08 .bool .rw .no .r .rw false false,
   ent 0x5011 0x01 0x08 .domain .rw .no .r .rw false false,
   ent 0x5012 0x01 0x08 .u32 .rw .no .r .rw false false,
   ent 0x5013 0x01 0x08 .u64 .rw .no .r .rw false false,
   ent 0x5014 0x01 0x08 .bool .w .no .no .w false false,
   ent 0x5015 0x01 0x08 .u8 .r .no .r .r false false,
   ent 0x5016 0x01 0x08 .u16 .rw .no .r .rw false false,
   ent 0x5020 0x01 0x08 .u8 .rw .no .r .rw false false,
   ent 0x5021 0x01 0x08 .u16 .rw .no .r .rw false false,
   ent 0x5022 0x01 0x08 .u16 .rw .no .r .rw false false,
   ent 0x5023 0x01 0x08 .u8 .r .no .r .r false false,
   ent 0x5030 0x01 0x08 .u64 .rw .no .r .rw false false,
   ent 0x5040 0x01 0x08 .u64 .rw .no .no .r false false,
   ent 0x5041 0x01 0x08 .u32 .rw .no .no .r false false,
   ent 0x5042 0x01 0x08 .u32 .rw .no .no .r false false,
   ent 0x5043 0x01 0x08 .bool .rw .no .no .r false false,
   ent 0x5044 0x01 0x08 .bool .rw .no .r .rw false false,
   ent 0x5050 0x01 0x01 .u16 .rw .no .r .rw false false,
   ent 0x5051 0x01 0x08 .bool .rw .no .r .rw false false,
   ent 0x5052 0x01 0x08 .u16 .rw .no .r .rw false false,
   ent 0x5053 0x01 0x10 .u8 .rw .r .r .r true false,
   ent 0x5060 0x01 0x08 .u32 .rw .no .r .rw false false,
   ent 0x5061 0x01 0x08 .domain .rw .no .r .rw false false]

/-- Range 0x6000. -/
def dictMemory : List Ent :=
  [ent 0x6001 0x01 0x20 .u8 .r .no .r .r false false,
   ent 0x6002 0x01 0x01 .u32 .r .no .r .r false false,
   ent 0x6002 0x02 0x02 .u32 .r .no .r .r false false,
   ent 0x6002 0x03 0x03 .u32 .r .no .r .r false false,
   ent 0x6002 0x04 0x04 .u32 .r .no .r .r false false,
   ent 0x6010 0x01 0x10 .u32 .rw .r .r .r true false,
   ent 0x6011 0x01 0x10 .u32 .r .r .r .r true false,
   ent 0x6020 0x01 0x01 .u64 .w .no .no .no false false,
   ent 0x6020 0x02 0x02 .u16 .r .no .r .r false false,
   ent 0x6021 0x01 0x01 .u16 .rw .no .rw .rw false false,
   ent 0x6021 0x02 0x02 .u64 .r .no .r .r false false,
   ent 0x6030 0x01 0x01 .u16 .rw .no .r .rw false true,
   ent 0x6030 0x02 0x02 .u32 .rw .no .r .rw false true,
   ent 0x6031 0x01 0x01 .domain .r .no .r .rw false true,
   ent 0x6032 0x01 0x20 .u64 .r .no .r .r false false,
   ent 0x6033 0x01 0x20 .u32 .r .no .r .r false false,
   ent 0x6034 0x01 0x01 .u32 .r .no .r .r false false]

/-- Range 0x7000. -/
def dictCarillon : List Ent :=
  [ent 0x7000 0x01 0x01 .bool .rw .no .r .rw false false,
   ent 0x7000 0x02 0x02 .u16 .rw .no .r .rw false false,
   ent 0x7000 0x03 0x03 .u16 .rw .no .r .rw false false,
   ent 0x7001 0x01 0x01 .u16 .rw .no .r .rw false false,
   ent 0x7001 0x02 0x02 .u32 .rw .no .r .rw false false,
   ent 0x7001 0x03 0x03 .u8 .r .r .r .rw false false,
   ent 0x7002 0x01 0x04 .u16 .rw .no .r .rw false false,
   ent 0x7003 0x01 0x01 .u16 .rw .no .r .rw false false,
   ent 0x7004 0x01 0x01 .u16 .w .no .no .w false false,
   ent 0x7004 0x02 0x02 .u16 .w .no .no .w false false,
   ent 0x7004 0x03 0x03 .u32 .rw .no .r .rw false false,
   ent 0x7005 0x01 0x01 .u32 .rw .no .r .rw false false,
   ent 0x7005 0x02 0x02 .u8 .rw .no .r .rw false false,
   ent 0x7006 0x01 0xFF .u64 .r .r .r .r false false,
   ent 0x7007 0x01 0x10 .u32 .r .r .r .r true false,
   ent 0x7010 0x01 0xFF .domain .rw .no .r .rw false false,
   ent 0x7020 0x01 0x10 .u16 .rw .r .r .r true false,
   ent 0x7021 0x01 0x10 .u32 .rw .r .r .r true false,
   ent 0x7030 0x01 0x40 .domain .rw .rw .no .r true false,
   ent 0x7040 0x01 0x01 .u32 .rw .no .r .rw false false,
   ent 0x7040 0x02 0x02 .u16 .rw .no .r .rw false false,
   ent 0x7040 0x03 0x03 .u32 .rw .no .r .rw false false,
   ent 0x7040 0x04 0x04 .u8 .rw .no .r .rw false false]

/-- Range 0x8000. -/
def dictSecurity : List Ent :=
  [ent 0x8000 0x01 0x01 .u8 .r .r .r .r false false,
   ent 0x8000 0x02 0x02 .u8 .r .no .r .r false false,
   ent 0x8000 0x03 0x03 .domain .w .no .w .no false false,
   ent 0x8000 0x04 0x04 .domain .r .no .r .r false false,
   ent 0x8001 0x01 0x10 .bool .rw .r .r .r true false,
   ent 0x8002 0x01 0x10 .bool .rw .r .r .r true false,
   ent 0x8003 0x01 0x01 .bool .r .r .r .r false false,
   ent 0x8003 0x02 0x02 .bool .rw .no .r .r false false,
   ent 0x8010 0x01 0x01 .u64 .r .r .r .r false false,
   ent 0x8010 0x02 0x02 .domain .r .r .r .r false false,
   ent 0x8010 0x03 0x03 .domain .r .r .r .rw false true,
   ent 0x8010 0x04 0x04 .domain .r .r .r .r false false,
   ent 0x8020 0x01 0x01 .domain .w .w .w .no true false,
   ent 0x8020 0x02 0x02 .domain .r .r .r .no true false,
   ent 0x8030 0x01 0x10 .domain .no .w .no .no true false,
   ent 0x8031 0x01 0x10 .domain .r .r .r .r true false,
   ent 0x8040 0x01 0x01 .domain .w .no .w .no false false,
   ent 0x8040 0x02 0x02 .domain .r .r .r .r false false,
   ent 0x8040 0x03 0x03 .bool .w .no .w .w false false,
   ent 0x8050 0x01 0x10 .domain .w .w .no .no true false,
   ent 0x8051 0x01 0x10 .u16 .r .r .r .r true false,
   ent 0x8060 0x01 0x11 .u8 .r .r .r .r true false]

/-- Range 0x9000. -/
def dictFirmware : List Ent :=
  [ent 0x9000 0x01 0x01 .u8 .r .r .r .r false false,
   ent 0x9000 0x02 0x02 .u8 .r .no .r .r false false,
   ent 0x9001 0x01 0x01 .domain .w .no .w .w false true,
   ent 0x9002 0x01 0x02 .u8 .r .no .r .r false false,
   ent 0x9003 0x01 0x02 .u32 .r .no .r .r false false,
   ent 0x9005 0x01 0x01 .u32 .r .r .r .r false false,
   ent 0x9005 0x02 0x02 .u8 .r .no .r .r false false,
   ent 0x9010 0x01 0x01 .bool .w .no .no .w false true,
   ent 0x9010 0x02 0x02 .u32 .r .no .r .r false false,
   ent 0x9010 0x03 0x03 .u8 .r .no .r .r false false,
   ent 0x9011 0x01 0x01 .domain .w .no .no .no false true]

/-- Range 0xA000. -/
def dictTest : List Ent :=
  [ent 0xA000 0x01 0x01 .u16 .w .no .w .w false false,
   ent 0xA001 0x01 0x44 .u16 .r .no .r .r false false,
   ent 0xA002 0x01 0x44 .u64 .r .no .r .r false false,
   ent 0xA003 0x01 0x44 .u64 .r .no .r .r false false,
   ent 0xA004 0x01 0x03 .u16 .r .no .r .r false false,
   ent 0xA005 0x01 0x03 .u64 .r .no .r .r false false,
   ent 0xA010 0x01 0x08 .u64 .r .no .r .r false false,
   ent 0xA020 0x01 0x20 .bool .w .no .w .w false false,
   ent 0xA021 0x01 0x20 .u32 .r .no .r .r false false]

/-- Range 0xB000. -/
def dictCounters : List Ent :=
  [ent 0xB100 0x01 0x20 .u64 .r .r .r .r true false,
   ent 0xB101 0x01 0x20 .u64 .r .r .r .r true false,
   ent 0xB102 0x01 0x20 .u32 .r .r .r .r true false,
   ent 0xB103 0x01 0x20 .u64 .r .r .r .r true false,
   ent 0xB200 0x01 0x11 .u64 .r .r .r .r true false,
   ent 0xB300 0x01 0x08 .u64 .r .no .r .r false false,
   ent 0xB301 0x01 0x08 .u64 .r .no .r .r false false,
   ent 0xB302 0x01 0x08 .u64 .r .no .r .r false false,
   ent 0xB303 0x01 0x08 .u64 .r .no .r .r false false,
   ent 0xB304 0x01 0x08 .u64 .r .no .r .r false false,
   ent 0xB305 0x01 0x08 .u64 .r .no .r .r false false,
   ent 0xB306 0x01 0x08 .u64 .r .no .r .r false false,
   ent 0xB307 0x01 0x08 .u64 .r .no .r .r false false,
   ent 0xB308 0x01 0x08 .u64 .r .no .r .r false false,
   ent 0xB309 0x01 0x08 .u64 .r .no .r .r false false,
   ent 0xB30A 0x01 0x08 .u64 .r .no .r .r false false,
   ent 0xB30B 0x01 0x08 .u64 .r .no .r .r false false,
   ent 0xB30C 0x01 0x08 .u64 .r .no .r .r false false,
   ent 0xB30D 0x01 0x08 .u64 .r .no .r .r false false,
   ent 0xB30E 0x01 0x08 .u64 .r .no .r .r false false,
   ent 0xB30F 0x01 0x08 .u64 .r .no .r .r false false,
   ent 0xB310 0x01 0x08 .u64 .r .no .r .r false false,
   ent 0xB311 0x01 0x08 .u64 .r .no .r .r false false,
   ent 0xB320 0x01 0x40 .u64 .r .no .r .r false false,
   ent 0xB321 0x01 0x40 .u64 .r .no .r .r false false,
   ent 0xB322 0x01 0x40 .u64 .r .no .r .r false false,
   ent 0xB323 0x01 0x40 .u64 .r .no .r .r false false,
   ent 0xB324 0x01 0x40 .u64 .r .no .r .r false false,
   ent 0xB400 0x01 0x0A .u64 .r .no .r .r false false,
   ent 0xB401 0x01 0x01 .u64 .r .no .r .r false false,
   ent 0xB500 0x01 0x01 .u64 .r .no .r .r false false,
   ent 0xB500 0x02 0x02 .u64 .r .no .r .r false false,
   ent 0xB500 0x03 0x03 .u64 .r .no .r .r false false,
   ent 0xB600 0x01 0x01 .u32 .r .no .r .r false false,
   ent 0xB700 0x01 0x04 .u64 .r .no .r .r false false,
   ent 0xB701 0x01 0x04 .u64 .r .no .r .r false false,
   ent 0xB702 0x01 0x04 .u64 .r .no .r .r false false,
   ent 0xB703 0x01 0x04 .u64 .r .no .r .r false false,
   ent 0xB704 0x01 0x01 .u64 .r .no .r .r false false,
   ent 0xB704 0x02 0x02 .u64 .r .no .r .r false false,
   ent 0xB704 0x03 0x03 .u64 .r .no .r .r false false]

/-- R450: the entries of an index range. -/
def dictOf (index : Nat) : List Ent :=
  match index / 4096 with
  | 1 => dictIdentity
  | 2 => dictDevice
  | 3 => dictPower
  | 4 => dictCores
  | 5 => dictPorts
  | 6 => dictMemory
  | 7 => dictCarillon
  | 8 => dictSecurity
  | 9 => dictFirmware
  | 10 => dictTest
  | 11 => dictCounters
  | _ => []

/-- The entry at an index and subindex, subindex 0x00 aside. -/
def entryAt (index sub : Nat) : Option Ent := (dictOf index).find? fun e => e.index == index && decide (e.lo ≤ sub ∧ sub ≤ e.hi)

/-- R431: the highest subindex of an index that exists. -/
def topSub (index : Nat) : Option Nat :=
  match (dictOf index).filter fun e => e.index == index with
  | [] => none
  | l => some ((l.map Ent.hi).foldl max 0)

/-! ### Rights (R413, R433 to R435) -/

/-- The partition that an entry is about, where the qualifier own limits PART: the selected context's, the region's, the subindex's. -/
def State.entryPart (s : State) (pr : Principal) (index sub : Nat) : Nat :=
  if index = 0x4020 then (s.ctx (s.selected pr)).part.toNat
  else if index = 0x7030 then regPart (s.region (sub - 1))
  else sub - 1

/-- R434: entries that have neither a subindex nor a selected context to which own could refer: their rules limit the request itself. -/
def ownFree (index : Nat) : Bool := index == 0x4015 || index == 0x8020

/-- R435: may PEER read the entry? -/
def peerReads (e : Ent) : Bool :=
  [1, 3, 7].contains (e.index / 4096) && e.bmc.reads && e.typ != .domain && e.typ != .str

/-- R338, R434: does own hold for PART n? A disabled region is open to every partition. -/
def State.ownHolds (s : State) (n : Nat) (e : Ent) (sub : Nat) : Bool :=
  !e.own || ownFree e.index || s.entryPart (.part (Fin.ofNat 16 n)) e.index sub == n ||
    (e.index == 0x7030 && !regEnable (s.region (sub - 1)))

/-- R434, R435: the rights of a principal to an entry: may it read, may it write. -/
def State.rights (s : State) (pr : Principal) (e : Ent) (sub : Nat) : Bool × Bool :=
  match pr with
  | .host => (e.host.reads, e.host.writes)
  | .bmc => (e.bmc.reads, e.bmc.writes)
  | .cp => (e.cp.reads, e.cp.writes)
  | .part n => let o := s.ownHolds n.val e sub; (e.part.reads && o, e.part.writes && o)
  | .peer _ => (peerReads e, false)

/-- R413: HOST writes that confidential mode refuses. -/
def State.confRefuses (s : State) (pr : Principal) (index sub : Nat) : Bool :=
  prHost pr && ([0x4200, 0x4201, 0x7030].contains index || (index == 0x4020 && (sub == 2 || sub == 3))) &&
    s.confidential (s.entryPart pr index sub)

/-- R413: a profiling counter of a confidential partition reads as zero, and its log as empty, to all but PART own. -/
def State.confHides (s : State) (pr : Principal) (index sub : Nat) : Bool :=
  let n := s.entryPart pr index sub
  let about := (index == 0x4020 && decide (7 ≤ sub ∧ sub ≤ 9)) ||
    (decide (sub ≤ 16) && ([0xB100, 0xB101, 0xB102, 0xB103, 0xB200].contains index || index == 0x8031))
  about && s.confidential n && !prOwns pr n

/-! ### Values -/

/-- A nonnegative rational as binary32, rounded to nearest even. -/
def ratB32 (q : Rat) : Nat :=
  let n := q.num.toNat
  let k := 64 + Nat.log2 q.den
  let m := n * 2 ^ k / q.den
  let sticky := if n * 2 ^ k % q.den = 0 then 0 else 1
  (toB32 (fmtB32.round .rne (.fin false (2 * m + sticky) (-(k : Int) - 1))).1).toNat

/-- R3: the part number of a grade. -/
def partNumber (a70 : Bool) : List Byte :=
  -- "SCB-T7-2048-A85" or "SCB-T7-2048-A70"
  [0x53, 0x43, 0x42, 0x2D, 0x54, 0x37, 0x2D, 0x32, 0x30, 0x34, 0x38, 0x2D, 0x41] ++ (if a70 then [0x37, 0x30] else [0x38, 0x35])

/-- Range 0x1000. -/
def State.readIdentity (s : State) (index sub : Nat) : List Byte :=
  match index % 4096, sub with
  | 0x000, 1 => partNumber Config.gradeA70
  | 0x000, 2 => [if Config.gradeA70 then 2 else 1]
  | 0x000, 3 => [0xB1]
  | 0x000, 4 => leBytes 2 s.hub.fault.toNat
  | 0x000, 5 => leBytes 2 Config.vendorId.toNat
  | 0x000, k => [BitVec.ofNat 8 (b2n (s.spareOf (k - 6) != 0xFF))]
  | 0x001, _ => leBytes 2 1
  | 0x002, _ => leBytes 8 s.now
  | 0x010, _ => [BitVec.ofNat 8 (b2n s.mq.faultqReset)]
  | _, 1 => leBytes 4 s.fw.restarts
  | _, 2 => [s.fw.lastCause]
  | _, _ => leBytes 4 s.fw.wdt

/-- Range 0x2000. -/
def State.readDevice (s : State) (_index sub : Nat) : List Byte :=
  match sub with
  | 1 => leBytes 2 (if s.host.linkUp then s.host.gen.toNat * 256 + s.host.width.toNat else 0)
  | _ => leBytes 4 s.host.waitLimit

/-- Range 0x3000. -/
def State.readPower (s : State) (index sub : Nat) : List Byte :=
  let d := s.damper
  match index % 4096, sub with
  | 0x000, 1 => leBytes 2 Config.capFused
  | 0x000, 2 => leBytes 2 d.capSet
  | 0x000, _ => leBytes 4 d.effCap
  | 0x001, 1 => leBytes 4 (ratB32 ((d.meanPower : Rat) / 1000))
  | 0x001, 2 => leBytes 4 (ratB32 d.paceT)
  | 0x001, _ => leBytes 2 d.throttle.toNat
  | 0x002, k => if k ≤ 4 then leBytes 2 (sget 0 d.vcq (k - 1)) else leBytes 4 (ratB32 (((d.fastOf (k - 5)).mean : Rat) / 1000))
  | 0x003, k => leBytes 2 ([180, 240, 300].getD (k - 1) 0)
  | 0x004, k => leBytes 4 (ratB32 ((d.temps.getD (k - 1) 25000 : Rat) / 1000))
  | 0x005, k => leBytes 1 ([95, 100, 110].getD (k - 1) 0)
  | 0x006, k => leBytes 1 (if k ≤ 4 then d.swellNow (k - 1) else d.hbmNow (k - 5))
  | 0x010, k => leBytes 2 (vPoints.getD (k - 1) 0)
  | 0x011, k => leBytes 4 (Config.paceTable 0 (k - 1))
  | 0x012, k => leBytes 4 (Config.paceTable 1 (k - 1))
  | 0x013, k => leBytes 4 (Config.paceTable 2 (k - 1))
  | 0x014, k => leBytes 4 (Config.paceTable 3 (k - 1))
  | 0x015, _ => leBytes 4 Config.paceHub
  | 0x016, k => leBytes 4 (ratB32 (d.paceReg.getD (k - 1) 0))
  | 0x020, _ => leBytes 8 (min (2 ^ 64 - 1) (d.energyNj / 1000))
  | 0x030, 1 => [BitVec.ofNat 8 (b2n d.lendEn)]
  | 0x030, 2 => leBytes 4 d.lendPeriod
  | 0x030, 3 => leBytes 4 d.lendStep
  | 0x030, 4 => leBytes 2 d.lendThresh
  | 0x030, 5 => leBytes 4 d.lendLease
  | 0x030, _ => leBytes 4 d.lendGuard
  | 0x031, 1 => leBytes 4 d.lent
  | 0x031, _ => leBytes 4 d.borrowed
  | _, k => leBytes 2 (sget 0 d.peerSlack (k - 1)).toNat

def lifeCode : CoreLife → Nat
  | .opened => 0
  | .choked => 1
  | .testing => 2
  | .passed => 3
  | .disabled => 4

def ctxCode : CtxLife → Nat
  | .free => 0
  | .active => 1
  | .stopping => 2
  | .stopped => 3
  | .teardown => 4
  | .faulted => 5

/-- Range 0x4000; the CTX entries are those of the requester's selected context. -/
def State.readCores (s : State) (pr : Principal) (index sub : Nat) : List Byte :=
  let p := s.part (sub - 1)
  let x := s.ctx (s.selected pr)
  let c := s.core (sub - 1)
  match index % 4096, sub with
  | 0x010, _ => leBytes 8 p.cores.toNat
  | 0x011, _ => leBytes 2 p.ctxQuota
  | 0x012, _ => leBytes 2 p.backlogSlab.toNat
  | 0x013, _ => leBytes 4 p.backlogCount
  | 0x015, _ => leBytes 4 s.host.reattachRefused
  | 0x017, _ => [p.resetState]
  | 0x020, 1 => leBytes 2 (s.selected pr)
  | 0x020, 2 => leBytes 64 x.record.toNat
  | 0x020, 3 => leBytes 8 x.ptbase.toNat
  | 0x020, 5 => leBytes 1 (ctxCode x.life)
  | 0x020, 6 => leBytes 2 x.fault.toNat
  | 0x020, 7 => leBytes 8 x.starve
  | 0x020, 8 => leBytes 4 (x.debt / 1000)
  | 0x020, 9 => leBytes 8 x.reruns
  | 0x020, _ => [x.part]
  | 0x100, _ => leBytes 8 c.portDrops.toNat
  | 0x101, _ => [c.epoch]
  | 0x102, _ => leBytes 4 c.corrected.toNat
  | 0x103, _ => leBytes 1 (lifeCode c.life)
  | 0x104, _ => [c.cause]
  | 0x105, _ => leBytes 4 c.chokes.toNat
  | 0x107, _ => leBytes 4 s.disp.stallLimit
  | 0x108, _ => [s.mapAt (sub - 1)]
  | 0x109, _ => [s.spareOf (sub - 1)]
  | 0x200, _ => leBytes 8 (s.ring (sub - 1)).base.toNat
  | 0x201, _ => leBytes 4 (s.ring (sub - 1)).size
  | _, 1 => leBytes 8 (s.ring 16).base.toNat
  | _, _ => leBytes 4 (s.ring 16).size

/-- R308: LINK_STATUS; a DISABLED port reads as 0, the entry's default. -/
def Port.status (p : Port) : Nat :=
  let st := match p.st with
    | .disabled => 0
    | .training => 1
    | .up => 2
    | .down => 3
  if p.st = .disabled then 0 else st + 16 * p.lanes.toNat + 256 * b2n p.fast

/-- Range 0x5000. -/
def State.readPorts (s : State) (index sub : Nat) : List Byte :=
  let p := s.port (sub - 1)
  let bit (b : Bool) : List Byte := [BitVec.ofNat 8 (b2n b)]
  match index % 4096 with
  | 0x000 => [p.lanes]
  | 0x001 => bit p.an
  | 0x002 => [p.force]
  | 0x003 => leBytes 2 p.status
  | 0x004 => leBytes 8 p.mac.toNat
  | 0x005 => leBytes 2 p.maxFrame
  | 0x006 => leBytes 2 p.vlan
  | 0x007 => leBytes 4 p.pcpToTc.toNat
  | 0x008 => leBytes 4 p.tcToPcp.toNat
  | 0x009 => [p.media]
  | 0x010 => bit p.gateEn
  | 0x011 => p.pendList
  | 0x012 => leBytes 4 p.pendCycle
  | 0x013 => leBytes 8 p.pendBase
  | 0x015 => leBytes 1 (if p.armed.any (fun a => decide (p.timer < a.2)) then 2 else if p.armed.isSome || p.active.isSome then 1 else 0)
  | 0x016 => leBytes 2 p.guard
  | 0x020 => [p.pfcEn]
  | 0x021 => leBytes 2 p.pauseLimit
  | 0x022 => leBytes 2 p.pauseRecovery
  | 0x023 => leBytes 1 (((List.range 8).map fun t => b2n (p.cls t).broken * 2 ^ t).sum)
  | 0x030 => leBytes 8 p.timer
  | 0x040 => leBytes 8 p.rxrBase.toNat
  | 0x041 => leBytes 4 p.rxrSize
  | 0x042 => leBytes 4 p.rxrCons
  | 0x043 => bit p.badHost
  | 0x044 => bit p.badCp
  | 0x050 => leBytes 2 s.eth.mgmtEtype.toNat
  | 0x051 => bit p.mgmtEn
  | 0x052 => leBytes 2 p.evqMask.toNat
  | 0x053 => leBytes 1 (s.part (sub - 1)).netCeil
  | 0x060 => leBytes 4 p.ipv4.toNat
  | _ => leBytes 16 p.ipv6.toNat

/-- R203: the 64 bits of a slab-table entry. A slab whose stack has failed has no group: GBASE reads as its range and GSIZE as a size of one
(DESIGN CHOICE, log entry 69). -/
def State.slabWord (s : State) (n : Nat) : Nat :=
  let e := s.slab n
  let (b, g) := (s.slabGroup n).getD (slabRange n, 1)
  let life := match s.slabLife n with
    | .free => 0
    | .assigned => 1
    | .retired => 2
  e.ce % 4096 * 2 ^ 40 + e.ue % 4 * 2 ^ 38 + b2n e.rp * 2 ^ 37 + e.wbias.toNat * 2 ^ 35 + b2n e.wipe * 2 ^ 34 + b * 2 ^ 31 +
    Nat.log2 g * 2 ^ 29 + b2n e.chx * 2 ^ 28 + life * 16 + e.owner.toNat

/-- Slabs in a state. -/
def State.countSlabs (s : State) (l : SlabLife) : Nat := ((List.range 65536).filter fun n => s.slabLife n == l).length

/-- Range 0x6000. -/
def State.readMemory (s : State) (pr : Principal) (index sub : Nat) : List Byte :=
  match index % 4096, sub with
  | 0x001, k => leBytes 1 (b2n (s.mem.failed.contains (k - 1)))
  | 0x002, 1 => leBytes 4 (s.countSlabs .free)
  | 0x002, 2 => leBytes 4 (s.countSlabs .assigned)
  | 0x002, 3 => leBytes 4 (s.countSlabs .retired)
  | 0x002, _ => leBytes 4 (s.mem.slabs.filter fun e => e.2.wipe).length
  | 0x010, k => leBytes 4 (sget 0 s.mem.quota (k - 1))
  | 0x011, k => leBytes 4 (s.slabsHeld (k - 1))
  | 0x020, _ => leBytes 2 s.mem.opState.toNat
  | 0x021, 1 => leBytes 2 (sget 0 s.disp.slabSel (prKey pr))
  | 0x021, _ => leBytes 8 (s.slabWord (sget 0 s.disp.slabSel (prKey pr)))
  | 0x030, 1 => leBytes 2 s.mem.retireCeLimit
  | 0x030, _ => leBytes 4 s.mem.scrubPeriod
  | 0x031, _ => s.mem.retireList.flatMap (leBytes 8) ++ s.mem.retiredSlabs.flatMap fun n => leBytes 8 (2 ^ 63 + n)
  | 0x032, k => leBytes 8 (sget 0 s.mem.stackCe (k - 1))
  | 0x033, k => leBytes 4 (sget 0 s.mem.stackUe (k - 1))
  | _, _ => leBytes 4 s.mem.rowsRepaired

/-- Range 0x7000. -/
def State.readCarillon (s : State) (index sub : Nat) : List Byte :=
  let c := s.car
  match index % 4096, sub with
  | 0x000, 1 => [BitVec.ofNat 8 (b2n c.en)]
  | 0x000, 2 => leBytes 2 s.peal.udpPort.toNat
  | 0x000, _ => leBytes 2 s.peal.parts.toNat
  | 0x001, 1 => leBytes 2 c.ownRank.toNat
  | 0x001, 2 => leBytes 4 c.ownInc.toNat
  | 0x001, _ => [c.st]
  | 0x002, k => leBytes 2 (c.axis.getD (k - 1) 1)
  | 0x003, _ => leBytes 2 c.activeRanks
  | 0x004, _ => leBytes 4 c.limit
  | 0x005, 1 => leBytes 4 c.period
  | 0x005, _ => leBytes 1 c.miss
  | 0x006, k => leBytes 8 (s.tollAge (k - 1))
  | 0x007, k => leBytes 4 (s.part (k - 1)).torn
  | 0x010, k => (s.rankEntry (k - 1)).bytes
  | 0x020, k => leBytes 2 (s.part (k - 1)).shardSlab.toNat
  | 0x021, k => leBytes 4 (s.part (k - 1)).keepQuota
  | 0x030, k => leBytes 32 (s.region (k - 1)).toNat
  | _, 1 => leBytes 4 s.peal.rtoMin
  | _, 2 => leBytes 2 s.peal.retxLimit
  | _, 3 => leBytes 4 s.peal.ccTarget
  | _, _ => leBytes 1 s.peal.ccGain

/-- Range 0x8000. -/
def State.readSecurity (s : State) (pr : Principal) (index sub : Nat) : List Byte :=
  let bit (b : Bool) : List Byte := [BitVec.ofNat 8 (b2n b)]
  match index % 4096, sub with
  | 0x000, 1 => leBytes 1 (lcCode s.sec.lc)
  | 0x000, 2 => leBytes 1 s.sec.transitions
  | 0x000, _ => s.sec.challenge
  | 0x001, k => bit (s.part (k - 1)).conf
  | 0x002, k => bit (s.part (k - 1)).ideReq
  | 0x003, 1 => bit s.anyConfidential
  | 0x003, _ => bit s.sec.debugEn
  | 0x010, 1 => leBytes 8 s.deviceId.toNat
  | 0x010, 2 => s.sec.idPubkey
  | 0x010, 3 => s.sec.idCertFlash.getD Config.idCert
  | 0x010, _ => s.sec.transportEk
  | 0x020, _ => sget [] s.sec.report (prKey pr)
  | 0x031, k => (s.mlog (k - 1)).flatMap LogEntry.bytes
  | 0x040, _ => s.sec.ckeyId
  | 0x051, k => leBytes 2 (sget 0 s.sec.pkgState (k - 1)).toNat
  | _, k => [sget 0 s.sec.ide k]

def runCode : FwRun → Nat
  | .slotA => 0
  | .slotB => 1
  | .recovery => 2
  | .loader => 3

/-- R461: ms left in the trial window. -/
def State.trialLeft (s : State) : Nat :=
  match s.fw.trialFrom with
  | some t => (t + trialNs - s.now) / 1000000
  | none => 0

/-- R466: FW_SLOT_VERSION: the VERSION of a slot whose image a start has verified, else 0. -/
def Fw.slotVersion (f : Fw) (b : Bool) : Nat := if f.slot b = .trial ∨ f.slot b = .confirmed then imgVersion (f.image b) else 0

/-- Range 0x9000. -/
def State.readFirmware (s : State) (index sub : Nat) : List Byte :=
  let f := s.fw
  match index % 4096, sub with
  | 0x000, 1 => leBytes 1 (runCode (f.run.getD f.selected))
  | 0x000, _ => leBytes 1 (b2n f.active)
  | 0x002, k => leBytes 1 (slotCode (f.slot (k == 2)))
  | 0x003, k => leBytes 4 (f.slotVersion (k == 2))
  | 0x005, 1 => leBytes 4 f.fusedNow
  | 0x005, _ => leBytes 1 (64 - f.fused.length)
  | _, 2 => leBytes 4 s.trialLeft
  | _, _ => leBytes 1 f.trialBoots

/-- Range 0xA000. -/
def State.readTest (s : State) (index sub : Nat) : List Byte :=
  let b := s.bist
  let k := sub - 1
  match index % 4096 with
  | 0x001 => leBytes 2 (sget 0 b.statusCore k).toNat
  | 0x002 => leBytes 8 (sget 0 b.sigCore k).toNat
  | 0x003 => leBytes 8 (sget 0 b.msigCore k).toNat
  | 0x004 => leBytes 2 (if b.maint.any (fun r => r.scope == k + 2) then 1 else (sget 0 b.statusDev k).toNat)
  | 0x005 => leBytes 8 (sget 0 b.sigDev k).toNat
  | 0x010 => leBytes 8 (Config.bistExpect k).toNat
  | _ => leBytes 4 (sget 0 b.hbmStatus k).toNat

/-- Range 0xB000. -/
def State.readCounters (s : State) (index sub : Nat) : List Byte :=
  let q := s.mqueue (sub - 1)
  match index % 4096, sub with
  | 0x100, _ => leBytes 8 q.lostW
  | 0x101, _ => leBytes 8 q.lostP
  | 0x102, _ => leBytes 4 q.resets
  | 0x103, _ => leBytes 8 q.flushed
  | 0x200, k => leBytes 8 (s.fn (if k = 0x11 then 0 else k)).winRefused
  | 0x400, k => leBytes 8 (sget 0 s.peal.counters k)
  | 0x401, _ => leBytes 8 s.car.stale
  | 0x500, 1 => leBytes 8 s.damper.peaks
  | 0x500, 2 => leBytes 8 s.damper.throttleNs
  | 0x500, _ => leBytes 8 s.damper.lendStale
  | 0x600, _ => leBytes 4 s.sec.ckeyRefused
  | i, k =>
    if i / 256 = 7 then leBytes 8 (sget 0 s.dict.counters (256 * (i % 256) + k))
    else if 0x320 ≤ i then leBytes 8 (sget 0 (s.port ((k - 1) / 8)).counters (256 * (i % 256) + (k - 1) % 8))
    else leBytes 8 (sget 0 (s.port (k - 1)).counters (i % 256))

/-- What an entry reads as for a principal. -/
def State.entryValue (s : State) (pr : Principal) (index sub : Nat) : List Byte :=
  match index / 4096 with
  | 1 => s.readIdentity index sub
  | 2 => s.readDevice index sub
  | 3 => s.readPower index sub
  | 4 => s.readCores pr index sub
  | 5 => s.readPorts index sub
  | 6 => s.readMemory pr index sub
  | 7 => s.readCarillon index sub
  | 8 => s.readSecurity pr index sub
  | 9 => s.readFirmware index sub
  | 10 => s.readTest index sub
  | _ => s.readCounters index sub

/-- The value with R413 applied, and subindex 0x00 as R431 gives it. -/
def State.dictRead (s : State) (pr : Principal) (index sub : Nat) : List Byte :=
  if sub = 0 then leBytes 1 ((topSub index).getD 0)
  else
    let v := s.entryValue pr index sub
    if s.confHides pr index sub then (if index = 0x8031 then [] else List.replicate v.length 0) else v

/-! ### Writes of entries that have no row of their own -/

/-- A number in its stated range, or RANGE. -/
def inRange (s : State) (v lo hi : Nat) (f : State → State) : BitVec 8 × State :=
  if lo ≤ v ∧ v ≤ hi then (rOK, f s) else (rRANGE, s)

/-- Range 0x1000: FAULTQ_RESET and CP_WDT, which flash keeps. -/
def State.putIdentity (s : State) (index v : Nat) : BitVec 8 × State :=
  if index = 0x1010 then
    inRange s v 0 1 fun s => if v = 1 then { s with mq := { s.mq with faultqReset := false } } else s
  else inRange s v 100 10000 fun s => { s with fw := { s.fw with wdt := v, flashWdt := some v } }

/-- Range 0x2000: HOST_WAIT_LIMIT and DEV_CRED. -/
def State.putDevice (s : State) (sub : Nat) (b : List Byte) : BitVec 8 × State :=
  if sub = 2 then inRange s (leNat b) 1 3600 fun s => { s with host := { s.host with waitLimit := leNat b } }
  else match lenBad 16 b with
    | some r => (r, s)
    | none => (rOK, { s with host := { s.host with cred := BitVec.ofNat 128 (leNat b) } })

/-- Range 0x3000: the lending entries. -/
def State.putPower (s : State) (sub v : Nat) : BitVec 8 × State :=
  let d := s.damper
  let set (d : Damper) (s : State) : State := { s with damper := d }
  match sub with
  | 1 => inRange s v 0 1 (set { d with lendEn := v == 1 })
  | 2 => inRange s v 1000 1000000 (set { d with lendPeriod := v })
  | 3 => (rOK, set { d with lendStep := v } s)
  | 4 => (rOK, set { d with lendThresh := v } s)
  | 5 => if d.lendGuard * 2 < v then inRange s v 20 10000 (set { d with lendLease := v }) else (rRANGE, s)
  | _ => if v * 2 < d.lendLease then (rOK, set { d with lendGuard := v } s) else (rRANGE, s)

/-- R239: would the mask place a core in two partitions? -/
def State.coresTaken (s : State) (n : Nat) (mask : W64) : Bool :=
  (List.range 16).any fun k => k != n && (s.part k).cores &&& mask != 0

/-- R240, R490: a context whose record and table base may be written. -/
def Ctx.settable (x : Ctx) : Bool := x.life == .free || x.life == .stopped

/-- R9, R10, R240: the RW bits of a context record; the others take no write and read as zero. -/
def ctxRecordMask : BitVec 512 :=
  let queue := (2 ^ 52 - 1) * 2 ^ 12 + (2 ^ 7 - 1)
  BitVec.ofNat 512 (((2 ^ 16 - 1) * 2 ^ 32 + (2 ^ 18 - 1) * 2 ^ 14) + queue * (2 ^ 64 + 2 ^ 128 + 2 ^ 192 + 2 ^ 256))

/-- Range 0x4000: partitions, contexts, the stall limit. A write of BACKLOG_SLAB while BACKLOG_COUNT is above 0 keeps the count, and the backlog goes
on in the new slab behind it (DESIGN CHOICE, log entry 71: R287 is silent on it). A write of BACKLOG_COUNT other than 0 is answered RANGE (DESIGN
CHOICE, log entry 49: the table says only that a write of 0 clears). -/
def State.putCores (s : State) (pr : Principal) (index sub : Nat) (b : List Byte) : BitVec 8 × State :=
  let v := leNat b
  let n := sub - 1
  let p := s.part n
  let c := s.selected pr
  let x := s.ctx c
  match index % 4096, sub with
  | 0x010, _ => if s.coresTaken n (w64 v) then (rREFUSED, s) else (rOK, (s.setPart n { p with cores := w64 v }).dropIdle)
  | 0x011, _ => (rOK, s.setPart n { p with ctxQuota := v })
  | 0x012, _ =>
    if v = 0xFFFF ∨ (s.slabLife v = .assigned ∧ (s.slab v).owner.toNat = n) then
      (rOK, s.setPart n { p with backlogSlab := BitVec.ofNat 16 v })
    else (rREFUSED, s)
  | 0x013, _ => inRange s v 0 0 fun s => s.setPart n { p with backlogCount := 0 }
  | 0x014, _ => match lenBad 16 b with
    | some r => (r, s)
    | none => (rOK, s.setPart n { p with cred := BitVec.ofNat 128 v })
  | 0x020, 1 => inRange s v 0 4095 fun s => { s with disp := { s.disp with ctxSel := sset 0 s.disp.ctxSel (prKey pr) v } }
  | 0x020, 2 => match lenBad 64 b with
    | some r => (r, s)
    | none => if x.settable then (rOK, s.setCtx c { x with record := BitVec.ofNat 512 v &&& ctxRecordMask }) else (rREFUSED, s)
  | 0x020, 3 => if x.settable then (rOK, s.setCtx c { x with ptbase := w64 v }) else (rREFUSED, s)
  | 0x020, _ =>
    if 16 ≤ v ∧ v ≠ 0xFF then (rRANGE, s)
    else if x.life ≠ .free then (rREFUSED, s)
    else (rOK, s.setCtx c { x with part := BitVec.ofNat 8 v })
  | _, _ => inRange s v 10 10000 fun s => { s with disp := { s.disp with stallLimit := v } }

/-- R304, R305: a class cleared in PFC_EN has no pause and an armed watchdog, and the device sends no more PFC for it. -/
def Port.setPfc (p : Port) (m : BitVec 8) : Port :=
  let p := { p with pfcEn := m }
  (List.range 8).foldl (fun p t =>
    if m.getLsbD t then p else p.setCls t { p.cls t with pauseEnd := none, pauseSince := 0, broken := false, recoverAt := 0, pfcAt := none }) p

/-- R298: sizes that a host receive ring may have. -/
def rxrSizeOk (v : Nat) : Bool := v == 0 || ((List.range 9).map fun i => 65536 * 2 ^ i).contains v

/-- Range 0x5000: the ports' entries that neither retrain a port nor arm a schedule. A write of a host ring's base or size starts the ring
afresh; a class that a write bars from the wire has no credit (R262). -/
def State.putPorts (s : State) (index sub : Nat) (b : List Byte) : BitVec 8 × State :=
  let v := leNat b
  let k := sub - 1
  let put (f : Port → Port) (s : State) : State := s.modPort k f
  let bar (f : Port → Port) : State → State := put fun p => (f p).dropIdle
  match index % 4096 with
  | 0x002 => inRange s v 0 1 (put fun p => { p with force := BitVec.ofNat 8 v })
  | 0x004 => inRange s v 0 (2 ^ 48 - 1) (put fun p => { p with mac := BitVec.ofNat 48 v })
  | 0x005 => inRange s v 1518 9216 (put fun p => { p with maxFrame := v })
  | 0x006 => inRange s v 0 4094 (put fun p => { p with vlan := v })
  | 0x007 => (rOK, put (fun p => { p with pcpToTc := BitVec.ofNat 32 (v % 2 ^ 24) }) s)
  | 0x008 => (rOK, put (fun p => { p with tcToPcp := BitVec.ofNat 32 (v % 2 ^ 24) }) s)
  | 0x010 => inRange s v 0 1 (bar fun p => let p := { p with gateEn := v == 1 }; { p with gates := p.gatesNow })
  | 0x011 =>
    if 2048 < b.length then (rTOO_LARGE, s)
    else if b.length % 8 ≠ 0 then (rRANGE, s)
    else (rOK, put (fun p => { p with pendList := gateMask b }) s)
  | 0x012 => inRange s v 1000 1000000000 (put fun p => { p with pendCycle := v })
  | 0x013 => (rOK, put (fun p => { p with pendBase := v }) s)
  | 0x016 => inRange s v 0 1000 (bar fun p => { p with guard := v })
  | 0x020 => (rOK, bar (fun p => p.setPfc (BitVec.ofNat 8 (v % 128))) s)
  | 0x021 => inRange s v 1 1000 (bar fun p => { p with pauseLimit := v })
  | 0x022 => inRange s v 1 10000 (put fun p => { p with pauseRecovery := v })
  | 0x040 => (rOK, put (fun p => { p with rxrBase := w64 v, rxrProd := 0, rxrCons := 0, rxrPhase := true, rxrLost := false }) s)
  | 0x041 => if rxrSizeOk v then (rOK, put (fun p => { p with rxrSize := v, rxrProd := 0, rxrCons := 0, rxrPhase := true, rxrLost := false }) s) else (rRANGE, s)
  | 0x042 => (rOK, put (fun p => { p with rxrCons := v }) s)
  | 0x043 => inRange s v 0 1 (put fun p => { p with badHost := v == 1 })
  | 0x044 => inRange s v 0 1 (put fun p => { p with badCp := v == 1 })
  | 0x050 => (rOK, { s with eth := { s.eth with mgmtEtype := BitVec.ofNat 16 v } })
  | 0x051 => inRange s v 0 1 (put fun p => { p with mgmtEn := v == 1 })
  | 0x052 => (rOK, put (fun p => { p with evqMask := BitVec.ofNat 16 v }) s)
  | 0x053 => inRange s v 1 100 fun s => s.setPart k { s.part k with netCeil := v }
  | 0x060 => (rOK, put (fun p => { p with ipv4 := BitVec.ofNat 32 v }) s)
  | _ => match lenBad 16 b with
    | some r => (r, s)
    | none => (rOK, put (fun p => { p with ipv6 := BitVec.ofNat 128 v }) s)

/-- R218, R438: the retire list as its bytes give it, 8 for each member, bit 63 set for a slab (log entry 29), in the memory block and in
flash. -/
def State.putRetire (s : State) (b : List Byte) : BitVec 8 × State :=
  let l := (List.range (b.length / 8)).map fun i => natAt b (8 * i) 8
  let rows := (l.filter fun v => decide (v < 2 ^ 63)).foldl setIns []
  let slabs := (l.filter fun v => decide (2 ^ 63 ≤ v)).foldl (fun r v => setIns r (v % 65536)) []
  if b.length % 8 ≠ 0 then (rRANGE, s)
  else (rOK, { s with mem := { s.mem with retireList := rows, retiredSlabs := slabs }, fw := { s.fw with flashRetire := rows, flashRetired := slabs } })

/-- Range 0x6000: quotas, the slab selector, the persistent limits and the retire list. -/
def State.putMemory (s : State) (pr : Principal) (index sub : Nat) (b : List Byte) : BitVec 8 × State :=
  let v := leNat b
  match index % 4096, sub with
  | 0x031, _ => s.putRetire b
  | 0x010, k => (rOK, { s with mem := { s.mem with quota := sset 0 s.mem.quota (k - 1) v } })
  | 0x021, _ => (rOK, { s with disp := { s.disp with slabSel := sset 0 s.disp.slabSel (prKey pr) v } })
  | _, 1 => (rOK, { s with mem := { s.mem with retireCeLimit := v }, fw := { s.fw with flashCeLimit := some v } })
  | _, _ => (rOK, { s with mem := { s.mem with scrubPeriod := v }, fw := { s.fw with flashScrub := some v } })

/-- R313: the entry that 96 bytes spell; none where a STATE value or a nonzero byte is reserved. -/
def rankEntryOf (b : List Byte) : Option RankEntry :=
  if 3 < natAt b 0x0C 4 ∨ !zeroAt b 0x16 2 ∨ !zeroAt b 0x58 8 then none
  else some { ident := BitVec.ofNat 64 (natAt b 0 8), inc := BitVec.ofNat 32 (natAt b 8 4), state := BitVec.ofNat 32 (natAt b 0x0C 4),
              mac := BitVec.ofNat 48 (natAt b 0x10 6), addrs := (List.range 4).map fun i => BitVec.ofNat 128 (natAt b (0x18 + 16 * i) 16) }

/-- R338, R413: what a REGION_ENTRY is answered with, where it is not accepted. HOST names no confidential partition. -/
def State.regionBad (s : State) (pr : Principal) (b : List Byte) : Option (BitVec 8) :=
  let n := natAt b 0 1
  let c := natAt b 2 2
  let base := natAt b 8 8
  let len := natAt b 0x10 8
  match lenBad 32 b with
  | some r => some r
  | none =>
    if 16 ≤ n ∨ 1 < natAt b 1 1 ∨ 4096 ≤ natAt b 4 2 ∨ !zeroAt b 6 2 ∨ !zeroAt b 0x18 8 ∨ base % 65536 ≠ 0 ∨ len % 65536 ≠ 0 ∨
        len < 65536 then some rRANGE
    else if (prHost pr ∧ s.confidential n) ∨ (!prHost pr ∧ !prOwns pr n) then some rDENIED
    else if 4096 ≤ c ∨ (s.ctx c).part.toNat ≠ n ∨ 2 ^ 52 < base + len ∨ (s.ctx c).seals.any (fun r => rangesMeet r (base, len)) then some rREFUSED
    else none

/-- Range 0x7000: ranks, axes, regions and the transport's limits; CARILLON_STATE, which only CP writes (R346): state 3 ends by CARILLON_REJOIN or a
reset alone, CARILLON_EN 0 keeps the state that it left (R312), and value 3 fences the device as FENCED does (R384, R422). OWN_INC may be written in CARILLON_STATE 0 or 2 only (R375). Other ACTIVE_RANKS may release a generation (R334). -/
def State.putCarillon (s : State) (pr : Principal) (index sub : Nat) (b : List Byte) : BitVec 8 × State :=
  let v := leNat b
  let c := s.car
  let car (c : Carillon) (s : State) : State := { s with car := c }
  let peal (p : Peal) (s : State) : State := { s with peal := p }
  match index % 4096, sub with
  | 0x000, 2 => (rOK, peal { s.peal with udpPort := BitVec.ofNat 16 v } s)
  | 0x000, _ => (rOK, peal { s.peal with parts := BitVec.ofNat 16 v } s)
  | 0x001, 1 => (rOK, car { c with ownRank := BitVec.ofNat 16 v } s)
  | 0x001, 3 =>
    if 3 < v then (rRANGE, s)
    else if (c.st = 3 ∧ v ≠ 3) ∨ (!c.en ∧ v ≠ c.st.toNat) then (rREFUSED, s)
    else (rOK, if v = 3 then (if c.st = 3 then s else s.becomeFenced) else car { c with st := BitVec.ofNat 8 v } s)
  | 0x001, _ => if c.st = 0 ∨ c.st = 2 then (rOK, car { c with ownInc := BitVec.ofNat 32 v } s) else (rREFUSED, s)
  | 0x002, k => inRange s v 1 128 (car { c with axis := c.axis.set (k - 1) v })
  | 0x003, _ => inRange s v 2 128 fun s => (car { c with activeRanks := v } s).releaseGens.pump
  | 0x004, _ => (rOK, car { c with limit := v } s)
  | 0x005, 1 => inRange s v 100 100000 (car { c with period := v })
  | 0x005, _ => inRange s v 2 255 (car { c with miss := v })
  | 0x010, k => match lenBad 96 b with
    | some r => (r, s)
    | none => match rankEntryOf b with
      | none => (rRANGE, s)
      | some e => (rOK, s.setRank (k - 1) e)
  | 0x020, k =>
    if v = 0xFFFF ∨ (s.slabLife v = .assigned ∧ (s.slab v).owner.toNat = k - 1) then
      (rOK, s.setPart (k - 1) { s.part (k - 1) with shardSlab := BitVec.ofNat 16 v })
    else (rREFUSED, s)
  | 0x021, k => inRange s v 0 (sget 0 s.mem.quota (k - 1)) fun s => s.setPart (k - 1) { s.part (k - 1) with keepQuota := v }
  | 0x030, k => match s.regionBad pr b with
    | some r => (r, s)
    | none => (rOK, peal { s.peal with regions := sset 0 s.peal.regions (k - 1) (BitVec.ofNat 256 v) } s)
  | _, 1 => inRange s v 10 100000 (peal { s.peal with rtoMin := v })
  | _, 2 => (rOK, peal { s.peal with retxLimit := v } s)
  | _, 3 => (rOK, peal { s.peal with ccTarget := v } s)
  | _, _ => (rOK, peal { s.peal with ccGain := v } s)

/-- Range 0x8000: ID_CERT, which flash keeps, and PART_IDE_REQ, while every context of the partition is FREE (R426). -/
def State.putSecurity (s : State) (index sub : Nat) (b : List Byte) : BitVec 8 × State :=
  let v := leNat b
  let n := sub - 1
  if index = 0x8010 then (rOK, { s with sec := { s.sec with idCertFlash := some b } })
  else if 1 < v then (rRANGE, s)
  else if !s.allFree n then (rREFUSED, s)
  else (rOK, ((s.setPart n { s.part n with ideReq := v == 1 }).stallHost.unstallHost).busWake sub)

/-- A write that the rights allow, to an entry without a row of its own. -/
def State.dictPut (s : State) (pr : Principal) (index sub : Nat) (b : List Byte) : BitVec 8 × State :=
  match index / 4096 with
  | 1 => s.putIdentity index (leNat b)
  | 2 => s.putDevice sub b
  | 3 => s.putPower sub (leNat b)
  | 4 => s.putCores pr index sub b
  | 5 => s.putPorts index sub b
  | 6 => s.putMemory pr index sub b
  | 7 => s.putCarillon pr index sub b
  | _ => s.putSecurity index sub b

end Sys2Proof.Machine
end

