-- ==== Sys2Proof/Machine/Voxyx.lean ====
section
/-! DEFINITION. Voxyx (chapter 19): requests on a channel, held responses, snapshots and transfers, the mailbox, firmware images written
by segments (R460, R463), the MCTP control commands and the I3C port. -/

namespace Sys2Proof.Machine

/-! ### Channels (R433, R441, R442, R452) -/

/-- R433: the principal of a channel. -/
def chanPrincipal : Channel → Principal
  | .mailbox fn => if h : fn.val = 0 then .host else .part ⟨fn.val - 1, by omega⟩
  | .mctp _ _ => .bmc
  | .peer r => .peer r
  | .cp => .cp

/-- R452: the subindex under which a channel's requests count. -/
def chanSub (ch : Channel) : Nat := prSub (chanPrincipal ch)

/-- R443, R449: how many requests of a channel may wait. -/
def chanLimit : Channel → Nat
  | .peer _ => 1
  | _ => 4

/-- R439: the longest message of a channel. -/
def chanMax : Channel → Nat
  | .peer _ => 1024
  | _ => 2048

def Chan.fresh (ch : Channel) : Chan := { ch := ch, held := [], snapshot := none, transfer := none }
def State.chan (s : State) (ch : Channel) : Chan := (s.dict.chans.find? fun c => c.ch == ch).getD (Chan.fresh ch)
def State.setChan (s : State) (c : Chan) : State :=
  let l := s.dict.chans
  let l := if l.any (fun k => k.ch == c.ch) then modFirst (fun k => k.ch == c.ch) (fun _ => c) l else l ++ [c]
  { s with dict := { s.dict with chans := l } }

/-- What a request is answered with. -/
structure Reply where
  flags  : BitVec 8
  offset : Nat
  result : BitVec 8
  data   : List Byte
  deriving DecidableEq, Repr

def Reply.code (r : BitVec 8) : Reply := { flags := 0, offset := 0, result := r, data := [] }

/-! ### Writes of entries with a row of their own -/

/-- The result that a row's own meaning answers with, and its state without that answer, the request being counted on its channel; OK where
the answer comes later. Poisoned requests that the row cuts short stay counted (R452). -/
def rowResult (s : State) : Out → BitVec 8 × State
  | .next t =>
    let t := { t with dict := { t.dict with counters := sset 0 s.dict.counters 0x403 (sget 0 t.dict.counters 0x403) } }
    let new := t.hub.out.take (t.hub.out.length - s.hub.out.length)
    match new.findSome? fun e => match e with
        | .answer r => some r
        | _ => none with
    | some r => (r, { t with hub := { t.hub with out := delFirst (fun e => e == .answer r) t.hub.out } })
    | none => (rOK, t)
  | _ => (rOK, s)

/-- R467: BIST_START by the scope that its value names. -/
def State.bistWrite (s : State) (pr : Principal) (v : BitVec 16) : Out :=
  if bistScope v = 2 then execBistQuadrant pr v s
  else if bistScope v = 3 then execBistHub pr v s
  else if bistScope v = 4 then execBistDevice pr v s
  else execBistCore pr v s

/-- R205: SLAB_OP by its OP; a reserved OP is rejected with RESERVED_VALUE. -/
def State.slabWrite (s : State) (pr : Principal) (v : W64) : Out :=
  match fld v 63 60 with
  | 1 => execAssign pr v s
  | 2 => execRelease pr v s
  | 3 => execSetWbias pr v s
  | 4 => execSetChx pr v s
  | _ => .next (s.slabOp pr v true (fun _ _ => 0) id false)

/-- R241: CTX_OP by its value. -/
def State.ctxOpWrite (s : State) (pr : Principal) (v : Nat) : Out :=
  match v with
  | 1 => execCreate pr s
  | 2 => execStop pr s
  | 3 => execCtxResume pr s
  | 4 => execCtxReset pr s
  | 5 => execDestroy pr s
  | _ => .next (s.answer rRANGE)

/-- R410: LC_REQUEST by its target state. -/
def State.lcWrite (s : State) (pr : Principal) (b : List Byte) : Out :=
  match b with
  | [] => .next (s.answer rRANGE)
  | t :: token =>
    match t.toNat with
    | 0 => .next (s.answer rREFUSED)
    | 1 => execLcToProvisioned pr token s
    | 2 => execLcToOperational pr token s
    | 3 => execLcToReturned pr token s
    | 4 => execLcToScrapped pr token s
    | _ => .next (s.answer rRANGE)

/-- R288: REATTACH by its mode. -/
def State.reattachWrite (s : State) (pr : Principal) (b : List Byte) : Out :=
  let target := BitVec.ofNat 8 (natAt b 0 1)
  let cred := BitVec.ofNat 128 (natAt b 2 16)
  match lenBad 18 b with
  | some r => .next (s.answer r)
  | none =>
    match natAt b 1 1 with
    | 0 => execReattachKeep pr target cred s
    | 1 => execReattachDivert pr target cred s
    | _ => .next (s.answer rRANGE)

/-- The row that a write of the entry is; none where it has none. How many requests of a core that is choked meet its closed port (R101) is
a free value (log entry 38). -/
def State.rowWrite (s : State) (pr : Principal) (index sub : Nat) (b : List Byte) : Option Out :=
  let v := leNat b
  let v8 := BitVec.ofNat 8 v
  let v16 := BitVec.ofNat 16 v
  let port := Fin.ofNat 8 (sub - 1)
  let part := Fin.ofNat 16 (sub - 1)
  match index, sub with
  | 0x2100, _ => some (execMqFlush pr (Fin.ofNat 32 (sub - 1)) v8 s)
  | 0x3000, 2 => some (execCapSet pr v16 s)
  | 0x4015, 1 => some (s.reattachWrite pr b)
  | 0x4016, _ => some (execPartReset pr part v8 s)
  | 0x4020, 4 => some (s.ctxOpWrite pr v)
  | 0x4106, 1 => some (execCoreReadmit pr v8 s)
  | 0x4106, _ =>
    let c := s.core v
    if v < 68 && c.life == .opened then
      let (w, s) := s.draw
      some (execCoreChoke pr v8 s w.toNat)
    else some (execCoreChoke pr v8 s)
  | 0x4200, _ => some (execRingRestart pr (Fin.ofNat 17 (sub - 1)) true (w64 v) s)
  | 0x4201, _ => some (execRingRestart pr (Fin.ofNat 17 (sub - 1)) false (w64 v) s)
  | 0x4202, k => some (execRingRestart pr 16 (k == 1) (w64 v) s)
  | 0x5000, _ => some (execPortLanes pr port v8 s)
  | 0x5001, _ => some (execPortAn pr port v8 s)
  | 0x5009, _ => some (execPortMedia pr port v8 s)
  | 0x5014, _ => some (execGateCommit pr port v8 s)
  | 0x5030, _ => some (execPortTimer pr port (w64 v) s)
  | 0x6020, _ => some (s.slabWrite pr (w64 v))
  | 0x7000, 1 => some (execCarillonEn pr v8 s)
  | 0x7004, 1 => some (execTakeover pr v16 s)
  | 0x7004, 2 => some (execCarillonRejoin pr v16 s)
  | 0x8000, _ => some (s.lcWrite pr b)
  | 0x8001, _ => some (execPartConf pr part v8 s)
  | 0x8003, _ => some (execDebugEn pr v8 s)
  | 0x8020, _ => some (execAttRequest pr b s)
  | 0x8030, _ => some (execMeasure pr part b s)
  | 0x8040, 1 => some (execCkeyInstall pr b s)
  | 0x8040, _ => some (execCkeyClear pr v8 s)
  | 0x8050, _ => some (execPkgLoad pr part b s)
  | 0x9010, _ => some (execFwConfirm pr v8 s)
  | 0xA000, _ => some (s.bistWrite pr v16)
  | 0xA020, _ => some (execHbmTest pr (Fin.ofNat 32 (sub - 1)) v8 s)
  | _, _ => none

/-- The effect of a whole value. -/
def State.applyWrite (s : State) (pr : Principal) (index sub : Nat) (b : List Byte) : BitVec 8 × State :=
  match s.rowWrite pr index sub b with
  | some o => rowResult s o
  | none => s.dictPut pr index sub b

/-! ### Firmware images (R456, R460, R463) -/

/-- R460: the slot other than ACTIVE. -/
def Fw.target (f : Fw) : Bool := !f.active
def Fw.setImage (f : Fw) (b : Bool) (l : List Byte) : Fw := if b then { f with imageB := l } else { f with imageA := l }

/-- R460: a FW_IMAGE segment that is in order: `value` is the transfer so far with the segment. FIRST erases the slot, FINAL makes it
PENDING. -/
def Fw.imageSegment (f : Fw) (value : List Byte) (first last : Bool) : Fw :=
  let b := f.target
  let f := if first then (f.setSlot b .empty).record else f
  let f := f.setImage b value
  if last then (f.setSlot b .pending).record else f

/-- R460, R463: why a segment of an image is not taken. -/
def State.imageBad (s : State) (ch : Channel) (index : Nat) (first : Bool) (len : Nat) : Option (BitVec 8) :=
  if index = 0x9001 then
    if s.fw.slotA = .trial ∨ s.fw.slotB = .trial ∨ 20971520 < len then some rREFUSED
    else if first ∧ s.dict.chans.any (fun c => c.ch != ch && (match c.transfer with
        | some t => t.index == 0x9001
        | none => false)) then some rBUSY
    else none
  else if index = 0x9011 then
    if (s.sec.lc ≠ .provisioned ∧ s.sec.lc ≠ .returned) ∨ s.fw.run = some .recovery then some rREFUSED
    else if 16777216 < len then some rTOO_LARGE
    else none
  else if 268435456 < len then some rTOO_LARGE
  else none

/-! ### READ, WRITE, INFO, CANCEL (R441) -/

def tenSeconds : Nat := 10000000000

/-- R444: does the control processor serve a read, or a write, of the entry? -/
def cpReads (e : Ent) : Bool := e.typ == .domain || e.typ == .str
def cpWrites (e : Ent) (sub : Nat) : Bool :=
  cpReads e || e.pers || e.index / 4096 == 9 || e.index / 4096 == 10 || (e.index == 0x7004 && (sub == 1 || sub == 2))

/-- R441: READ of a DOMAIN or STR value from the channel's snapshot. -/
def State.readDomain (s : State) (ch : Channel) (pr : Principal) (m : VMsg) (index sub : Nat) : Reply × State :=
  let c := s.chan ch
  let first := m.flags.getLsbD 0
  let snap := if first then some { index := m.index, sub := m.sub, value := s.dictRead pr index sub, last := s.now : Snapshot }
    else c.snapshot.filter fun k => k.index == m.index && k.sub == m.sub && decide (s.now < k.last + tenSeconds)
  match snap with
  | none => (.code rSEGMENT, s)
  | some k =>
    if !first ∧ index = 0x8031 ∧ s.confHides pr index sub then (.code rDENIED, s)
    else
      let n := min m.len.toNat (chanMax ch - 16)
      let data := (k.value.drop m.offset.toNat).take n
      let last := decide (k.value.length ≤ m.offset.toNat + data.length)
      ({ flags := if last then 2 else 0, offset := m.offset.toNat, result := rOK, data := data },
        s.setChan { c with snapshot := some { k with last := s.now } })

/-- READ. -/
def State.voxRead (s : State) (ch : Channel) (pr : Principal) (m : VMsg) (e : Ent) (sub : Nat) : Reply × State :=
  if cpReads e && s.fw.run.isNone then (.code rBUSY, s)
  else match e.typ.size with
    | some n => if m.len.toNat ≠ n then (.code rTYPE, s)
      else ({ flags := 0, offset := 0, result := rOK, data := s.dictRead pr e.index sub }, s)
    | none => s.readDomain ch pr m e.index sub

/-- R441: one segment of a DOMAIN or STR value. -/
def State.writeSegment (s : State) (ch : Channel) (pr : Principal) (m : VMsg) (index sub : Nat) : Reply × State :=
  let c := s.chan ch
  let first := m.flags.getLsbD 0
  let last := m.flags.getLsbD 1
  let old : Option (List Byte) :=
    if first then (if m.offset = 0 then some [] else none)
    else match c.transfer with
      | some t => if t.index = m.index ∧ t.sub = m.sub ∧ t.value.length = m.offset.toNat ∧ s.now ≤ t.last + tenSeconds then some t.value else none
      | none => none
  match old with
  | none => (.code rSEGMENT, s.setChan { c with transfer := none })
  | some v =>
    let value := v ++ m.data
    match s.imageBad ch index first value.length with
    | some r => (.code r, if r = rBUSY then s else s.setChan { c with transfer := none })
    | none =>
      let s := if index = 0x9001 then { s with fw := s.fw.imageSegment value first last } else s
      if !last then (.code rOK, s.setChan { c with transfer := some { index := m.index, sub := m.sub, value := value, last := s.now } })
      else
        let s := s.setChan { c with transfer := none }
        if index = 0x9001 then (.code rOK, s)
        else if index = 0x9011 then (.code rOK, { s with fw := { s.fw with recovery := value } })
        else
          let (r, t) := s.applyWrite pr index sub value
          (.code r, t)

/-- WRITE. -/
def State.voxWrite (s : State) (ch : Channel) (pr : Principal) (m : VMsg) (e : Ent) (sub : Nat) : Reply × State :=
  match s.writeGate (e.index / 4096) true (cpWrites e sub) with
  | some r => (.code r, s)
  | none =>
    match e.typ.size with
    | some n =>
      if m.len.toNat ≠ n then (.code rTYPE, s)
      else
        let (r, t) := s.applyWrite pr e.index sub m.data
        (.code r, t)
    | none => s.writeSegment ch pr m e.index sub

/-- The current size of a value: credentials have 16 bytes, an image has what the flash holds of it, and an entry that only takes a request
holds nothing. -/
def State.valueSize (s : State) (pr : Principal) (e : Ent) (sub : Nat) : Nat :=
  e.typ.size.getD (
    if e.index = 0x2200 ∨ e.index = 0x4014 then 16
    else if e.index = 0x9001 then (s.fw.image s.fw.target).length
    else if e.index = 0x9011 then s.fw.recovery.length
    else if e.host.reads || e.part.reads || e.bmc.reads || e.cp.reads then (s.dictRead pr e.index sub).length
    else 0)

/-- INFO: type, rights, flags, current size. -/
def State.voxInfo (s : State) (pr : Principal) (e : Ent) (sub : Nat) (rights : Bool × Bool) : Reply :=
  let sel := (e.index == 0x4020 || e.index == 0x6021) && sub == 1
  let size := s.valueSize pr e sub
  { flags := 0, offset := 0, result := rOK
    data := leBytes 1 e.typ.code ++ leBytes 1 (b2n rights.1 + 2 * b2n rights.2) ++ leBytes 1 (b2n e.pers + 2 * b2n (cpWrites e sub) + 4 * b2n sel) ++
      [0] ++ leBytes 4 size }

/-- R431: the entry of a subindex, with 0x00 as an entry of type U8 that whoever reads one subindex of the index reads. -/
def State.findEntry (s : State) (pr : Principal) (index sub : Nat) : Option (Ent × Bool × Bool) :=
  if sub = 0 then
    (topSub index).map fun _ =>
      (ent index 0 0 .u8 .r .r .r .r false false, ((dictOf index).any fun e => e.index == index &&
        (List.range (e.hi + 1 - e.lo)).any fun k => (s.rights pr e (e.lo + k)).1), false)
  else (entryAt index sub).map fun e =>
    let r := s.rights pr e sub
    (e, r.1, r.2 && !s.confRefuses pr index sub)

/-- R409, R463: a request that the life-cycle state, the recovery image or the ROM loader turns away. -/
def State.turnedAway (s : State) (op index sub : Nat) : Option (BitVec 8) :=
  let read := op == 1 || op == 3
  let identity := read && (index / 4096 == 1 || (index == 0x8000 && sub == 1))
  if s.sec.lc == .scrapped && !identity then some rREFUSED
  else if (s.fw.run == some .recovery || s.fw.run == some .loader) && !identity && index / 4096 != 9 then some rBUSY
  else none

/-- One request as its principal may make it. -/
def State.voxOp (s : State) (ch : Channel) (pr : Principal) (op : Nat) (m : VMsg) : Reply × State :=
  let index := m.index.toNat
  let sub := m.sub.toNat
  match s.turnedAway op index sub with
  | some r => (.code r, s)
  | none =>
    match s.findEntry pr index sub with
    | none => (.code rNO_ENTRY, s)
    | some (e, rd, wr) =>
      match op with
      | 1 => if rd then s.voxRead ch pr m e sub else (.code rDENIED, s)
      | 2 => if wr then s.voxWrite ch pr m e sub else (.code rDENIED, s)
      | 3 => (s.voxInfo pr e sub (rd, wr), s)
      | _ => (.code rOK, if cpReads e then s.setChan { s.chan ch with snapshot := none, transfer := none } else s)

/-! ### A request on its channel (R439, R442, R449) -/

/-- R439: a message that is answered with MALFORMED. -/
def malformed (m : VMsg) (op max : Nat) : Bool :=
  m.ver != 1 || op == 0 || decide (4 < op) || decide (3 < m.flags.toNat) || m.rsv != 0 ||
    (if op = 1 then !m.data.isEmpty else m.data.length != m.len.toNat) || decide (max < 16 + m.data.length)

/-- R439: the bytes of a response. -/
def respBytes (h : HeldResp) : List Byte :=
  [1, h.op ||| 0x80] ++ leBytes 2 h.token.toNat ++ leBytes 2 h.index.toNat ++ [h.sub, h.flags] ++ leBytes 4 h.offset ++ leBytes 2 h.data.length ++
    [h.result, 0] ++ h.data

/-- R439: the bytes of a request. -/
def reqBytes (op : BitVec 8) (m : VMsg) : List Byte :=
  [m.ver, op] ++ leBytes 2 m.token.toNat ++ leBytes 2 m.index.toNat ++ [m.sub, m.flags] ++ leBytes 4 m.offset.toNat ++ leBytes 2 m.len.toNat ++
    [m.result, m.rsv] ++ m.data

/-- R444: a request as the words of one packet of the CP request channel: its bytes, the last word filled with zeros. -/
def msgWords (op : BitVec 8) (m : VMsg) : List W64 :=
  let b := reqBytes op m
  (List.range ((b.length + 7) / 8)).map fun i => w64 (natAt b (8 * i) 8)

/-- May the channel carry a request now? The mailbox of a function that takes no request, MCTP over PCIe without the link, and a peer that
the device does not answer (R435, R447, R448, R463) may not. -/
def State.chanOpen (s : State) (ch : Channel) : Bool :=
  s.hub.ready && match ch with
    | .mailbox fn => s.takesRequest fn.val
    | .mctp b _ => b == 0 || (s.host.linkUp && (s.fn 0).bme && !(s.fn 0).d3)
    | .cp => s.fw.run.isSome
    | .peer r => s.car.en && s.car.st != 3 && (s.rankEntry r.val).present && s.fw.run != some .loader

/-! ### MCTP (R445, R446) -/

/-- R484: the static SMBus address that the MADDR balls select. -/
def State.smbusAddr (s : State) : BitVec 7 := 0x60 + s.hub.maddr.setWidth 7

/-- R446: the bus address at which the management port answers: its dynamic address, until it has one the static address. -/
def State.busAddr (s : State) : BitVec 7 := s.dict.i3cAddr.getD s.smbusAddr

/-- R446, R447: how messages of a binding leave. -/
def State.mctpPath (s : State) (binding : Fin 2) : MctpPath :=
  if binding = 1 then .pcie
  else match s.dict.i3cAddr with
    | some a => .i3c a
    | none => .smbus s.smbusAddr

/-- R445, R446: is what carries a request of the channel as the transport asks: over MCTP message type 0x7E with the vendor ID and 0x01, at most
2,055 bytes with the type; on the management bus at the port's address, and as an SMBus target with a good packet error check? -/
def State.carries (s : State) (ch : Channel) (m : VMsg) (env : MctpEnv) : Bool :=
  match ch with
  | .mctp b _ =>
    env.typ == 0x7E && env.vendor && env.proto == 1 && decide (20 + m.data.length ≤ 2055) &&
      (b == 1 || (env.addr.all (fun a => a == s.busAddr) && (s.dict.i3cAddr.isSome || env.pec)))
  | _ => true

/-- R445: a message body in transmission units of 64 bytes: type, vendor ID, 0x01, the Voxyx message. The vendor ID's high byte comes first, as
the MCTP base specification has it (PRESUMED, log entry 10). -/
def mctpUnits (b : List Byte) : List (List Byte) :=
  let body := [0x7E, BitVec.ofNat 8 (Config.vendorId.toNat / 256), BitVec.ofNat 8 Config.vendorId.toNat, 1] ++ b
  (List.range ((body.length + 63) / 64)).map fun i => (body.drop (64 * i)).take 64

/-! ### Responses (R442, R448, R449) -/

/-- R448: the response stands in MB_RSP: BUSY falls and DONE is set; with IEN the function's vector VEC is raised. -/
def State.mailboxAnswer (s : State) (fn : Nat) (b : List Byte) : State :=
  let f := s.fn fn
  let t := s.setFn fn { f with mailbox := { f.mailbox with rsp := b, busy := false, done := true } }
  if f.mailbox.ien then t.msix fn f.mailbox.vec.toNat else t

/-- R445 to R449: a response leaves on the channel of its request. -/
def State.respond (s : State) (w : VWait) (h : HeldResp) : State :=
  let b := respBytes h
  let s := s.emit (.voxyx w.ch h.op h.token h.flags h.offset h.result h.data)
  match w.ch with
  | .mailbox fn => if !w.quiet && (s.fn fn.val).mailbox.busy then s.mailboxAnswer fn.val b else s
  | .mctp binding eid => s.emit (.mctpUnits (s.mctpPath binding) eid (mctpUnits b))
  | .peer r =>
    let b := [0x11, 1] ++ leBytes 2 s.ownRank ++ leBytes 4 s.car.ownInc.toNat ++ leBytes 2 r.val ++ List.replicate 6 0 ++ b
    s.sendLowest { tc := 5, len := max 64 (b.length + 22), body := .voxyx r.val b }
  | .cp => s

/-- The response to a request. -/
def VWait.resp (w : VWait) (r : Reply) : HeldResp :=
  { token := w.msg.token, op := w.op, index := w.msg.index, sub := w.msg.sub, flags := r.flags, offset := r.offset, result := r.result, data := r.data }

/-- R442, R452: a request is complete: DENIED and BUSY are counted, any other response than BUSY is held, and it leaves. -/
def State.complete (s : State) (w : VWait) (r : Reply) : State :=
  let k := chanSub w.ch
  let s := if r.result = rBUSY then s.vcount 2 k else if r.result = rDENIED then s.vcount 1 k else s
  let h := w.resp r
  let c := s.chan w.ch
  (if r.result = rBUSY then s else s.setChan { c with held := (h :: c.held).take 16 }).respond w h

/-! ### Service (R442 to R444, R449) -/

/-- R449: a peer's WRITE is DENIED. -/
def peerWrites (w : VWait) : Bool :=
  match w.ch with
  | .peer _ => w.op == 2
  | _ => false

/-- A request is executed and complete. -/
def State.execute (s : State) (w : VWait) : State :=
  if peerWrites w then s.complete w (.code rDENIED)
  else
    let (r, t) := s.voxOp w.ch (chanPrincipal w.ch) w.op.toNat w.msg
    t.complete w r

/-- R444: does the dictionary engine pass the request to the control processor? The engine itself answers what it refuses; the device's own
firmware needs no channel. -/
def State.passes (s : State) (w : VWait) : Bool :=
  let pr := chanPrincipal w.ch
  let index := w.msg.index.toNat
  let sub := w.msg.sub.toNat
  !prCp pr && s.fw.run.isSome && (s.turnedAway w.op.toNat index sub).isNone &&
    match s.findEntry pr index sub with
    | none => false
    | some (e, rd, wr) =>
      (w.op == 1 && rd && cpReads e) || (w.op == 2 && wr && cpWrites e sub && !peerWrites w && (s.writeGate (index / 4096) true true).isNone)

/-- Does the control processor take a packet of its request channel as soon as it stands there: the channel holds nothing else? -/
def State.cpIdle (s : State) : Bool :=
  let m := s.mqueue qidCpReq
  m.pkts.isEmpty && m.writing.isNone && m.reading.isNone && m.waiting.isEmpty && !m.flush && !m.mismatch

/-- A packet of n words passes through the idle CP request channel, whose pointers and sequence number move on. -/
def State.passThrough (s : State) (n : Nat) : State :=
  let m := s.mqueue qidCpReq
  s.setQueue qidCpReq (({ m with seq := (m.seq + 1) % 65536 }.moveWr qidCpReq n).moveRd qidCpReq n)

/-- The requests of a channel that wait, oldest first. -/
def State.waitOf (s : State) (ch : Channel) : List VWait := s.dict.waiting.filter fun w => w.ch == ch

/-- The oldest request of a channel waits no longer. -/
def State.dropWait (s : State) (ch : Channel) : State :=
  { s with dict := { s.dict with waiting := delFirst (fun w => w.ch == ch) s.dict.waiting } }

/-- R442, R444: the oldest request of its channel is taken up: it is answered from the held responses, with MALFORMED, or executed; where the
control processor serves it and its channel is not idle, it joins that channel and is executed when it is read (DESIGN CHOICE, log entry
43). -/
def State.serve (s : State) (w : VWait) : State :=
  match (s.chan w.ch).held.find? fun h => h.token == w.msg.token with
  | some h => ((s.dropWait w.ch).vcount 3 (chanSub w.ch)).respond w h
  | none =>
    if malformed w.msg w.op.toNat (chanMax w.ch) then (s.dropWait w.ch).complete w (.code rMALFORMED)
    else if !s.passes w then (s.dropWait w.ch).execute w
    else if s.cpIdle then ((s.passThrough (msgWords w.op w.msg).length).dropWait w.ch).execute w
    else
      { s with dict := { s.dict with waiting := modFirst (fun x => x.ch == w.ch) (fun x => { x with passed := true }) s.dict.waiting } }.post
        qidCpReq (msgWords w.op w.msg)

/-- The entry that a request names. -/
def VWait.entry (w : VWait) : BitVec 16 × BitVec 8 := (w.msg.index, w.msg.sub)

/-- R442, R443: is the request one that is executed, and not answered from a held response or with MALFORMED? -/
def State.toExecute (s : State) (w : VWait) : Bool :=
  !((s.chan w.ch).held.any fun h => h.token == w.msg.token) && !malformed w.msg w.op.toNat (chanMax w.ch)

/-- R444: must a request that the engine would execute itself wait, because one to the same entry that it has accepted from another channel still
stands in the CP request channel? -/
def State.outrun (s : State) (w : VWait) : Bool := !s.passes w && s.dict.waiting.any fun x => x.passed && x.entry == w.entry

/-- R444: the first of the channels' oldest requests that can be taken up; `held` are the entries of those before it that wait, behind which a
request to the same entry waits too. -/
def State.firstFree (s : State) : List VWait → List (BitVec 16 × BitVec 8) → Option VWait
  | [], _ => none
  | w :: r, held => if s.toExecute w && (s.outrun w || held.contains w.entry) then State.firstFree s r (w.entry :: held) else some w

/-- R444: the next request that the dictionary engine can take up: the oldest of its channel, not yet passed on. The requests of one entry are
executed in the order in which they are accepted, whatever their channels. -/
def State.nextWait (s : State) : Option VWait :=
  s.firstFree (s.dict.waiting.filter fun w => !w.passed && (s.waitOf w.ch).head? == some w) []

/-- The engine takes up what it can, at most k requests. -/
def State.advance : Nat → State → State
  | 0, s => s
  | k + 1, s =>
    match s.nextWait with
    | none => s
    | some w => State.advance k (s.serve w)

/-- The requests whose packets still stand in the CP request channel, of those that were passed to it; the others stay. -/
def keepWaits : List (List W64) → List VWait → List VWait
  | _, [] => []
  | p, w :: r =>
    let words := msgWords w.op w.msg
    if !w.passed then w :: keepWaits p r
    else if p.contains words then w :: keepWaits (delFirst (fun x => x == words) p) r
    else keepWaits p r

/-- R230: requests whose packets were lost in the CP request channel get no response; then the engine takes up what it can. -/
def State.settleWaits (s : State) : State :=
  if s.dict.waiting.isEmpty then s
  else
    let m := s.mqueue qidCpReq
    let kept := keepWaits (m.pkts.map (fun k => k.words.map Slot.data) ++ m.waiting.map Ask.words) s.dict.waiting
    let t := { s with dict := { s.dict with waiting := kept } }
    ((s.dict.waiting.filter fun w => !kept.contains w).foldl State.loseWait t).advance s.dict.waiting.length

/-- R443, R449, R452: a request arrives on a channel that takes it: it is counted, and answered with BUSY where as many as may wait already
do. -/
def State.arrive (s : State) (ch : Channel) (op : BitVec 8) (m : VMsg) : State :=
  let s := s.vcount 0 (chanSub ch)
  let w : VWait := { ch := ch, op := op, msg := m, passed := false, quiet := false }
  if chanLimit ch ≤ (s.waitOf ch).length then s.complete w (.code rBUSY)
  else { s with dict := { s.dict with waiting := s.dict.waiting ++ [w] } }.settleWaits

/-- R230, R444: the control processor has read a packet of its request channel whole: the request whose packet it is is executed. -/
def State.cpServes (s : State) (words : List W64) : State :=
  match s.dict.waiting.find? fun w => w.passed && msgWords w.op w.msg == words with
  | none => s
  | some w => (s.dropWait w.ch).execute w

/-- R224, R230, R231, R444: the consumer of R220 reads the oldest packet: the delivery engine of an event or trace queue delivers it, the toll
checker counts a toll, and the others take up to n words at the read port; the control processor executes the request that it has read. -/
def execMqPacketRead (qid : Fin 32) (n : Nat) (u : List MqUpset) (s : State) : Out :=
  if qid.val < 21 then .next (s.deliverQueue qid.val u)
  else if 24 ≤ qid.val ∧ qid.val < 28 then .next (s.checkToll (qid.val - 24) u)
  else
    let t := s.readPort qid.val n u
    if qid.val = qidCpReq then
      .next (match s.readsOut qid.val n u with
        | some words => t.cpServes words
        | none => t).settleWaits
    else .next t

/-! ### The mailbox (R448) -/

/-- R448: n writes to a busy mailbox are dropped and counted. -/
def State.mbIgnore (s : State) (n : Nat) : State :=
  { s with dict := { s.dict with counters := smod 0 s.dict.counters 0x401 (satAdd 64 · n) } }

/-- R439, R448: the request that stands in MB_REQ. -/
def mailboxOp (b : List Byte) : BitVec 8 := BitVec.ofNat 8 (natAt b 1 1)
def mailboxMsg (b : List Byte) : VMsg :=
  let len := natAt b 12 2
  { ver := BitVec.ofNat 8 (natAt b 0 1), token := BitVec.ofNat 16 (natAt b 2 2), index := BitVec.ofNat 16 (natAt b 4 2), sub := BitVec.ofNat 8 (natAt b 6 1),
    flags := BitVec.ofNat 8 (natAt b 7 1), offset := BitVec.ofNat 32 (natAt b 8 4), len := BitVec.ofNat 16 len, result := BitVec.ofNat 8 (natAt b 14 1),
    rsv := BitVec.ofNat 8 (natAt b 15 1), data := if natAt b 1 1 = 1 then [] else bytesAt b 16 (min len 2032) }

/-- R448: bytes written from an offset of MB_REQ. -/
def Mailbox.putReq (b : Mailbox) (o : Nat) (l : List Byte) : Mailbox := { b with req := (bytesAt b.req 0 o ++ l ++ b.req.drop (o + l.length)).take 2048 }

/-- R448: GO: while BUSY it is dropped; else BUSY is set and the request arrives. -/
def State.mailboxSubmit (s : State) (fn : Fin 17) (op : BitVec 8) (m : VMsg) : State :=
  let f := s.fn fn.val
  if f.mailbox.busy then s.mbIgnore 1
  else (s.setFn fn.val { f with mailbox := { f.mailbox with busy := true, rsp := [] } }).arrive (.mailbox fn) op m

/-! ### Requests (R439, R445, R448, R449) -/

/-- A request comes over its channel. Over a mailbox it is written to MB_REQ and GO follows. -/
def State.request (s : State) (ch : Channel) (op : BitVec 8) (m : VMsg) (env : MctpEnv) : State :=
  if !s.chanOpen ch || !s.carries ch m env then s
  else match ch with
    | .mailbox fn =>
      let f := s.fn fn.val
      let b := (reqBytes op m).take 2048
      if f.mailbox.busy then s.mbIgnore ((b.length + 7) / 8 + 1)
      else (s.setFn fn.val { f with mailbox := f.mailbox.putReq 0 b }).mailboxSubmit fn op m
    | _ => s.arrive ch op m

def execVoxyxRead (ch : Channel) (m : VMsg) (s : State) (env : MctpEnv := .good) : Out := .next (s.request ch 1 m env)
def execVoxyxWrite (ch : Channel) (m : VMsg) (s : State) (env : MctpEnv := .good) : Out := .next (s.request ch 2 m env)
def execVoxyxInfo (ch : Channel) (m : VMsg) (s : State) (env : MctpEnv := .good) : Out := .next (s.request ch 3 m env)
def execVoxyxCancel (ch : Channel) (m : VMsg) (s : State) (env : MctpEnv := .good) : Out := .next (s.request ch 4 m env)

/-- FW_IMAGE: a WRITE of 0x9001.01. -/
def execFwImage (ch : Channel) (m : VMsg) (s : State) (env : MctpEnv := .good) : Out := .next (s.request ch 2 { m with index := 0x9001, sub := 1 } env)

/-- FW_RECOVERY: a WRITE of 0x9011.01. -/
def execFwRecovery (ch : Channel) (m : VMsg) (s : State) (env : MctpEnv := .good) : Out := .next (s.request ch 2 { m with index := 0x9011, sub := 1 } env)

/-- SNAPSHOT_LAPSE: 10 s after its last read. -/
def execSnapshotLapse (ch : Channel) (s : State) : Out :=
  let c := s.chan ch
  match c.snapshot with
  | none => .next s
  | some k => if k.last + tenSeconds ≤ s.now then .next (s.setChan { c with snapshot := none }) else .next s

/-! ### Accesses of the mailbox (R448) -/

/-- R448: the 64-bit register or buffer word at an offset of BAR4, a multiple of 8. -/
def Mailbox.reg (b : Mailbox) (off : Nat) : Nat :=
  if off = 8 then b.rsp.length % 65536 * 65536 + b2n b.done * 2 + b2n b.busy
  else if off = 0x10 then b2n b.ien * 2048 + b.vec.toNat
  else if 0x800 ≤ off ∧ off < 0x1000 then natAt b.req (off - 0x800) 8
  else if 0x1000 ≤ off ∧ off < 0x1800 then natAt b.rsp (off - 0x1000) 8
  else 0

/-- R448: a write of the status register clears DONE where its bit is 1; one of the interrupt register sets IEN and VEC; MB_REQ takes its 8
bytes while no request is being served. -/
def Mailbox.write (b : Mailbox) (off : Nat) (v : W64) : Mailbox :=
  if off = 8 then { b with done := b.done && !bitN v 1 }
  else if off = 0x10 then { b with ien := bitN v 11, vec := BitVec.ofNat 11 (fld v 10 0) }
  else if 0x800 ≤ off ∧ off < 0x1000 ∧ !b.busy then b.putReq (off - 0x800) (leBytes 8 v.toNat)
  else b

/-- R448: is an offset one of MB_REQ while a request is being served? -/
def Mailbox.ignores (b : Mailbox) (off : Nat) : Bool := b.busy && decide (0x800 ≤ off ∧ off < 0x1000)

/-- MAILBOX_GO: a host access to 8 bytes of the mailbox of a function: a write of 1 to GO submits the request that stands in MB_REQ. -/
def execMailboxGo (fn : Fin 17) (off : BitVec 16) (a : MbxAccess) (s : State) (ide : Bool := true) : Out :=
  let o := off.toNat / 8 * 8
  let b := (s.fn fn.val).mailbox
  match a with
  | .read =>
    if s.takesRequest fn.val ide then .next (s.emit (.completion fn.val (leBytes 8 (b.reg o)) false))
    else if s.host.linkUp then .next (s.emit (.unsupported fn.val)) else .next s
  | .write v =>
    if !s.takesRequest fn.val ide then .next s
    else if o = 0 then .next (if bitN v 0 && s.hub.ready then s.mailboxSubmit fn (mailboxOp b.req) (mailboxMsg b.req) else s)
    else if b.ignores o then .next (s.mbIgnore 1)
    else .next (s.barWrite fn.val ide fun f => { f with mailbox := f.mailbox.write o v })

/-! ### MCTP control and I3C (R445, R446) -/

/-- May the binding carry MCTP control messages now? -/
def State.mctpOpen (s : State) (binding : Fin 2) : Bool := s.chanOpen (.mctp binding 0)

/-- An MCTP control command is answered; its body is the published specification's (log entry 10). -/
def State.mctpReply (s : State) (binding : Fin 2) (cmd : Nat) : State :=
  s.emit (.mctp (s.mctpPath binding) cmd (Config.mctpBody cmd binding.val (sget 0 s.dict.eids binding.val)))

/-- SET_ENDPOINT_ID: 0x00 and 0xFF are no endpoint IDs. -/
def execSetEndpointId (binding : Fin 2) (eid : BitVec 8) (s : State) : Out :=
  if !s.mctpOpen binding then .next s
  else
    let s := if eid = 0 ∨ eid = 0xFF then s else { s with dict := { s.dict with eids := sset 0 s.dict.eids binding.val eid } }
    .next (s.mctpReply binding 1)

def execGetEndpointId (binding : Fin 2) (s : State) : Out := if s.mctpOpen binding then .next (s.mctpReply binding 2) else .next s
def execGetMctpVersionSupport (binding : Fin 2) (s : State) : Out :=
  if s.mctpOpen binding then .next (s.mctpReply binding 4) else .next s
def execGetMessageTypeSupport (binding : Fin 2) (s : State) : Out :=
  if s.mctpOpen binding then .next (s.mctpReply binding 5) else .next s
def execGetVendorMessageSupport (binding : Fin 2) (s : State) : Out :=
  if s.mctpOpen binding then .next (s.mctpReply binding 6) else .next s

/-- DYNAMIC_ADDRESS_ASSIGN: the port leaves SMBus operation. -/
def execDynamicAddressAssign (addr : BitVec 7) (s : State) : Out :=
  if s.alive then .next { s with dict := { s.dict with i3cAddr := some addr } } else .next s

/-- RSTDAA: back to SMBus operation. -/
def execRstdaa (s : State) : Out := if s.alive then .next { s with dict := { s.dict with i3cAddr := none } } else .next s

end Sys2Proof.Machine
end

