-- ==== Sys2Proof/Machine/Dispatch.lean ====
section
/-! DEFINITION. The one match from a command to its meaning. -/

namespace Sys2Proof.Machine

def exec (i : Instr) (s : State) : Host.Outcome State Fault Refusal :=
  match i with
  | .mpass p w x => Sys2Proof.Machine.execMpass p w x s
  | .mpassEntry p e => Sys2Proof.Machine.execMpassEntry p s e
  | .mdrain p w x => Sys2Proof.Machine.execMdrain p w x s
  | .drainStart p => Sys2Proof.Machine.execDrainStart p s
  | .drainEnd p upset e => Sys2Proof.Machine.execDrainEnd p upset s e
  | .vectorStart p e => Sys2Proof.Machine.execVectorStart p s e
  | .add p w x => Sys2Proof.Machine.execAdd p w x s
  | .sub p w x => Sys2Proof.Machine.execSub p w x s
  | .mul p w x => Sys2Proof.Machine.execMul p w x s
  | .fma p w x => Sys2Proof.Machine.execFma p w x s
  | .minV p w x => Sys2Proof.Machine.execMinV p w x s
  | .maxV p w x => Sys2Proof.Machine.execMaxV p w x s
  | .absV p w x => Sys2Proof.Machine.execAbsV p w x s
  | .negV p w x => Sys2Proof.Machine.execNegV p w x s
  | .cmpEq p w x => Sys2Proof.Machine.execCmpEq p w x s
  | .cmpNe p w x => Sys2Proof.Machine.execCmpNe p w x s
  | .cmpLt p w x => Sys2Proof.Machine.execCmpLt p w x s
  | .cmpLe p w x => Sys2Proof.Machine.execCmpLe p w x s
  | .sel p w x => Sys2Proof.Machine.execSel p w x s
  | .cvt p w x => Sys2Proof.Machine.execCvt p w x s
  | .recip p w x => Sys2Proof.Machine.execRecip p w x s
  | .rsqrt p w x => Sys2Proof.Machine.execRsqrt p w x s
  | .exp2 p w x => Sys2Proof.Machine.execExp2 p w x s
  | .log2 p w x => Sys2Proof.Machine.execLog2 p w x s
  | .sin p w x => Sys2Proof.Machine.execSin p w x s
  | .cos p w x => Sys2Proof.Machine.execCos p w x s
  | .act p w x => Sys2Proof.Machine.execAct p w x s
  | .dact p w x => Sys2Proof.Machine.execDact p w x s
  | .smbwd p w x => Sys2Proof.Machine.execSmbwd p w x s
  | .vredSum p w => Sys2Proof.Machine.execVredSum p w s
  | .vredSumsq p w => Sys2Proof.Machine.execVredSumsq p w s
  | .vredSumprod p w => Sys2Proof.Machine.execVredSumprod p w s
  | .vredMax p w => Sys2Proof.Machine.execVredMax p w s
  | .vredMin p w => Sys2Proof.Machine.execVredMin p w s
  | .vredAmax p w => Sys2Proof.Machine.execVredAmax p w s
  | .vcomp p w => Sys2Proof.Machine.execVcomp p w s
  | .vexpd p w => Sys2Proof.Machine.execVexpd p w s
  | .vpermBlock p w => Sys2Proof.Machine.execVpermBlock p w s
  | .vpermGather p w => Sys2Proof.Machine.execVpermGather p w s
  | .vpermScatter p w => Sys2Proof.Machine.execVpermScatter p w s
  | .vpack p w => Sys2Proof.Machine.execVpack p w s
  | .vunpk p w => Sys2Proof.Machine.execVunpk p w s
  | .load p w => Sys2Proof.Machine.execLoad p w s
  | .store p w => Sys2Proof.Machine.execStore p w s
  | .send p w => Sys2Proof.Machine.execSend p w s
  | .openWin p w => Sys2Proof.Machine.execOpenWin p w s
  | .sendArrive p k e g => Sys2Proof.Machine.execSendArrive p k s e g
  | .moveComplete p k e m => Sys2Proof.Machine.execMoveComplete p k s e m
  | .waitTag p w => Sys2Proof.Machine.execWaitTag p w s
  | .waitPeal p w => Sys2Proof.Machine.execWaitPeal p w s
  | .waitGang p w => Sys2Proof.Machine.execWaitGang p w s
  | .waitEngines p w => Sys2Proof.Machine.execWaitEngines p w s
  | .waitEnd p => Sys2Proof.Machine.execWaitEnd p s
  | .signal p w => Sys2Proof.Machine.execSignal p w s
  | .desc p w e => Sys2Proof.Machine.execDesc p w s e
  | .loop p w => Sys2Proof.Machine.execLoop p w s
  | .br p w => Sys2Proof.Machine.execBr p w s
  | .call p w => Sys2Proof.Machine.execCall p w s
  | .ret p w => Sys2Proof.Machine.execRet p w s
  | .sadd p w => Sys2Proof.Machine.execSadd p w s
  | .ssub p w => Sys2Proof.Machine.execSsub p w s
  | .smul p w => Sys2Proof.Machine.execSmul p w s
  | .sand p w => Sys2Proof.Machine.execSand p w s
  | .sor p w => Sys2Proof.Machine.execSor p w s
  | .sshl p w => Sys2Proof.Machine.execSshl p w s
  | .sshr p w => Sys2Proof.Machine.execSshr p w s
  | .sliImm p w => Sys2Proof.Machine.execSliImm p w s
  | .sliExt p w x => Sys2Proof.Machine.execSliExt p w x s
  | .sliLoad p w e => Sys2Proof.Machine.execSliLoad p w s e
  | .sliStore p w => Sys2Proof.Machine.execSliStore p w s
  | .icacheFill p m => Sys2Proof.Machine.execIcacheFill p s m
  | .slotEnd p => Sys2Proof.Machine.execSlotEnd p s
  | .reduceScatter p w => Sys2Proof.Machine.execReduceScatter p w s
  | .allGather p w => Sys2Proof.Machine.execAllGather p w s
  | .allReduce p w => Sys2Proof.Machine.execAllReduce p w s
  | .allToAll p w => Sys2Proof.Machine.execAllToAll p w s
  | .broadcast p w => Sys2Proof.Machine.execBroadcast p w s
  | .put p w => Sys2Proof.Machine.execPut p w s
  | .get p w => Sys2Proof.Machine.execGet p w s
  | .mirrorPut p w => Sys2Proof.Machine.execMirrorPut p w s
  | .permute p w => Sys2Proof.Machine.execPermute p w s
  | .hostRead p w => Sys2Proof.Machine.execHostRead p w s
  | .hostWrite p w => Sys2Proof.Machine.execHostWrite p w s
  | .publish p w => Sys2Proof.Machine.execPublish p w s
  | .claim p w => Sys2Proof.Machine.execClaim p w s
  | .stepEnd p w => Sys2Proof.Machine.execStepEnd p w s
  | .pealComplete opid group hostData => Sys2Proof.Machine.execPealComplete opid group hostData s
  | .doorbell fn c off v ide => Sys2Proof.Machine.execDoorbell fn c off v s ide
  | .semAdd fn c v ide => Sys2Proof.Machine.execSemAdd fn c v s ide
  | .commandFetch c q hostData m => Sys2Proof.Machine.execCommandFetch c q hostData s m
  | .refetchTimer c q hostData m => Sys2Proof.Machine.execRefetchTimer c q hostData s m
  | .run c q => Sys2Proof.Machine.execRun c q s
  | .mark c q => Sys2Proof.Machine.execMark c q s
  | .commit c q => Sys2Proof.Machine.execCommit c q s
  | .sliceClose uid => Sys2Proof.Machine.execSliceClose uid s
  | .killComplete uid => Sys2Proof.Machine.execKillComplete uid s
  | .rerun uid => Sys2Proof.Machine.execRerun uid s
  | .overrun uid => Sys2Proof.Machine.execOverrun uid s
  | .contextTeardown c => Sys2Proof.Machine.execContextTeardown c s
  | .teardownEnd c => Sys2Proof.Machine.execTeardownEnd c s
  | .tollPrompt p => Sys2Proof.Machine.execTollPrompt p s
  | .toll p => Sys2Proof.Machine.execToll p s
  | .tollCheck q u => Sys2Proof.Machine.execTollCheck q u s
  | .missedTolls p => Sys2Proof.Machine.execMissedTolls p s
  | .stallWatchdog p since => Sys2Proof.Machine.execStallWatchdog p since s
  | .choke p cause drops => Sys2Proof.Machine.execChoke p cause s drops
  | .coreChoke pr v drops => Sys2Proof.Machine.execCoreChoke pr v s drops
  | .coreReadmit pr v => Sys2Proof.Machine.execCoreReadmit pr v s
  | .create pr => Sys2Proof.Machine.execCreate pr s
  | .stop pr => Sys2Proof.Machine.execStop pr s
  | .ctxResume pr => Sys2Proof.Machine.execCtxResume pr s
  | .ctxReset pr => Sys2Proof.Machine.execCtxReset pr s
  | .destroy pr => Sys2Proof.Machine.execDestroy pr s
  | .partReset pr n v => Sys2Proof.Machine.execPartReset pr n v s
  | .assign pr v => Sys2Proof.Machine.execAssign pr v s
  | .release pr v => Sys2Proof.Machine.execRelease pr v s
  | .setWbias pr v => Sys2Proof.Machine.execSetWbias pr v s
  | .setChx pr v => Sys2Proof.Machine.execSetChx pr v s
  | .slabWipeStart q => Sys2Proof.Machine.execSlabWipeStart q s
  | .slabWipeEnd q => Sys2Proof.Machine.execSlabWipeEnd q s
  | .patrolScrub q e => Sys2Proof.Machine.execPatrolScrub q e s
  | .hbmTest pr st v => Sys2Proof.Machine.execHbmTest pr st v s
  | .hbmTestEnd st rows => Sys2Proof.Machine.execHbmTestEnd st rows s
  | .mqPacketWrite qid words a => Sys2Proof.Machine.execMqPacketWrite qid words a s
  | .mqPacketRead qid n u => Sys2Proof.Machine.execMqPacketRead qid n u s
  | .mqFlush pr qid v => Sys2Proof.Machine.execMqFlush pr qid v s
  | .flushEffect qid => Sys2Proof.Machine.execFlushEffect qid s
  | .deliverPacket qid u => Sys2Proof.Machine.execDeliverPacket qid s u
  | .ringConsumerWrite fn ring v ide => Sys2Proof.Machine.execRingConsumerWrite fn ring v s ide
  | .ringRestart pr ring setBase v => Sys2Proof.Machine.execRingRestart pr ring setBase v s
  | .windowRead fn off len m ide => Sys2Proof.Machine.execWindowRead fn off len s m ide
  | .windowWrite fn off data m ide => Sys2Proof.Machine.execWindowWrite fn off data s m ide
  | .hpatRead fn off ide => Sys2Proof.Machine.execHpatRead fn off s ide
  | .atomicopRequest fn bar => Sys2Proof.Machine.execAtomicopRequest fn bar s
  | .msixUnmask fn w ide => Sys2Proof.Machine.execMsixUnmask fn w s ide
  | .linkTraining gen width => Sys2Proof.Machine.execLinkTraining gen width s
  | .perstN => Sys2Proof.Machine.execPerstN s
  | .hotReset => Sys2Proof.Machine.execHotReset s
  | .vfFlr n ide => Sys2Proof.Machine.execVfFlr n s ide
  | .hostWaitLimit uid => Sys2Proof.Machine.execHostWaitLimit uid s
  | .reattachKeep pr target cred => Sys2Proof.Machine.execReattachKeep pr target cred s
  | .reattachDivert pr target cred => Sys2Proof.Machine.execReattachDivert pr target cred s
  | .mailboxGo fn off a ide => Sys2Proof.Machine.execMailboxGo fn off a s ide
  | .frameReceive port f fec reply => Sys2Proof.Machine.execFrameReceive port f s fec reply
  | .pfcFrame port classes quanta => Sys2Proof.Machine.execPfcFrame port classes quanta s
  | .pauseExpire port tc => Sys2Proof.Machine.execPauseExpire port tc s
  | .pfcRepeat port tc => Sys2Proof.Machine.execPfcRepeat port tc s
  | .pauseLimit port tc => Sys2Proof.Machine.execPauseLimit port tc s
  | .pauseRecovery port tc => Sys2Proof.Machine.execPauseRecovery port tc s
  | .frameTransmit port tc => Sys2Proof.Machine.execFrameTransmit port tc s
  | .gateEntry port => Sys2Proof.Machine.execGateEntry port s
  | .gateCommit pr port v => Sys2Proof.Machine.execGateCommit pr port v s
  | .gateChange port => Sys2Proof.Machine.execGateChange port s
  | .portTimer pr port v => Sys2Proof.Machine.execPortTimer pr port v s
  | .portLanes pr port v => Sys2Proof.Machine.execPortLanes pr port v s
  | .portMedia pr port v => Sys2Proof.Machine.execPortMedia pr port v s
  | .portAn pr port v => Sys2Proof.Machine.execPortAn pr port v s
  | .linkChange port st fast => Sys2Proof.Machine.execLinkChange port st fast s
  | .trainingRetry port => Sys2Proof.Machine.execTrainingRetry port s
  | .gerilData k => Sys2Proof.Machine.execGerilData k s
  | .gerilAck k => Sys2Proof.Machine.execGerilAck k s
  | .ackTimer rank stream => Sys2Proof.Machine.execAckTimer rank stream s
  | .rtoExpiry rank stream seq => Sys2Proof.Machine.execRtoExpiry rank stream seq s
  | .hello k => Sys2Proof.Machine.execHello k s
  | .helloAck k => Sys2Proof.Machine.execHelloAck k s
  | .fenced k => Sys2Proof.Machine.execFenced k s
  | .announce k => Sys2Proof.Machine.execAnnounce k s
  | .resume k => Sys2Proof.Machine.execResume k s
  | .stepEndReceive k => Sys2Proof.Machine.execStepEndReceive k s
  | .commitNotice k => Sys2Proof.Machine.execCommitNotice k s
  | .abortPeer k => Sys2Proof.Machine.execAbortPeer k s
  | .close k => Sys2Proof.Machine.execClose k s
  | .carillonEn pr v => Sys2Proof.Machine.execCarillonEn pr v s
  | .takeover pr r => Sys2Proof.Machine.execTakeover pr r s
  | .takeoverLimit => Sys2Proof.Machine.execTakeoverLimit s
  | .carillonRejoin pr r => Sys2Proof.Machine.execCarillonRejoin pr r s
  | .devTollSend => Sys2Proof.Machine.execDevTollSend s
  | .deviceToll m => Sys2Proof.Machine.execDeviceToll m s
  | .peerSilent r => Sys2Proof.Machine.execPeerSilent r s
  | .capLoop m => Sys2Proof.Machine.execCapLoop m s
  | .fastLoop q mA => Sys2Proof.Machine.execFastLoop q mA s
  | .peakHoldEnd q => Sys2Proof.Machine.execPeakHoldEnd q s
  | .thermalShutdown => Sys2Proof.Machine.execThermalShutdown s
  | .telemetryLost imon => Sys2Proof.Machine.execTelemetryLost imon s
  | .telemetryRestored => Sys2Proof.Machine.execTelemetryRestored s
  | .capSet pr v => Sys2Proof.Machine.execCapSet pr v s
  | .lendPeriod => Sys2Proof.Machine.execLendPeriod s
  | .grant m => Sys2Proof.Machine.execGrant m s
  | .answer m => Sys2Proof.Machine.execAnswer m s
  | .recall m => Sys2Proof.Machine.execRecall m s
  | .returnLoan m => Sys2Proof.Machine.execReturnLoan m s
  | .leaseClose rank loan => Sys2Proof.Machine.execLeaseClose rank loan s
  | .loanLapse loan => Sys2Proof.Machine.execLoanLapse loan s
  | .lcToProvisioned pr token => Sys2Proof.Machine.execLcToProvisioned pr token s
  | .lcToOperational pr token => Sys2Proof.Machine.execLcToOperational pr token s
  | .lcToReturned pr token => Sys2Proof.Machine.execLcToReturned pr token s
  | .lcToScrapped pr token => Sys2Proof.Machine.execLcToScrapped pr token s
  | .lcWipeEnd => Sys2Proof.Machine.execLcWipeEnd s
  | .partConf pr n v => Sys2Proof.Machine.execPartConf pr n v s
  | .debugEn pr v => Sys2Proof.Machine.execDebugEn pr v s
  | .measure pr n data => Sys2Proof.Machine.execMeasure pr n data s
  | .attRequest pr data => Sys2Proof.Machine.execAttRequest pr data s
  | .ckeyInstall pr data => Sys2Proof.Machine.execCkeyInstall pr data s
  | .ckeyClear pr v => Sys2Proof.Machine.execCkeyClear pr v s
  | .pkgLoad pr n data => Sys2Proof.Machine.execPkgLoad pr n data s
  | .pkgLoadEnd => Sys2Proof.Machine.execPkgLoadEnd s
  | .ideKm stream o => Sys2Proof.Machine.execIdeKm stream o s
  | .voxyxRead ch m env => Sys2Proof.Machine.execVoxyxRead ch m s env
  | .voxyxWrite ch m env => Sys2Proof.Machine.execVoxyxWrite ch m s env
  | .voxyxInfo ch m env => Sys2Proof.Machine.execVoxyxInfo ch m s env
  | .voxyxCancel ch m env => Sys2Proof.Machine.execVoxyxCancel ch m s env
  | .snapshotLapse ch => Sys2Proof.Machine.execSnapshotLapse ch s
  | .setEndpointId binding eid => Sys2Proof.Machine.execSetEndpointId binding eid s
  | .getEndpointId binding => Sys2Proof.Machine.execGetEndpointId binding s
  | .getMctpVersionSupport binding => Sys2Proof.Machine.execGetMctpVersionSupport binding s
  | .getMessageTypeSupport binding => Sys2Proof.Machine.execGetMessageTypeSupport binding s
  | .getVendorMessageSupport binding => Sys2Proof.Machine.execGetVendorMessageSupport binding s
  | .dynamicAddressAssign addr => Sys2Proof.Machine.execDynamicAddressAssign addr s
  | .rstdaa => Sys2Proof.Machine.execRstdaa s
  | .fwImage ch m env => Sys2Proof.Machine.execFwImage ch m s env
  | .fwConfirm pr v => Sys2Proof.Machine.execFwConfirm pr v s
  | .fwRecovery ch m env => Sys2Proof.Machine.execFwRecovery ch m s env
  | .trialWindowClose => Sys2Proof.Machine.execTrialWindowClose s
  | .cpWatchdog => Sys2Proof.Machine.execCpWatchdog s
  | .cpRestart cause => Sys2Proof.Machine.execCpRestart cause s
  | .cpRestartEnd => Sys2Proof.Machine.execCpRestartEnd s
  | .bistCore pr v => Sys2Proof.Machine.execBistCore pr v s
  | .bistQuadrant pr v => Sys2Proof.Machine.execBistQuadrant pr v s
  | .bistHub pr v => Sys2Proof.Machine.execBistHub pr v s
  | .bistDevice pr v => Sys2Proof.Machine.execBistDevice pr v s
  | .coreBistEnd p r => Sys2Proof.Machine.execCoreBistEnd p r s
  | .maintBistEnd r rows => Sys2Proof.Machine.execMaintBistEnd r rows s
  | .bypass => Sys2Proof.Machine.execBypass s
  | .idcode => Sys2Proof.Machine.execIdcode s
  | .samplePreload b pins => Sys2Proof.Machine.execSamplePreload s b pins
  | .extest scan => Sys2Proof.Machine.execExtest s scan
  | .clamp => Sys2Proof.Machine.execClamp s
  | .highz => Sys2Proof.Machine.execHighz s
  | .extestPulse scan => Sys2Proof.Machine.execExtestPulse s scan
  | .extestTrain scan => Sys2Proof.Machine.execExtestTrain s scan
  | .hbm1500 st => Sys2Proof.Machine.execHbm1500 st s
  | .debugInstruction => Sys2Proof.Machine.execDebugInstruction s
  | .tapReset => Sys2Proof.Machine.execTapReset s
  | .deviceReset power maddr => Sys2Proof.Machine.execDeviceReset s power maddr
  | .pwrgdLow cut => Sys2Proof.Machine.execPwrgdLow s cut
  | .imageStart => Sys2Proof.Machine.execImageStart s
  | .hbmTrainingEnd failed rows slabs => Sys2Proof.Machine.execHbmTrainingEnd failed rows slabs s
  | .dictReady => Sys2Proof.Machine.execDictReady s
  | .linkFault ring => Sys2Proof.Machine.execLinkFault ring s
  | .refclkHLoss => Sys2Proof.Machine.execRefclkHLoss s
  | .refclkELoss => Sys2Proof.Machine.execRefclkELoss s
  | .devrstNLow => Sys2Proof.Machine.execDevrstNLow s
  | .lastElementWritten p e => Sys2Proof.Machine.execLastElementWritten p s e
  | .lastWavefrontLeft p => Sys2Proof.Machine.execLastWavefrontLeft p s
  | .windowControlWrite fn v ide => Sys2Proof.Machine.execWindowControlWrite fn v s ide
  | .pageAttributeWrite fn e v ide => Sys2Proof.Machine.execPageAttributeWrite fn e v s ide
  | .configurationRequest fn c ide => Sys2Proof.Machine.execConfigurationRequest fn c s ide
  | .spdmRequest msg => Sys2Proof.Machine.execSpdmRequest msg s

end Sys2Proof.Machine
end

