-- ==== Sys2Proof/Machine/Tick.lean ====
section
/-! DEFINITION. The passage of time: one tick of 10 ns of the hub timer, which step takes on an empty queue (log
entry 1). -/

namespace Sys2Proof.Machine

/-- R40: the nanoseconds of one tick. -/
def tickNs : Nat := 10

/-- The steps that a quadrant takes in one tick (R32, log entry 27). -/
def State.stepsPerTick (s : State) (q : Nat) : Rat := s.paceNow q * (tickNs : Rat)

/-- R99, R119: h steps pass on a core: its array idles unless a pass is in it, and a running core's steps, and
those that it spends in WAIT on a PEAL, are counted for its next toll. -/
def Core.pass (c : Core) (h : Rat) : Core :=
  let e := if c.eng.inArray.isEmpty then { c.eng with idle := min 1024 (c.eng.idle + h) } else c.eng
  let onPeal := match c.seq.wait with
    | some (.peal _) => true
    | _ => false
  let t := if c.run.isSome then
    { c.toll with steps := c.toll.steps + h, waitSteps := c.toll.waitSteps + if onPeal then h else 0 } else c.toll
  { c with eng := e, toll := t }

/-- The cores that the table lists take their steps; an unlisted core is at reset, where none are counted. -/
def State.tickCores (s : State) : State :=
  (s.cores.map Prod.fst).foldl (fun s p => s.modCore p fun c => c.pass (s.stepsPerTick (quadOf p))) s

/-- R256: a best-effort context with an issuable head and no core starves. -/
def State.starves (s : State) (c : Nat) : Bool :=
  (s.ctx c).bestEffort && s.hasIssuable c && !(s.cores.any fun e => match e.2.run with
    | some r => (match s.cmd r.uid with | some i => i.ctx == c | none => false)
    | none => false)

/-- CTX_STARVE counts. -/
def State.tickCtxs (s : State) : State :=
  (s.disp.ctxs.map Prod.fst).foldl (fun s c =>
    if s.starves c then s.setCtx c { s.ctx c with starve := satAdd 64 (s.ctx c).starve tickNs } else s) s

/-- R40, R262, R304: port k's timer advances, classes that it bars have no credit, and its receive shares drain. -/
def State.tickPort (s : State) (k : Nat) : State :=
  let p := s.port k
  let (p, ended) := ({ p with timer := (p.timer + tickNs) % 2 ^ 64, ticks := p.ticks + tickNs } : Port).dropIdle.drain
  ended.foldl (fun s t => s.sendPfc k t 0) (s.setPort k p)

def State.tickPorts (s : State) : State := (List.range 8).foldl State.tickPort s

/-- R40: the rail window timers advance, modulo 2^64 (DESIGN CHOICE, log entry 3). -/
def Damper.tickRails (d : Damper) : Damper :=
  (List.range 4).foldl (fun d q => d.setFast q { d.fastOf q with timer := ((d.fastOf q).timer + tickNs) % 2 ^ 64 }) d

/-- R40, R407: the damper's timers; THROTTLE_TIME counts while THROTTLE is not zero. -/
def State.tickDamper (s : State) : State :=
  let s := { s with damper := s.damper.tickRails }
  if s.damper.throttle = 0 then s
  else { s with damper := { s.damper with throttleNs := satAdd 64 s.damper.throttleNs tickNs } }

/-- The hub timer and what it counts; it runs from REFCLK_H. -/
def State.tickHub (s : State) : State :=
  ((({ s with hub := { s.hub with timer := (s.hub.timer + tickNs) % 2 ^ 64 } }).tickCores).tickCtxs).tickDamper

/-- 10 ns pass. No timer runs while the device is in reset, and none whose reference clock is lost (R40, R487); then the peal engine and
the waiting MEASUREs go on as far as they can (R319, R333, R419), and the dictionary engine takes up the requests that wait (R444). Heads that time has barred have no credit (R262). -/
def tick (s : State) : State :=
  if !s.alive then s
  else
    let s := if s.hub.refclkH then s.tickHub else s
    let s := if s.hub.refclkE then s.tickPorts else s
    (s.serveCpqs.payTeardowns).pump.runMeasures.settleWaits.dropIdle

end Sys2Proof.Machine
end

