-- ==== Sys2Proof/Certificates/Slice0/Obligations.lean ====
section
/-! DEFINITION. The statements about the model, for the provers. The words they share stand first, in `Sys2Proof.Claims`. -/

namespace Sys2Proof.Claims

open Sys2Proof Sys2Proof.Machine

/-! ### What an issued instruction leaves -/

/-- Core p can issue, and its instruction cache holds the lines of the next n words. -/
abbrev Ready (s : State) (p : Fin 68) (n : Nat) : Prop := s.canIssue p = true ∧ (s.core p).seq.missing n = none

/-- Core p has issued an instruction of n words that leaves it as c', the program counter behind the words. -/
def issued (s : State) (p : Fin 68) (n : Nat) (c' : Core) : State := s.setCore p (c'.retire n ((s.core p).seq.pc + w64 (8 * n)))

/-- Core p has issued a one-word instruction that leaves it as c' and branches to pc. -/
def jumped (s : State) (p : Fin 68) (c' : Core) (pc : W64) : State := s.setCore p (c'.retire 1 pc)

/-- Core p's command ends with BAD_COMMAND. -/
def rejected (s : State) (p : Fin 68) : State := s.faultCore p stBAD_COMMAND

/-- Issue on core p stalls. -/
def stalls (s : State) (p : Fin 68) : State := s.setCore p { s.core p with seq := { (s.core p).seq with stalled := true } }

end Sys2Proof.Claims

open Sys2Proof Sys2Proof.Machine Sys2Proof.Claims

/-! ### The scalar instructions (R192 to R194) -/

namespace Sys2Proof.Claims

open Sys2Proof Sys2Proof.Machine

/-- R193: the fields of a scalar ALU word with major opcode `code`; SPA and WFL where `logic`, ARITH where `shift` allows it. -/
abbrev AluShape (code : Nat) (logic shift : Bool) (w : W64) : Prop :=
  opOk code w false = true ∧ zeroBits w 37 32 = true ∧ (logic = false → bitN w 40 = false ∧ bitN w 39 = false) ∧
    (shift = false → bitN w 38 = false)

/-- R193: the operands a and b. -/
def aluA (q : Seq) (w : W64) : W64 := if bitN w 40 then q.flagsWord else q.reg (reg5 w 47)
def aluB (q : Seq) (w : W64) : W64 := if bitN w 41 then BitVec.ofInt 64 (sfld w 31 0) else q.reg (reg5 w 42)

/-- R77: no unfinished instruction writes a register that the word names as in use. -/
abbrev AluFree (q : Seq) (w : W64) : Prop :=
  q.anyBusy ([reg5 w 52] ++ (if bitN w 40 then [] else [reg5 w 47]) ++ (if bitN w 41 then [] else [reg5 w 42])) = false

/-- R193, R195: SD takes r, and under WFL a W1C write of r clears flags. -/
def aluDone (q : Seq) (w r : W64) : Seq :=
  if bitN w 39 then (q.setReg (reg5 w 52) r).clearFlags r else q.setReg (reg5 w 52) r

/-- R194: the scratchpad address of FORMs 2 and 3. -/
def sliAddr (q : Seq) (w : W64) : Nat := (q.reg (reg5 w 47) + BitVec.ofInt 64 (sfld w 31 0)).toNat

/-- R191: the target that OFF names. -/
def target (q : Seq) (w : W64) : W64 := q.pc + BitVec.ofInt 64 (8 * sfld w 23 0)

/-- R192: the condition of a BR. -/
abbrev Taken (w a b : W64) : Prop :=
  fld w 56 54 = 0 ∨ (fld w 56 54 = 1 ∧ a = b) ∨ (fld w 56 54 = 2 ∧ a ≠ b) ∨ (fld w 56 54 = 3 ∧ a.toNat < b.toNat) ∨
    (fld w 56 54 = 4 ∧ b.toNat ≤ a.toNat) ∨ (fld w 56 54 = 5 ∧ a.toInt < b.toInt) ∨ (fld w 56 54 = 6 ∧ b.toInt ≤ a.toInt)

end Sys2Proof.Claims

/-- R193: each of the seven instructions writes the result of its row modulo 2^64 to SD, under WFL clears flags by it, and moves on;
a reserved bit, and SPA, WFL or ARITH on an instruction that does not allow it, end the command with BAD_COMMAND. -/
def Obligations.ScalarAluWritesItsResult : Prop :=
  ∀ (s : State) (p : Fin 68) (w : W64), Ready s p 1 →
    let q := (s.core p).seq
    let a := aluA q w
    let b := aluB q w
    let done (r : W64) : Out := .next (issued s p 1 { s.core p with seq := aluDone q w r })
    (AluFree q w →
      (AluShape 0x18 false false w → exec (.sadd p w) s = done (a + b)) ∧
      (AluShape 0x19 false false w → exec (.ssub p w) s = done (a - b)) ∧
      (AluShape 0x1A false false w → exec (.smul p w) s = done (a * b)) ∧
      (AluShape 0x1B true false w → exec (.sand p w) s = done (a &&& b)) ∧
      (AluShape 0x1C true false w → exec (.sor p w) s = done (a ||| b)) ∧
      (AluShape 0x1D false false w → exec (.sshl p w) s = done (a <<< (b.toNat % 64))) ∧
      (AluShape 0x1E false true w →
        exec (.sshr p w) s = done (if bitN w 38 then a.sshiftRight (b.toNat % 64) else a >>> (b.toNat % 64)))) ∧
    (opOk 0x18 w false = true → ¬ AluShape 0x18 false false w → exec (.sadd p w) s = .next (rejected s p)) ∧
    (opOk 0x19 w false = true → ¬ AluShape 0x19 false false w → exec (.ssub p w) s = .next (rejected s p)) ∧
    (opOk 0x1A w false = true → ¬ AluShape 0x1A false false w → exec (.smul p w) s = .next (rejected s p)) ∧
    (opOk 0x1B w false = true → ¬ AluShape 0x1B true false w → exec (.sand p w) s = .next (rejected s p)) ∧
    (opOk 0x1C w false = true → ¬ AluShape 0x1C true false w → exec (.sor p w) s = .next (rejected s p)) ∧
    (opOk 0x1D w false = true → ¬ AluShape 0x1D false false w → exec (.sshl p w) s = .next (rejected s p)) ∧
    (opOk 0x1E w false = true → ¬ AluShape 0x1E false true w → exec (.sshr p w) s = .next (rejected s p))

/-- R194, R88, R89: what each FORM of SLI moves where no unfinished instruction writes its registers and no scoreboard interval stands in
the way, and the stall where one does; a load's read meets the errors that the code finds in its word; an address of FORM 2 or 3 that is
misaligned or outside the scratchpad is BAD_COMMAND. -/
def Sys2Proof.Claims.SliMovesWhatItsFormSays : Prop :=
  ∀ (s : State) (p : Fin 68) (w x : W64) (e : List EccHit),
    let c := s.core p
    let q := c.seq
    let a := sliAddr q w
    let entry (st : Bool) : SbEntry := { owner := q.nextId, lo := a, hi := a + 8, write := st }
    zeroBits w 44 32 = true →
    (Ready s p 1 → opOk 0x1F w false = true → fld w 46 45 = 0 → q.anyBusy [reg5 w 52] = false →
      exec (.sliImm p w) s = .next (issued s p 1 { c with seq := q.setReg (reg5 w 52) (BitVec.ofInt 64 (sfld w 31 0)) })) ∧
    (Ready s p 2 → opOk 0x1F w true = true → fld w 46 45 = 1 → q.anyBusy [reg5 w 52] = false →
      exec (.sliExt p w x) s = .next (issued s p 2 { c with seq := q.setReg (reg5 w 52) x })) ∧
    (Ready s p 1 → opOk 0x1F w false = true → fld w 46 45 = 2 → q.anyBusy [reg5 w 52, reg5 w 47] = false →
      a % 8 = 0 → a + 8 ≤ 33554432 →
      sbStalls c.eng.score [entry false] = false →
      exec (.sliLoad p w e) s = .next (issued s p 1
        { c.scratchErrs s.now [(a, a + 8)] e with seq := q.setReg (reg5 w 52) (w64 (leNat (c.sp.read a 8))) })) ∧
    (Ready s p 1 → opOk 0x1F w false = true → fld w 46 45 = 3 → q.anyBusy [reg5 w 52, reg5 w 47] = false →
      a % 8 = 0 → a + 8 ≤ 33554432 →
      sbStalls c.eng.score [entry true] = false →
      exec (.sliStore p w) s = .next (issued s p 1 { c with sp := c.sp.write a (leBytes 8 (q.reg (reg5 w 52)).toNat) })) ∧
    (Ready s p 1 → opOk 0x1F w false = true → q.anyBusy [reg5 w 52, reg5 w 47] = false → a % 8 = 0 → a + 8 ≤ 33554432 →
      (fld w 46 45 = 2 → sbStalls c.eng.score [entry false] = true → exec (.sliLoad p w e) s = .next (stalls s p)) ∧
      (fld w 46 45 = 3 → sbStalls c.eng.score [entry true] = true → exec (.sliStore p w) s = .next (stalls s p))) ∧
    (Ready s p 1 → opOk 0x1F w false = true → q.anyBusy [reg5 w 52, reg5 w 47] = false → a % 8 ≠ 0 ∨ 33554432 < a + 8 →
      (fld w 46 45 = 2 → exec (.sliLoad p w e) s = .next (rejected s p)) ∧
      (fld w 46 45 = 3 → exec (.sliStore p w) s = .next (rejected s p)))

/-- R189: by the model's choice (log entry 59) the sum SA + 32 × OFF of a DESC does not wrap modulo 2^64: one beyond it is BAD_COMMAND. -/
def Sys2Proof.Claims.DescSumsDoNotWrap : Prop :=
  ∀ (s : State) (p : Fin 68) (w : W64) (h : List EccHit), Ready s p 1 →
    let q := (s.core p).seq
    opOk 0x12 w false = true → zeroBits w 22 20 = true → fld w 40 37 < 11 → fld w 31 28 < 11 → bitN w 51 = false →
    (∀ r ∈ [reg5 w 46] ++ (if fld w 40 37 = 0 then [] else [reg5 w 32]) ++ (if fld w 31 28 = 0 then [] else [reg5 w 23]), q.anyBusy [r] = false) →
    2 ^ 64 ≤ (q.reg (reg5 w 46)).toNat + 32 * fld w 19 0 → exec (.desc p w h) s = .next (rejected s p)

/-- R194, R88, R89: what each FORM of SLI moves where no unfinished instruction writes its registers and no scoreboard interval stands in
the way, and the stall where one does; a load's read meets the errors that the code finds in its word; an address of FORM 2 or 3 that is
misaligned or outside the scratchpad is BAD_COMMAND. R189: by the model's choice (log entry 59) the sum SA + 32 × OFF of a DESC does not
wrap modulo 2^64: one beyond it is BAD_COMMAND. Where the spec leaves a point open, the statement takes the choice of the model (log entry
59). -/
def Obligations.SliMovesByItsForm : Prop := SliMovesWhatItsFormSays ∧ DescSumsDoNotWrap


/-- R191, R192, R97: LOOP, BR, CALL and RET: the count, the condition, the pushed address, and where issue goes on; RET on an empty stack
ends the program. A register target that is misaligned and a push onto a full stack are BAD_COMMAND. Where the spec leaves a point open,
the statement takes the choice of the model (log entry 37). -/
def Obligations.ControlFlowGoesToItsTarget : Prop :=
  ∀ (s : State) (p : Fin 68) (w : W64), Ready s p 1 →
    let c := s.core p
    let q := c.seq
    (opOk 0x14 w false = true → zeroBits w 51 24 = true → q.anyBusy [reg5 w 52] = false →
      let v := q.reg (reg5 w 52) - 1
      let c' := { c with seq := q.setReg (reg5 w 52) v }
      (v ≠ 0 → exec (.loop p w) s = .next (jumped s p c' (target q w))) ∧
      (v = 0 → exec (.loop p w) s = .next (issued s p 1 c'))) ∧
    (opOk 0x15 w false = true → zeroBits w 43 24 = true → fld w 56 54 ≠ 7 → q.anyBusy [reg5 w 49, reg5 w 44] = false →
      (Taken w (q.reg (reg5 w 49)) (q.reg (reg5 w 44)) → exec (.br p w) s = .next (jumped s p c (target q w))) ∧
      (¬ Taken w (q.reg (reg5 w 49)) (q.reg (reg5 w 44)) → exec (.br p w) s = .next (issued s p 1 c))) ∧
    (opOk 0x16 w false = true → zeroBits w 50 24 = true → q.anyBusy [reg5 w 51] = false →
      let to_ := if bitN w 56 then q.reg (reg5 w 51) else target q w
      (to_.toNat % 8 = 0 → q.ret.length < 16 →
        exec (.call p w) s = .next (jumped s p { c with seq := { q with ret := (q.pc + 8) :: q.ret } } to_)) ∧
      (to_.toNat % 8 ≠ 0 ∨ 16 ≤ q.ret.length → exec (.call p w) s = .next (rejected s p))) ∧
    (opOk 0x17 w false = true → zeroBits w 56 0 = true →
      (∀ a r, q.ret = a :: r → exec (.ret p w) s = .next (jumped s p { c with seq := { q with ret := r } } a)) ∧
      (q.ret = [] → exec (.ret p w) s = .next (issued s p 1 { c with seq := { q with ending := true } })))

/-- R185 to R187: a WAIT holds issue for its condition and ends when the condition holds; a SIGNAL adds to its gang semaphore,
under FENCE once no earlier move but an open window is incomplete, and beyond 2^32 − 1 ends the command. -/
def Obligations.WaitHoldsAndSignalAdds : Prop :=
  ∀ (s : State) (p : Fin 68) (w : W64),
    let c := s.core p
    let q := c.seq
    let waiting (k : WaitFor) : Out := .next (issued s p 1 { c with seq := { q with wait := some k } })
    (Ready s p 1 → opOk 0x10 w false = true → zeroBits w 34 0 = true →
      (fld w 56 54 = 0 → exec (.waitTag p w) s = waiting (.tag (fld w 53 50))) ∧
      (fld w 56 54 = 1 → exec (.waitPeal p w) s = waiting (.peal (fld w 49 47))) ∧
      (fld w 56 54 = 2 → q.anyBusy [reg5 w 38] = false →
        exec (.waitGang p w) s = waiting (.gang (fld w 46 43) ((q.reg (reg5 w 38)).toNat % 2 ^ 32))) ∧
      (fld w 56 54 = 3 → fld w 37 35 ≠ 0 → exec (.waitEngines p w) s = waiting (.engines (bitN w 35) (bitN w 36) (bitN w 37)))) ∧
    (∀ k, q.wait = some k →
      (s.waitHolds p k = true → s.damper.shutdown = false → exec (.waitEnd p) s = .next (s.setCore p { c with seq := { q with wait := none } })) ∧
      (s.waitHolds p k = false → exec (.waitEnd p) s = .next s)) ∧
    (Ready s p 1 → opOk 0x11 w false = true → zeroBits w 46 0 = true → q.anyBusy [reg5 w 48] = false →
      (bitN w 47 = true → ∀ m ∈ c.eng.moves, m.kind = .openWin) →
      ∀ i slot, (issued s p 1 c).cmdOf p = some (i, slot) →
        let v := sget 0 i.gsems (fld w 56 53) + (q.reg (reg5 w 48)).toNat % 2 ^ 32
        (v < 2 ^ 32 →
          exec (.signal p w) s = .next ((issued s p 1 c).modCmd i.uid fun i => { i with gsems := sset 0 i.gsems (fld w 56 53) v })) ∧
        (2 ^ 32 ≤ v → exec (.signal p w) s = .next ((issued s p 1 c).faultCore p stBAD_COMMAND)))

/-- R189, R190, R88: DESC loads DD from 32 scratchpad bytes, whose errors its read meets, or from DS, and applies patch 1, then patch 2; a
value outside its field's range, and a source address that is misaligned or outside the scratchpad, are BAD_COMMAND. -/
def Sys2Proof.Claims.DescLoadsAndPatches : Prop :=
  ∀ (s : State) (p : Fin 68) (w : W64) (h : List EccHit), Ready s p 1 →
    let c := s.core p
    let q := c.seq
    let a := (q.reg (reg5 w 46)).toNat + 32 * fld w 19 0
    let read := if bitN w 51 then c else c.scratchErrs s.now [(a, a + 32)] h
    let src := if bitN w 51 then sget 0 q.descs (fld w 45 41) else descOfBytes (c.sp.read a 32)
    (opOk 0x12 w false = true → 11 ≤ fld w 40 37 ∨ 11 ≤ fld w 31 28 → exec (.desc p w h) s = .next (rejected s p)) ∧
    (opOk 0x12 w false = true → zeroBits w 22 20 = true → fld w 40 37 < 11 → fld w 31 28 < 11 →
    (∀ r ∈ (if bitN w 51 then [] else [reg5 w 46]) ++ (if fld w 40 37 = 0 then [] else [reg5 w 32]) ++ (if fld w 31 28 = 0 then [] else [reg5 w 23]),
      q.anyBusy [r] = false) →
    (bitN w 51 = false → (q.reg (reg5 w 46)).toNat % 32 ≠ 0 ∨ 33554432 < a + 32 ∧ a < 2 ^ 64 → exec (.desc p w h) s = .next (rejected s p)) ∧
    ((bitN w 51 = false → (q.reg (reg5 w 46)).toNat % 32 = 0 ∧ a + 32 ≤ 33554432 ∧
        ∀ e ∈ c.eng.score, e.write = true → meets (e.lo, e.hi) (a, a + 32) = false) →
      (∀ d1 d2, patchDesc src (fld w 40 37) (q.reg (reg5 w 32)) = some d1 → patchDesc d1 (fld w 31 28) (q.reg (reg5 w 23)) = some d2 →
        exec (.desc p w h) s = .next (issued s p 1 { read with seq := { q with descs := sset 0 q.descs (fld w 56 52) d2 } })) ∧
      (∀ d1, patchDesc src (fld w 40 37) (q.reg (reg5 w 32)) = some d1 → patchDesc d1 (fld w 31 28) (q.reg (reg5 w 23)) = none →
        exec (.desc p w h) s = .next (rejected s p)) ∧
      (patchDesc src (fld w 40 37) (q.reg (reg5 w 32)) = none → exec (.desc p w h) s = .next (rejected s p))))

/-- R190: what each patch code accepts and writes. -/
def Sys2Proof.Claims.PatchCodesChangeTheirField : Prop :=
  ∀ (d : BitVec 256) (v : W64),
    patchDesc d 0 v = some d ∧
    (v.toNat < 33554432 → patchDesc d 1 v = some (dSet d 0 25 v.toNat)) ∧
    (33554432 ≤ v.toNat → patchDesc d 1 v = none) ∧
    (∀ k, k < 4 → 1 ≤ v.toNat → v.toNat ≤ 65536 → patchDesc d (2 + k) v = some (dSet d (32 + 16 * k) 16 (v.toNat - 1))) ∧
    (∀ k, k < 4 → v.toNat = 0 ∨ 65536 < v.toNat → patchDesc d (2 + k) v = none) ∧
    (∀ k, k < 4 → -33554432 ≤ v.toInt → v.toInt ≤ 33554431 → patchDesc d (6 + k) v = some (dSet d (96 + 26 * k) 26 (v.toNat % 2 ^ 26))) ∧
    (∀ k, k < 4 → v.toInt < -33554432 ∨ 33554431 < v.toInt → patchDesc d (6 + k) v = none) ∧
    patchDesc d 10 v = some (dSet d 200 32 v.toNat)

/-- R189, R190, R88: DESC loads DD from 32 scratchpad bytes, whose errors its read meets, or from DS, and applies patch 1, then patch 2; a
value outside its field's range, and a source address that is misaligned or outside the scratchpad, are BAD_COMMAND. R190: what each patch
code accepts and writes. -/
def Obligations.DescLoadsAndPatchesItsFields : Prop := DescLoadsAndPatches ∧ PatchCodesChangeTheirField


/-! ### The engine instructions at issue (R171 to R184) -/

namespace Sys2Proof.Claims

open Sys2Proof Sys2Proof.Machine

/-- The descriptor that the 5-bit field at bit lo names, with its mask stream where enabled (R78). -/
def named (c : Core) (w : W64) (lo : Nat) : Strm := strmOf c.seq.descs (fld w (lo + 4) lo)

/-- R75 to R77: there is room on the vector queue, the scoreboard lets the streams in, and no unfinished instruction writes sd. -/
abbrev VecRoom (c : Core) (ins outs : List Strm) (sd : List (BitVec 5)) : Prop :=
  c.eng.vecQ.length < 4 ∧ sbStalls c.eng.score (sbEntries c.seq.nextId ins outs) = false ∧ c.seq.anyBusy sd = false

/-- R76 to R78, R177: the core with a vector instruction joined to its queue: its streams in the scoreboard, its count n taken and
advanced where a stream that it writes rounds stochastically, and its scalar register busy. -/
def vecQueued (c : Core) (op : VecOp) (ins outs : List Strm) (f64 : Bool) (alpha : BitVec 32) (sd : Option (BitVec 5)) : Core :=
  { c with
    eng := { c.eng with
      vecQ := c.eng.vecQ ++ [{ id := c.seq.nextId, op := op, ins := ins, outs := outs, f64 := f64, alpha := alpha, n := c.seq.count, sd := sd }]
      score := c.eng.score ++ sbEntries c.seq.nextId ins outs }
    seq := { c.seq with
      nextId := c.seq.nextId + 1
      count := if outs.any (fun t => dRound t.d == 2) then (c.seq.count + 1) % 2 ^ 30 else c.seq.count
      busy := c.seq.busy ++ sd.toList.filterMap fun r => if r = 0 then none else some (c.seq.nextId, r) } }

/-- R174: the inputs of an operation, in the order DA, DB, DC. -/
def vopIns (k : VopKind) (c : Core) (w : W64) : List Strm := [named c w 46, named c w 41, named c w 36].take (vopArity k (fld w 17 14))
/-- R173: the outputs: DO, and DO2 where O2 uses it. -/
def vopOuts (c : Core) (w : W64) : List Strm := [named c w 31] ++ (if fld w 25 24 = 0 then [] else [named c w 26])

/-- R173 to R176: the fields of a VOP word and, with ELU, of its extension word. -/
abbrev VopFields (k : VopKind) (w x : W64) : Prop :=
  opOk 0x04 w (vopElu k w) = true ∧ fld w 56 51 = vopCode k ∧ zeroBits w 12 0 = true ∧ fld w 25 24 ≠ 3 ∧ fld w 23 21 < 5 ∧ fld w 20 18 < 5 ∧
    fld w 17 14 < 9 ∧ (bitN w 13 = true → vopF64 k = true) ∧ (vopElu k w = true → alphaOk x = true)

/-- R84, R126, R130: DO and the inputs are proper streams of the formats that the operation takes, all of DO's extents. -/
abbrev VopStreams (k : VopKind) (c : Core) (w : W64) : Prop :=
  (named c w 31).ok (if vopCmp k then (· == 8) else isNum) = true ∧
    ∀ t ∈ (vopIns k c w).zipIdx, t.1.ok (if vopBitIn k t.2 then (· == 8) else isNum) = true ∧ dExts t.1.d = dExts (named c w 31).d

/-- R176: the use of DO2. -/
abbrev VopSecond (k : VopKind) (c : Core) (w : W64) : Prop :=
  (fld w 25 24 = 1 → vopCmp k = false ∧ bitN w 13 = false ∧ (named c w 26).ok isNum = true ∧
    dExts (named c w 26).d = redExts (named c w 31).d (fld w 20 18)) ∧
  (fld w 25 24 = 2 → k = .act ∧ (fld w 17 14 = 7 ∨ fld w 17 14 = 8) ∧ (named c w 26).ok (· == 8) = true ∧
    dExts (named c w 26).d = dExts (named c w 31).d)

abbrev VopLegal (k : VopKind) (c : Core) (w x : W64) : Prop :=
  VopFields k w x ∧ VopStreams k c w ∧ VopSecond k c w ∧ overlapOk (vopIns k c w) (vopOuts c w) = true

/-- R178: the inputs and the output of a VRED. -/
def vredIns (k : RedKind) (c : Core) (w : W64) : List Strm := if k = .sumprod then [named c w 49, named c w 44] else [named c w 49]
def vredOuts (c : Core) (w : W64) : List Strm := if bitN w 35 then [] else [named c w 39]

/-- R137, R178: a legal VRED. -/
abbrev VredLegal (k : RedKind) (c : Core) (w : W64) : Prop :=
  opOk 0x05 w false = true ∧ fld w 56 54 = vredCode k ∧ zeroBits w 27 0 = true ∧ fld w 38 36 < 5 ∧ (bitN w 35 = true → fld w 38 36 = 4) ∧
    (named c w 49).ok isNum = true ∧
    (k = .sumprod → (named c w 44).ok isNum = true ∧ dExts (named c w 44).d = dExts (named c w 49).d) ∧
    (bitN w 35 = false → (named c w 39).ok isNum = true ∧ dExts (named c w 39).d = redExts (named c w 49).d (fld w 38 36)) ∧
    overlapOk (vredIns k c w) (vredOuts c w) = true

/-- R141, R179: a legal VCOMP. -/
abbrev VcompLegal (c : Core) (w : W64) : Prop :=
  let u := if bitN w 35 then dExt (named c w 52).d 0 else 1
  opOk 0x06 w false = true ∧ zeroBits w 27 0 = true ∧ bitN w 33 = false ∧ (named c w 52).ok isAnyFmt = true ∧
    unitMaskOk (named c w 52) (named c w 47) (bitN w 35) = true ∧ (named c w 42).ok isAnyFmt = true ∧
    dFmt (named c w 42).d = dFmt (named c w 52).d ∧ dCount (named c w 42).d % u = 0 ∧
    (bitN w 36 = true → (named c w 37).ok (· == 10) = true ∧ dCount (named c w 37).d = dCount (named c w 42).d / u) ∧
    overlapOk [named c w 52, named c w 47] ([named c w 42] ++ if bitN w 36 then [named c w 37] else []) = true

/-- R142, R179: a legal VEXPD. -/
abbrev VexpdLegal (c : Core) (w : W64) : Prop :=
  opOk 0x07 w false = true ∧ zeroBits w 27 0 = true ∧ bitN w 36 = false ∧ (named c w 52).ok isAnyFmt = true ∧
    unitMaskOk (named c w 52) (named c w 47) (bitN w 35) = true ∧ (named c w 42).ok isAnyFmt = true ∧
    dFmt (named c w 42).d = dFmt (named c w 52).d ∧ overlapOk [named c w 42, named c w 47] [named c w 52] = true

/-- R143, R180: a legal VPERM of a mode. -/
abbrev VpermLegal (mode : Nat) (c : Core) (w : W64) : Prop :=
  opOk 0x08 w false = true ∧ fld w 56 55 = mode ∧ zeroBits w 39 0 = true ∧ (named c w 50).ok isAnyFmt = true ∧
    (named c w 40).ok isAnyFmt = true ∧ dFmt (named c w 40).d = dFmt (named c w 50).d ∧
    (named c w 45).ok (· == if mode = 0 then 9 else 10) = true ∧
    dExts (named c w 45).d = (if mode = 2 then dExts (named c w 50).d else dExts (named c w 40).d) ∧
    (mode = 0 → dExts (named c w 50).d = dExts (named c w 40).d) ∧ overlapOk [named c w 50, named c w 45] [named c w 40] = true

/-- R144, R181: a legal VPACK or VUNPK. -/
abbrev CopyLegal (pack : Bool) (c : Core) (w : W64) : Prop :=
  let fi := dFmt (named c w 52).d
  let fo := dFmt (named c w 47).d
  opOk (if pack then 0x09 else 0x0A) w false = true ∧ zeroBits w 44 0 = true ∧ fld w 46 45 < 2 ∧ (named c w 52).ok isAnyFmt = true ∧
    (named c w 47).ok isAnyFmt = true ∧
    (if pack then elemQuarters fo ≤ elemQuarters fi else elemQuarters fi ≤ elemQuarters fo) ∧
    (fi ≠ fo → isNum fi = true ∧ isNum fo = true) ∧ dCount (named c w 52).d = dCount (named c w 47).d ∧
    (fld w 46 45 = 1 → dCount (named c w 52).d % 16384 = 0) ∧ overlapOk [named c w 52] [named c w 47] = true

end Sys2Proof.Claims

/-- R173 to R178: a legal VOP or VRED with room joins the vector queue with its streams, function and count; one that breaks its rules
ends the command with BAD_COMMAND. Where the spec leaves a point open, the statement takes the choice of the model (log entries 28 and
59). -/
def Obligations.VectorArithmeticQueuesOrFaults : Prop :=
  ∀ (s : State) (p : Fin 68) (w x : W64),
    let c := s.core p
    let vop (o : Out) (k : VopKind) : Prop := Ready s p (wordsOf (vopElu k w)) →
      (VopLegal k c w x → VecRoom c (vopIns k c w) (vopOuts c w) [] →
        o = .next (issued s p (wordsOf (vopElu k w))
          (vecQueued c (.vop k (BitVec.ofNat 4 (fld w 17 14)) (BitVec.ofNat 2 (fld w 25 24)) (roopKind (fld w 23 21)) (fld w 20 18))
            (vopIns k c w) (vopOuts c w) (bitN w 13) (BitVec.ofNat 32 x.toNat) none))) ∧
      (¬ VopLegal k c w x → o = .next (rejected s p))
    let vred (o : Out) (k : RedKind) : Prop := Ready s p 1 →
      (VredLegal k c w → VecRoom c (vredIns k c w) (vredOuts c w) (if bitN w 35 then [reg5 w 30] else []) →
        o = .next (issued s p 1 (vecQueued c (.vred k (fld w 38 36) (bitN w 28)) (vredIns k c w) (vredOuts c w) (bitN w 29) 0
          (if bitN w 35 then some (reg5 w 30) else none)))) ∧
      (¬ VredLegal k c w → o = .next (rejected s p))
    vop (exec (.add p w x) s) .add ∧ vop (exec (.sub p w x) s) .sub ∧ vop (exec (.mul p w x) s) .mul ∧ vop (exec (.fma p w x) s) .fma ∧
    vop (exec (.minV p w x) s) .min ∧ vop (exec (.maxV p w x) s) .max ∧ vop (exec (.absV p w x) s) .abs ∧ vop (exec (.negV p w x) s) .neg ∧
    vop (exec (.cmpEq p w x) s) .cmpEq ∧ vop (exec (.cmpNe p w x) s) .cmpNe ∧ vop (exec (.cmpLt p w x) s) .cmpLt ∧ vop (exec (.cmpLe p w x) s) .cmpLe ∧
    vop (exec (.sel p w x) s) .sel ∧ vop (exec (.cvt p w x) s) .cvt ∧ vop (exec (.recip p w x) s) .recip ∧ vop (exec (.rsqrt p w x) s) .rsqrt ∧
    vop (exec (.exp2 p w x) s) .exp2 ∧ vop (exec (.log2 p w x) s) .log2 ∧ vop (exec (.sin p w x) s) .sin ∧ vop (exec (.cos p w x) s) .cos ∧
    vop (exec (.act p w x) s) .act ∧ vop (exec (.dact p w x) s) .dact ∧ vop (exec (.smbwd p w x) s) .smbwd ∧ vred (exec (.vredSum p w) s) .sum ∧
    vred (exec (.vredSumsq p w) s) .sumsq ∧ vred (exec (.vredSumprod p w) s) .sumprod ∧ vred (exec (.vredMax p w) s) .max ∧ vred (exec (.vredMin p w) s) .min ∧
    vred (exec (.vredAmax p w) s) .amax

/-- R179 to R181: a legal VCOMP, VEXPD, VPERM, VPACK or VUNPK with room joins the vector queue; one that breaks its rules ends the command
with BAD_COMMAND. Where the spec leaves a point open, the statement takes the choice of the model (log entries 28 and 59). -/
def Obligations.VectorMovementQueuesOrFaults : Prop :=
  ∀ (s : State) (p : Fin 68) (w : W64), Ready s p 1 →
    let c := s.core p
    let outsC := [named c w 42] ++ if bitN w 36 then [named c w 37] else []
    let perm (mode : Nat) : Out := .next (issued s p 1 (vecQueued c (.vperm mode) [named c w 50, named c w 45] [named c w 40] false 0 none))
    let copy : Out := .next (issued s p 1 (vecQueued c (.copy (fld w 46 45 == 1)) [named c w 52] [named c w 47] false 0 none))
    (VcompLegal c w → VecRoom c [named c w 52, named c w 47] outsC [reg5 w 28] →
      exec (.vcomp p w) s = .next (issued s p 1
        (vecQueued c (.vcomp (bitN w 36) (bitN w 35) (bitN w 34)) [named c w 52, named c w 47] outsC false 0 (some (reg5 w 28))))) ∧
    (VexpdLegal c w → VecRoom c [named c w 42, named c w 47] [named c w 52] [reg5 w 28] →
      exec (.vexpd p w) s = .next (issued s p 1
        (vecQueued c (.vexpd (bitN w 35) (bitN w 34) (bitN w 33)) [named c w 42, named c w 47] [named c w 52] false 0 (some (reg5 w 28))))) ∧
    (VecRoom c [named c w 50, named c w 45] [named c w 40] [] →
      (VpermLegal 0 c w → exec (.vpermBlock p w) s = perm 0) ∧ (VpermLegal 1 c w → exec (.vpermGather p w) s = perm 1) ∧
      (VpermLegal 2 c w → exec (.vpermScatter p w) s = perm 2)) ∧
    (VecRoom c [named c w 52] [named c w 47] [] →
      (CopyLegal true c w → exec (.vpack p w) s = copy) ∧ (CopyLegal false c w → exec (.vunpk p w) s = copy)) ∧
    (¬ VcompLegal c w → exec (.vcomp p w) s = .next (rejected s p)) ∧ (¬ VexpdLegal c w → exec (.vexpd p w) s = .next (rejected s p)) ∧
    (¬ VpermLegal 0 c w → exec (.vpermBlock p w) s = .next (rejected s p)) ∧
    (¬ VpermLegal 1 c w → exec (.vpermGather p w) s = .next (rejected s p)) ∧
    (¬ VpermLegal 2 c w → exec (.vpermScatter p w) s = .next (rejected s p)) ∧
    (¬ CopyLegal true c w → exec (.vpack p w) s = .next (rejected s p)) ∧ (¬ CopyLegal false c w → exec (.vunpk p w) s = .next (rejected s p))

/-! ### The matrix engine (R111 to R119, R145, R171, R172) -/

namespace Sys2Proof.Claims

open Sys2Proof Sys2Proof.Machine

/-- R171: the fields and operands of an MPASS. -/
abbrev MpassLegal (c : Core) (w : W64) : Prop :=
  opOk 0x01 w (bitN w 43) = true ∧ zeroBits w 42 0 = true ∧ fld w 46 45 ≠ 0 ∧
    (named c w 52).ok (arrayFmtOk (fld w 46 45) false) = true ∧ (named c w 47).ok (arrayFmtOk (fld w 46 45) true) = true

/-- The pass that an MPASS with bank b and geometry (m, n, k) makes. -/
def passOf (c : Core) (w x : W64) (b : Bool) (m n k : Nat) : PassInstr :=
  { id := c.seq.nextId, a := named c w 52, b := named c w 47, passes := fld w 46 45, hold := bitN w 44,
    tap := if bitN w 43 then some x else none, bank := b, m := m, n := n, k := k }

/-- The core with a pass joined to its array queue, its bank ACCUMULATING with the pass's M and N. -/
def passQueued (c : Core) (q : PassInstr) : Core :=
  { c with
    eng := { c.eng with arrayQ := c.eng.arrayQ ++ [q], score := c.eng.score ++ sbEntries c.seq.nextId [q.a, q.b] [], lastBank := some q.bank,
                        lastPass := some q }.setBank q.bank { c.eng.bank q.bank with st := .accumulating, m := q.m, n := q.n }
    seq := { c.seq with nextId := c.seq.nextId + 1 } }

def drainIns (c : Core) (w : W64) : List Strm :=
  (if fld w 37 36 = 0 then [] else [named c w 38]) ++ (if bitN w 30 then [named c w 31] else [])
def drainOuts (c : Core) (w : W64) : List Strm :=
  [named c w 52] ++ (if fld w 46 45 = 0 then [] else [named c w 47]) ++ (if bitN w 19 then [named c w 20] else [])

/-- R172: does an MDRAIN carry the extension word of ELU? -/
def drainElu (w : W64) : Bool := bitN w 29 && fld w 28 25 == 6

/-- R112, R127, R132, R172: a legal MDRAIN. -/
abbrev MdrainLegal (c : Core) (w x : W64) : Prop :=
  let bk := c.eng.bank (bitN w 18)
  opOk 0x02 w (drainElu w) = true ∧ zeroBits w 17 0 = true ∧ fld w 44 43 ≠ 3 ∧ fld w 37 36 ≠ 3 ∧ fld w 28 25 < 9 ∧
    (bitN w 19 = true → bitN w 29 = true ∧ (fld w 28 25 = 7 ∨ fld w 28 25 = 8)) ∧ (drainElu w = true → alphaOk x = true) ∧
    bk.st = .accumulating ∧ (named c w 52).ok isNum = true ∧ extsAre (named c w 52) bk.n bk.m = true ∧
    (fld w 46 45 ≠ 0 → (named c w 47).ok isNum = true) ∧ (fld w 46 45 = 1 → extsAre (named c w 47) bk.m bk.n = true) ∧
    (fld w 46 45 = 2 → extsAre (named c w 47) bk.n bk.m = true) ∧ (fld w 46 45 = 3 → extsAre (named c w 47) 1 bk.m = true) ∧
    (fld w 37 36 ≠ 0 → (named c w 38).ok (· == 2) = true ∧ extsAre (named c w 38) (if fld w 37 36 = 1 then bk.n else bk.m) 1 = true) ∧
    (bitN w 30 = true → (named c w 31).ok isNum = true ∧ extsAre (named c w 31) bk.n bk.m = true) ∧
    (bitN w 19 = true → (named c w 20).ok (· == 8) = true ∧ extsAre (named c w 20) bk.n bk.m = true) ∧
    overlapOk (drainIns c w) (drainOuts c w) = true

def drainOp (w : W64) : VecOp :=
  .mdrain (bitN w 18) (BitVec.ofNat 2 (fld w 46 45)) (rropKind (fld w 44 43)) (BitVec.ofNat 2 (fld w 37 36)) (bitN w 30) (bitN w 29)
    (BitVec.ofNat 4 (fld w 28 25)) (bitN w 19)

end Sys2Proof.Claims

/-- R111, R112, R171: a legal MPASS takes the bank that parity and HOLD give it, and joins the array queue; one that finds no bank or
breaks its rules ends the command with BAD_COMMAND. -/
def Sys2Proof.Claims.MpassTakesItsBank : Prop :=
  ∀ (s : State) (p : Fin 68) (w x : W64), Ready s p (wordsOf (bitN w 43)) →
    let c := s.core p
    let scale := scaleProduct (named c w 52).d (named c w 47).d
    (MpassLegal c w → ∀ m n k b, passGeometry (named c w 52) (named c w 47) (bitN w 43) x = some (m, n, k) →
      passBank c.eng (bitN w 44) m n scale = some b → c.eng.arrayQ.length < 4 →
      sbStalls c.eng.score (sbEntries c.seq.nextId [named c w 52, named c w 47] []) = false →
      exec (.mpass p w x) s = .next (issued s p (wordsOf (bitN w 43)) (passQueued c (passOf c w x b m n k)))) ∧
    (MpassLegal c w → ∀ m n k, passGeometry (named c w 52) (named c w 47) (bitN w 43) x = some (m, n, k) →
      passBank c.eng (bitN w 44) m n scale = none → exec (.mpass p w x) s = .next (rejected s p)) ∧
    (¬ MpassLegal c w ∨ passGeometry (named c w 52) (named c w 47) (bitN w 43) x = none → exec (.mpass p w x) s = .next (rejected s p))

/-- R111: with no HOLD the bank is a0 first and then the other one of the last, and is not one still ACCUMULATING; with HOLD it is the
last pass's, while it accumulates with the same M, N and scale product. -/
def Sys2Proof.Claims.BankFollowsParityAndHold : Prop :=
  ∀ (e : Engines) (m n : Nat) (scale : BitVec 32) (b : Bool),
    (passBank e false m n scale = some b ↔
      (e.bank b).st ≠ .accumulating ∧ ((e.lastBank = none ∧ b = false) ∨ e.lastBank = some (!b))) ∧
    (passBank e true m n scale = some b ↔
      ∃ q, e.lastPass = some q ∧ q.bank = b ∧ (e.bank b).st = .accumulating ∧ q.m = m ∧ q.n = n ∧ scaleProduct q.a.d q.b.d = scale)

/-- R111, R112, R171: a legal MPASS takes the bank that parity and HOLD give it, and joins the array queue; one that finds no bank or
breaks its rules ends the command with BAD_COMMAND. R111: with no HOLD the bank is a0 first and then the other one of the last, and is not
one still ACCUMULATING; with HOLD it is the last pass's, while it accumulates with the same M, N and scale product. Where the spec leaves
a point open, the statement takes the choice of the model (log entries 28 and 70). -/
def Obligations.MpassTakesTheBankOfItsTurn : Prop := MpassTakesItsBank ∧ BankFollowsParityAndHold


/-- R112, R172: a legal MDRAIN joins the vector queue and its bank becomes DRAIN_PENDING; any other ends the command. Where the spec
leaves a point open, the statement takes the choice of the model (log entry 28). -/
def Obligations.MdrainQueuesOrFaults : Prop :=
  ∀ (s : State) (p : Fin 68) (w x : W64), Ready s p (wordsOf (drainElu w)) →
    let c := s.core p
    let c' := vecQueued c (drainOp w) (drainIns c w) (drainOuts c w) false (BitVec.ofNat 32 x.toNat) none
    (MdrainLegal c w x → VecRoom c (drainIns c w) (drainOuts c w) [] →
      exec (.mdrain p w x) s = .next (issued s p (wordsOf (drainElu w))
        { c' with eng := c'.eng.setBank (bitN w 18) { c.eng.bank (bitN w 18) with st := .drainPending } })) ∧
    (¬ MdrainLegal c w x → exec (.mdrain p w x) s = .next (rejected s p))

/-- R76, R88, R108, R113, R116, R119, R121, R123, R129, R397: the events of the engines: the pass at the head enters when its bank allows, which ends
the reading of the passes before it; the oldest pass leaves the array, which is then empty for 256 steps or holds other passes; the head of
the vector queue starts, which ends the reading of the instruction before it; and a finished instruction writes its streams, flags and
register and frees its scoreboard entries. Each read of the scratchpad meets the errors that the code finds there. After a thermal shutdown none of
them comes about. -/
def Sys2Proof.Claims.EngineEventsMoveTheirHead : Prop :=
  ∀ (s : State) (p : Fin 68) (h : List EccHit),
    let c := s.core p
    (s.damper.shutdown = true → ∀ e ∈ [Instr.mpassEntry p h, .lastWavefrontLeft p, .vectorStart p h, .drainStart p, .lastElementWritten p h],
      exec e s = .next s) ∧
    (s.damper.shutdown = false →
    (∀ q r, c.eng.arrayQ = q :: r → entryReady c.eng q = true → c.seq.halted = false →
      let o := enterPass c.sp q (c.eng.bank q.bank)
      let patches := passPatches c.sp q
      let read := c.eng.inArray.foldl (fun g k => g.release k.id) c.eng
      exec (.mpassEntry p h) s = .next (s.setCore p
        ({ c.scratchErrs s.now (readSpans [q.a, q.b] []) (readHits [q.a, q.b] [] h) with
            eng := { read with
              arrayQ := r, inArray := c.eng.inArray ++ [q], swelled := decide (1024 ≤ c.eng.idle), idle := 0
              patches := if q.tap.isSome then patches.drop (patches.length - 2) else c.eng.patches }.setBank q.bank o.1 }.raise o.2))) ∧
    (∀ q r, c.eng.inArray = q :: r →
      ∃ t, exec (.lastWavefrontLeft p) s = .next t ∧ (t.core p).eng.inArray = r ∧ (∀ e ∈ (t.core p).eng.score, e.owner ≠ q.id) ∧
        (t.core p).eng.idle = (if r = [] then 256 else c.eng.idle) ∧ ∀ k, k ≠ p.val → t.core k = s.core k) ∧
    (∀ v r, c.eng.vecQ = v :: r → c.seq.halted = false → c.eng.vecRun.any VecInstr.isDrainOp = false →
      let eng : Engines := { c.eng.doneReading c.sp with vecQ := r, vecRun := c.eng.vecRun ++ [v] }
      (v.isDrainOp = false → exec (.vectorStart p h) s =
        .next (s.setCore p { c.scratchErrs s.now (readSpans v.ins v.outs) (readHits v.ins v.outs h) with eng := eng })) ∧
      (v.isDrainOp = true → (∀ q ∈ c.eng.arrayQ, v.drains q.bank = true → v.id ≤ q.id) →
        exec (.drainStart p) s = .next (s.setCore p { c with eng := eng }))) ∧
    (∀ v r, c.eng.vecRun = v :: r → v.isDrainOp = false →
      let o := c.finishVector v (s.srKey p v.n)
      let q := { c.seq with busy := c.seq.busy.filter fun b => b.1 != v.id }
      let hm := v.mergeHits (c.readAs v) h
      let c1 := c.scratchErrs s.now (writeSpans v.outs) hm
      exec (.lastElementWritten p h) s = .next (s.setCore p
        ((c1.unmerge { c1 with
          eng := ({ c.eng with vecRun := r }).release v.id, sp := o.1
          seq := match v.sd, o.2.2 with
            | some d, some x => q.setReg d x
            | _, _ => q } hm).raise o.2.1))))

/-- R88, R112, R116, R125: the drain that has read its last row writes its outputs, but for words whose merging read met an error of two
bits, frees the bank where no other drain of it waits, and its comparison finds a fault (cause 1), or none, and then the core has no other
than those that the reads of its streams and masks and of the words that it writes in part have met. After a thermal shutdown no drain
ends (R397). Where the spec leaves a point open, the statement takes the choice of the model (log entries 30, 33, 45 and 59). -/
def Obligations.DrainEndFreesItsBank : Prop :=
  ∀ (s : State) (p : Fin 68) (upset : List (Nat × BitVec 32)) (h : List EccHit) v r bank sec rrop bias res acten fn bm,
    let c := s.core p
    c.eng.vecRun = v :: r → v.op = .mdrain bank sec rrop bias res acten fn bm →
    (s.damper.shutdown = true → exec (.drainEnd p upset h) s = .next s) ∧
    (s.damper.shutdown = false →
    let bk := upsetCells (c.eng.bank bank) upset
    let o := runDrain c.sp v (s.srKey p v.n) bk sec rrop bias res acten fn bm
    ∃ t, exec (.drainEnd p upset h) s = .next t ∧ (t.core p).sp = (c.unmerge { c with sp := o.1 } (v.mergeHits c.sp h)).sp ∧ (t.core p).eng.vecRun = r ∧
      (∀ e ∈ (t.core p).eng.score, e.owner ≠ v.id) ∧ (t.core p).seq.flags = c.seq.flags ||| o.2.1 ∧
      ((c.eng.bank bank).st = .drainPending → (∀ u ∈ c.eng.vecQ ++ r, u.drains bank = false) → ((t.core p).eng.bank bank).st = .free) ∧
      (abftBad bk = true → (t.core p).fault = some (c.fault.getD { cause := 1, time := s.now })) ∧
      (abftBad bk = false →
        let read := readHits v.ins v.outs h
        let merged := (v.mergeHits c.sp h).filter fun x => !read.contains x
        (t.core p).fault = ((c.scratchErrs s.now (readSpans v.ins v.outs) read).scratchErrs s.now (writeSpans v.outs) merged).fault) ∧
      (∀ q, q ≠ p.val → t.core q = s.core q))

/-! ### Moves (R91 to R94, R182, R183) -/

namespace Sys2Proof.Claims

open Sys2Proof Sys2Proof.Machine

/-- The descriptors, tag and scoreboard entry of a MOVE. -/
def moveDl (c : Core) (w : W64) : BitVec 256 := sget 0 c.seq.descs (fld w 50 46)
def moveDm (c : Core) (w : W64) : BitVec 256 := sget 0 c.seq.descs (fld w 45 41)
def moveEntry (c : Core) (w : W64) (write : Bool) : SbEntry :=
  { owner := c.seq.nextId, lo := (interval (moveDl c w)).1, hi := (interval (moveDl c w)).2, write := write }

/-- R75, R76, R93: the move queue of 16 places and the scoreboard let the move in. -/
abbrev MoveRoom (c : Core) (w : W64) (write : Bool) : Prop :=
  c.eng.movePlaces < 16 ∧ sbStalls c.eng.score [moveEntry c w write] = false

/-- R183: the core with a move joined: one more under its tag, its interval held, and for OPEN its window open. -/
def moveJoined (c : Core) (k : MoveKind) (w : W64) (write : Bool) : Core :=
  { c with
    eng := { c.eng with
      moves := c.eng.moves ++ [{ id := c.seq.nextId, kind := k, tag := fld w 54 51, dl := moveDl c w, dm := moveDm c w,
                                 sa := c.seq.reg (reg5 w 36), sb := c.seq.reg (reg5 w 31), arrived := false }]
      tags := smod 0 c.eng.tags (fld w 54 51) (· + 1)
      score := c.eng.score ++ [moveEntry c w write]
      windows := c.eng.windows ++ if k = .openWin then
        [{ id := c.seq.nextId, tag := fld w 54 51, lo := (interval (moveDl c w)).1,
           len := (interval (moveDl c w)).2 - (interval (moveDl c w)).1, received := 0 }] else [] }
    seq := { c.seq with nextId := c.seq.nextId + 1 } }

/-- R91, R182: the two sides of a LOAD or STORE. -/
abbrev SidesOk (c : Core) (w : W64) : Prop :=
  plainOk isAnyFmt (moveDl c w) = true ∧ dFmt (moveDm c w) = dFmt (moveDl c w) ∧ dExts (moveDm c w) = dExts (moveDl c w) ∧
    stridesOk (moveDm c w) = true

end Sys2Proof.Claims

/-- R75, R91, R94, R182, R183: a legal MOVE joins the core's moves and its tag's count, and stalls on a full move queue whatever its kind;
each case that R182 lists ends the command. The descriptor of an OPEN is checked whole (R84), that of a move that copies without its mask and ROUND. -/
def Sys2Proof.Claims.MovesJoinTheirTag : Prop :=
  ∀ (s : State) (p : Fin 68) (w : W64), Ready s p 1 →
    let c := s.core p
    let q := c.seq
    let transfer (o : Out) (k : MoveKind) : Prop := moveOk k w = true → q.anyBusy [reg5 w 36] = false →
      ((q.reg (reg5 w 36)).toNat < 2 ^ 52 → SidesOk c w →
        (MoveRoom c w (k == .load) → o = .next (issued s p 1 (moveJoined c k w (k == .load)))) ∧
        (16 ≤ c.eng.movePlaces → o = .next (stalls s p))) ∧
      (2 ^ 52 ≤ (q.reg (reg5 w 36)).toNat ∨ ¬ SidesOk c w → o = .next (rejected s p))
    transfer (exec (.load p w) s) .load ∧ transfer (exec (.store p w) s) .store ∧
    (∀ i slot, s.cmdOf p = some (i, slot) → moveOk .send w = true → q.anyBusy [reg5 w 36, reg5 w 31] = false →
      plainOk isAnyFmt (moveDl c w) = true →
      ((q.reg (reg5 w 36)).toNat < i.gang.length →
        (MoveRoom c w false → exec (.send p w) s = .next (issued s p 1 (moveJoined c .send w false))) ∧
        (16 ≤ c.eng.movePlaces → exec (.send p w) s = .next (stalls s p))) ∧
      (i.gang.length ≤ (q.reg (reg5 w 36)).toNat → exec (.send p w) s = .next (rejected s p))) ∧
    (moveOk .openWin w = false ∨ (named c w 46).ok isAnyFmt = false → exec (.openWin p w) s = .next (rejected s p)) ∧
    (moveOk .openWin w = true → (named c w 46).ok isAnyFmt = true →
      (c.eng.windows.length < 8 → (∀ v ∈ c.eng.windows, v.tag ≠ fld w 54 51) →
        (MoveRoom c w true → exec (.openWin p w) s = .next (issued s p 1 (moveJoined c .openWin w true))) ∧
        (16 ≤ c.eng.movePlaces → exec (.openWin p w) s = .next (stalls s p))) ∧
      (8 ≤ c.eng.windows.length ∨ (∃ v ∈ c.eng.windows, v.tag = fld w 54 51) → exec (.openWin p w) s = .next (rejected s p)))

/-- R88, R92, R94, R183, R213: a move completes when its bytes have moved: a LOAD's are in the scratchpad, a STORE's in memory, a SEND's in
the peer's open window, and an OPEN's window has closed; its tag's count falls by one. A LOAD or STORE that cannot be translated, or reads
poisoned data, ends the command with the status found; a write meets the errors of the words that it fills in part alone; a STORE or SEND whose own scratchpad read meets an error of two bits is a core
fault. A SEND to a peer whose program has ended, or beyond its window, ends the sender's command; one to a closed port is dropped there, each of its
64-byte requests counted (R101, R488). After a thermal shutdown no move goes on. -/
def Sys2Proof.Claims.MovesCompleteWithTheirBytes : Prop :=
  ∀ (s : State) (p : Fin 68) (k : Nat) (e m : List EccHit) mv i slot,
    let c := s.core p
    let c1 := c.scratchErrs s.now (pieceSpans mv.dl) e
    let lost : Prop := c1.fault.isSome = true ∧ c.fault = none
    let read : State := { s with mem := s.mem.upset m }
    c.eng.moves[k]? = some mv → s.cmdOf p = some (i, slot) →
    (s.damper.shutdown = true → exec (.moveComplete p k e m) s = .next s ∧ exec (.sendArrive p k e m) s = .next s) ∧
    (s.damper.shutdown = false →
    (mv.kind = .load →
      let o := loadPieces i.ctx mv mv.pairs c.sp read c.tlb
      let el := e.filter (mergesWord (pieceBytes mv.dl).1 (pieceBytes mv.dl).2)
      let cl := c.scratchErrs s.now (pieceSpans mv.dl) el
      (∀ sp, o.1 = .ok sp → exec (.moveComplete p k e m) s =
        .next (o.2.1.setCore p ((cl.unmerge { cl with sp := sp, tlb := o.2.2 } el).endMove mv))) ∧
      (∀ st, o.1 = .fault st → exec (.moveComplete p k e m) s = .next (o.2.1.faultCore p st))) ∧
    (mv.kind = .store →
      let o := storePieces i.ctx i.entry.writes mv c.sp mv.pairs read c.tlb
      (lost → exec (.moveComplete p k e m) s = .next (s.setCore p c1)) ∧
      (¬ lost → o.1 = .ok () → exec (.moveComplete p k e m) s = .next (o.2.1.setCore p ({ c1 with tlb := o.2.2 }.endMove mv))) ∧
      (∀ st, ¬ lost → o.1 = .fault st → exec (.moveComplete p k e m) s = .next (o.2.1.faultCore p st))) ∧
    (mv.kind = .send → mv.arrived = true → exec (.moveComplete p k e m) s = .next (s.setCore p (c.endMove mv))) ∧
    (mv.kind = .openWin → (∀ v ∈ c.eng.windows, v.id ≠ mv.id) → exec (.moveComplete p k e m) s = .next (s.setCore p (c.endMove mv))) ∧
    (mv.kind = .send → mv.arrived = false →
      let peer := i.gang.getD mv.sa.toNat 68
      let data := packStream c.sp mv.dl
      (((sget none i.ended mv.sa.toNat).isSome = true ∨ (s.core peer).runs i.uid = true ∧ (s.core peer).seq.ending = true) →
        exec (.sendArrive p k e m) s = .next (s.faultCore p stBAD_COMMAND)) ∧
      (sget none i.ended mv.sa.toNat = none → (s.core peer).life ≠ .opened → (s.core peer).runs i.uid = false →
        exec (.sendArrive p k e m) s = .next (s.dropAtPort peer ((packBytes mv.dl + 63) / 64))) ∧
      (sget none i.ended mv.sa.toNat = none → (s.core peer).life = .opened → (s.core peer).runs i.uid = true →
        (s.core peer).seq.ending = false → ∀ v, ((s.core peer).eng.windows.find? fun v => v.tag == mv.tag) = some v →
        (mv.sb.toNat + data.length ≤ v.len → ¬ lost →
          let s1 := s.setCore p { c1 with eng := (c1.eng.modMove mv.id fun m => { m with arrived := true }).release mv.id }
          let t := s1.core peer
          let span := (v.lo + mv.sb.toNat, v.lo + mv.sb.toNat + data.length)
          let mp := m.filter (mergesWord [span] [])
          let t1 := t.scratchErrs s1.now [span] mp
          exec (.sendArrive p k e m) s = .next (s1.setCore peer (t1.unmerge (t1.receive v mv.sb.toNat data) mp))) ∧
        (v.len < mv.sb.toNat + data.length → exec (.sendArrive p k e m) s = .next (s.faultCore p stBAD_COMMAND)))))

/-- R75, R91, R94, R182, R183: a legal MOVE joins the core's moves and its tag's count, and stalls on a full move queue whatever its kind;
each case that R182 lists ends the command. The descriptor of an OPEN is checked whole (R84), that of a move that copies without its mask
and ROUND. R88, R92, R94, R183, R213: a move completes when its bytes have moved: a LOAD's are in the scratchpad, a STORE's in memory, a
SEND's in the peer's open window, and an OPEN's window has closed; its tag's count falls by one. A LOAD or STORE that cannot be
translated, or reads poisoned data, ends the command with the status found; a write meets the errors of the words that it fills in part
alone; a STORE or SEND whose own scratchpad read meets an error of two bits is a core fault. A SEND to a peer whose program has ended, or
beyond its window, ends the sender's command; one to a closed port is dropped there, each of its 64-byte requests counted (R101, R488).
After a thermal shutdown no move goes on. Where the spec leaves a point open, the statement takes the choice of the model (log entries 28,
35, 38, 45 and 70). -/
def Obligations.MovesJoinTheirTagAndComplete : Prop := MovesJoinTheirTag ∧ MovesCompleteWithTheirBytes


/-- R96, R97, R101, R169: the awaited line joins the cache or its fetch fault ends the command, and the four requests for a line of a core that has
been choked are dropped at its port and counted; and a core whose program has ended, with its
engines, moves and PEAL slots done, reports its run record and is free: the gang's last report ends the command. After a thermal shutdown none
reports (R397). -/
def Sys2Proof.Claims.LinesArriveAndSlotsEnd : Prop :=
  ∀ (s : State) (p : Fin 68) (m : List EccHit) i slot, s.cmdOf p = some (i, slot) →
    let c := s.core p
    (c.life = .choked → exec (.icacheFill p m) s = .next (s.dropAtPort p 4)) ∧
    (∀ l, c.life ≠ .choked → c.seq.miss = some l →
      let o := { s with mem := s.mem.upset m }.coreRead i.ctx (l * 256) 256 c.tlb
      (∀ b, o.1 = .ok b →
        exec (.icacheFill p m) s = .next (o.2.1.setCore p { c with seq := { c.seq.touchLine l with miss := none }, tlb := o.2.2 })) ∧
      (∀ st, o.1 = .fault st → exec (.icacheFill p m) s = .next (o.2.1.faultCore p st))) ∧
    (c.slotDone = true → s.damper.shutdown = false →
      let ended := sset none i.ended slot (some c.seq.record)
      let t := (s.modCore p Core.release).modCmd i.uid fun i => { i with ended := ended }
      exec (.slotEnd p) s = .next (if ended.length = i.gang.length then t.commandEnds i.uid else t))

/-- R76, R88, R108, R113, R116, R119, R121, R123, R129, R397: the events of the engines: the pass at the head enters when its bank allows,
which ends the reading of the passes before it; the oldest pass leaves the array, which is then empty for 256 steps or holds other passes;
the head of the vector queue starts, which ends the reading of the instruction before it; and a finished instruction writes its streams,
flags and register and frees its scoreboard entries. Each read of the scratchpad meets the errors that the code finds there. After a
thermal shutdown none of them comes about. R96, R97, R101, R169: the awaited line joins the cache or its fetch fault ends the command, and
the four requests for a line of a core that has been choked are dropped at its port and counted; and a core whose program has ended, with
its engines, moves and PEAL slots done, reports its run record and is free: the gang's last report ends the command. After a thermal
shutdown none reports (R397). Where the spec leaves a point open, the statement takes the choice of the model (log entries 30, 36, 38, 39,
45, 59 and 70). -/
def Obligations.EnginesWorkInTheirOrder : Prop := EngineEventsMoveTheirHead ∧ LinesArriveAndSlotsEnd


/-! ### PEAL (R184, R328, R329, R342) -/

/-- R184, R213, R328, R329, R379: each of the fourteen PEALs whose descriptor can be read, its reads having met the errors that stand
there, and passes its checks completes its issue and takes its slot: the first PEAL of an instance starts it, a later one joins it, and
one of an instance that is done takes its flags. A misaligned descriptor, and one that breaks R328, end the command with BAD_COMMAND; a
descriptor or a PERMUTE's table that cannot be read ends it with the status found, as a LOAD's argument block that is poisoned, and a LOAD
from a buddy that was replaced with STALE_GENERATION. Where the spec leaves a point open, the statement takes the choice of the model (log
entries 22, 46 and 63). -/
def Obligations.PealStartsOrJoinsItsInstance : Prop :=
  ∀ (s0 : State) (p : Fin 68) (w : W64),
    let s := s0.meetPeal p w
    ∀ i cslot, Ready s p 1 → s.cmdOf p = some (i, cslot) →
    let c := s.core p
    let a := (c.seq.reg (reg5 w 52)).toNat
    let slot := fld w 51 49
    let busy : Core := { c with eng := { c.eng with slots := setIns c.eng.slots slot } }
    let fails (st : BitVec 16) : Out := .next ((issued s p 1 c).faultCore p st)
    let op (o : Out) (code : Nat) : Prop := s.pealOp p w = some code →
      (a % 64 ≠ 0 → o = .next (rejected s p)) ∧
      (∀ st, a % 64 = 0 → s.vaRead i.ctx a 128 = .fault st → o = fails st) ∧
      (∀ b, a % 64 = 0 → s.vaRead i.ctx a 128 = .ok b →
        let d := decodePeal b
        (s.pealOk i d (s.groupView d) = false → o = .next (rejected s p)) ∧
        (∀ st, s.pealOk i d (s.groupView d) = true → s.view i.ctx d = .fault st → o = fails st) ∧
        (∀ v, s.pealOk i d (s.groupView d) = true → s.view i.ctx d = .ok v →
          (s.pealOk i d v = false → o = .next (rejected s p)) ∧
          (∀ st, s.pealOk i d v = true → s.loadCheck i d = .fault st → o = fails st) ∧
          (s.pealOk i d v = true → s.loadCheck i d = .ok true → o = .next ((issued s p 1 c).failLoad p)) ∧
          (s.pealOk i d v = true → s.loadCheck i d = .ok false →
            (∀ k, (s.peal.insts.find? fun k => k.desc.opid == d.opid && k.desc.group == d.group) = some k →
              (k.done = false → o =
                .next ((issued s p 1 busy).modInst d.opid d.group fun k => { k with waiters := k.waiters ++ [(p.val, slot)] })) ∧
              (k.done = true → o = .next (issued s p 1 { c with seq := { c.seq with record := c.seq.record ||| k.flags } }))) ∧
            ((s.peal.insts.find? fun k => k.desc.opid == d.opid && k.desc.group == d.group) = none → s.peal.insts.length < 1024 →
              (d.op = 12 → s.publishCheck (s.ctx i.ctx).part.toNat d ≠ .held) →
              o = .next ((issued s p 1 busy).startPeal p slot i d)))))
    opOk 0x0D w false = true → zeroBits w 48 0 = true → c.seq.anyBusy [reg5 w 52] = false → slot ∉ c.eng.slots →
      op (exec (.reduceScatter p w) s0) 1 ∧ op (exec (.allGather p w) s0) 2 ∧ op (exec (.allReduce p w) s0) 3 ∧ op (exec (.allToAll p w) s0) 4 ∧ op (exec (.broadcast p w) s0) 5 ∧
      op (exec (.put p w) s0) 6 ∧ op (exec (.get p w) s0) 7 ∧ op (exec (.mirrorPut p w) s0) 8 ∧ op (exec (.permute p w) s0) 9 ∧ op (exec (.hostRead p w) s0) 10 ∧ op (exec (.hostWrite p w) s0) 11 ∧
      op (exec (.publish p w) s0) 12 ∧ op (exec (.claim p w) s0) 13 ∧ op (exec (.stepEnd p w) s0) 14

/-! ### Commands (R244 to R259, R367) -/

namespace Sys2Proof.Claims

open Sys2Proof Sys2Proof.Machine

/-- A write goes ahead: the dictionary is served, and nothing of R370, R409, R411, R463 and R468 stands in the way of a write in `range`
by a principal that holds the right. -/
abbrev Open (s : State) (range : Nat) (allowed needsCp : Bool) : Prop :=
  s.hub.ready = true ∧ s.writeGate range allowed needsCp = none

/-- The next state of a write by pr that answers r from state t, the request counted (R452). -/
def answers (pr : Principal) (t : State) (r : BitVec 8) : Out := .next ((t.counted pr r).answer r)

/-- Nobody holds or awaits the queue's write port, no flush is pending, and the pointers' copies agree. -/
abbrev PortFree (m : MsgQueue) : Prop := m.writing = none ∧ m.waiting = [] ∧ m.flush = false ∧ m.mismatch = false

/-- A function may use context c's doorbell page (R244, R268, R271). -/
abbrev PageOf (s : State) (fn : Fin 17) (c : Fin 4096) (ide : Bool) : Prop :=
  s.takesRequest fn.val ide = true ∧ (s.ctx c).life ≠ .free ∧ (fn.val = 0 ∨ fn.val = (s.ctx c).part.toNat + 1)

/-- R245: fetch of the queue's head entry is due, the back-off aside. -/
abbrev Fetches (s : State) (c : Fin 4096) (q : Fin 4) : Prop :=
  (s.ctx c).life = .active ∧ (s.ctx c).pending = none ∧ s.commandsRun = true ∧ (s.ctx c).qEn q = true ∧
    ((s.ctx c).queue q).fetched = none ∧ ((s.ctx c).queue q).parked = false ∧ ((s.ctx c).queue q).head ≠ ((s.ctx c).queue q).tail

/-- What one fetch of a readable head, whose read leaves state t, does when n stale re-fetches will have been made (R245, R246): stale,
malformed or consumed. -/
abbrev FetchEffect (s t : State) (c : Fin 4096) (q : Fin 4) (n : Nat) (o : Out) (b : List Byte) : Prop :=
  let x := s.ctx c
  let k := x.queue q
  (entryPhase b ≠ k.phase → o = .next (t.staleEntry c q n)) ∧
  (entryPhase b = k.phase → t.badEntry x (decodeEntry b) = false →
    o = .next (t.modQueue c q fun k =>
      { k.advance (x.qSize q) with fetched := some { idx := k.head, entry := decodeEntry b, restart := (decodeEntry b).restartable } }).dropIdle) ∧
  (entryPhase b = k.phase → t.badEntry x (decodeEntry b) = true → o = .next (t.fetchFault c q stBAD_COMMAND (some (decodeEntry b))))

end Sys2Proof.Claims

/-- R244, R245, R254: on a doorbell page that the function may use, a write of a TAIL sets it and ends a back-off and the wait after
DOORBELL_AHEAD, a write of SEMSEL keeps the semaphore number, SEM_ADD adds bits [31:0] to the semaphore that bits [43:32] name, and a
write of any other offset keeps nothing; on another page all are dropped. -/
def Sys2Proof.Claims.DoorbellPageWritesReachQueuesAndSemaphores : Prop :=
  ∀ (s : State) (fn : Fin 17) (c : Fin 4096) (off : BitVec 12) (v : W64) (ide : Bool),
    let sem := (s.semAdd (s.ctx c).part.toNat (fld v 43 32) (fld v 31 0)).dropIdle
    (PageOf s fn c ide →
      (∀ q : Fin 4, off.toNat = 8 * q.val → exec (.doorbell fn c off v ide) s = .next (s.modQueue c q fun k =>
        { k with tail := fld v 15 0 % (s.ctx c).qSize q, parked := false, refetch := none, stale := 0 })) ∧
      (off = 0x108 → exec (.doorbell fn c off v ide) s = .next (s.setCtx c { s.ctx c with semsel := BitVec.ofNat 12 v.toNat })) ∧
      (off = 0x100 → exec (.doorbell fn c off v ide) s = .next sem) ∧
      ((∀ q : Fin 4, off.toNat ≠ 8 * q.val) → off ≠ 0x100 → off ≠ 0x108 → exec (.doorbell fn c off v ide) s = .next s) ∧
      exec (.semAdd fn c v ide) s = .next sem) ∧
    (¬ PageOf s fn c ide → exec (.doorbell fn c off v ide) s = .next s ∧ exec (.semAdd fn c v ide) s = .next s)

/-- R245, R246, R261: a fetch whose entry can be read finds it stale (with a re-fetch 2^n µs later, and DOORBELL_AHEAD after the eighth),
malformed, or consumes it; the head then moves on and its expected phase flips at the ring's end. An entry that cannot be read faults its
context at fetch. -/
def Sys2Proof.Claims.FetchConsumesOnAMatchingPhase : Prop :=
  (∀ (s : State) (c : Fin 4096) (q : Fin 4) (d : List Byte) (m : List EccHit), Fetches s c q →
    let o := s.readEntry c q d m
    (((s.ctx c).queue q).refetch = none →
      (∀ b, o.1 = .ok b → FetchEffect s o.2 c q 0 (exec (.commandFetch c q d m) s) b) ∧
      (∀ st, o.1 = .fault st → exec (.commandFetch c q d m) s = .next (o.2.fetchFault c q st none))) ∧
    (∀ t, ((s.ctx c).queue q).refetch = some t → t ≤ s.now →
      (∀ b, o.1 = .ok b → FetchEffect s o.2 c q (((s.ctx c).queue q).stale + 1) (exec (.refetchTimer c q d m) s) b) ∧
      (∀ st, o.1 = .fault st → exec (.refetchTimer c q d m) s = .next (o.2.fetchFault c q st none)))) ∧
  (∀ (s : State) (c q n : Nat),
    let x := s.ctx c
    (n < 8 → s.staleEntry c q n = s.modQueue c q fun k => { k with stale := n, refetch := some (s.now + 1000 * 2 ^ n) }) ∧
    (8 ≤ n → s.staleEntry c q n = (s.modQueue c q fun k => { k with stale := 0, refetch := none, parked := true }).statusEvent x.part.toNat 1
      stDOORBELL_AHEAD (some x.part.toNat) (some (c, q)) (x.queue q).head)) ∧
  (∀ k : CmdQueue, ∀ n, k.head + 1 < n → (k.advance n).head = k.head + 1 ∧ (k.advance n).phase = k.phase) ∧
  (∀ k : CmdQueue, (k.advance (k.head + 1)).head = 0 ∧ (k.advance (k.head + 1)).phase = !k.phase)

/-- R244, R245, R254: on a doorbell page that the function may use, a write of a TAIL sets it and ends a back-off and the wait after
DOORBELL_AHEAD, a write of SEMSEL keeps the semaphore number, SEM_ADD adds bits [31:0] to the semaphore that bits [43:32] name, and a
write of any other offset keeps nothing; on another page all are dropped. R245, R246, R261: a fetch whose entry can be read finds it stale
(with a re-fetch 2^n µs later, and DOORBELL_AHEAD after the eighth), malformed, or consumes it; the head then moves on and its expected
phase flips at the ring's end. An entry that cannot be read faults its context at fetch. -/
def Obligations.DoorbellsReachFetch : Prop := DoorbellPageWritesReachQueuesAndSemaphores ∧ FetchConsumesOnAMatchingPhase


/-- R249, R250: when the head of a queue may issue: its context runs, no earlier command of the context shares a range with it that one
of the two writes, its waits are met, and its queue has fewer than 8 issued. -/
def Sys2Proof.Claims.IssueWaitsForHazardsAndSemaphores : Prop :=
  ∀ (s : State) (c q : Nat),
    s.issuable c q = true ↔ ∃ f, ((s.ctx c).queue q).fetched = some f ∧ (s.ctx c).life = .active ∧ (s.ctx c).pending = none ∧
      s.commandsRun = true ∧ (s.ctx c).skipTil ≤ s.now ∧
      (∀ i ∈ s.disp.issued, i.ctx = c →
        (∀ x ∈ f.entry.reads ++ f.entry.writes, ∀ y ∈ i.entry.writes, rangesMeet x y = false) ∧
        (∀ x ∈ f.entry.writes, ∀ y ∈ i.entry.reads, rangesMeet x y = false)) ∧
      (∀ w ∈ f.entry.waits, w.2 ≤ (sget 0 (s.part (s.ctx c).part.toNat).sems w.1).toNat) ∧
      (s.disp.issued.filter fun i => i.ctx == c && i.queue == q).length < 8

/-- R95, R250, R251, R257, R259, R262: a RUN whose head may issue, has its cores and is the one that the arbiter of its class grants leaves the queue
and starts its gang, a slice open; where the debt consumes the slice, it is skipped, and the grant is not used (by the model's choice, log entry 62);
a MARK leaves the queue and has ended. -/
def Sys2Proof.Claims.RunStartsItsGangAndMarkEnds : Prop :=
  ∀ (s : State) (c : Fin 4096) (q : Fin 4) (f : Fetched), ((s.ctx c).queue q).fetched = some f → s.issuable c q = true →
    let x := s.ctx c
    (f.entry.opc = 1 → s.rerunWaits x.part.toNat (latencyCritical x f.entry) = false → s.mayPlace c f.entry = true →
      ∀ gang, s.placement c f.entry f.restart = some gang → s.runGrant c q (latencyCritical x f.entry) = true →
        (x.sliceNs ≤ x.debt → exec (.run c q) s =
          .next (s.setCtx c { x with debt := x.debt - x.sliceNs, skipTil := s.now + x.sliceNs }).dropIdle) ∧
        (x.debt < x.sliceNs →
        let s1 := ((s.takeGrant c q (latencyCritical x f.entry)).setCtx c { x with debt := 0 }).issueHead c q f gang .running (x.sliceNs - x.debt)
        exec (.run c q) s = .next ((s1.noteUsed c gang).startGang s.disp.nextUid gang f.entry.prog f.entry.args).dropIdle)) ∧
    (f.entry.opc = 2 → exec (.mark c q) s = .next (s.issueHead c q f [] .ended 0).dropIdle)

/-- R251: a gang takes the free cores of lowest logical number in the quadrants that QMASK allows. -/
def Sys2Proof.Claims.PlacementTakesTheLowestFreeCores : Prop :=
  ∀ (s : State) (c : Nat) (e : CmdEntry) (restart : Bool) (gang : List Nat), s.placement c e restart = some gang →
    gang = (s.freeCores (s.ctx c).part.toNat e.qmask).take e.gang ∧ gang.length = e.gang ∧
    (∀ p ∈ gang, (s.core p).run = none ∧ (s.core p).life = .opened ∧
      ∃ k < 64, (s.part (s.ctx c).part.toNat).cores.getLsbD k = true ∧ (s.mapAt k).toNat = p ∧
        (e.qmask = 0 ∨ e.qmask.getLsbD (k / 16) = true)) ∧
    s.reserved c e restart + e.gang ≤ (s.freeCores (s.ctx c).part.toNat 0).length

/-- R249, R250: when the head of a queue may issue: its context runs, no earlier command of the context shares a range with it that one of
the two writes, its waits are met, and its queue has fewer than 8 issued. R95, R250, R251, R257, R259, R262: a RUN whose head may issue,
has its cores and is the one that the arbiter of its class grants leaves the queue and starts its gang, a slice open; where the debt
consumes the slice, it is skipped, and the grant is not used (by the model's choice, log entry 62); a MARK leaves the queue and has ended.
R251: a gang takes the free cores of lowest logical number in the quadrants that QMASK allows. Where the spec leaves a point open, the
statement takes the choice of the model (log entries 16 and 62). -/
def Obligations.RunStartsWhereItMayIssue : Prop := IssueWaitsForHazardsAndSemaphores ∧ RunStartsItsGangAndMarkEnds ∧ PlacementTakesTheLowestFreeCores


/-- R213, R252, R253: a queue's oldest command that has ended, with its record's place ready, the walk for it having met the errors that stand in the
table words, commits: its peals' effects, its record with the
next CSEQ and the status of R13, its semaphore releases, its interrupt; it is gone and its context settles. -/
def Sys2Proof.Claims.CommitActsInOrder : Prop :=
  ∀ (s0 : State) (c : Fin 4096) (q : Fin 4) (i : Issued), s0.oldest c q = some i → i.stage = .ended → (s0.ctx c).pending = none →
    s0.damper.shutdown = false →
    let s := s0.meetRecord c i.entry
    (s.recordReady c i.entry = .ok () →
      let n := (s.ctx i.ctx).part.toNat
      let s1 := (s.commitPeals i.uid).completeEntry i.ctx i.queue i.idx i.entry i.status i.flags false i.reruns
      let s2 := i.entry.rels.foldl (fun s r => s.semAdd n r.1 r.2) s1
      let s3 := match i.entry.irq with
        | some v => s2.msix (fnOfPart n) v
        | none => s2
      exec (.commit c q) s0 = .next ((s3.delCmd i.uid).settle i.ctx).runMeasures.dropIdle) ∧
    (∀ st, s.recordReady c i.entry = .fault st → exec (.commit c q) s0 = .next (s.faultCmd i.uid st)) ∧
    (s.recordReady c i.entry = .held → exec (.commit c q) s0 = .next s)

/-- R13: the STATUS of a command that commits is the largest code that applies. -/
def Sys2Proof.Claims.CommitStatusIsTheLargestCode : Prop :=
  ∀ (i : Issued),
    (i.flags.getLsbD 5 = true → i.status = 0x0601) ∧
    (i.flags.getLsbD 5 = false → i.restart = false → i.status = 0x0303) ∧
    (i.flags.getLsbD 5 = false → i.restart = true → 0 < i.reruns → i.status = 0x0302) ∧
    (i.flags.getLsbD 5 = false → i.restart = true → i.reruns = 0 → i.status = 0)

/-- R213, R252, R253: a queue's oldest command that has ended, with its record's place ready, the walk for it having met the errors that
stand in the table words, commits: its peals' effects, its record with the next CSEQ and the status of R13, its semaphore releases, its
interrupt; it is gone and its context settles. R13: the STATUS of a command that commits is the largest code that applies. Where the spec
leaves a point open, the statement takes the choice of the model (log entry 40). -/
def Obligations.CommitActsInOrderWithItsStatus : Prop := CommitActsInOrder ∧ CommitStatusIsTheLargestCode


/-- R257 to R259: at a slice's close an uncontended command gets a new slice, a contended restartable one is killed, and a contended other
one runs on its allowance from the close; a killed command gives its cores back; an allowance that has closed is OVERRUN. -/
def Sys2Proof.Claims.SlicesCloseByTheirRules : Prop :=
  ∀ (s : State) (uid : Nat) (i : Issued), s.cmd uid = some i →
    let x := s.ctx i.ctx
    let close := i.sliceAt + i.sliceLen
    (i.stage = .running → i.allow = none → close ≤ s.now →
      (s.contended i = false → x.debt < x.sliceNs →
        exec (.sliceClose uid) s = .next ((s.setCtx i.ctx { x with debt := 0 }).modCmd uid fun i =>
          { i with sliceAt := close, sliceLen := x.sliceNs - x.debt })) ∧
      (s.contended i = true → i.restart = true → exec (.sliceClose uid) s = .next (s.killCmd uid)) ∧
      (s.contended i = true → i.restart = false → exec (.sliceClose uid) s = .next (s.modCmd uid fun i => { i with allow := some close }))) ∧
    (i.stage = .killing →
      exec (.killComplete uid) s = .next ((s.releaseGang uid i.gang).modCmd uid fun i => { i with stage := .waitRerun, gang := [] })) ∧
    (∀ t, i.stage = .running → i.allow = some t →
      (t + x.ovrNs ≤ s.now → exec (.overrun uid) s = .next (s.faultCmd uid stOVERRUN)) ∧
      (s.now < t + x.ovrNs → exec (.overrun uid) s = .next s))

/-- R258, R367: a killed command that finds its cores again starts afresh on them with its own entry, gang semaphores at zero, one more
re-run counted; a choked one whose gang no longer fits its partition ends with BAD_COMMAND. -/
def Sys2Proof.Claims.RerunStartsAfresh : Prop :=
  ∀ (s : State) (uid : Nat) (i : Issued), s.cmd uid = some i → i.stage = .waitRerun →
    let x := s.ctx i.ctx
    let n := x.part.toNat
    let lc := latencyCritical x i.entry
    x.pending = none → s.commandsRun = true → x.skipTil ≤ s.now →
    (i.choked = true → (s.mappedCores n i.entry.qmask).length < i.entry.gang → exec (.rerun uid) s = .next (s.faultCmd uid stBAD_COMMAND)) ∧
    (i.entry.gang ≤ (s.mappedCores n i.entry.qmask).length → (s.rerunWaits n lc = false ∨ i.choked = true) → s.mayPlace i.ctx i.entry = true →
      ∀ gang, s.placement i.ctx i.entry i.restart = some gang → x.debt < x.sliceNs →
        let s1 := (s.setCtx i.ctx { x with debt := 0, reruns := satAdd 64 x.reruns 1 }).modCmd uid fun i =>
          { i with gang := gang, ended := [], gsems := [], stage := .running, sliceAt := s.now, sliceLen := x.sliceNs - x.debt, allow := none,
                   reruns := i.reruns + 1, choked := false }
        exec (.rerun uid) s = .next ((s1.noteUsed i.ctx gang).startGang uid gang i.entry.prog i.entry.args).dropIdle)

/-- R257 to R259: at a slice's close an uncontended command gets a new slice, a contended restartable one is killed, and a contended other
one runs on its allowance from the close; a killed command gives its cores back; an allowance that has closed is OVERRUN. R258, R367: a
killed command that finds its cores again starts afresh on them with its own entry, gang semaphores at zero, one more re-run counted; a
choked one whose gang no longer fits its partition ends with BAD_COMMAND. Where the spec leaves a point open, the statement takes the
choice of the model (log entries 40 and 62). -/
def Obligations.SlicesCloseAndRerunsStart : Prop := SlicesCloseByTheirRules ∧ RerunStartsAfresh


/-! ### Contexts and partitions (R240, R241, R260, R266) -/

namespace Sys2Proof.Claims

open Sys2Proof Sys2Proof.Machine

/-- A principal may act by CTX_OP on the context it has selected, and the write goes ahead. -/
abbrev ActsOn (s : State) (pr : Principal) (destroy : Bool) : Prop := Open s 0 (s.mayOp pr destroy) false

end Sys2Proof.Claims

/-- R241: the operations of CTX_OP and the states between which they move a context; each is REFUSED in every other state. DESTROY leaves
the context in TEARDOWN toward FREE, without issued commands, seals and waiting MEASUREs and without completion records; after a thermal
shutdown the walk of its tables waits, and meets no error. Where the spec leaves a point open, the statement takes the choice of the model
(log entry 45). -/
def Obligations.ContextOperationsFollowTheirStates : Prop :=
  ∀ (s : State) (pr : Principal),
    let c := s.selected pr
    let x := s.ctx c
    (ActsOn s pr false →
      (x.life = .free → x.part.toNat < 16 → x.valid = true → s.overReserved c = false → s.ctxsHeld x.part.toNat < (s.part x.part.toNat).ctxQuota →
        (s.part x.part.toNat).resetState ≠ 1 → s.sec.lc ≠ .blank →
        exec (.create pr) s = answers pr (s.setCtx c { x with
          life := .active, starve := 0, debt := 0, skipTil := 0, reruns := 0, queues := [], pending := none, owed := [], used := [] }).dropIdle rOK) ∧
      (x.life ≠ .free ∨ x.valid = false ∨ s.overReserved c = true ∨ (s.part x.part.toNat).ctxQuota ≤ s.ctxsHeld x.part.toNat →
        exec (.create pr) s = answers pr s rREFUSED) ∧
      (x.life = .active → exec (.stop pr) s = answers pr ((s.setCtx c { x with life := .stopping }).settle c).dropIdle rOK) ∧
      (x.life ≠ .active → exec (.stop pr) s = answers pr s rREFUSED) ∧
      (x.life = .stopped → x.valid = true → s.overReserved c = false →
        exec (.ctxResume pr) s = answers pr (s.setCtx c { x with life := .active }).dropIdle rOK) ∧
      (x.life ≠ .stopped → exec (.ctxResume pr) s = answers pr s rREFUSED) ∧
      (x.life = .faulted → exec (.ctxReset pr) s = answers pr (s.setCtx c
        { (List.range 4).foldl (fun x q => x.setQueue q (x.queue q).rewind) x with life := .stopped }) rOK) ∧
      (x.life ≠ .faulted → exec (.ctxReset pr) s = answers pr s rREFUSED)) ∧
    (ActsOn s pr true →
      (x.life ≠ .free → exec (.destroy pr) s = answers pr (s.destroy c) rOK) ∧ (x.life = .free → exec (.destroy pr) s = answers pr s rREFUSED)) ∧
    (x.life = .teardown → s.destroy c = s.setCtx c { x with toFree := true, pending := none, owed := [] }) ∧
    (s.damper.shutdown = true → x.life ≠ .free → x.life ≠ .teardown →
      (∃ j ∈ (s.destroy c).mem.wipes, j.why = .teardown c) ∧ (s.destroy c).mem.latent = s.mem.latent) ∧
    (x.life ≠ .free → x.life ≠ .teardown →
      let t := s.destroy c
      (t.ctx c).life = .teardown ∧ (t.ctx c).toFree = true ∧ (t.ctx c).seals = [] ∧ (t.ctx c).owed = x.owed ∧
        (∀ i ∈ t.disp.issued, i.ctx ≠ c) ∧ ∀ j ∈ t.sec.measures, j.ctx ≠ c)

/-- R241, R260, R261: a pending fault drops the context's commands with their records and tears it down at once; when its wipes have ended, those
of its pages and of its cores' scratchpads, and its records are posted, those owed among them (by the model's choice, log entry 71), the context is FAULTED with the status and its event, or FREE with the reset record; its hazard ranges are
released, and MEASUREs that waited for them go on. -/
def Sys2Proof.Claims.TeardownEndsFaultedOrFree : Prop :=
  ∀ (s : State) (c : Fin 4096),
    let x := s.ctx c
    (∀ f, x.pending = some f → x.life = .active ∨ x.life = .stopping ∨ x.life = .stopped →
      exec (.contextTeardown c) s = .next (((s.dropCommands c (some f.status) f.uid).fetchRecord c f).teardown c false none none)) ∧
    (x.life = .teardown →
      let s := s.payOwed c
      let x := s.ctx c
      let n := x.part.toNat
      x.life = .teardown → (∀ j ∈ s.mem.wipes, j.why ≠ .teardown c) → (∀ p ∈ x.used, (s.core p).wipeDue = false) → x.owed = [] →
      (∀ f, x.toFree = false → x.pending = some f →
        exec (.teardownEnd c) s = .next ((s.setCtx c { x with life := .faulted, fault := f.status, pending := none, used := [], torn := [] }).statusEvent
          n 5 f.status (some n) (some (c.val, f.queue)) (f.idx + b2n f.atFetch * 2 ^ 16)).runMeasures) ∧
      (x.toFree = true →
        exec (.teardownEnd c) s = .next ((s.setCtx c { x with
          life := .free, toFree := true, record := Ctx.recordReset, ptbase := 0, queues := [], pending := none, seals := [],
          used := [], torn := [] }).finishPartReset n).serveHeld.runMeasures))

/-- R266: a partition reset leaves every context of the partition FREE or in TEARDOWN; its semaphores and backlog are empty, and so is an
event queue of which no packet was partly written or read and whose pointers' copies agreed; its log is clear, its slabs have WIPE set, and the state is running or done. -/
def Sys2Proof.Claims.PartitionResetClearsThePartition : Prop :=
  ∀ (s : State) (pr : Principal) (n : Fin 16), Open s 0 (prHost pr || prCp pr || prOwns pr n.val) false → (s.part n).resetState ≠ 1 →
    exec (.partReset pr n 1) s = answers pr (s.resetPart n) rOK ∧
    let t := s.resetPart n
    ((t.part n).sems = [] ∧ (t.part n).backlogCount = 0 ∧ ((t.part n).resetState = 1 ∨ (t.part n).resetState = 2) ∧ t.mlog n = [] ∧
      t.logHash n = zeros64 ∧
      ((s.mqueue n).writing = none → (s.mqueue n).reading = none → (s.mqueue n).waiting = [] → (s.mqueue n).mismatch = false → (t.mqueue n).pkts = []) ∧
      (∀ c, (s.ctx c).part.toNat = n.val → (t.ctx c).life = .free ∨ (t.ctx c).life = .teardown) ∧
      (∀ k, s.slabLife k = .assigned → (s.slab k).owner.toNat = n.val → (t.slab k).wipe = true))

/-- R241, R260, R261: a pending fault drops the context's commands with their records and tears it down at once; when its wipes have
ended, those of its pages and of its cores' scratchpads, and its records are posted, those owed among them (by the model's choice, log
entry 71), the context is FAULTED with the status and its event, or FREE with the reset record; its hazard ranges are released, and
MEASUREs that waited for them go on. R266: a partition reset leaves every context of the partition FREE or in TEARDOWN; its semaphores and
backlog are empty, and so is an event queue of which no packet was partly written or read and whose pointers' copies agreed; its log is
clear, its slabs have WIPE set, and the state is running or done. Where the spec leaves a point open, the statement takes the choice of
the model (log entry 41). -/
def Obligations.TeardownsAndResetsClear : Prop := TeardownEndsFaultedOrFree ∧ PartitionResetClearsThePartition


/-! ### Tolls and chokes (R99, R100, R363 to R369) -/

/-- R99 to R101, R230, R371: at a prompt a busy core is asked; its issue stage answers with its toll on its quadrant's queue and starts its counts
again; the answer of a core choked meanwhile is dropped and counted (R101). The hub's checker takes the oldest toll: one with a stale epoch is
dropped and counted, any other counts for its interval, after two silent ones that have closed by its timestamp have been found as a fault of cause
6, and its WAIT_FRAC joins the slack of the partitions of PEAL_PARTS (R371) unless its word
is poisoned. -/
def Sys2Proof.Claims.TollsAnswerPrompts : Prop :=
  ∀ (s : State) (p : Fin 68) (q : Fin 4),
    let c := s.core p
    let m := s.mqueue (24 + q.val)
    (c.run.isSome = true → c.life = .opened → c.toll.promptAt < s.now / 64000 →
      exec (.tollPrompt p) s = .next (s.setCore p { c with toll := { c.toll with prompted := true, promptAt := s.now / 64000 } })) ∧
    (c.run.isSome = true → c.life = .opened → c.toll.prompted = true → c.seq.halted = false →
      exec (.toll p) s = .next ((s.post (24 + p.val / 17) [tollWord p c] (unitToll p)).setCore p
        { c with toll := { c.toll with prompted := false, steps := 0, waitSteps := 0 } })) ∧
    (c.life = .choked → c.toll.prompted = true →
      exec (.toll p) s = .next ((s.setCore p { c with toll := { c.toll with prompted := false } }).dropAtPort p 1)) ∧
    (∀ k r x, m.pkts = k :: r → m.flush = false → m.reading = none → m.mismatch = false → k.words = [x] → x.torn = false →
      (∀ y, k.len = some y → y.bad = false ∧ y.torn = false) →
      let s1 := (s.setQueue (24 + q.val) (m.taken (24 + q.val) 1 k)).settleQueue (24 + q.val)
      let n := fld x.data 6 0
      let d := s1.core n
      let silent := d.run.isSome && d.fault.isNone && decide (d.toll.tollAt + 3 ≤ k.time / 64000)
      let s1' := if silent then s1.setCore n { d with fault := some { cause := 6, time := s1.now } } else s1
      let d' := s1'.core n
      let s2 := s1'.setCore n { d' with toll := { d'.toll with tollAt := max d'.toll.tollAt (k.time / 64000) } }
      let w := fld x.data 63 48
      (68 ≤ n → exec (.tollCheck q []) s = .next s1) ∧
      (n < 68 → d.epoch.toNat ≠ fld x.data 31 24 ∨ d.life ≠ .opened → exec (.tollCheck q []) s = .next (s1.dropAtPort n 1)) ∧
      (n < 68 → d.epoch.toNat = fld x.data 31 24 → d.life = .opened →
        (x.bad = true ∨ s2.cmdOf n = none → exec (.tollCheck q []) s = .next s2) ∧
        (x.bad = false → ∀ i slot, s2.cmdOf n = some (i, slot) →
          exec (.tollCheck q []) s = .next (if s2.peal.parts.getLsbD (s2.ctx i.ctx).part.toNat then
            { s2 with
              car := { s2.car with slackSum := s2.car.slackSum + w, slackN := s2.car.slackN + 1 }
              damper := { s2.damper with slackSum := s2.damper.slackSum + w, slackN := s2.damper.slackN + 1 } }
            else s2)))) ∧
    (m.pkts = [] → ∀ u, exec (.tollCheck q u) s = .next s)

/-- R100, R363, R364: two intervals closed without a toll, and a handshake unanswered for STALL_LIMIT, are core faults of causes 6 and 5. -/
def Sys2Proof.Claims.SilentCoresAreFaulty : Prop :=
  ∀ (s : State) (p : Fin 68) (since : Nat),
    let c := s.core p
    c.life = .opened → c.fault = none →
    (c.run.isSome = true →
      (c.toll.tollAt + 3 ≤ s.now / 64000 → exec (.missedTolls p) s = .next (s.setCore p { c with fault := some { cause := 6, time := s.now } })) ∧
      (s.now / 64000 < c.toll.tollAt + 3 → exec (.missedTolls p) s = .next s)) ∧
    (since + s.disp.stallLimit * 1000 ≤ s.now →
      exec (.stallWatchdog p since) s = .next (s.setCore p { c with fault := some { cause := 5, time := s.now } })) ∧
    (s.now < since + s.disp.stallLimit * 1000 → exec (.stallWatchdog p since) s = .next s)

/-- R99 to R101, R230, R371: at a prompt a busy core is asked; its issue stage answers with its toll on its quadrant's queue and starts
its counts again; the answer of a core choked meanwhile is dropped and counted (R101). The hub's checker takes the oldest toll: one with a
stale epoch is dropped and counted, any other counts for its interval, after two silent ones that have closed by its timestamp have been
found as a fault of cause 6, and its WAIT_FRAC joins the slack of the partitions of PEAL_PARTS (R371) unless its word is poisoned. R100,
R363, R364: two intervals closed without a toll, and a handshake unanswered for STALL_LIMIT, are core faults of causes 6 and 5. Where the
spec leaves a point open, the statement takes the choice of the model (log entry 38). -/
def Obligations.CoresAreHeardOrFaulty : Prop := TollsAnswerPrompts ∧ SilentCoresAreFaulty


/-- R17, R101, R365, R366, R369, R484: a choke leaves the core CHOKED and running nothing, with its cause, its count and its next epoch, out of the
map, and with the requests and deliveries that met its closed port counted; its packet goes to the choke channel, its record to the fault queue and
its event to the partition of its command or slot: they carry the cause, the core, its slot, the epoch, the core that took the slot, and the time at
which the fault was found. A device in reset chokes none. CORE_CHOKE does it to an OPEN core with cause 7 and returns a PASSED one to CHOKED;
CORE_READMIT opens a PASSED core and maps it. -/
def Sys2Proof.Claims.ChokeClosesACoreAndReadmitOpensIt : Prop :=
  ∀ (s : State) (p : Fin 68) (cause : BitVec 8) (drops : Nat) (pr : Principal) (v : BitVec 8),
    let c := s.core p
    let f := c.fault.getD { cause := cause, time := s.now }
    (s.alive = false ∨ c.life ≠ .opened → exec (.choke p cause drops) s = .next s) ∧
    (s.alive = true → c.life = .opened → 1 ≤ f.cause.toNat → f.cause.toNat ≤ 6 →
      exec (.choke p cause drops) s = .next (s.choke p f.cause.toNat f.time drops).dropIdle ∧
      let d := (s.choke p f.cause.toNat f.time drops).core p
      (d.life = .choked ∧ d.run = none ∧ d.fault = none ∧ d.epoch = c.epoch + 1 ∧ d.cause = f.cause ∧
        d.portDrops.toNat = satAdd 64 c.portDrops.toNat drops)) ∧
    (∀ kind time : Nat,
      let t := s.choke p kind time drops
      let slot := s.slotOf p
      let cmd := (s.cmdOf p).map Prod.fst
      let taker := match slot with
        | some _ => s.spareOf (p.val / 17)
        | none => 0xFF
      let words := chokeWords time p kind slot taker (c.epoch + 1) cmd
      let carried (q : Nat) (w : List W64) : Prop := (t.mqueue q).pkts.getLast? = some (Packet.make q (s.mqueue q).seq s.now w) ∧
        (t.mqueue q).seq = ((s.mqueue q).seq + 1) % 65536
      (∀ n, t.mapAt n = (s.unmap p).mapAt n) ∧ (∀ q, t.spareOf q = (s.unmap p).spareOf q) ∧
      (t.core p).chokes.toNat = satAdd 32 c.chokes.toNat 1 ∧
      (PortFree (s.mqueue qidChoke) → carried qidChoke words) ∧
      ((s.mqueue (16 + p.val / 17)).mismatch = false →
        (PortFree (s.mqueue qidChoke) → PortFree (s.mqueue qidFault) → carried qidFault words) ∧
        (∀ n < 16, (cmd.map fun i => (s.ctx i.ctx).part.toNat).or (slot.bind s.partOfSlot) = some n →
          PortFree (s.mqueue n) → carried n (words.take 2)))) ∧
    (∀ (time kind core : Nat) (slot : Option Nat) (taker epoch : BitVec 8) (cmd : Option Issued), kind < 256 → core < 68 → slot.getD 0xFF < 256 →
      ∃ w0 w2, chokeWords time core kind slot taker epoch cmd = [w0, w64 time, w2] ∧ fld w0 63 56 = 0x08 ∧ fld w0 55 48 = kind ∧
        fld w0 47 40 = core ∧ fld w0 39 32 = slot.getD 0xFF ∧ fld w0 31 24 = epoch.toNat ∧ fld w0 23 16 = taker.toNat ∧ fld w0 15 0 = 0x0801) ∧
    (Open s 0 (prHost pr || prCp pr) false → v.toNat < 68 →
      let d := s.core v.toNat
      (d.life = .opened → exec (.coreChoke pr v drops) s = answers pr (s.choke v.toNat 7 s.now drops).dropIdle rOK) ∧
      (d.life = .passed → exec (.coreChoke pr v drops) s = answers pr (s.setCore v.toNat { d with life := .choked, cause := 7 }) rOK) ∧
      (d.life = .passed →
        exec (.coreReadmit pr v) s = answers pr ((s.setCore v.toNat { d with life := .opened }).remap v.toNat) rOK) ∧
      (d.life ≠ .passed → exec (.coreReadmit pr v) s = answers pr s rREFUSED))

/-- R17: a re-admitted core takes the lowest vacant slot of its quadrant, or becomes its spare; a core that leaves the map gives its slot to
the spare, or leaves it vacant. -/
def Sys2Proof.Claims.TheSpareTakesTheSlot : Prop :=
  ∀ (s : State) (p n : Nat), p < 68 →
    (s.slotOf p = some n → s.spareOf (p / 17) ≠ 0xFF → (s.unmap p).mapAt n = s.spareOf (p / 17) ∧ (s.unmap p).spareOf (p / 17) = 0xFF) ∧
    (s.slotOf p = some n → s.spareOf (p / 17) = 0xFF → (s.unmap p).mapAt n = 0xFF ∧ (s.unmap p).spareOf (p / 17) = 0xFF) ∧
    (16 * (p / 17) ≤ n → n < 16 * (p / 17) + 16 → s.mapAt n = 0xFF → (∀ k, 16 * (p / 17) ≤ k → k < n → s.mapAt k ≠ 0xFF) →
      (s.remap p).mapAt n = BitVec.ofNat 8 p ∧ ∀ q, (s.remap p).spareOf q = s.spareOf q) ∧
    ((∀ k, 16 * (p / 17) ≤ k → k < 16 * (p / 17) + 16 → s.mapAt k ≠ 0xFF) →
      (s.remap p).spareOf (p / 17) = BitVec.ofNat 8 p ∧ ∀ k, (s.remap p).mapAt k = s.mapAt k)

/-- R17, R101, R365, R366, R369, R484: a choke leaves the core CHOKED and running nothing, with its cause, its count and its next epoch,
out of the map, and with the requests and deliveries that met its closed port counted; its packet goes to the choke channel, its record to
the fault queue and its event to the partition of its command or slot: they carry the cause, the core, its slot, the epoch, the core that
took the slot, and the time at which the fault was found. A device in reset chokes none. CORE_CHOKE does it to an OPEN core with cause 7
and returns a PASSED one to CHOKED; CORE_READMIT opens a PASSED core and maps it. R17: a re-admitted core takes the lowest vacant slot of
its quadrant, or becomes its spare; a core that leaves the map gives its slot to the spare, or leaves it vacant. -/
def Obligations.ChokedCoresGiveTheirSlotUp : Prop := ChokeClosesACoreAndReadmitOpensIt ∧ TheSpareTakesTheSlot


/-! ### Arbitration (R262, R263) -/

namespace Sys2Proof.Claims

open Sys2Proof Sys2Proof.Machine

/-- Inputs of an arbiter that ask, in rising order, each with its population. -/
abbrev Asking (asks : List (Nat × Nat)) : Prop := asks ≠ [] ∧ asks.Pairwise (fun x y => x.1 < y.1) ∧ ∀ x ∈ asks, 0 < x.2

/-- The grants of an arbiter whose inputs go on asking. -/
def grants (asks : List (Nat × Nat)) : Nat → Arbiter → List Nat
  | 0, _ => []
  | n + 1, a => match a.pick asks with
    | some i => i :: grants asks n (a.grant asks i)
    | none => []

end Sys2Proof.Claims

/-- R262, R263: an arbiter gives the asking inputs their populations as credit once none of them has credit left; it grants one of them with
credit, the first after the last granted, and takes one credit from it; an input that does not ask has none. While its inputs go on asking, each is
granted within two rounds of its population of its share: within 2 grants for a leaf source. -/
def Obligations.ArbitersShareByPopulation : Prop :=
  ∀ (a : Arbiter) (asks : List (Nat × Nat)), Asking asks →
    let total := (asks.map Prod.snd).sum
    (∀ x ∈ asks, sget 0 (a.fill asks) x.1 = if ∀ y ∈ asks, sget 0 a.credit y.1 = 0 then x.2 else sget 0 a.credit x.1) ∧
    (∀ j, (∀ x ∈ asks, x.1 ≠ j) → sget 0 (a.fill asks) j = 0) ∧
    (∃ x ∈ asks, a.pick asks = some x.1 ∧ 0 < sget 0 (a.fill asks) x.1 ∧
      (∀ y ∈ asks, 0 < sget 0 (a.fill asks) y.1 → ∀ l, a.last = some l → (l < y.1 → l < x.1 ∧ x.1 ≤ y.1) ∧ (x.1 ≤ l → x.1 ≤ y.1)) ∧
      (a.grant asks x.1).last = some x.1 ∧
      ∀ j, sget 0 (a.grant asks x.1).credit j = sget 0 (a.fill asks) j - if j = x.1 then 1 else 0) ∧
    (∀ n, (grants asks n a).length = n) ∧
    ((∀ x ∈ asks, sget 0 a.credit x.1 ≤ x.2) → ∀ n, ∀ x ∈ asks,
      (grants asks n a).count x.1 * total ≤ n * x.2 + 2 * x.2 * total ∧ n * x.2 ≤ (grants asks n a).count x.1 * total + 2 * x.2 * total)

/-! ### Slabs, wipes and errors (R203 to R217) -/

namespace Sys2Proof.Claims

open Sys2Proof Sys2Proof.Machine

/-- R205: the slabs of a SLAB_OP request all exist. -/
abbrev SlabRequest (v : W64) : Prop := slabFirst v + slabCount v ≤ 65536

/-- HOST writes SLAB_OP, the write goes ahead and no operation runs. -/
abbrev SlabOpen (s : State) (pr : Principal) : Prop := Open s 0 (prHost pr) false ∧ s.mem.opState ≠ 1

/-- The state t is s but for the entries of the slabs in the request, which f has changed, and SLAB_OP_STATE. -/
abbrev SlabsChanged (s t : State) (v : W64) (f : SlabEntry → SlabEntry) : Prop :=
  (∀ k ∈ slabRangeOf v, t.slab k = f (s.slab k)) ∧ (∀ k, k ∉ slabRangeOf v → t.slab k = s.slab k) ∧ t.mem.bytes = s.mem.bytes ∧
    t.mem.poison = s.mem.poison ∧ t.cores = s.cores ∧ t.disp = s.disp

end Sys2Proof.Claims

/-- R10, R205, R206: whatever the request's reserved bits hold, ASSIGN, SET_WBIAS and SET_CHX change the entries of their slabs and are DONE at once; RELEASE also frees or retires the
slabs and queues their wipes, and is BUSY. -/
def Sys2Proof.Claims.SlabOperationsChangeTheirSlabs : Prop :=
  ∀ (s : State) (pr : Principal) (v : W64), SlabOpen s pr → SlabRequest v →
    let n := fld v 59 56
    (fld v 55 54 ≠ 3 → (∀ k ∈ slabRangeOf v, s.slabLife k = .free ∧ ∀ st ∈ s.bist.hbmRunning, s.slabUses k st = false) →
      s.slabsHeld n + slabCount v ≤ sget 0 s.mem.quota n →
      ∃ t, exec (.assign pr v) s = answers pr t rOK ∧ t.mem.opState = 2 ∧
        SlabsChanged s t v fun e => { e with life := .assigned, owner := BitVec.ofNat 4 n, wbias := BitVec.ofNat 2 (fld v 55 54), chx := bitN v 53 }) ∧
    ((∀ k ∈ slabRangeOf v, s.slabLife k = .assigned) →
      (∃ t, exec (.release pr v) s = answers pr t rOK ∧ t.mem.opState = 1 ∧ t.mem.opSlabs = slabRangeOf v ∧
        t.mem.wipes = s.mem.wipes ++ ((slabRangeOf v).map fun n => { base := n * 2 ^ 25, len := 2 ^ 25, why := .release, running := false }) ∧
        SlabsChanged s t v fun e => { e with wipe := true, life := if e.rp then .retired else .free }) ∧
      (fld v 55 54 ≠ 3 → ∃ t, exec (.setWbias pr v) s = answers pr t rOK ∧ t.mem.opState = 2 ∧
        SlabsChanged s t v fun e => { e with wbias := BitVec.ofNat 2 (fld v 55 54) })) ∧
    ((∀ k ∈ slabRangeOf v, s.slabLife k = .free ∧ (s.slab k).wipe = false) →
      ∃ t, exec (.setChx pr v) s = answers pr t rOK ∧ t.mem.opState = 2 ∧ SlabsChanged s t v fun e => { e with chx := bitN v 53 })

/-- R206, R218: a SLAB_OP that breaks a condition is REFUSED, changes no entry, and leaves the first failing slab's reason in SLAB_OP_STATE:
1 not FREE, 2 not ASSIGNED, 3 over the quota, 4 a slab that does not exist, 6 a wipe not ended, and 5 for WBIAS 3; while one runs the write is
BUSY. -/
def Sys2Proof.Claims.SlabOperationsRejectWithTheirReason : Prop :=
  ∀ (s : State) (pr : Principal) (v : W64), Open s 0 (prHost pr) false →
    let first := slabFirst v
    let n := fld v 59 56
    let tested (k : Nat) : Bool := s.bist.hbmRunning.any (s.slabUses k)
    (s.mem.opState = 1 → ∀ c ∈ [Instr.assign pr v, .release pr v, .setWbias pr v, .setChx pr v], exec c s = answers pr s rBUSY) ∧
    (s.mem.opState ≠ 1 →
      let rejected (r : Nat) : Out := answers pr (s.setOpState (BitVec.ofNat 16 (r * 256 + 3))) rREFUSED
      (fld v 55 54 = 3 → exec (.assign pr v) s = rejected 5 ∧ exec (.setWbias pr v) s = rejected 5) ∧
      (s.slabLife first ≠ .free → (fld v 55 54 ≠ 3 → exec (.assign pr v) s = rejected 1) ∧ exec (.setChx pr v) s = rejected 1) ∧
      (s.slabLife first ≠ .assigned → exec (.release pr v) s = rejected 2 ∧ (fld v 55 54 ≠ 3 → exec (.setWbias pr v) s = rejected 2)) ∧
      (fld v 55 54 ≠ 3 → s.slabLife first = .free → tested first = false → sget 0 s.mem.quota n < s.slabsHeld n + slabCount v →
        exec (.assign pr v) s = rejected 3) ∧
      (s.slabLife first = .free → (s.slab first).wipe = true → exec (.setChx pr v) s = rejected 6) ∧
      (65536 < first + slabCount v →
        ((∀ k, first ≤ k → k < 65536 → s.slabLife k = .assigned) →
          exec (.release pr v) s = rejected 4 ∧ (fld v 55 54 ≠ 3 → exec (.setWbias pr v) s = rejected 4)) ∧
        ((∀ k, first ≤ k → k < 65536 → s.slabLife k = .free ∧ (s.slab k).wipe = false) → exec (.setChx pr v) s = rejected 4) ∧
        ((∀ k, first ≤ k → k < 65536 → s.slabLife k = .free ∧ tested k = false) → s.slabsHeld n + slabCount v ≤ sget 0 s.mem.quota n →
          fld v 55 54 ≠ 3 → exec (.assign pr v) s = rejected 4)))

/-- R10, R205, R206: whatever the request's reserved bits hold, ASSIGN, SET_WBIAS and SET_CHX change the entries of their slabs and are
DONE at once; RELEASE also frees or retires the slabs and queues their wipes, and is BUSY. R206, R218: a SLAB_OP that breaks a condition
is REFUSED, changes no entry, and leaves the first failing slab's reason in SLAB_OP_STATE: 1 not FREE, 2 not ASSIGNED, 3 over the quota, 4
a slab that does not exist, 6 a wipe not ended, and 5 for WBIAS 3; while one runs the write is BUSY. Where the spec leaves a point open,
the statement takes the choice of the model (log entries 42 and 60). -/
def Obligations.SlabOperationsMeetTheirConditions : Prop := SlabOperationsChangeTheirSlabs ∧ SlabOperationsRejectWithTheirReason


/-- R216, R217: a quadrant's engine begins its oldest wipe when none runs; the end of a wipe leaves zeros and no poison in its bytes and
every other byte as it was, and clears WIPE with the slab's last wipe; after a thermal shutdown none begins or ends (R397). -/
def Sys2Proof.Claims.WipesLeaveZeros : Prop :=
  ∀ (s : State) (q : Fin 4),
    (s.damper.shutdown = true → exec (.slabWipeStart q) s = .next s ∧ exec (.slabWipeEnd q) s = .next s) ∧
    (s.damper.shutdown = false → (∀ j ∈ s.mem.wipes, j.running = true → j.quad ≠ q.val) →
      exec (.slabWipeStart q) s = .next { s with mem := { s.mem with
        wipes := modFirst (fun j => j.quad == q.val) (fun j => { j with running := true }) s.mem.wipes } }) ∧
    (∀ j, (s.mem.wipes.find? fun j => j.running && j.quad == q.val) = some j →
      (s.damper.shutdown = false → exec (.slabWipeEnd q) s = .next (match j.why with
        | .reset n => ((s.endWipe j).finishPartReset n).serveHeld
        | _ => (s.endWipe j).serveHeld)) ∧
      (∀ a, j.base ≤ a → a < j.base + j.len → sget 0 (s.endWipe j).mem.bytes a = 0) ∧
      (∀ a, a < j.base ∨ j.base + j.len ≤ a → sget 0 (s.endWipe j).mem.bytes a = sget 0 s.mem.bytes a) ∧
      (∀ w ∈ (s.endWipe j).mem.poison, w < j.base / 64 ∨ (j.base + j.len) / 64 ≤ w) ∧
      (j.slabWide = true → wipeLeft (s.endWipe j).mem.wipes (j.base / 2 ^ 25) = false → ((s.endWipe j).slab (j.base / 2 ^ 25)).wipe = false))

/-- R213 to R215: while the device is out of reset, its memory trained and no thermal shutdown has come, the patrol scrub moves to the next word
and the code finds the error that stands there, or that has arisen; an error that no read has found stands on. A corrected error is counted in
its slab and stack, an uncorrectable one poisons the word, is counted in its slab and stack, is reported to the partition that owns the slab or to
the fault queue, and retires its row; a slab whose counts reach the limits has its retirement pending. -/
def Sys2Proof.Claims.ScrubCountsAndPoisons : Prop :=
  ∀ (s : State) (q : Fin 4) (e : EccFinding),
    let w := s.scrubNext q (sget 0 s.mem.scrubPos q)
    let pa := q.val * 2 ^ 39 + w * 64
    let s1 := { s with mem := { s.mem with scrubPos := sset 0 s.mem.scrubPos q ((w + 1) % 2 ^ 33) } }
    let fresh := ∀ h ∈ s.mem.latent, h.word ≠ pa / 64
    (s.alive = true → s.hub.trained = true → s.damper.shutdown = false →
      (s.slabLife (pa / 2 ^ 25) = .retired ∨ fresh ∧ e = .clean → exec (.patrolScrub q e) s = .next s1) ∧
      (s.slabLife (pa / 2 ^ 25) ≠ .retired →
        (fresh →
          exec (.patrolScrub q .corrected) s = .next (s1.meetErr { word := pa / 64, bad := false } true) ∧
          exec (.patrolScrub q .uncorrectable) s = .next (s1.meetErr { word := pa / 64, bad := true } true)) ∧
        (∀ h, (s.mem.latent.find? fun h => h.word == pa / 64) = some h → exec (.patrolScrub q e) s = .next (s1.meetErr h true)))) ∧
    (s.alive = false ∨ s.hub.trained = false ∨ s.damper.shutdown = true → exec (.patrolScrub q e) s = .next s) ∧
    (∀ (h : EccHit) (scrub : Bool),
      let s2 := { s with mem := { s.mem with latent := s.mem.latent.filter fun k => k.word != h.word } }
      s.meetErr h scrub = if s.mem.poison.contains h.word then s2
        else if h.bad then s2.uncorrectedError (h.word * 64) else s2.correctedError (h.word * 64) scrub) ∧
    (∀ (segs : List (Nat × Nat)) (h : EccHit), s.mem.latent = [] → h.word ∉ s.mem.poison →
      s.memErrs segs [h] = if segs.any fun g => rangesMeet g (h.word * 64, 64) then
        (if h.bad then s.uncorrectedError (h.word * 64) else s.correctedError (h.word * 64) false)
        else { s with mem := { s.mem with latent := [h] } }) ∧
    (∀ (pa : Nat) (scrub : Bool),
      let owner := if s.slabLife (pa / 2 ^ 25) = .assigned then some (s.slab (pa / 2 ^ 25)).owner.toNat else none
      let q := owner.getD qidFault
      ((s.correctedError pa scrub).slab (pa / 2 ^ 25)).ce = min 4095 ((s.slab (pa / 2 ^ 25)).ce + 1) ∧
      (s.mem.retireCeLimit ≤ min 4095 ((s.slab (pa / 2 ^ 25)).ce + 1) → ((s.correctedError pa scrub).slab (pa / 2 ^ 25)).rp = true) ∧
      (∀ k, sget 0 (s.correctedError pa scrub).mem.stackCe k =
        if k = s.stackOf pa then satAdd 64 (sget 0 s.mem.stackCe k) 1 else sget 0 s.mem.stackCe k) ∧
      ((s.uncorrectedError pa).slab (pa / 2 ^ 25)).ue = min 3 ((s.slab (pa / 2 ^ 25)).ue + 1) ∧
      (1 ≤ (s.slab (pa / 2 ^ 25)).ue → ((s.uncorrectedError pa).slab (pa / 2 ^ 25)).rp = true) ∧
      (∀ k, sget 0 (s.uncorrectedError pa).mem.stackUe k =
        if k = s.stackOf pa then satAdd 32 (sget 0 s.mem.stackUe k) 1 else sget 0 s.mem.stackUe k) ∧
      (PortFree (s.mqueue q) → ((s.uncorrectedError pa).mqueue q).pkts.getLast? = some (Packet.make q (s.mqueue q).seq s.now
        [statusWord0 2 stECC_UNCORRECTED owner none, w64 s.now, w64 (s.stackOf pa * 2 ^ 59 + pa / 64 * 64)])) ∧
      pa / 64 ∈ (s.uncorrectedError pa).mem.poison ∧ s.rowOf pa ∈ (s.uncorrectedError pa).mem.retireList ∧
      (s.rowOf pa ∈ s.mem.ceRows → s.rowOf pa ∈ (s.correctedError pa scrub).mem.retireList))

/-- R216, R217: a quadrant's engine begins its oldest wipe when none runs; the end of a wipe leaves zeros and no poison in its bytes and
every other byte as it was, and clears WIPE with the slab's last wipe; after a thermal shutdown none begins or ends (R397). R213 to R215:
while the device is out of reset, its memory trained and no thermal shutdown has come, the patrol scrub moves to the next word and the
code finds the error that stands there, or that has arisen; an error that no read has found stands on. A corrected error is counted in its
slab and stack, an uncorrectable one poisons the word, is counted in its slab and stack, is reported to the partition that owns the slab
or to the fault queue, and retires its row; a slab whose counts reach the limits has its retirement pending. Where the spec leaves a point
open, the statement takes the choice of the model (log entries 29, 45 and 73). -/
def Obligations.WipesZeroAndScrubCounts : Prop := WipesLeaveZeros ∧ ScrubCountsAndPoisons


/-- R214: of a write to a 64-byte word, a part of a poisoned one is discarded and reported, and a whole one clears the poison; otherwise
the bytes are stored where the write puts them and no other byte changes. -/
def Sys2Proof.Claims.WritesMeetPoisonByTheWord : Prop :=
  ∀ (s : State) (pa : Nat) (d : List Byte),
    (d.length < 64 → pa / 64 ∈ s.mem.poison → s.putWord pa d = s.eccEvent pa) ∧
    (d.length = 64 → pa / 64 ∉ (s.putWord pa d).mem.poison) ∧
    (d.length = 64 ∨ pa / 64 ∉ s.mem.poison →
      (∀ i < d.length, sget 0 (s.putWord pa d).mem.bytes (pa + i) = d.getD i 0) ∧
      (∀ a, a < pa ∨ pa + d.length ≤ a → sget 0 (s.putWord pa d).mem.bytes a = sget 0 s.mem.bytes a))

/-- R204, R211, R216: an access reaches a byte only through a slab that is ASSIGNED to the accessing partition, and no byte under a wipe; a
translation that answers an address has found it so. -/
def Sys2Proof.Claims.TranslationStaysInThePartition : Prop :=
  ∀ (s : State) (c va pa : Nat) (write : Bool), s.translate c va write = .ok pa →
    va < 2 ^ 52 ∧ s.slabLife (pa / 2 ^ 25) = .assigned ∧ (s.slab (pa / 2 ^ 25)).owner.toNat = (s.ctx c).part.toNat ∧
      s.wiping pa = false ∧ pa % 2 ^ 16 = va % 2 ^ 16

/-- R214: of a write to a 64-byte word, a part of a poisoned one is discarded and reported, and a whole one clears the poison; otherwise
the bytes are stored where the write puts them and no other byte changes. R204, R211, R216: an access reaches a byte only through a slab
that is ASSIGNED to the accessing partition, and no byte under a wipe; a translation that answers an address has found it so. Where the
spec leaves a point open, the statement takes the choice of the model (log entry 31). -/
def Obligations.MemoryAccessesKeepTheirBounds : Prop := WritesMeetPoisonByTheWord ∧ TranslationStaysInThePartition


/-! ### Message queues and rings (R220 to R231, R273) -/

namespace Sys2Proof.Claims

open Sys2Proof Sys2Proof.Machine

/-- The slots that the packets of a queue take. -/
def held (qid : Nat) (l : List Packet) : Nat := (l.map (mqSlots qid)).sum

/-- A whole packet, of which nothing has been read, whose slots pass the checks of R228, as the queue's pointers do. -/
abbrev Sound (m : MsgQueue) (k : Packet) : Prop :=
  m.reading = none ∧ m.flush = false ∧ m.mismatch = false ∧ (∀ x ∈ k.words, x.torn = false) ∧ ∀ y, k.len = some y → y.bad = false ∧ y.torn = false

end Sys2Proof.Claims

/-- R101, R220 to R222, R225: a packet that a producer writes to a free port is the newest of its queue and carries its SEQ; the queue discards whole
oldest packets, but not the one being read, counting them, only as far as it must, and never holds more slots than its depth. A producer
whose port another holds waits, and one that may not write writes nothing; a trace packet of a core whose port is closed is dropped there and
counted, at its end. -/
def Sys2Proof.Claims.QueuesKeepTheNewestWholePackets : Prop :=
  ∀ (s : State) (qid : Fin 32) (src pop : Nat) (words : List W64), s.alive = true → 0 < pop →
    let m := s.mqueue qid
    let input := src + 40
    let new := Packet.make qid m.seq s.now words
    let first := if m.reading.isSome then 1 else 0
    let by_ (stop : MqStop) : MqWrite := { src := src, pop := pop, stop := stop, upset := none }
    (s.mayWrite qid words.length (by_ .done) = true → PortFree m → input ∉ m.cut → ∃ t, exec (.mqPacketWrite qid words (by_ .done)) s = .next t ∧
      let u := t.mqueue qid
      (∃ k, u.pkts = m.pkts.take first ++ (m.pkts.drop first).drop k ++ [new] ∧ (k = 0 → u.lostP = m.lostP) ∧
        (k ≠ 0 → u.lostP = satAdd 64 m.lostP k) ∧ (m.reading = none → k ≠ 0 → mqDepth qid < held qid (m.pkts.drop (k - 1)) + mqSlots qid new)) ∧
      (m.reading = none → held qid u.pkts ≤ mqDepth qid) ∧ u.seq = (m.seq + 1) % 65536 ∧ u.reading = m.reading) ∧
    (∀ stop, s.mayWrite qid words.length (by_ stop) = true → m.mismatch = false → input ∉ m.cut → ∀ w, m.writing = some w → w.src ≠ input → m.waiting = [] →
      exec (.mqPacketWrite qid words (by_ stop)) s =
        .next (s.setQueue qid { m with waiting := [{ src := input, pop := pop, words := words, stop := stop, late := m.flush }] })) ∧
    (∀ stop, input ∉ m.cut →
      (∀ p, traceCore qid src = some p → (s.core p).life ≠ .opened →
        exec (.mqPacketWrite qid words (by_ stop)) s = .next (if stop = .more then s else s.dropAtPort p 1)) ∧
      (mqDepth qid = 0 ∨ s.mayWrite qid words.length (by_ stop) = false → (∀ p, traceCore qid src = some p → (s.core p).life = .opened) →
        exec (.mqPacketWrite qid words (by_ stop)) s = .next s))

/-- R223, R224, R227, R228, R230, R444: an abandoned packet is counted with the words that it has, and its SEQ used; pointer copies that differ as
words are written reset the queue, the packet is lost, and what its producer still writes of it, up to its end or its abandonment, is written nowhere; the consumer takes the oldest packet with its header, its poisoned words tagged, and the control processor
serves the request that it has read unless a word is poisoned, and takes up what waits; pointer copies that differ as words are read reset the
queue, and the consumer gets one further word with poison tag and end mark; a flush request takes effect at a packet boundary, counting what it
discards, and where pointer copies differ then, the queue resets first: an event queue then holds its QUEUE_RESET packet alone (R235). -/
def Sys2Proof.Claims.QueuesReadFlushAndReset : Prop :=
  ∀ (s : State) (pr : Principal) (qid : Fin 32) (src pop : Nat) (words : List W64),
    let m := s.mqueue qid
    let input := src + 40
    let by_ (stop : MqStop) (upset : Option Nat) : MqWrite := { src := src, pop := pop, stop := stop, upset := upset }
    (s.alive = true → 0 < pop →
      (s.mayWrite qid words.length (by_ .abandoned none) = true → PortFree m → input ∉ m.cut →
        m.reading = none → held qid m.pkts + mqSpan qid words.length ≤ mqDepth qid →
        ∃ t, exec (.mqPacketWrite qid words (by_ .abandoned none)) s = .next t ∧ (t.mqueue qid).pkts = m.pkts ∧
          (t.mqueue qid).seq = (m.seq + 1) % 65536 ∧ (t.mqueue qid).lostP = satAdd 64 m.lostP 1 ∧
          (t.mqueue qid).lostW = satAdd 64 m.lostW words.length) ∧
      (∀ w, s.mayWrite qid 0 (by_ .abandoned none) = true → m.mismatch = false → m.waiting = [] → m.flush = false → m.writing = some w →
        input ∉ m.cut → w.src = input → held qid m.pkts + mqSpan qid w.words.length ≤ mqDepth qid →
        ∃ t, exec (.mqPacketWrite qid [] (by_ .abandoned none)) s = .next t ∧ (t.mqueue qid).pkts = m.pkts ∧ (t.mqueue qid).writing = none ∧
          (t.mqueue qid).seq = m.seq ∧ (t.mqueue qid).lostP = satAdd 64 m.lostP 1 ∧ (t.mqueue qid).lostW = satAdd 64 m.lostW w.words.length) ∧
      (∀ stop, input ∈ m.cut → mqDepth qid ≠ 0 → stop = .abandoned ∨ words ≠ [] →
        let rest := m.cut.filter fun i => i != input
        let cut := if stop = .more then setIns rest input else rest
        exec (.mqPacketWrite qid words (by_ stop none)) s = .next ((s.setQueue qid { m with cut := cut }).dropTrace qid (by_ stop none))) ∧
      (∀ stop p, traceCore qid src = some p → s.dropTrace qid (by_ stop none) =
        if stop ≠ .more ∧ (s.core p).life ≠ .opened then s.dropAtPort p 1 else s) ∧ (traceCore qid src = none → ∀ stop, s.dropTrace qid (by_ stop none) = s) ∧
      (∀ stop, s.mayWrite qid words.length (by_ stop none) = true →
        (∀ k, s.mayWrite qid words.length (by_ stop (some k)) = true → PortFree m → input ∉ m.cut →
          exec (.mqPacketWrite qid words (by_ stop (some k))) s = .next
            (((s.setQueue qid (m.ask s.now qid { src := input, pop := pop, words := words.take k, stop := .more })).resetQueue qid).markCut
              qid input stop)) ∧
        (m.mismatch = true → input ∉ m.cut →
          (m.writing = none → m.flush = false →
            exec (.mqPacketWrite qid words (by_ stop none)) s = .next ((s.loseBegun qid).markCut qid input stop)) ∧
          (∀ w, m.writing = some w → w.src = input →
            exec (.mqPacketWrite qid words (by_ stop none)) s = .next ((s.resetQueue qid).markCut qid input stop))) ∧
        input ∈ ((s.markCut qid input .more).mqueue qid).cut ∧ input ∉ ((s.markCut qid input .done).mqueue qid).cut)) ∧
    (∀ k r, m.pkts = k :: r → 28 ≤ qid.val → s.consumerRuns qid = true → Sound m k → k.len = none →
      let header := mqHeader false false k.bad k.seq qid k.words.length
      let tag (i : Nat) (x : Slot) : Emit := .mqWord x.data x.bad (i + 1 == k.words.length)
      let got (clean : Bool) (t : State) : State := if qid = 30 then (if clean then t.cpServes (k.words.map Slot.data) else t).settleWaits else t
      (∀ n, k.words.length ≤ n → exec (.mqPacketRead qid n []) s = .next (got k.bad.isEmpty
        ((((s.setQueue qid (m.taken qid k.words.length k)).settleQueue qid).emit (.mqHeader header)).emits
          (k.words.mapIdx tag) |>.notePoisoned qid (!k.bad.isEmpty)))) ∧
      (∀ n j, j < k.words.length → k.words.length ≤ n →
        let s1 := (((s.setQueue qid { m with reading := none }).resetQueue qid).emit (.mqHeader header)).emits
          ((k.words.take j).map fun x => .mqWord x.data x.bad false)
        exec (.mqPacketRead qid n [.pointer j]) s =
          .next (got false ((s1.draw.2.emit (.mqWord s1.draw.1 true true)).notePoisoned qid true)))) ∧
    (Open s 0 (prHost pr || prCp pr || (decide (qid.val < 16) && prOwns pr qid.val)) false → mqDepth qid ≠ 0 →
      exec (.mqFlush pr qid 1) s = answers pr (s.flushQueue qid) rOK) ∧
    exec (.flushEffect qid) s = .next (if m.flush && m.writing.isNone && m.reading.isNone then s.settleQueue qid else s) ∧
    (m.mismatch = false →
      (m.writing = none → m.reading = none → m.waiting = [] →
        let done := s.setQueue qid { m with pkts := [], flush := false, flushed := satAdd 64 m.flushed m.pkts.length, rd0 := m.wr0, rd1 := m.wr1 }
        s.flushQueue qid = done ∧ (m.flush = true → s.settleQueue qid = done)) ∧
      (m.waiting = [] → m.writing ≠ none ∨ m.reading ≠ none → s.flushQueue qid = s.setQueue qid { m with flush := true })) ∧
    (m.mismatch = true → s.settleQueue qid = (s.resetQueue qid).settlePorts qid ∧
      (qid.val < 16 → m.writing = none → m.reading = none → m.waiting = [] →
        let u := (s.flushQueue qid).mqueue qid
        u.pkts.length = 1 ∧ u.flush = false ∧ u.flushed = satAdd 64 m.flushed 0 ∧ u.lostP = satAdd 64 m.lostP m.pkts.length))

/-- R101, R220 to R222, R225: a packet that a producer writes to a free port is the newest of its queue and carries its SEQ; the queue
discards whole oldest packets, but not the one being read, counting them, only as far as it must, and never holds more slots than its
depth. A producer whose port another holds waits, and one that may not write writes nothing; a trace packet of a core whose port is closed
is dropped there and counted, at its end. R223, R224, R227, R228, R230, R444: an abandoned packet is counted with the words that it has,
and its SEQ used; pointer copies that differ as words are written reset the queue, the packet is lost, and what its producer still writes
of it, up to its end or its abandonment, is written nowhere; the consumer takes the oldest packet with its header, its poisoned words
tagged, and the control processor serves the request that it has read unless a word is poisoned, and takes up what waits; pointer copies
that differ as words are read reset the queue, and the consumer gets one further word with poison tag and end mark; a flush request takes
effect at a packet boundary, counting what it discards, and where pointer copies differ then, the queue resets first: an event queue then
holds its QUEUE_RESET packet alone (R235). Where the spec leaves a point open, the statement takes the choice of the model (log entries 38
and 61). -/
def Obligations.QueuesKeepReadAndFlushPackets : Prop := QueuesKeepTheNewestWholePackets ∧ QueuesReadFlushAndReset


/-- R224, R231, R273: delivery writes the oldest packet's words and then its header behind the producer offset of its ring, that of an
event queue in host memory or, by bit 0 of its base, in device memory, that of a trace queue in the PF's host memory, moves the offset and
its phase, and raises the ring's vector; software gives space back by the consumer offset; a write of base or size restarts the ring.
Where the spec leaves a point open, the statement takes the choice of the model (log entries 44 and 61). -/
def Obligations.DeliveryFillsTheRing : Prop :=
  ∀ (s : State) (pr : Principal) (qid : Fin 32) (fn ring : Fin 17) (v : W64),
    let m := s.mqueue qid
    let no := if qid.val < 16 then qid.val else 16
    let to_ := if qid.val < 16 then qid.val + 1 else 0
    let vector := if qid.val < 16 then 1 else 2
    let r := s.ring no
    (qid.val < 21 → ∀ k rest, m.pkts = k :: rest → Sound m k → 0 < r.size → r.stopped = false →
      let need := 8 * (k.words.length + 1)
      (r.off + r.size - r.cons % r.size) % r.size + need < r.size →
      let pieces := ringPieces r.size (r.off + 8) (wordBytes k.data) ++ ringPieces r.size r.off (wordBytes [mqHeader r.phase false k.bad k.seq qid k.words.length])
      let r' := { r with off := (r.off + need) % r.size, phase := if r.size ≤ r.off + need then !r.phase else r.phase }
      let taken := (s.setQueue qid (m.taken qid k.words.length k)).settleQueue qid
      (bitN r.base 0 = false ∨ 16 ≤ qid.val → s.canMaster to_ = true →
        exec (.deliverPacket qid []) s = .next
          (((taken.setRing no r').emits (pieces.map fun e => Emit.hostWrite to_ (r.base.toNat + e.1) e.2 false false)).msix to_ vector)) ∧
      (bitN r.base 0 = true → qid.val < 16 →
        let base := r.base.toNat / 2 * 2
        (∀ e ∈ pieces, s.rangeAccess qid (base + e.1) e.2.length = .ok ()) →
        exec (.deliverPacket qid []) s = .next ((pieces.foldl (fun s e => s.memWrite (base + e.1) e.2) (taken.setRing no r')).msix to_ vector))) ∧
    (∀ ide,
      (s.takesRequest fn ide = true → fn.val = 0 ∨ ring.val + 1 = fn.val →
        exec (.ringConsumerWrite fn ring v ide) s = .next (s.setRing ring { s.ring ring with cons := fld v 19 0 })) ∧
      (s.takesRequest fn ide = false ∨ fn.val ≠ 0 ∧ ring.val + 1 ≠ fn.val → exec (.ringConsumerWrite fn ring v ide) s = .next s)) ∧
    (Open s 0 ((prHost pr && !(decide (ring.val < 16) && s.confidential ring)) || (decide (ring.val < 16) && prOwns pr ring)) false →
      exec (.ringRestart pr ring true v) s = answers pr (s.setRing ring
        { base := v, size := (s.ring ring).size, off := 0, phase := true, cons := 0, stopped := false }) rOK ∧
      (ringSizeOk v.toNat = true → exec (.ringRestart pr ring false v) s = answers pr (s.setRing ring
        { base := (s.ring ring).base, size := v.toNat, off := 0, phase := true, cons := 0, stopped := false }) rOK) ∧
      (ringSizeOk v.toNat = false → exec (.ringRestart pr ring false v) s = answers pr s rRANGE))

/-! ### The window (R274 to R278) -/

namespace Sys2Proof.Claims

open Sys2Proof Sys2Proof.Machine

/-- The access that a function's window request makes (R274), with the errors that its read meets. -/
def windowAt (s : State) (fn off len : Nat) (w : Option (List Byte)) (m : List EccHit) : HeldAccess :=
  let n := (s.fn fn).winBase.toNat + off / 2 ^ 25
  { fn := fn, pa := n * 2 ^ 25 + off % 2 ^ 25, len := len, write := w, shut := !(s.fn fn).wen || decide (65535 < n), passed := false, errs := m }

/-- R275: the access reaches a slab that is ASSIGNED to the function's partition (or the function is the PF), which is not
confidential. -/
abbrev WindowReaches (s : State) (a : HeldAccess) : Prop :=
  let e := s.slab (a.pa / 2 ^ 25)
  s.slabLife (a.pa / 2 ^ 25) = .assigned ∧ s.confidential e.owner.toNat = false ∧ (a.fn = 0 ∨ e.owner.toNat + 1 = a.fn)

/-- R275: WBIAS allows the access. -/
abbrev WbiasAllows (s : State) (a : HeldAccess) : Prop :=
  (s.slab (a.pa / 2 ^ 25)).wbias = 2 ∨ ((s.slab (a.pa / 2 ^ 25)).wbias = 1 ∧ a.write = none)

end Sys2Proof.Claims

/-- R213, R214, R219, R275, R276, R282, R426: an access through an open window, on the stream that its function needs, that passes the check is
served from its slab, a read of a poisoned word with EP; while a wipe of one of its bytes has not ended, or after a thermal shutdown (R397), it is
held, whatever WBIAS says, and so is any access behind an earlier one of its function that is held; one that fails, by its window, its slab's state
or owner, or WBIAS (0, or 1 on a write), is refused: it changes no byte of memory, reads all-ones, and is counted. -/
def Sys2Proof.Claims.WindowServesWhatItsCheckPasses : Prop :=
  ∀ (s : State) (fn : Fin 17) (off : BitVec 28) (len : Nat) (d : List Byte) (m : List EccHit) (ide : Bool), s.takesRequest fn ide = true →
    let a := windowAt s fn off.toNat len none m
    let b := windowAt s fn off.toNat d.length (some d) m
    let isOpen := (s.fn fn).wen = true ∧ (s.fn fn).winBase.toNat + off.toNat / 2 ^ 25 < 65536
    let clear := ∀ k ∈ s.mem.held, k.fn ≠ fn.val
    let hold (a : HeldAccess) : Out := .next { s with mem := { s.mem with held := s.mem.held ++ [a] } }
    let read := s.memErrs [(a.pa, len)] m
    let goes (a : HeldAccess) : Prop := s.wipeMeets a = false ∧ s.damper.shutdown = false
    let refused : State := s.setFn fn { s.fn fn with winRefused := satAdd 64 (s.fn fn).winRefused 1 }
    let readRefused : Out := .next (refused.emit (.completion fn (List.replicate len 0xFF) false))
    (isOpen → clear → WindowReaches s a → WbiasAllows s a → goes a →
      (read.poisoned a.pa len = false → exec (.windowRead fn off len m ide) s =
        .next (({ read with hub := { read.hub with free := read.hub.free + len } }).emit (.completion fn (read.windowBytes a.pa len) false))) ∧
      (read.poisoned a.pa len = true → exec (.windowRead fn off len m ide) s = .next (read.emit (.completion fn [] true)))) ∧
    (isOpen → clear → WindowReaches s b → WbiasAllows s b → goes b →
      exec (.windowWrite fn off d m ide) s = .next ((s.memErrs (mergeWords b.pa d.length) m).memWrite b.pa d)) ∧
    (isOpen → clear → WindowReaches s a →
      (s.wipeMeets a = true ∨ s.damper.shutdown = true → exec (.windowRead fn off len m ide) s = hold { a with passed := true }) ∧
      (s.wipeMeets b = true ∨ s.damper.shutdown = true → exec (.windowWrite fn off d m ide) s = hold { b with passed := true })) ∧
    (¬ clear → exec (.windowRead fn off len m ide) s = hold a ∧ exec (.windowWrite fn off d m ide) s = hold b) ∧
    (clear → ¬ isOpen ∨ s.slabLife (a.pa / 2 ^ 25) ≠ .assigned ∨
        (let e := s.slab (a.pa / 2 ^ 25)
         s.confidential e.owner.toNat = false ∧ a.fn ≠ 0 ∧ e.owner.toNat + 1 ≠ a.fn) →
      exec (.windowRead fn off len m ide) s = readRefused ∧ exec (.windowWrite fn off d m ide) s = .next refused) ∧
    (isOpen → clear → WindowReaches s a →
      ((s.slab (a.pa / 2 ^ 25)).wbias = 0 ∨ (s.slab (a.pa / 2 ^ 25)).wbias = 3 → goes a → exec (.windowRead fn off len m ide) s = readRefused) ∧
      ((s.slab (a.pa / 2 ^ 25)).wbias ≠ 2 → goes b → exec (.windowWrite fn off d m ide) s = .next refused))

/-- R233, R275, R413: a window access to a slab of a confidential partition is refused, whoever asks, and counted, its read answered with
all-ones; WINDOW_DENIED is logged on the fault queue with the partition, the function, the direction and the address, and no memory changes. -/
def Sys2Proof.Claims.WindowDeniesConfidentialSlabs : Prop :=
  ∀ (s : State) (fn : Fin 17) (off : BitVec 28) (len : Nat) (d : List Byte) (m : List EccHit) (ide : Bool), s.takesRequest fn ide = true →
    (s.fn fn).wen = true → (s.fn fn).winBase.toNat + off.toNat / 2 ^ 25 < 65536 → (∀ k ∈ s.mem.held, k.fn ≠ fn.val) →
    let pa := (windowAt s fn off.toNat len none m).pa
    let owner := (s.slab (pa / 2 ^ 25)).owner.toNat
    s.slabLife (pa / 2 ^ 25) = .assigned → s.confidential owner = true →
    let logged (write : Bool) : State := s.statusEvent qidFault 4 stWINDOW_DENIED (some owner) none
      ((if fn.val = 0 then 0x11 else fn.val) * 2 ^ 52 + b2n write * 2 ^ 48 + pa % 2 ^ 41) unitWindow
    let counted (t : State) : State := t.setFn fn { t.fn fn with winRefused := satAdd 64 (t.fn fn).winRefused 1 }
    exec (.windowWrite fn off d m ide) s = .next (counted (logged true)) ∧
    exec (.windowRead fn off len m ide) s = .next ((counted (logged false)).emit (.completion fn (List.replicate len 0xFF) false)) ∧
    (counted (logged true)).mem = s.mem ∧ ((counted (logged false)).emit (.completion fn (List.replicate len 0xFF) false)).mem = s.mem

/-- R213, R214, R219, R275, R276, R282, R426: an access through an open window, on the stream that its function needs, that passes the
check is served from its slab, a read of a poisoned word with EP; while a wipe of one of its bytes has not ended, or after a thermal
shutdown (R397), it is held, whatever WBIAS says, and so is any access behind an earlier one of its function that is held; one that fails,
by its window, its slab's state or owner, or WBIAS (0, or 1 on a write), is refused: it changes no byte of memory, reads all-ones, and is
counted. R233, R275, R413: a window access to a slab of a confidential partition is refused, whoever asks, and counted, its read answered
with all-ones; WINDOW_DENIED is logged on the fault queue with the partition, the function, the direction and the address, and no memory
changes. Where the spec leaves a point open, the statement takes the choice of the model (log entries 45 and 49). -/
def Obligations.TheWindowServesOrDenies : Prop := WindowServesWhatItsCheckPasses ∧ WindowDeniesConfidentialSlabs


/-! ### The PCIe endpoint (R267 to R290) -/

/-- R244, R268 to R273, R277, R279, R281, R284: requests to BAR0 of a function that takes them: window control, the page attribute table, the
MSI-X table and mask, whose unmasking sends what is pending, and reads, which invalidate where they read the page attribute table and give
zero where no register stands; configuration requests of a function that exists; an AtomicOp is an Unsupported Request, and so is a configuration
request to the VF of an IDE-required partition outside its secure stream (R426). -/
def Sys2Proof.Claims.BarRequestsSetTheirRegisters : Prop :=
  ∀ (s : State) (fn : Fin 17) (v : W64) (e : Fin 256) (h : BitVec 128) (off : BitVec 25) (bar : Fin 6) (vec : Fin 2048) (data : BitVec 32)
    (on ide : Bool),
    let f := s.fn fn
    let wake (t : State) : State := (List.range 17).foldl State.busWake t
    (s.takesRequest fn ide = true →
      exec (.windowControlWrite fn v ide) s = .next (s.setFn fn { f with wen := bitN v 63, winBase := BitVec.ofNat 16 (fld v 15 0) }) ∧
      exec (.pageAttributeWrite fn e h ide) s = .next (s.setFn fn { f with hpat := sset 0 f.hpat e (hpatMask h) }) ∧
      (let o := off.toNat / 8 * 8
       let t := if 0x10000 ≤ o ∧ o < 0x11000 then s.invalidate fn else s
       exec (.hpatRead fn off ide) s = .next (t.emit (.completion fn (leBytes 8 (t.barReg fn o ide)) false))) ∧
      exec (.msixUnmask fn (.entry vec v data false) ide) s = .next ((s.setFn fn { f with
        msixTable := sset MsixEntry.reset f.msixTable vec { addr := v, data := data }, unmasked := setIns f.unmasked vec }).sendPending fn) ∧
      exec (.msixUnmask fn (.entry vec v data true) ide) s = .next ((s.setFn fn { f with
        msixTable := sset MsixEntry.reset f.msixTable vec { addr := v, data := data }
        unmasked := f.unmasked.filter fun x => x != vec.val }).sendPending fn) ∧
      exec (.msixUnmask fn (.fnMask on) ide) s = .next ((s.setFn fn { f with fnMask := on }).sendPending fn)) ∧
    (s.barReg 0 0 = 256 ∧ (0 < fn.val → s.barReg fn 0 = fn.val - 1) ∧ s.barReg fn 8 = b2n f.wen * 2 ^ 63 + f.winBase.toNat ∧
      s.barReg fn 0x18 = 0 ∧
      ∀ c : Fin 4096, (s.ownsPage fn c ide = true →
          s.barReg fn (0x1000000 + 0x1000 * c.val + 0x108) ide = (s.ctx c).semsel.toNat ∧
          s.barReg fn (0x1000000 + 0x1000 * c.val + 0x110) ide =
            (sget 0 (s.part (s.ctx c).part.toNat).sems (s.ctx c).semsel.toNat).toNat) ∧
        (s.ownsPage fn c ide = false → ∀ k < 0x1000, s.barReg fn (0x1000000 + 0x1000 * c.val + k) ide = 0)) ∧
    (s.host.linkUp = true →
      exec (.atomicopRequest fn bar) s = .next (s.emit (.unsupported fn)) ∧
      (s.fnThere fn = false ∨ s.ideOk fn ide = false → ∀ c, exec (.configurationRequest fn c ide) s = .next (s.emit (.unsupported fn))) ∧
      (s.fnThere fn = true → s.ideOk fn ide = true →
        exec (.configurationRequest fn (.busMaster on) ide) s = .next (wake (s.setFn fn { f with bme := on })) ∧
        exec (.configurationRequest fn (.d3hot on) ide) s = .next (wake (s.setFn fn { f with d3 := on })) ∧
        exec (.configurationRequest fn (.msixEnable on) ide) s = .next (wake (s.setFn fn { f with msixEn := on })) ∧
        exec (.configurationRequest fn (.extTags on) ide) s = .next (wake (s.setFn fn { f with extTags := on })) ∧
        exec (.configurationRequest fn (.tenBitTags on) ide) s = .next (wake (s.setFn fn { f with tenBitTags := on })) ∧
        exec (.configurationRequest fn .readIds ide) s = .next (s.emit (.completion fn
          (leBytes 2 Config.vendorId.toNat ++ leBytes 2 (if fn = 0 then 0x7A70 else 0x7A71)) false))) ∧
      (s.host.vfEnable = false → ∀ n : Fin 17,
        let t := s.setFn 0 (s.fn 0)
        exec (.configurationRequest 0 (.numVfs n) ide) s = .next (wake { t with host := { t.host with numVfs := n.val } }) ∧
        exec (.configurationRequest 0 (.vfEnable true) ide) s = .next (wake { t with host := { t.host with vfEnable := true } })))

/-- R284: an unmasked pending vector is sent exactly once: after the unmasking of a function that masters the bus, its MSI-X on, it is no
longer pending. -/
def Sys2Proof.Claims.PendingVectorsGoOnce : Prop :=
  ∀ (s : State) (fn : Nat), (s.fn fn).fnMask = false → (s.fn fn).msixEn = true → s.canMaster fn = true →
    let go := (s.fn fn).pendingVec.filter fun v => (s.fn fn).unmasked.contains v
    (s.sendPending fn).hub.out = ((go.map fun v => (s.fn fn).message fn v).reverse) ++ s.hub.out ∧
    (∀ v, v ∈ ((s.sendPending fn).fn fn).pendingVec ↔ v ∈ (s.fn fn).pendingVec ∧ v ∉ (s.fn fn).unmasked)

/-- R244, R268 to R273, R277, R279, R281, R284: requests to BAR0 of a function that takes them: window control, the page attribute table,
the MSI-X table and mask, whose unmasking sends what is pending, and reads, which invalidate where they read the page attribute table and
give zero where no register stands; configuration requests of a function that exists; an AtomicOp is an Unsupported Request, and so is a
configuration request to the VF of an IDE-required partition outside its secure stream (R426). R284: an unmasked pending vector is sent
exactly once: after the unmasking of a function that masters the bus, its MSI-X on, it is no longer pending. Where the spec leaves a point
open, the statement takes the choice of the model (log entries 14, 49, 65 and 68). -/
def Obligations.BarRequestsAndVectorsTakeEffect : Prop := BarRequestsSetTheirRegisters ∧ PendingVectorsGoOnce


/-- R267, R268, R285, R286, R426: link training brings the link up in a mode of the table and raises the management vector below 6.0 x16;
PERST_N, hot reset and a VF's FLR return every function, or that VF, to its reset registers and quarantine it, and leave memory, cores,
contexts and the hub timer as they are; an FLR outside the secure stream that the VF needs is an Unsupported Request. Where the spec
leaves a point open, the statement takes the choice of the model (log entries 49 and 68). -/
def Obligations.LinkResetsQuarantineAndKeepTheDevice : Prop :=
  ∀ (s : State) (gen width : BitVec 8) (n : Fin 16) (ide : Bool), s.alive = true →
    (s.hub.refclkH = true → linkModeOk gen.toNat width.toNat = true →
      let s1 := { s with host := { s.host with linkUp := true, gen := gen, width := width }, hub := { s.hub with perstN := true } }
      exec (.linkTraining gen width) s =
        .next ((List.range 17).foldl State.busWake (if gen = 6 ∧ width = 16 then s1 else s1.msix 0 0))) ∧
    (∃ t, exec .hotReset s = .next t ∧ t.host.linkUp = false ∧ t.host.cache = [] ∧ t.host.vfEnable = false ∧ t.sec.ide = [] ∧
      (∀ k < 17, t.fn k = { Fn.reset with winRefused := (s.fn k).winRefused, deferred := (s.fn k).deferred } ∧ (t.fn k).quar = true) ∧
      t.mem.bytes = s.mem.bytes ∧ t.cores = s.cores ∧ t.disp = s.disp ∧ t.hub = s.hub) ∧
    (∃ t, exec .perstN s = .next t ∧ t.host.linkUp = false ∧ t.hub.perstN = false ∧ t.hub.timer = s.hub.timer ∧
      t.host.cache = [] ∧ t.host.vfEnable = false ∧ t.sec.ide = [] ∧
      (∀ k < 17, t.fn k = { Fn.reset with winRefused := (s.fn k).winRefused, deferred := (s.fn k).deferred } ∧ (t.fn k).quar = true) ∧
      t.mem.bytes = s.mem.bytes ∧ t.cores = s.cores ∧ t.disp = s.disp) ∧
    (s.host.linkUp = true → s.fnThere (n.val + 1) = true → s.ideOk (n.val + 1) ide = false →
      exec (.vfFlr n ide) s = .next (s.emit (.unsupported (n.val + 1)))) ∧
    (s.host.linkUp = true → s.fnThere (n.val + 1) = true → s.ideOk (n.val + 1) ide = true →
      ∃ t, exec (.vfFlr n ide) s = .next t ∧
        t.fn (n.val + 1) = { Fn.reset with winRefused := (s.fn (n.val + 1)).winRefused, deferred := (s.fn (n.val + 1)).deferred } ∧
        (t.fn (n.val + 1)).quar = true ∧ (∀ k, k ≠ n.val + 1 → t.fn k = s.fn k) ∧ t.host.linkUp = true ∧ t.mem.bytes = s.mem.bytes ∧
        t.cores = s.cores ∧ t.hub = s.hub ∧ t.disp = s.disp)

/-- R286 to R290: a host transfer that has stalled for HOST_WAIT_LIMIT ends its command with PAGE_FAULT; a re-attach needs the target's
credential, is BUSY while one runs, and is counted when it is refused; KEEP completes when the function can master the bus; DIVERT stops
the partition's contexts, faults its stalled commands, sends the records of the others to the backlog, stops the rings in the lost host's
memory and ends the quarantine. Where a quarantine ends, transfers within HOST_WAIT_LIMIT go on, and those beyond it stay as they are and
their commands end with PAGE_FAULT. Where the spec leaves a point open, the statement takes the choice of the model (log entries 42 and
49). -/
def Obligations.ReattachNeedsItsCredential : Prop :=
  ∀ (s : State) (uid fn : Nat) (pr : Principal) (target : BitVec 8) (cred : BitVec 128),
    ((∃ i ∈ s.peal.insts, i.uid = uid ∧ ∃ t, i.stall = some t ∧ t + s.host.waitLimit * 1000000000 ≤ s.now) →
      exec (.hostWaitLimit uid) s = .next (s.faultCmd uid stPAGE_FAULT)) ∧
    (let close (t : Nat) : Nat := t + s.host.waitLimit * 1000000000
     s.unstallHost.peal.insts = s.peal.insts.map (fun i =>
       if !s.quarantined (fnOfPart i.part) && i.stall.any (fun t => decide (s.now < close t)) then { i with stall := none } else i) ∧
     ∀ i ∈ s.peal.insts, ∀ t k, i.stall = some t → close t ≤ s.now → s.quarantined (fnOfPart i.part) = false → s.cmd i.uid = some k →
       ∃ k', s.unstallHost.cmd i.uid = some k' ∧ ((∀ st, k.stage ≠ .faulted st) → k'.stage = .faulted stPAGE_FAULT)) ∧
    (Open s 0 (prHost pr || (decide (target.toNat < 16) && prOwns pr target.toNat)) true → reattachFn target = some fn →
      let counted := { s with host := { s.host with reattachRefused := satAdd 32 s.host.reattachRefused 1 } }
      let s1 := (if fn = 0 then s else ((s.stopPart (fn - 1)).faultStalled (fn - 1)).divertCmds (fn - 1)).stopRings fn
      ((s.fn fn).keeping = true →
        exec (.reattachKeep pr target cred) s = answers pr counted rBUSY ∧ exec (.reattachDivert pr target cred) s = answers pr counted rBUSY) ∧
      ((s.fn fn).keeping = false → s.credOk fn cred = false →
        exec (.reattachKeep pr target cred) s = answers pr counted rREFUSED ∧ exec (.reattachDivert pr target cred) s = answers pr counted rREFUSED) ∧
      ((s.fn fn).keeping = false → s.credOk fn cred = true →
        exec (.reattachKeep pr target cred) s = answers pr ((s.setFn fn { s.fn fn with keeping := true }).finishKeep fn) rOK ∧
        exec (.reattachDivert pr target cred) s =
          answers pr (((s1.setFn fn { s1.fn fn with quar := false, deferred := [] }).unstallHost).msix fn 0) rOK)) ∧
    s.credOk fn 0 = false

/-- R41, R233, R434, R443, R452: an entry that has a row of its own: before the dictionary is served a write changes nothing; where a gate stands
in the way the answer is the gate's, the request is counted, and nothing else changes. -/
def Sys2Proof.Claims.GatedWritesChangeNothing : Prop :=
  ∀ (s : State) (pr : Principal) (range : Nat) (allowed needsCp : Bool) (f : State → BitVec 8 × State),
    (s.hub.ready = false → s.dictWriteAt pr range allowed needsCp f = s) ∧
    (s.hub.ready = true → ∀ r, s.writeGate range allowed needsCp = some r →
      s.dictWriteAt pr range allowed needsCp f = (s.counted pr r).answer r ∧
      s.counted pr r = { s with dict := { s.dict with counters := (s.counted pr r).dict.counters } } ∧
      (prSub pr ≠ 0 → sget 0 (s.counted pr r).dict.counters (prSub pr) = satAdd 64 (sget 0 s.dict.counters (prSub pr)) 1)) ∧
    (s.hub.ready = true → s.sec.lc = .scrapped → s.writeGate range allowed needsCp = some rREFUSED) ∧
    (s.sec.lc ≠ .scrapped → s.sec.lcTarget = none → s.fw.run ≠ some .recovery → s.fw.run ≠ some .loader →
      allowed = false → s.writeGate range allowed needsCp = some rDENIED)

/-! ### Geril (R312 to R325, R334, R337, R339, R344, R377) -/

namespace Sys2Proof.Claims

open Sys2Proof Sys2Proof.Machine

/-- R312, R315, R316: a packet of type `typ` and, where one is asked for, code `op`, whose port, addresses, checksum and header are good. -/
abbrev HeaderGood (s : State) (k : GPkt) (typ : Nat) (op : Option Nat) : Prop :=
  (s.port k.port.val).st = .up ∧ s.forGeril k = true ∧ s.car.en = true ∧ k.cksumOk = true ∧ k.typ.toNat = typ ∧ (∀ o, op = some o → k.op.toNat = o) ∧ k.ver = 1 ∧
    k.dst = s.car.ownRank ∧ k.payload.length ≤ 8192 ∧ (typ = 3 → k.payload.length ≤ 256)

/-- The state with the packet counted (R347). -/
def counted (s : State) (k : GPkt) : State := if k.ce then (s.gcount cRx).gcount cCe else s.gcount cRx

/-- R324: the packet's header is good and its incarnation is that of its sender's present entry. -/
abbrev Accepted (s : State) (k : GPkt) (typ : Nat) (op : Option Nat) : Prop :=
  HeaderGood s k typ op ∧ k.src.toNat < 255 ∧ (s.rankEntry k.src.toNat).present = true ∧ k.inc = (s.rankEntry k.src.toNat).inc

/-- The commands that a CONTROL packet is, with their codes (R318). -/
def controlTable : List ((GPkt → Instr) × Nat) :=
  [(.hello, 1), (.helloAck, 2), (.fenced, 3), (.resume, 5), (.stepEndReceive, 6), (.commitNotice, 7), (.abortPeer, 8), (.close, 9)]

end Sys2Proof.Claims

/-- R316: the 32 header bytes carry every field at its bits, and zeros in the reserved ones: what a header spells is what its packet is read as. -/
def Sys2Proof.Claims.HeadersCarryTheirFields : Prop :=
  ∀ (h : GHdr) (k : GPkt), k.head = h.word →
    k.retx = h.retx ∧ k.last = h.last ∧ k.ece = h.ece ∧ k.len = h.len ∧ k.offset = h.offset ∧ k.opid = h.opid ∧ k.gen = h.gen ∧ k.inc = h.inc ∧
    k.dst = h.dst ∧ k.src = h.src ∧ k.seq = h.seq ∧ k.stream = h.stream ∧ k.op = h.op ∧ k.typ = h.typ ∧ k.ver = h.ver ∧
    k.head.extractLsb' 249 7 = 0 ∧ k.head.extractLsb' 30 2 = 0

/-- R297, R312, R315, R324: a packet that is not at the port's address on the Geril UDP port is none of the peal engine's; with carillon
functions off, or a bad checksum, it is counted and dropped; one with an older incarnation is counted, reported and answered with FENCED, and
with a newer one counted and dropped: none of them reaches a stream or an instance. -/
def Sys2Proof.Claims.StaleTrafficIsFenced : Prop :=
  ∀ (s : State) (k : GPkt), (s.port k.port.val).st = .up →
    (∀ e ∈ controlTable ++ [(Instr.announce, 4), (Instr.gerilData, 0), (Instr.gerilAck, 0)],
      (s.forGeril k = false → exec (e.1 k) s = .next s) ∧
      (s.forGeril k = true → s.car.en = false → exec (e.1 k) s = .next (s.gcount cDisabled)) ∧
      (s.forGeril k = true → s.car.en = true → k.cksumOk = false → exec (e.1 k) s = .next (s.gcount cCksum))) ∧
    (∀ c typ op, (c, typ, op) ∈ [(Instr.gerilData k, 1, none), (Instr.gerilAck k, 2, none)] ++ controlTable.map (fun e => (e.1 k, 3, some e.2)) →
      HeaderGood s k typ op → k.src.toNat < 255 → (s.rankEntry k.src.toNat).present = true →
      (k.inc.toNat < (s.rankEntry k.src.toNat).inc.toNat →
        exec c s = .next ((((counted s k).gcount cStale).netEvent 3 stFENCED_PEER k.src.toNat).answerStale k.src.toNat k.port.val k.dstIp k.srcIp)) ∧
      ((s.rankEntry k.src.toNat).inc.toNat < k.inc.toNat → exec c s = .next ((counted s k).gcount cStale)))

/-- R319, R320: an accepted DATA packet opens its stream where it is new and fewer than 16,384 are open; in its turn it is delivered, the
expected SEQ advances, held packets follow, and the peal engine goes on; a duplicate is counted and acknowledged; one ahead of its turn within
the receive window is held, with its region's entry, and acknowledged. -/
def Sys2Proof.Claims.DataIsTakenInSequence : Prop :=
  ∀ (s : State) (k : GPkt), Accepted s k 1 none →
    let t0 := counted s k
    let rank := k.src.toNat
    let stream := k.stream.toNat
    let s1 := t0.openRx k
    let h : HeldPkt := { pkt := k, entry := t0.region k.region.toNat }
    exec (.gerilData k) s = .next (t0.takeData k) ∧
    (t0.rxStream rank stream = none → 16384 ≤ t0.peal.tx.length + t0.peal.rx.length → t0.takeData k = t0) ∧
    ∀ r, s1.rxStream rank stream = some r →
      let delta := (k.seq - BitVec.ofNat 32 r.expected).toNat
      (∀ t, delta = 0 → s1.deliverData h = some t →
        t0.takeData k = (((t.modRx rank stream fun r => { r with expected := (r.expected + 1) % 2 ^ 32 }).drainHeld rank stream
          r.held.length).noteData rank stream).pump) ∧
      (delta ≠ 0 → 2 ^ 31 ≤ delta ∨ (∃ x ∈ r.held, x.pkt.seq = k.seq) → t0.takeData k = (s1.gcount cDup).ackStream rank stream) ∧
      (delta ≠ 0 → delta < 2 ^ 31 → (∀ x ∈ r.held, x.pkt.seq ≠ k.seq) →
        (r.held.map fun x => x.pkt.payload.length).sum + k.payload.length ≤ s1.rwndOf k.opid →
        t0.takeData k = (s1.modRx rank stream fun r => { r with held := r.held ++ [h] }).ackStream rank stream)

/-- R316: the 32 header bytes carry every field at its bits, and zeros in the reserved ones: what a header spells is what its packet is
read as. R297, R312, R315, R324: a packet that is not at the port's address on the Geril UDP port is none of the peal engine's; with
carillon functions off, or a bad checksum, it is counted and dropped; one with an older incarnation is counted, reported and answered with
FENCED, and with a newer one counted and dropped: none of them reaches a stream or an instance. R319, R320: an accepted DATA packet opens
its stream where it is new and fewer than 16,384 are open; in its turn it is delivered, the expected SEQ advances, held packets follow,
and the peal engine goes on; a duplicate is counted and acknowledged; one ahead of its turn within the receive window is held, with its
region's entry, and acknowledged. Where the spec leaves a point open, the statement takes the choice of the model (log entries 17, 18, 20
and 47). -/
def Obligations.GerilDataIsFencedOrTaken : Prop := HeadersCarryTheirFields ∧ StaleTrafficIsFenced ∧ DataIsTakenInSequence


/-- R73, R320 to R322, R324, R342: an accepted ACK goes to its stream; the ACK timer, once due, acknowledges; a packet whose timeout has
closed is sent again as it was kept, with twice the timeout up to 100 ms, while its port is up and leads to the rank, and at RETX_LIMIT
its peer is unreachable, once, and the rounds go on every 100 ms; an instance with all of its chunks completes with its results and with
the flags of the sums that it passed on, its reads having met the errors that stand there, but a fenced device completes host operations
alone. By the model's choice (log entry 71) the instance of a command that has faulted waits, and a HOST_WRITE that DIVERT found issued
ends with PAGE_FAULT. Where the spec leaves a point open, the statement takes the choice of the model (log entries 19, 46, 47 and 65). -/
def Obligations.TransportTimersAndCompletion : Prop :=
  ∀ (s : State) (k : GPkt) (rank : BitVec 16) (stream : BitVec 14) (seq opid : BitVec 32) (group : BitVec 8) (host : List Byte),
    (Accepted s k 2 none → exec (.gerilAck k) s = .next ((counted s k).takeAck k)) ∧
    (∀ r t, s.rxStream rank.toNat stream.toNat = some r → r.ackAt = some t →
      (t ≤ s.now → exec (.ackTimer rank stream) s = .next (s.ackStream rank.toNat stream.toNat)) ∧
      (s.now < t → exec (.ackTimer rank stream) s = .next s)) ∧
    (∀ t u, s.txStream rank.toNat stream.toNat = some t →
      (t.unacked.find? fun u => u.seq == seq.toNat && decide (u.deadline ≤ s.now)) = some u →
      let n := u.retx + 1
      let s1 := ((s.sendGeril t.port t.tc (s.again u.pkt)).gcount cRetx).modStream rank.toNat stream.toNat fun t => { t with
        unacked := modFirst (fun x => x.seq == u.seq) (fun x => { x with retx := n, deadline :=
          s.now + (if s.peal.retxLimit ≤ n then 100000000 else min 100000000 (s.rto (s.conn rank.toNat) * 2 ^ n)) }) t.unacked }
      (s.maySend t = false → exec (.rtoExpiry rank stream seq) s = .next s) ∧
      (s.maySend t = true → n < s1.peal.retxLimit ∨ (s.conn rank.toNat).unreach = true → exec (.rtoExpiry rank stream seq) s = .next s1) ∧
      (s.maySend t = true → s1.peal.retxLimit ≤ n → (s.conn rank.toNat).unreach = false →
        exec (.rtoExpiry rank stream seq) s = .next ((s1.setConn rank.toNat { s.conn rank.toNat with unreach := true }).netEvent 1 0 rank.toNat))) ∧
    (∀ i v, (s.peal.insts.find? fun i => i.desc.opid == opid && i.desc.group == group) = some i → i.done = false → i.status = none →
      (s.car.st = 3 → i.desc.isHost = false → exec (.pealComplete opid group host) s = .next s) ∧
      (s.cmdFaulted i.uid = true → exec (.pealComplete opid group host) s = .next s) ∧
      (s.car.st ≠ 3 ∨ i.desc.isHost = true → s.cmdFaulted i.uid = false →
        (s.hostLost i = true → exec (.pealComplete opid group host) s = .next (s.failPeal opid stPAGE_FAULT true)) ∧
        (s.hostLost i = false → s.view i.ctx i.desc = .ok v → s.transfersDone i v = true →
          let s1 := s.meetResults i v
          ∀ r t, s1.results i v host = .ok r → s1.finishPeal i { r with flags := i.flags ||| r.flags } host = .ok t →
            exec (.pealComplete opid group host) s = .next t)))

/-- R319, R323 to R325, R334, R339, R344, R377: what each accepted CONTROL packet does; an ABORT whose payload is no fault status of R12
is counted as a bad header. Where the spec leaves a point open, the statement takes the choice of the model (log entries 17, 19, 46 and
47). -/
def Obligations.ControlPacketsHaveTheirEffect : Prop :=
  ∀ (s : State) (k : GPkt),
    let t := counted s k
    let r := k.src.toNat
    (Accepted s k 3 (some 1) → exec (.hello k) s = .next (((t.connect r k.payload).sendControl r 2 0 0 0 t.capabilities).pump)) ∧
    (Accepted s k 3 (some 2) → exec (.helloAck k) s = .next (t.connect r k.payload).pump) ∧
    (Accepted s k 3 (some 3) → s.car.ownInc.toNat < natAt k.payload 8 4 → s.car.st ≠ 3 →
      exec (.fenced k) s = .next (({ t with
        car := { t.car with st := 3, fencedToll := false, unreset := 0xFFFF }
        sec := { t.sec with ckey := none, ckeyId := List.replicate 64 0 } }).netEvent 4 stFENCED_PEER s.ownRank)) ∧
    (Accepted s k 3 (some 6) →
      exec (.stepEndReceive k) s = .next ({ t with peal := { t.peal with
        stepGen := smod 0 t.peal.stepGen r fun g => max g (k.gen.toNat + 1) } }).releaseGens) ∧
    (Accepted s k 3 (some 7) → natAt k.payload 0 1 < 64 → regEnable (s.region (natAt k.payload 0 1)) = true →
      let e := s.region (natAt k.payload 0 1)
      let t1 := { t with peal := { t.peal with landed := t.peal.landed.filter fun l => !(l.rank == r && l.region == natAt k.payload 0 1) } }
      exec (.commitNotice k) s = .next (t1.setPart (regPart e)
        { s.part (regPart e) with sems := smod 0 (s.part (regPart e)).sems (regSem e) fun v => w64 (satAdd 64 v.toNat 1) }).dropIdle) ∧
    (Accepted s k 3 (some 8) →
      let code := BitVec.ofNat 16 (natAt k.payload 0 2)
      (2 ≤ k.payload.length → code ∈ faultCodes → (s.inst k.opid).isSome = true →
        exec (.abortPeer k) s = .next (t.failPeal k.opid code false)) ∧
      (k.payload.length < 2 ∨ code ∉ faultCodes → exec (.abortPeer k) s = .next (t.gcount cBadHdr))) ∧
    (Accepted s k 3 (some 9) →
      exec (.close k) s = .next ({ t with peal := { t.peal with
        rx := t.peal.rx.filter fun x => !(x.rank == r && x.stream == k.stream.toNat) } }).pump)

/-- R42, R325, R373, R376, R377: an ANNOUNCE with a good header that names an active rank's next incarnation and a spare of the table moves the spare's
entry to the rank, ends what was torn, answers with RESUME and sends unacknowledged packets again; an answer to a takeover, behind the timeouts and
the limit that have closed by then, leaves its waiting list, and the last active rank's answer ends the takeover with its event. -/
def Sys2Proof.Claims.AnnounceAndResumeCarryATakeover : Prop :=
  ∀ (s : State) (k : GPkt),
    let t := counted s k
    let r := k.src.toNat
    let e := s.rankEntry r
    let id := BitVec.ofNat 64 (natAt k.payload 0 8)
    (HeaderGood s k 3 (some 4) → r < s.car.activeRanks → r < 255 → ¬ (k.inc = e.inc ∧ id = e.ident) → k.inc.toNat = e.inc.toNat + 1 →
      ∀ x, ((List.range 255).find? fun x => (s.rankEntry x).state == 2 && (s.rankEntry x).ident == id) = some x →
      let t1 := (t.setRank r { s.rankEntry x with inc := k.inc, state := 1 }).setRank x { s.rankEntry x with state := 3 }
      exec (.announce k) s = .next ((((t1.netEvent 5 stRANK_TAKEOVER r).endTorn r).sendResume r).resendAll r)) ∧
    (HeaderGood s k 3 (some 4) → r < s.car.activeRanks → r < 255 → k.inc = e.inc → id = e.ident →
      exec (.announce k) s = .next (t.sendResume r)) ∧
    (∀ o, s.car.takeover = some o → (∀ a ∈ o.waiting, a.rank = r → s.now < a.due) → o.refused = true ∨ s.now < o.deadline →
      (t.reannounce r).closeTakeover = t) ∧
    (let t1 := (t.reannounce r).closeTakeover
     Accepted s k 3 (some 5) → ∀ o, t1.car.takeover = some o → (∃ a ∈ o.waiting, a.rank = r) →
      let left := o.waiting.filter fun a => a.rank != r
      let u := t1.addResumed k
      ((∀ a ∈ left, s.car.activeRanks ≤ a.rank) →
        exec (.resume k) s = .next (({ u with car := { u.car with takeover := none } }).carEvent 4 0 s.ownRank)) ∧
      ((∃ a ∈ left, a.rank < s.car.activeRanks) →
        exec (.resume k) s = .next { u with car := { u.car with takeover := some { o with waiting := left } } }))

/-! ### The carillon (R312, R371 to R384) -/

/-- R312, R344, R376, R384: CARILLON_EN joins from state 0 and leaves, cancelling every instance and ending the loans; TAKEOVER on a spare takes an active rank with its
next incarnation; its limit, once, reports the first active rank that has not answered; REJOIN returns a fenced device as a spare. -/
def Sys2Proof.Claims.CarillonRegistersMoveItsState : Prop :=
  ∀ (s : State) (pr : Principal) (r : BitVec 16),
    (Open s 0 (prHost pr || prCp pr) false →
      (s.car.st ≠ 3 →
        exec (.carillonEn pr 1) s = answers pr { s with car := { s.car with en := true, st := if s.car.st = 0 then s.joinState else s.car.st } } rOK ∧
        let u := ((s.peal.insts.map Inst.uid).dedup.foldl State.cancelUid s).endLoans
        exec (.carillonEn pr 0) s = answers pr { u with car := { u.car with en := false, st := 0 } } rOK ∧ u.peal.insts = [] ∧
        ∀ i ∈ s.peal.insts, i.desc.opid ∈ u.peal.cancelled) ∧
      (s.car.st = 3 →
        exec (.carillonEn pr 1) s = answers pr { s with car := { s.car with en := true } } rOK ∧
        exec (.carillonEn pr 0) s = answers pr { s with car := { s.car with en := false } } rOK)) ∧
    (Open s 0 (prHost pr || prCp pr) true →
      let e := s.rankEntry r.toNat
      (s.car.st = 2 → r.toNat < s.car.activeRanks → r.toNat < 255 → e.state ≠ 0 → e.inc ≠ 0xFFFFFFFF →
        exec (.takeover pr r) s = answers pr (s.takeOver r.toNat) rOK ∧
        ((s.takeOver r.toNat).car.ownRank = r ∧ (s.takeOver r.toNat).car.ownInc = e.inc + 1 ∧ (s.takeOver r.toNat).car.st = 1)) ∧
      (s.car.st ≠ 2 ∨ s.car.activeRanks ≤ r.toNat ∨ e.inc = 0xFFFFFFFF → exec (.takeover pr r) s = answers pr s rREFUSED) ∧
      (s.car.en = true → s.car.st = 3 → s.car.unreset &&& s.peal.parts = 0 → r.toNat < 255 → e.state = 2 → e.ident = s.deviceId →
        exec (.carillonRejoin pr r) s =
          answers pr { s with car := { s.car with ownRank := r, ownInc := e.inc, st := 2, fencedToll := false } } rOK) ∧
      (s.car.st ≠ 3 ∨ s.car.unreset &&& s.peal.parts ≠ 0 ∨ e.state ≠ 2 ∨ e.ident ≠ s.deviceId → exec (.carillonRejoin pr r) s = answers pr s rREFUSED)) ∧
    (∀ o, s.car.takeover = some o → o.refused = false → o.deadline ≤ s.now →
      ∃ t, exec .takeoverLimit s = .next t ∧ t.car.takeover = some { o with refused := true } ∧
        ∀ a, (o.waiting.find? fun a => decide (a.rank < s.car.activeRanks)) = some a →
          t = ({ s with car := { s.car with takeover := some { o with refused := true } } }).carEvent 5 stRANK_TAKEOVER a.rank)

/-- R42, R325, R373, R376, R377: an ANNOUNCE with a good header that names an active rank's next incarnation and a spare of the table
moves the spare's entry to the rank, ends what was torn, answers with RESUME and sends unacknowledged packets again; an answer to a
takeover, behind the timeouts and the limit that have closed by then, leaves its waiting list, and the last active rank's answer ends the
takeover with its event. R312, R344, R376, R384: CARILLON_EN joins from state 0 and leaves, cancelling every instance and ending the
loans; TAKEOVER on a spare takes an active rank with its next incarnation; its limit, once, reports the first active rank that has not
answered; REJOIN returns a fenced device as a spare. Where the spec leaves a point open, the statement takes the choice of the model (log
entry 47). -/
def Obligations.TheCarillonTakesRanksOver : Prop := AnnounceAndResumeCarryATakeover ∧ CarillonRegistersMoveItsState


/-- R324, R371 to R373: a due device toll goes to every peer with the next SEQ, its fields at their bytes, that of a fenced device with STATE 2, once;
an accepted one is heard and hands over its slack, with PEER_HEARD where the rank was silent and PEER_FAILED for STATE 1; a stale one is counted, and
where its incarnation is the lower the device whose identity it carries is sent FENCED, as far as an entry of the table lists it (the model's choice,
log entry 47), and one of an unknown rank is counted as a bad header; a rank that has been silent for DEV_TOLL_MISS periods is reported once, before
its next toll is heard. -/
def Obligations.DeviceTollsKeepRanksHeard : Prop :=
  ∀ (s : State) (m : TollMsg) (r : Fin 255),
    (s.car.en = true → s.car.nextToll ≤ s.now → s.car.st ≠ 3 →
      let msg : TollMsg := { ver := 1, rank := s.car.ownRank, inc := s.car.ownInc, seq := s.car.tollSeq + 1, slack := BitVec.ofNat 16 s.car.slack,
                             state := if s.hub.fault ≠ 0 then 1 else 0, ident := s.deviceId }
      let s1 := { s with car := { s.car with
        tollSeq := s.car.tollSeq + 1, nextToll := s.now + s.car.period * 1000, fencedToll := s.car.fencedToll, slackSum := 0, slackN := 0 } }
      exec .devTollSend s = .next (s1.peers.foldl (fun s r => s.sendLowest { tc := 7, len := 64, body := .toll (tollBytes msg) r }) s1)) ∧
    ((tollBytes m).length = 32 ∧ natAt (tollBytes m) 0 1 = 1 ∧ natAt (tollBytes m) 1 1 = m.ver.toNat ∧ natAt (tollBytes m) 2 2 = m.rank.toNat ∧
      natAt (tollBytes m) 4 4 = m.inc.toNat ∧ natAt (tollBytes m) 8 4 = m.seq.toNat ∧ natAt (tollBytes m) 12 2 = m.slack.toNat ∧
      natAt (tollBytes m) 14 1 = m.state.toNat ∧ natAt (tollBytes m) 16 8 = m.ident.toNat) ∧
    (s.car.en = true → s.car.nextToll ≤ s.now → s.car.st = 3 →
      let msg : TollMsg := { ver := 1, rank := s.car.ownRank, inc := s.car.ownInc, seq := s.car.tollSeq + 1, slack := BitVec.ofNat 16 s.car.slack,
                             state := 2, ident := s.deviceId }
      let s1 := { s with car := { s.car with
        tollSeq := s.car.tollSeq + 1, nextToll := s.now + s.car.period * 1000, fencedToll := true, slackSum := 0, slackN := 0 } }
      (s.car.fencedToll = false →
        exec .devTollSend s = .next (s1.peers.foldl (fun s r => s.sendLowest { tc := 7, len := 64, body := .toll (tollBytes msg) r }) s1)) ∧
      (s.car.fencedToll = true → exec .devTollSend s = .next s)) ∧
    (s.now < s.car.nextToll → exec .devTollSend s = .next s) ∧
    (s.car.en = true → m.ver = 1 →
      let known := m.rank.toNat < 255 ∧ (s.rankEntry m.rank.toNat).present = true
      let e := s.rankEntry m.rank.toNat
      let stale := { s with car := { s.car with stale := satAdd 64 s.car.stale 1 } }
      let u := s.goSilent m.rank.toNat
      let heard := { u with
        car := { u.car with lastToll := sset 0 u.car.lastToll m.rank.toNat s.now, silent := setDel u.car.silent m.rank.toNat (m.rank.toNat + 1) },
        damper := { u.damper with peerSlack := sset 0 u.damper.peerSlack m.rank.toNat m.slack } }
      let again := if m.rank.toNat ∈ u.car.silent then heard.carEvent 2 0 m.rank.toNat else heard
      (¬ known → exec (.deviceToll m) s = .next (s.gcount cBadHdr)) ∧
      (known → m.inc.toNat < e.inc.toNat →
        exec (.deviceToll m) s = .next ((stale.netEvent 3 stFENCED_PEER m.rank.toNat).fenceRank m.rank.toNat (s.rankOfIdent m.ident))) ∧
      (known → e.inc.toNat < m.inc.toNat → exec (.deviceToll m) s = .next stale) ∧
      (known → m.inc = e.inc →
        exec (.deviceToll m) s = .next (if m.state = 1 then again.carEvent 3 0 m.rank.toNat else again))) ∧
    (s.car.en = true → m.ver = 1 → m.rank.toNat < 255 → (s.rankEntry m.rank.toNat).present = true → m.inc = (s.rankEntry m.rank.toNat).inc →
      ∃ t, exec (.deviceToll m) s = .next t ∧ sget 0 t.car.lastToll m.rank.toNat = s.now ∧
        sget 0 t.damper.peerSlack m.rank.toNat = m.slack ∧ m.rank.toNat ∉ t.car.silent) ∧
    (s.car.en = true → (s.rankEntry r).present = true → r.val ≠ s.ownRank → r.val ∉ s.car.silent →
      (s.car.miss * s.car.period * 1000 ≤ s.tollAge r →
        exec (.peerSilent r) s = .next (s.goSilent r) ∧
        s.goSilent r = ({ s with car := { s.car with silent := setIns s.car.silent r } }).carEvent 1 0 r) ∧
      (s.tollAge r < s.car.miss * s.car.period * 1000 → exec (.peerSilent r) s = .next s ∧ s.goSilent r = s)) ∧
    (∀ own x : Nat, s.fenceRank own none = s ∧
      (∀ k ks a, s.pathPorts x = k :: ks → s.path k x = some a → s.fenceRank own (some x) = s.answerStale own k a.1 a.2) ∧
      (s.rankOfIdent m.ident = some x → (s.rankEntry x).ident = m.ident ∧ (s.rankEntry x).state ≠ 0))

/-! ### Ports (R291 to R309) -/

namespace Sys2Proof.Claims

open Sys2Proof Sys2Proof.Machine

/-- A write to a port entry goes ahead (R308). -/
abbrev PortOpen (s : State) (pr : Principal) : Prop := Open s 0 (portWriter pr) false

/-- R291: the lane counts that a port can take beside its pair's other port. -/
abbrev LanesFit (s : State) (k n : Nat) : Prop :=
  (n = 4 → k % 2 = 0 ∧ (s.port (k + 1)).lanes = 0) ∧ (k % 2 = 1 → n ≠ 0 → (s.port (k - 1)).lanes ≠ 4)

/-- R300: the pending schedule of a port is one. -/
abbrev PendingSchedule (p : Port) : Prop :=
  let l := gateList p.pendList
  1 ≤ l.length ∧ l.length ≤ 256 ∧ (∀ e ∈ l, 1 ≤ e.2 ∧ e.2 ≤ 1000000000) ∧ 1000 ≤ p.pendCycle ∧ p.pendCycle ≤ 1000000000

/-- A frame without a fault of R296. -/
abbrev GoodFrame (p : Port) (f : RxFrame) : Prop :=
  f.fcs = false ∧ f.symbol = false ∧ 64 ≤ f.bytes.length ∧ f.bytes.length ≤ p.maxFrame

end Sys2Proof.Claims

/-- R291, R293 to R295: a change of lanes or of the medium takes the port down to TRAINING, or to DISABLED with 0 lanes; values outside
their range, 4 lanes that the pair does not have, and autonegotiation on an optical port are turned away; a port that comes up takes the
lane rate it was given, or the forced one. -/
def Sys2Proof.Claims.PortConfigurationRetrains : Prop :=
  ∀ (s : State) (pr : Principal) (k : Fin 8) (v : BitVec 8) (st : PortState) (fast : Bool), PortOpen s pr →
    let p := s.port k
    ((v = 0 ∨ v = 1 ∨ v = 2 ∨ v = 4) →
      (LanesFit s k v.toNat →
        ∃ t, exec (.portLanes pr k v) s = answers pr t rOK ∧ (v = p.lanes → t = s) ∧
          (v ≠ p.lanes → k.val < s.eth.ports.length →
            (t.port k).lanes = v ∧ (t.port k).st = (if v = 0 then .disabled else .training) ∧ ∀ c < 8, ((t.port k).cls c).pauseEnd = none)) ∧
      (¬ LanesFit s k v.toNat → exec (.portLanes pr k v) s = answers pr s rREFUSED)) ∧
    (¬ (v = 0 ∨ v = 1 ∨ v = 2 ∨ v = 4) → exec (.portLanes pr k v) s = answers pr s rRANGE) ∧
    (v.toNat ≤ 2 → ¬ (v = 2 ∧ p.an = true) →
      exec (.portMedia pr k v) s =
        answers pr (if p.media = v then s else (s.setPort k { p with media := v }).setLink k
          (if ((s.setPort k { p with media := v }).port k).lanes = 0 then .disabled else .training)) rOK) ∧
    (v = 2 → p.an = true → exec (.portMedia pr k v) s = answers pr s rREFUSED) ∧
    (2 < v.toNat → exec (.portMedia pr k v) s = answers pr s rRANGE) ∧
    (v.toNat ≤ 1 → ¬ (v = 1 ∧ p.media = 2) → exec (.portAn pr k v) s = answers pr (s.setPort k { p with an := v == 1 }) rOK) ∧
    (v = 1 → p.media = 2 → exec (.portAn pr k v) s = answers pr s rREFUSED) ∧
    (1 < v.toNat → exec (.portAn pr k v) s = answers pr s rRANGE) ∧
    exec (.trainingRetry k) s = .next s ∧
    (s.alive = true → st ≠ .up → (p.lanes = 0 ↔ st = .disabled) → exec (.linkChange k st fast) s = .next (s.setLink k st)) ∧
    (s.alive = true → p.lanes ≠ 0 → s.hub.refclkE = true →
      exec (.linkChange k .up fast) s =
        .next ((s.setPort k { p with fast := if p.an then fast else p.force == 0 }).setLink k .up).pump)

/-- R295, R306: a port that leaves UP discards its queued frames and counts them, and each change of state is a port event, which goes to the event
queues that the port's mask names. -/
def Sys2Proof.Claims.LeavingUpDiscardsTheQueuedFrames : Prop :=
  ∀ (s : State) (k : Nat) (st : PortState), k < s.eth.ports.length →
    let p := s.port k
    let t := s.setLink k st
    (t.port k).st = st ∧
    (p.st ≠ st → ∃ u : State, t = u.portEvent k 1 0 ∧ u.port k = { t.port k with st := st } ∧ ∀ n < 16, u.mqueue n = s.mqueue n) ∧
    (∀ u : State, ∀ kind tc n : Nat, n < 16 → (u.port k).evqMask.getLsbD n = true → PortFree (u.mqueue n) →
      ((u.portEvent k kind tc).mqueue n).pkts.getLast? = some (Packet.make n (u.mqueue n).seq u.now
        [w64 (0x05 * 2 ^ 56 + kind * 2 ^ 48 + k * 2 ^ 40 + tc * 2 ^ 32), w64 (u.port k).timer])) ∧
    (p.st = .up → st ≠ .up → (t.port k).txq = [] ∧
      sget 0 (t.port k).counters pTxLinkdown = satAdd 64 (sget 0 p.counters pTxLinkdown) (p.txq.map fun e => e.2.length).sum) ∧
    ((p.st ≠ .up ∨ st = .up) → (t.port k).txq = p.txq ∧ (t.port k).counters = p.counters) ∧
    (p.st = st → t = s) ∧ (∀ j, j ≠ k → t.port j = s.port j)

/-- R291, R293 to R295: a change of lanes or of the medium takes the port down to TRAINING, or to DISABLED with 0 lanes; values outside
their range, 4 lanes that the pair does not have, and autonegotiation on an optical port are turned away; a port that comes up takes the
lane rate it was given, or the forced one. R295, R306: a port that leaves UP discards its queued frames and counts them, and each change
of state is a port event, which goes to the event queues that the port's mask names. Where the spec leaves a point open, the statement
takes the choice of the model (log entry 48). -/
def Obligations.PortsRetrainAndDiscard : Prop := PortConfigurationRetrains ∧ LeavingUpDiscardsTheQueuedFrames


/-- R42, R304, R305: a PFC frame pauses, resumes or is ignored class by class, after the windows of the watchdog that have closed; a pause ends
at its time, is broken when it has lasted the limit, and class recovery restores it; an enabled class of a port that is UP repeats its own pause
after half its time while the share stays at or above 64 KiB. -/
def Sys2Proof.Claims.PausesEndBreakAndRecover : Prop :=
  ∀ (s : State) (k tc : Fin 8) (cl : BitVec 8) (qs : List (BitVec 16)),
    let p := s.port k
    let c := p.cls tc
    let close := c.pauseSince + p.pauseLimit * 1000000
    let Broken := c.broken = false ∧ close ≤ p.ticks ∧ ∃ e, c.pauseEnd = some e ∧ close ≤ e
    (p.st = .up → exec (.pfcFrame k cl qs) s = .next ((List.range 8).foldl (fun s t =>
      if cl.getLsbD t then ((s.breakPause k t).rearm k t).modPort k fun p => (p.pfcClass t (qs.getD t 0).toNat).dropIdle else s) s)) ∧
    (p.st ≠ .up → exec (.pfcFrame k cl qs) s = .next s) ∧
    (p.pfcEn.getLsbD tc = true → tc.val ≠ 7 → c.broken = false →
      (∀ q, q ≠ 0 → ((p.pfcClass tc q).cls tc).pauseEnd = some (p.ticks + pauseNs q p.rate)) ∧ ((p.pfcClass tc 0).cls tc).pauseEnd = none) ∧
    (p.pfcEn.getLsbD tc = false ∨ tc.val = 7 → ∀ q, (p.pfcClass tc q).classes = p.classes) ∧
    (∀ e, c.pauseEnd = some e → e ≤ p.ticks → (close ≤ e → c.broken = true) →
      exec (.pauseExpire k tc) s = .next (s.setPort k (p.setCls tc { c with pauseEnd := none }))) ∧
    (∀ e, c.pauseEnd = some e → p.ticks < e → p.ticks < close → exec (.pauseExpire k tc) s = .next s) ∧
    (Broken → exec (.pauseLimit k tc) s = .next ((s.setPort k
      ((p.setCls tc { c with pauseEnd := none, broken := true, recoverAt := close + p.pauseRecovery * 1000000 }).count pPauseBreaks 1)).portEvent k 2 tc)) ∧
    (¬ Broken → exec (.pauseLimit k tc) s = .next s) ∧
    (c.broken = true → c.recoverAt ≤ p.ticks →
      exec (.pauseRecovery k tc) s = .next ((s.setPort k (p.setCls tc { c with broken := false })).portEvent k 3 tc)) ∧
    (∀ a, c.pfcAt = some a → a + pauseNs 65535 p.rate / 2 ≤ p.ticks → 65536 ≤ c.share → p.st = .up → p.pfcEn.getLsbD tc = true → tc.val ≠ 7 →
      exec (.pfcRepeat k tc) s = .next ((s.setPort k (p.setCls tc { c with pfcAt := some p.ticks })).sendPfc k tc 0xFFFF)) ∧
    (c.share < 65536 ∨ p.st ≠ .up ∨ p.pfcEn.getLsbD tc = false → exec (.pfcRepeat k tc) s = .next s)

/-- R292, R296 to R298, R304: a received frame is counted, with the codewords of FEC that came before it; one with a fault is counted by each of
its faults and goes nowhere unless PORT_BAD_HOST or PORT_BAD_CP keeps it; a good one takes its share, or is dropped where the share of an unpaused
class is full, and is sorted by its bytes: Geril packets stay with the peal engine, management frames with the dictionary, ARP, neighbour discovery
and LLDP go to the control processor's queue, which it takes and answers in order, or are dropped unanswered where that is full, and the rest go to
the host's ring. A management frame is accepted where the port takes them, the carillon is enabled and the source address is a device's of the rank
table; one whose Voxyx prefix is stale is dropped and counted, its sender fenced where the incarnation is lower, and one of an absent rank is counted
in GERIL_BAD_HDR; any other is refused and counted, with an event at most once a second. -/
def Sys2Proof.Claims.ReceivedFramesAreCountedAndSorted : Prop :=
  ∀ (s : State) (k : Fin 8) (f : RxFrame) (fec : Nat × Nat) (reply : Option (List Byte)),
    let p := s.port k
    let len := f.bytes.length
    let tc := p.rxClass f.pcp
    let p1 := (((p.count pRxFrames 1).count pRxBytes len).count pFecCorrected fec.1).count pFecUncorrected fec.2
    let s1 := s.setPort k p1
    (p.st ≠ .up → exec (.frameReceive k f fec reply) s = .next s) ∧
    (k.val < s.eth.ports.length → p.st = .up → GoodFrame p f →
      ((p.cls tc).share + len ≤ 262144 ∨ (p.pfcEn.getLsbD tc = true ∧ tc ≠ 7) →
        exec (.frameReceive k f fec reply) s = .next ((s1.takeShare k tc len).sortFrame k tc f reply)) ∧
      (262144 < (p.cls tc).share + len → (p.pfcEn.getLsbD tc = false ∨ tc = 7) →
        exec (.frameReceive k f fec reply) s = .next (s1.setPort k (p1.countTc pRxBufDrop tc 1)))) ∧
    (k.val < s.eth.ports.length → p.st = .up → ¬ GoodFrame p f → p.badHost = false → p.badCp = false →
      exec (.frameReceive k f fec reply) s = .next (s1.setPort k
        ((((p1.count pRxFcs (if f.fcs then 1 else 0)).count pRxRunt (if len < 64 then 1 else 0)).count pRxOversize (if p.maxFrame < len then 1 else 0)).count
          pRxSymbol (if f.symbol then 1 else 0)))) ∧
    (p.isGeril f s.peal.udpPort.toNat = true → s.sortFrame k tc f reply = s) ∧
    (p.isGeril f s.peal.udpPort.toNat = false → f.etype ≠ s.eth.mgmtEtype.toNat →
      (f.isNeighbour = true → p.cpq.length < 256 →
        s.sortFrame k tc f reply = s.setPort k { p with cpq := p.cpq ++ [{ bytes := f.bytes, reply := reply }] }) ∧
      (f.isNeighbour = true → 256 ≤ p.cpq.length → s.sortFrame k tc f reply = s.setPort k (p.count pRxCpqFull 1)) ∧
      (f.isNeighbour = false → p.rxrSize = 0 → s.sortFrame k tc f reply = s.setPort k (p.count pRxNoq 1)) ∧
      (f.isNeighbour = false → p.rxrSize ≠ 0 → s.sortFrame k tc f reply = s.toRing k tc 0 f.bytes)) ∧
    (p.isGeril f s.peal.udpPort.toNat = false → f.etype = s.eth.mgmtEtype.toNat →
      let takes := p.mgmtEn && s.car.en && s.macListed f.srcMac
      let o := f.etypeAt + 2
      let prefixed := natAt f.bytes o 1 = 0x10 ∨ natAt f.bytes o 1 = 0x11
      let r := natAt f.bytes (o + 2) 2
      let i := natAt f.bytes (o + 4) 4
      let own := (s.rankEntry r).inc.toNat
      let stale : State := { s with dict := { s.dict with counters := sset 0 s.dict.counters 0x402 (satAdd 64 (sget 0 s.dict.counters 0x402) 1) } }
      let refused := p.count pRxMgmtRefused 1
      (takes = true → ¬ prefixed ∨ (s.rankKnown r = true ∧ i = own) → s.sortFrame k tc f reply = s) ∧
      (takes = true → prefixed → s.rankKnown r = false → s.sortFrame k tc f reply = s.gcount cBadHdr) ∧
      (takes = true → prefixed → s.rankKnown r = true →
        (i < own → s.sortFrame k tc f reply = (stale.netEvent 3 stFENCED_PEER r).fenceRank r (s.rankOfMac f.srcMac)) ∧
        (own < i → s.sortFrame k tc f reply = stale)) ∧
      (takes = false →
        ((∀ a, p.refusedAt = some a → a + 1000000000 ≤ p.ticks) →
          s.sortFrame k tc f reply = (s.setPort k { refused with refusedAt := some p.ticks }).portEvent k 6 0) ∧
        (∀ a, p.refusedAt = some a → p.ticks < a + 1000000000 → s.sortFrame k tc f reply = s.setPort k refused))) ∧
    (∀ g r, p.cpq = g :: r → s.takeCpq k = (s.setPort k { p with cpq := r }).neighbourReply k g.reply)

/-- R299 to R303: the head frame of a class starts where the gates, the pauses, the priorities and among TC0 to TC3 the arbiter allow it, and takes
the wire for its time, tagged with the PCP of its class; one that no window of its class can hold is discarded with an event. -/
def Sys2Proof.Claims.FramesStartWhereTheGatesAllow : Prop :=
  ∀ (s : State) (k tc : Fin 8) (f : TxFrame) (r : List TxFrame),
    let p := s.port k
    let rest : Port := { p with txq := sset [] p.txq tc r }
    sget [] p.txq tc = f :: r →
    (p.mayStart tc f.len = true → p.outranked tc = false → (4 ≤ tc.val ∨ p.arb.pick (s.tcAsks k) = some tc.val) → p.oversize tc f.len = false →
      exec (.frameTransmit k tc) s = .next ((s.setPort k
        ({ ((rest.count pTxFrames 1).count pTxBytes f.len).countTc pTxClassFrames tc 1 with
          txTil := p.ticks + p.wireNs f.len, txTc := tc, arb := s.tcGrant k tc } : Port).dropIdle).emit
        (.frame k p.vlan (p.tcToPcp.toNat / 2 ^ (3 * tc.val) % 8) f))) ∧
    (p.st = .up → p.oversize tc f.len = true →
      exec (.frameTransmit k tc) s = .next ((s.setPort k (rest.count pGateOversize 1).dropIdle).portEvent k 4 tc)) ∧
    (p.st ≠ .up ∨ ((p.mayStart tc f.len = false ∨ p.outranked tc = true ∨ (tc.val < 4 ∧ p.arb.pick (s.tcAsks k) ≠ some tc.val)) ∧ p.oversize tc f.len = false) →
      exec (.frameTransmit k tc) s = .next s) ∧
    (∀ c, p.asksWire c = false → sget 0 p.dropIdle.arb.credit c = 0) ∧
    (p.mayStart tc f.len = true → p.st = .up ∧ (∀ e, (p.cls tc).pauseEnd = some e → e ≤ p.ticks ∨ p.breaks tc = true) ∧ p.txTil ≤ p.ticks ∧
      (p.gateEn = true → p.active ≠ none → p.gatesNow.getLsbD tc = true))

/-- R292, R296 to R298, R304: a received frame is counted, with the codewords of FEC that came before it; one with a fault is counted by
each of its faults and goes nowhere unless PORT_BAD_HOST or PORT_BAD_CP keeps it; a good one takes its share, or is dropped where the
share of an unpaused class is full, and is sorted by its bytes: Geril packets stay with the peal engine, management frames with the
dictionary, ARP, neighbour discovery and LLDP go to the control processor's queue, which it takes and answers in order, or are dropped
unanswered where that is full, and the rest go to the host's ring. A management frame is accepted where the port takes them, the carillon
is enabled and the source address is a device's of the rank table; one whose Voxyx prefix is stale is dropped and counted, its sender
fenced where the incarnation is lower, and one of an absent rank is counted in GERIL_BAD_HDR; any other is refused and counted, with an
event at most once a second. R299 to R303: the head frame of a class starts where the gates, the pauses, the priorities and among TC0 to
TC3 the arbiter allow it, and takes the wire for its time, tagged with the PCP of its class; one that no window of its class can hold is
discarded with an event. Where the spec leaves a point open, the statement takes the choice of the model (log entries 25, 26, 47, 48 and
66). -/
def Obligations.FramesAreSortedAndSent : Prop := ReceivedFramesAreCountedAndSorted ∧ FramesStartWhereTheGatesAllow


/-- R300, R301: a commit arms the pending schedule for the first start of its cycle at or after the timer plus 1,000 ns, in place of an armed one
whose change time has not come, and refuses one that is not a schedule; the change makes it active and counts a frame that it cuts, before a commit
or a load of the timer that comes after its time; gates follow the schedule and a load of the timer, and an armed schedule rules them from its
change time on. -/
def Sys2Proof.Claims.GateSchedulesChangeAtTheirTime : Prop :=
  ∀ (s : State) (pr : Principal) (k : Fin 8) (v : W64),
    let p := s.port k
    let t := s.changeGates k
    let q := t.port k
    (PortOpen s pr →
      (PendingSchedule p → exec (.gateCommit pr k 1) s = answers pr (t.setPort k
        { q with armed := some ({ list := gateList p.pendList, cycle := p.pendCycle, base := p.pendBase }, changeTime q.pendBase q.pendCycle q.timer) }) rOK) ∧
      (¬ PendingSchedule p → exec (.gateCommit pr k 1) s = answers pr s rREFUSED) ∧
      exec (.gateCommit pr k 0) s = answers pr s rOK ∧
      exec (.portTimer pr k v) s = answers pr (t.setPort k
        ({ q with timer := v.toNat, gates := ({ q with timer := v.toNat } : Port).gatesNow } : Port).dropIdle) rOK) ∧
    exec (.gateChange k) s = .next t ∧
    (p.armed = none → t = s) ∧
    (∀ g at_, p.armed = some (g, at_) → p.timer < at_ → t = s) ∧
    (∀ b c t, 0 < c → t + 1000 ≤ changeTime b c t ∧ b ≤ changeTime b c t ∧ (changeTime b c t - b) % c = 0 ∧
      (b < changeTime b c t → changeTime b c t < t + 1000 + c)) ∧
    (∀ g at_, p.gateEn = true → p.armed = some (g, at_) → p.gatesNow = (if at_ ≤ p.timer then g.gatesAt p.timer else ({ p with armed := none } : Port).gatesNow)) ∧
    exec (.gateEntry k) s = .next (s.setPort k { p with gates := p.gatesNow }) ∧
    (∀ g at_, p.armed = some (g, at_) →
      (p.timer < at_ → exec (.gateChange k) s = .next s) ∧
      (at_ ≤ p.timer →
        let p1 : Port := { p with active := some g, armed := none }
        let p2 : Port := ({ p1 with gates := p1.gatesNow } : Port).dropIdle
        exec (.gateChange k) s = .next ((s.setPort k
          (if p.ticks < p.txTil ∧ p2.gates.getLsbD p.txTc = false then p2.count pGateOverrun 1 else p2)).portEvent k 5 0)))

/-- R42, R304, R305: a PFC frame pauses, resumes or is ignored class by class, after the windows of the watchdog that have closed; a pause
ends at its time, is broken when it has lasted the limit, and class recovery restores it; an enabled class of a port that is UP repeats
its own pause after half its time while the share stays at or above 64 KiB. R300, R301: a commit arms the pending schedule for the first
start of its cycle at or after the timer plus 1,000 ns, in place of an armed one whose change time has not come, and refuses one that is
not a schedule; the change makes it active and counts a frame that it cuts, before a commit or a load of the timer that comes after its
time; gates follow the schedule and a load of the timer, and an armed schedule rules them from its change time on. Where the spec leaves a
point open, the statement takes the choice of the model (log entry 48). -/
def Obligations.PausesAndGatesKeepTheirTimes : Prop := PausesEndBreakAndRecover ∧ GateSchedulesChangeAtTheirTime


/-! ### The damper and lending (R388 to R407) -/

namespace Sys2Proof.Claims

open Sys2Proof Sys2Proof.Machine

/-- R399: a lending message that the device looks at. -/
abbrev LendOk (s : State) (m : LendMsg) : Prop :=
  s.car.en = true ∧ m.ver = 1 ∧ m.rank.toNat < 255 ∧ (s.rankEntry m.rank.toNat).present = true ∧ m.dst = s.car.ownRank

/-- R400: the device, with slack `own`, lends a step to rank r. -/
abbrev Lends (s : State) (own r : Nat) : Prop :=
  let d := s.damper
  ∃ v, lowestSlack s.slacks = some (r, v) ∧ v + d.lendThresh ≤ own ∧ d.lent + d.lendStep ≤ d.capSet * 150 ∧ d.throttle.toNat / 4 % 2 = 0 ∧
    d.throttle.toNat / 16 % 2 = 0

/-- R400: the device's slack over the lending period. -/
def ownSlack (d : Damper) : Nat := if d.slackN = 0 then 0 else min 65535 (d.slackSum / d.slackN)

/-- R401: is the loan's GRANT sent again in a lending period? Only while its lease runs, and after a RECALL only while its guard time does. -/
def renewed (d : Damper) (now : Nat) (l : Loan) : Bool :=
  l.granted && decide (now < l.sentAt + d.lendLease * 1000000) && match l.recalled with
    | none => true
    | some t => decide (now < t + d.lendGuard * 1000000)

/-- The damper changed. -/
def damped (s : State) (d : Damper) : State := { s with damper := d }

end Sys2Proof.Claims

/-- R390, R404: CAP_SET takes 400 W to the fused cap, keeps it in flash, and is in force at once unless it is a raise that the mean power does
not yet allow; every effective cap lies between 0.85 and 1.15 times the own cap. -/
def Sys2Proof.Claims.TheCapIsSetInItsRange : Prop :=
  ∀ (s : State) (pr : Principal) (v : BitVec 16),
    (Open s 0 (prHost pr || prBmc pr || prCp pr) true →
      (v.toNat < 400 ∨ Config.capFused < v.toNat → exec (.capSet pr v) s = answers pr s rREFUSED) ∧
      (400 ≤ v.toNat → v.toNat ≤ Config.capFused →
        let d := { s.damper with capSet := v.toNat }
        let raised := { d with capInForce := v.toNat }
        ∃ d', exec (.capSet pr v) s = answers pr { s with damper := d', fw := { s.fw with flashCap := some v.toNat } } rOK ∧
          (v.toNat ≤ s.damper.capInForce ∨ raised.meanPower * 1000 ≤ raised.regPoint → d' = raised) ∧
          (s.damper.capInForce < v.toNat → raised.regPoint < raised.meanPower * 1000 → d' = d))) ∧
    s.damper.capSet * 850 ≤ s.damper.effCap ∧ s.damper.effCap ≤ s.damper.capSet * 1150

/-- R388, R389, R391, R392, R396, R404: one run of the cap loop: it reads the power of the rails, V × I summed, and takes the mean of the last
1 ms; the pace target falls by 1 % above the regulation point, the current or the temperature limit, rises by 0.5 % up to its ceiling when all
three allow it, and is the lowest pace without telemetry; each voltage moves toward that of the target by at most 10 mV; PACE_NOW takes the paces
that result; a reading of 110 °C or more shuts the device down; after a shutdown the voltages and the loans stay, and a device in reset runs no loop. -/
def Sys2Proof.Claims.TheCapLoopRegulatesThePace : Prop :=
  ∀ (s : State) (m : CapSample),
    let o := s.damper
    let d := (o.run s.now m).measurePace
    let now_ := (List.range 4).map fun q => (o.fastOf q).recent
    let amps := d.meanAmps s.now
    let hot := d.regPoint < d.meanPower * 1000 ∨ (∃ i ∈ amps, 177300 < i) ∨ 95000 ≤ maxTemp d.temps
    let easy := d.meanPower * 1000 * 100 < d.regPoint * 97 ∧ maxTemp d.temps < 93000 ∧ o.fastBits % 8 = 0
    (s.alive = false → exec (.capLoop m) s = .next s) ∧
    (s.alive = true → o.shutdown = true →
      let s1 := damped s ({ o.run s.now m with vcq := o.vcq } : Damper).measurePace
      let s2 := if d.tjLimit && !o.tjLimit then s1.damperEvent 2 else s1
      ∃ t, exec (.capLoop m) s = .next t ∧ t = s2.setThrottle (s2.damper.loopBits (s2.damper.meanAmps s2.now) + s2.damper.fastBits) ∧
        t.damper.vcq = o.vcq ∧ t.damper.loans = o.loans ∧ t.damper.borrows = o.borrows) ∧
    (s.alive = true → o.shutdown = false →
      let s1 := damped s d
      let s2 := if d.tjLimit && !o.tjLimit then s1.damperEvent 2 else s1
      let s3 := if 95000 ≤ maxTemp s2.damper.temps then s2.endBorrow fun _ => true else s2
      let s4 := (s3.setThrottle (s3.damper.loopBits (s3.damper.meanAmps s3.now) + s3.damper.fastBits)).settleLoans
      (maxTemp d.temps < 110000 → exec (.capLoop m) s = .next s4) ∧
      (110000 ≤ maxTemp d.temps → exec (.capLoop m) s = .next s4.shutDown)) ∧
    (∀ q < 5, d.paceReg[q]? = some (d.pace q)) ∧
    d.readings = { at_ := s.now, power := samplePower m now_, amps := now_ } :: o.readings.filter (fun x => decide (s.now < x.at_ + 10000000)) ∧
    d.meanPower = meanOf ((d.readings.filter fun x => decide (s.now < x.at_ + 1000000)).map Reading.power) ∧
    (∀ q < 4, amps[q]? = some (meanOf ((d.readings.filter fun x => decide (s.now < x.at_ + 1000000)).map fun x => x.amps.getD q 0)) ∧
      (d.fastOf q).acc = 0 ∧ (d.fastOf q).accN = 0) ∧
    d.energyNj = o.energyNj + samplePower m now_ * 100 ∧ d.capSet = o.capSet ∧ d.shutdown = o.shutdown ∧
    (o.telemetry = false → d.paceT = lowestPace) ∧
    (o.telemetry = true → hot → d.paceT = o.paceT * 99 / 100) ∧
    (o.telemetry = true → ¬ hot → easy → d.paceT = min (o.paceT * 1005 / 1000) d.ceiling) ∧
    (o.telemetry = true → ¬ hot → ¬ easy → d.paceT = o.paceT) ∧
    (∀ q < 4, sget 0 d.vcq q = stepVolt (sget 0 o.vcq q) (voltageFor q (d.temps.getD q 25000) d.paceT) ∧
      sget 0 d.vcq q ≤ sget 0 o.vcq q + 10 ∧ sget 0 o.vcq q ≤ sget 0 d.vcq q + 10)

/-- R390, R404: CAP_SET takes 400 W to the fused cap, keeps it in flash, and is in force at once unless it is a raise that the mean power
does not yet allow; every effective cap lies between 0.85 and 1.15 times the own cap. R388, R389, R391, R392, R396, R404: one run of the
cap loop: it reads the power of the rails, V × I summed, and takes the mean of the last 1 ms; the pace target falls by 1 % above the
regulation point, the current or the temperature limit, rises by 0.5 % up to its ceiling when all three allow it, and is the lowest pace
without telemetry; each voltage moves toward that of the target by at most 10 mV; PACE_NOW takes the paces that result; a reading of 110
°C or more shuts the device down; after a shutdown the voltages and the loans stay, and a device in reset runs no loop. Where the spec
leaves a point open, the statement takes the choice of the model (log entries 3, 42 and 45). -/
def Obligations.TheCapIsSetAndKept : Prop := TheCapIsSetInItsRange ∧ TheCapLoopRegulatesThePace


/-- R40, R394: while the device is out of reset, one current sample of a quadrant joins its window and the sum for the cap loop, and its IMON input
is valid again; at 290 A or more the quadrant is held at swell 1 and HBM admission 4 for 4 µs; a mean of 228 A or more over the 4 µs before, in which a sample that lacks counts as 0 by the model's choice (log entry 3), lowers the units, at first to
6 and 12, then by one each 40 ns; the hold ends at its time; the rail's window timer times all of it. -/
def Sys2Proof.Claims.TheFastLoopLowersItsQuadrant : Prop :=
  ∀ (s : State) (q : Fin 4) (mA : Nat),
    let d := s.damper
    let f := d.fastOf q
    (s.alive = false → exec (.fastLoop q mA) s = .next s ∧ exec (.peakHoldEnd q) s = .next s) ∧
    (s.alive = true → ∃ t, exec (.fastLoop q mA) s = .next t ∧ (t.damper.fastOf q).window = (f.timer, mA) :: f.window.filter (fun e => decide (f.age e.1 ≤ 4000)) ∧
      (t.damper.fastOf q).acc = f.acc + mA ∧ (t.damper.fastOf q).accN = f.accN + 1 ∧ q.val ∉ t.damper.imonBad ∧
      (∀ k, k ≠ q.val → t.damper.fastOf k = d.fastOf k) ∧ f.mean = ((f.window.filter fun e => decide (0 < f.age e.1 ∧ f.age e.1 ≤ 4000)).map Prod.snd).sum / 400 ∧
      (290000 ≤ mA → (t.damper.fastOf q).holdTil = some (f.timer + 4000) ∧ t.damper.peaks = satAdd 64 d.peaks 1 ∧ t.damper.swellNow q ≤ 1 ∧
        t.damper.hbmNow q ≤ 4) ∧
      (mA < 290000 → (t.damper.fastOf q).holdTil = f.holdTil ∧ t.damper.peaks = d.peaks) ∧
      (228000 ≤ f.mean → f.highAt = none → (t.damper.fastOf q).swell = min f.swell 6 ∧ (t.damper.fastOf q).hbm = min f.hbm 12) ∧
      (∀ a, 228000 ≤ f.mean → f.highAt = some a → a + 40 ≤ f.timer →
        (1 < f.swell → (t.damper.fastOf q).swell = f.swell - 1 ∧ (t.damper.fastOf q).hbm = f.hbm) ∧
        (f.swell = 1 → 4 < f.hbm → (t.damper.fastOf q).swell = 1 ∧ (t.damper.fastOf q).hbm = f.hbm - 1))) ∧
    (s.alive = true → ∀ h, f.holdTil = some h →
      (h ≤ f.timer → exec (.peakHoldEnd q) s = .next (damped s (d.setFast q { f with holdTil := none })).refreshFast) ∧
      (f.timer < h → exec (.peakHoldEnd q) s = .next s))

/-- R27, R389, R397: a thermal shutdown drives THERM_N low, sets the voltages to 620 mV, takes every unit's ceiling to 0 and is device
fault 4, and no slab can be accessed; without telemetry the pace target is the lowest pace and THROTTLE[5] is 1 until every input is valid again. A
device in reset knows neither. -/
def Sys2Proof.Claims.ShutdownAndLostTelemetryHoldTheDevice : Prop :=
  ∀ (s : State) (imon : Option (Fin 4)),
    (s.alive = false → ∀ c ∈ [Instr.thermalShutdown, .telemetryLost imon, .telemetryRestored], exec c s = .next s) ∧
    (s.alive = true →
      (∃ t, exec .thermalShutdown s = .next t ∧ t = s.shutDown ∧ (∀ p, t.canIssue p = false) ∧ t.hub.thermN = false ∧ t.damper.shutdown = true ∧
        (∀ q < 4, sget 0 t.damper.vcq q = 620 ∧ t.damper.swellNow q = 0 ∧ t.damper.hbmNow q = 0) ∧ (∀ part pa, t.access part pa ≠ .ok ()) ∧
        (s.hub.fault = 0 → t.hub.fault = 4) ∧ (s.hub.fault ≠ 0 → t.hub.fault = s.hub.fault)) ∧
      (∃ t, exec (.telemetryLost imon) s = .next t ∧ t.damper.telemetry = false ∧ t.damper.paceT = lowestPace ∧
        t.damper.throttle = s.damper.throttle ||| 32#8 ∧ t.alertN = false ∧
        ∀ q, imon = some q → q.val ∈ t.damper.imonBad ∧ t.damper.swellNow q ≤ 4) ∧
      (s.damper.telemetry = true → exec .telemetryRestored s = .next s) ∧
      (s.damper.telemetry = false → ∃ t, exec .telemetryRestored s = .next t ∧ t.damper.telemetry = true ∧ t.damper.imonBad = [] ∧
        t.damper.throttle = s.damper.throttle &&& 0xDF#8))

/-- R40, R394: while the device is out of reset, one current sample of a quadrant joins its window and the sum for the cap loop, and its
IMON input is valid again; at 290 A or more the quadrant is held at swell 1 and HBM admission 4 for 4 µs; a mean of 228 A or more over the
4 µs before, in which a sample that lacks counts as 0 by the model's choice (log entry 3), lowers the units, at first to 6 and 12, then by
one each 40 ns; the hold ends at its time; the rail's window timer times all of it. R27, R389, R397: a thermal shutdown drives THERM_N
low, sets the voltages to 620 mV, takes every unit's ceiling to 0 and is device fault 4, and no slab can be accessed; without telemetry
the pace target is the lowest pace and THROTTLE[5] is 1 until every input is valid again. A device in reset knows neither. Where the spec
leaves a point open, the statement takes the choice of the model (log entries 3 and 45). -/
def Obligations.QuadrantsAreLoweredAndShutDown : Prop := TheFastLoopLowersItsQuadrant ∧ ShutdownAndLostTelemetryHoldTheDevice


/-- R400: the decision of a lending period, once LEND_PERIOD has passed since the last one: with enough slack the device grants a step to the rank with the least; otherwise it recalls its
oldest loan where its slack fell below the recipient's or the loans exceed 15 % of the own cap; otherwise it renews its loans. -/
def Sys2Proof.Claims.ALendingPeriodGrantsRecallsOrRenews : Prop :=
  ∀ (s : State),
    let d := s.damper
    let own := ownSlack d
    let due := d.lendAt + d.lendPeriod * 1000 ≤ s.now
    let s0 := damped s { d with slackSum := 0, slackN := 0, lendAt := s.now }
    (s.alive = false ∨ ¬ due → exec .lendPeriod s = .next s) ∧
    (s.alive = true → due → s.mayLend = false → exec .lendPeriod s = .next s0) ∧
    (s.alive = true → due → s.mayLend = true →
      (∀ r, Lends s own r →
        let l : Loan := { seq := d.loanSeq + 1, rank := r, amount := d.lendStep, sentAt := s.now, recalled := none, granted := false }
        exec .lendPeriod s = .next (((damped s0 { s0.damper with
          loanSeq := d.loanSeq + 1, loans := d.loans ++ [l], lent := d.lent + d.lendStep }).damperEvent 5).settleLoans)) ∧
      ((¬ ∃ r, Lends s own r) →
        (∀ l, s.toRecall own = some l → exec .lendPeriod s = .next ((damped s0 { s0.damper with
          loans := modFirst (fun x => x.seq == l.seq) (fun x => { x with recalled := some (l.recalled.getD s.now) }) d.loans }).sendLend 4 l.rank l.seq l.amount)) ∧
        (s.toRecall own = none → exec .lendPeriod s = .next ((d.loans.filter (renewed d s.now)).foldl (fun s l => s.sendLend 2 l.rank l.seq l.amount)
          (damped s0 { s0.damper with loans := d.loans.map fun l => if renewed d s.now l then { l with sentAt := s.now } else l }))))) ∧
    (s.toRecall own = none ↔ ∀ l, d.loans.head? = some l →
      (sget 0 d.peerSlack l.rank).toNat ≤ own ∧ d.lent ≤ d.capSet * 150)

/-- R324, R399 to R402, R405: lending messages: one with another incarnation is counted, and so is one of a rank that the table does not hold; one
that is not for the device is dropped; a GRANT raises the
recipient's cap within 15 % of its own cap or is refused with amount 0, and a copy of it before the close of its lease renews it, but neither where
the device may not borrow (a shutdown among the reasons); a refused ANSWER, a RETURN and a lapsed lease end the donor's side of
a loan, a RECALL and a closed lease the recipient's. -/
def Sys2Proof.Claims.LoansBeginAndEndByTheirMessages : Prop :=
  ∀ (s : State) (m : LendMsg) (rank : BitVec 16) (loan : BitVec 32),
    let d := s.damper
    let r := m.rank.toNat
    let inc := (s.rankEntry r).inc
    let lease := (d.lendLease - d.lendGuard) * 1000000
    let closed (b : Borrow) : Bool := b.rank == rank.toNat && b.seq == loan && decide (b.at_ + lease ≤ s.now)
    (∀ c ∈ [Instr.grant m, .answer m, .recall m, .returnLoan m],
      (s.car.en = false ∨ m.ver ≠ 1 → exec c s = .next s) ∧
      (s.car.en = true → m.ver = 1 →
        (¬ (r < 255 ∧ (s.rankEntry r).present = true) → exec c s = .next (s.gcount cBadHdr)) ∧
        (r < 255 → (s.rankEntry r).present = true → m.dst ≠ s.car.ownRank → exec c s = .next s))) ∧
    (LendOk s m → m.inc ≠ inc → ∀ c ∈ [Instr.grant m, .answer m, .recall m, .returnLoan m],
      exec c s = .next (damped s { d with lendStale := satAdd 64 d.lendStale 1 })) ∧
    (LendOk s m → m.inc = inc →
      (s.mayLend = false → (∀ b ∈ d.borrows, b.rank = r → b.seq = m.loan → s.now < b.at_ + lease) → exec (.grant m) s = .next s) ∧
      (∀ b, d.borrows.find? (fun b => b.rank == r && b.seq == m.loan) = some b → s.mayLend = true → b.ending = false →
        (∀ b ∈ d.borrows, b.rank = r → b.seq = m.loan → s.now < b.at_ + lease) →
        exec (.grant m) s = .next ((damped s { d with
          borrows := modFirst (fun x => x == b) (fun x => { x with at_ := s.now }) d.borrows }).sendLend 3 r m.loan b.amount)) ∧
      (s.mayLend = true → (∀ b ∈ d.borrows, ¬ (b.rank = r ∧ b.seq = m.loan)) →
        let amount := if d.borrowed + m.amount.toNat ≤ d.capSet * 150 ∧ d.throttle.toNat / 16 % 2 = 0 ∧ d.throttle.toNat / 32 % 2 = 0 then
          m.amount.toNat else 0
        let s1 := damped s { d with
          borrows := d.borrows ++ [{ rank := r, seq := m.loan, amount := amount, at_ := s.now, ending := false }], borrowed := d.borrowed + amount }
        exec (.grant m) s = .next ((if 0 < amount then s1.damperEvent 5 else s1).sendLend 3 r m.loan amount)) ∧
      (m.amount = 0 → exec (.answer m) s = .next (s.endLoan fun l => l.rank == r && l.seq == m.loan)) ∧
      (m.amount ≠ 0 → exec (.answer m) s = .next s) ∧
      exec (.recall m) s = .next (s.endBorrow fun b => b.rank == r && b.seq == m.loan).settleLoans ∧
      exec (.returnLoan m) s = .next (s.endLoan fun l => l.rank == r && l.seq == m.loan)) ∧
    ((∃ b ∈ d.borrows, closed b = true) → exec (.leaseClose rank loan) s = .next (s.endBorrow closed).settleLoans) ∧
    ((∀ b ∈ d.borrows, closed b = false) → exec (.leaseClose rank loan) s = .next s) ∧
    exec (.loanLapse loan) s = .next (s.endLoan fun l =>
      l.seq == loan && l.granted && decide (l.sentAt + d.lendLease * 1000000 ≤ s.now)) ∧
    (∀ typ : Fin 256, (lendBytes typ m).length = 32 ∧ natAt (lendBytes typ m) 0 1 = typ ∧ natAt (lendBytes typ m) 1 1 = m.ver.toNat ∧
      natAt (lendBytes typ m) 2 2 = r ∧ natAt (lendBytes typ m) 4 4 = m.inc.toNat ∧ natAt (lendBytes typ m) 8 2 = m.dst.toNat ∧
      natAt (lendBytes typ m) 12 4 = m.loan.toNat ∧ natAt (lendBytes typ m) 16 4 = m.amount.toNat) ∧
    (∀ f : Loan → Bool, (s.endLoan f).damper.loans = d.loans.filter (fun l => !f l) ∧
      (s.endLoan f).damper.lent = d.lent - ((d.loans.filter f).map Loan.amount).sum)

/-- R400: the decision of a lending period, once LEND_PERIOD has passed since the last one: with enough slack the device grants a step to
the rank with the least; otherwise it recalls its oldest loan where its slack fell below the recipient's or the loans exceed 15 % of the
own cap; otherwise it renews its loans. R324, R399 to R402, R405: lending messages: one with another incarnation is counted, and so is one
of a rank that the table does not hold; one that is not for the device is dropped; a GRANT raises the recipient's cap within 15 % of its
own cap or is refused with amount 0, and a copy of it before the close of its lease renews it, but neither where the device may not borrow
(a shutdown among the reasons); a refused ANSWER, a RETURN and a lapsed lease end the donor's side of a loan, a RECALL and a closed lease
the recipient's. Where the spec leaves a point open, the statement takes the choice of the model (log entry 45). -/
def Obligations.LoansAreGrantedAndEnded : Prop := ALendingPeriodGrantsRecallsOrRenews ∧ LoansBeginAndEndByTheirMessages


/-! ### Life cycle, measurement, keys and packages (R408 to R429) -/

namespace Sys2Proof.Claims

open Sys2Proof Sys2Proof.Machine

/-- A dictionary write by `who` goes ahead to entries that the control processor serves, or not. -/
abbrev WriteOpen (s : State) (who needsCp : Bool) : Prop := Open s 0 who needsCp

/-- R410: a transition of the life cycle is accepted: the command answers OK, the transition is under way, the carillon key and the
carillon's functions are off, and commands and dictionary writes are refused. -/
abbrev TurnAccepted (o : Out) (s : State) (target : LifeCycle) (uses : Bool) : Prop :=
  ∃ t, o = .next t ∧ t.sec.lcTarget = some target ∧ t.sec.lc = s.sec.lc ∧ t.sec.ckey = none ∧ t.car.en = false ∧ t.car.st = 0 ∧
    t.mem.wipes = [] ∧ t.sec.challenges = s.sec.challenges + (if uses then 1 else 0) ∧ t.commandsRun = false ∧
    (∀ range allowed cp, t.writeGate range allowed cp = some rREFUSED) ∧ t.hub.out.head? = some (.answer rOK)

/-- R419: the fields of a MEASURE are in range. -/
abbrev MeasureFields (d : List Byte) : Prop :=
  d.length = 24 ∧ natAt d 2 1 ≤ 1 ∧ zeroAt d 3 5 = true ∧ natAt d 8 8 % 8 = 0 ∧ natAt d 16 8 % 8 = 0 ∧ 8 ≤ natAt d 16 8 ∧ natAt d 16 8 ≤ 2 ^ 24

/-- R421: CKEY_INSTALL refused and counted. -/
def ckeyRefuses (s : State) : State := { s with sec := { s.sec with ckeyRefused := satAdd 32 s.sec.ckeyRefused 1 } }

/-- R424: the load k ends with a reason, after what it has written from state s on, which state t holds, has been written with zeros. -/
def loadUndone (s t : State) (k : PkgJob) (key h : List Byte) (why : Nat) : State :=
  match t.vaWrite k.ctx k.dst (List.replicate (s.pkgWritten k key h 0 (pkgCount h)) 0) with
  | .ok u => u.pkgDone k why
  | _ => (t.meetWrites [(k.ctx, k.dst, s.pkgWritten k key h 0 (pkgCount h))]).pkgDone k why

end Sys2Proof.Claims

/-- R397, R409 to R411: which transitions are accepted, by whom and with what token; every other request is refused and changes nothing; the end of
the wipes puts the new state in force, blows one fuse (and those of the seed for SCRAPPED), clears the retire list for RETURNED, and resets; after a thermal shutdown no wipe ends, by the model's choice (log entry 45). -/
def Sys2Proof.Claims.TheLifeCycleTakesOnlyItsTransitions : Prop :=
  ∀ (s : State) (pr : Principal) (token : List Byte), WriteOpen s (prHost pr || prBmc pr) true →
    let n := s.sec.transitions
    (prHost pr = true → (s.sec.lc = .blank ∨ s.sec.lc = .returned) → n < 15 → s.tokenOk token = true →
      TurnAccepted (exec (.lcToProvisioned pr token) s) s .provisioned true) ∧
    (prHost pr = true → s.sec.lc = .provisioned → n < 15 → TurnAccepted (exec (.lcToOperational pr token) s) s .operational false) ∧
    (s.sec.lc = .operational → n < 15 → TurnAccepted (exec (.lcToReturned pr token) s) s .returned false) ∧
    (s.sec.lc ≠ .scrapped → TurnAccepted (exec (.lcToScrapped pr token) s) s .scrapped false) ∧
    (prHost pr = false ∨ (s.sec.lc ≠ .blank ∧ s.sec.lc ≠ .returned) ∨ 15 ≤ n ∨ s.tokenOk token = false →
      exec (.lcToProvisioned pr token) s = answers pr s rREFUSED) ∧
    (prHost pr = false ∨ s.sec.lc ≠ .provisioned ∨ 15 ≤ n → exec (.lcToOperational pr token) s = answers pr s rREFUSED) ∧
    (s.sec.lc ≠ .operational ∨ 15 ≤ n → exec (.lcToReturned pr token) s = answers pr s rREFUSED) ∧
    (∀ (u : State) lc, u.sec.lcTarget = some lc → u.damper.shutdown = true → exec .lcWipeEnd u = .next u) ∧
    (∀ (u : State) lc, u.sec.lcTarget = some lc → u.damper.shutdown = false → ∃ t, exec .lcWipeEnd u = .next t ∧ t.sec.lc = lc ∧ t.sec.lcTarget = none ∧
      t.sec.transitions = u.sec.transitions + 1 ∧ (lc = .scrapped → t.sec.seedOff = true) ∧
      (lc = .returned → t.mem.retireList = [] ∧ t.mem.retiredSlabs = []) ∧ t.mem.bytes = [] ∧ t.sec.ckey = none)

/-- R412, R415, R474: PART_CONF is written in OPERATIONAL only and with every context of the partition FREE; a changed value waits for the reset that
it makes, whether or not one is running. DEBUG_EN is refused while a partition is confidential, and its clearing ends a session in OPERATIONAL: a test
instruction that is no longer available acts as BYPASS, and as itself again once it is. -/
def Sys2Proof.Claims.ConfidentialModeGuardsAndDebugEnds : Prop :=
  ∀ (s : State) (pr : Principal) (n : Fin 16) (v : BitVec 8), WriteOpen s (prHost pr) false →
    let p := s.part n
    (1 < v.toNat → exec (.partConf pr n v) s = answers pr s rRANGE ∧ exec (.debugEn pr v) s = answers pr s rRANGE) ∧
    (v.toNat ≤ 1 → s.sec.lc ≠ .operational ∨ s.allFree n = false → exec (.partConf pr n v) s = answers pr s rREFUSED) ∧
    (v.toNat ≤ 1 → s.sec.lc = .operational → s.allFree n = true →
      (p.conf = (v == 1) → p.confNext = none → exec (.partConf pr n v) s = answers pr s rOK) ∧
      (p.conf ≠ (v == 1) ∨ p.confNext ≠ none →
        exec (.partConf pr n v) s = answers pr ((s.setPart n { p with confNext := some (v == 1) }).resetPart n) rOK)) ∧
    (v = 1 → s.anyConfidential = true → exec (.debugEn pr v) s = answers pr s rREFUSED) ∧
    (v = 1 ∧ s.anyConfidential = false ∨ v = 0 →
      exec (.debugEn pr v) s = answers pr { s with sec := { s.sec with debugEn := v == 1 } }.retap rOK) ∧
    (∀ t : State,
      (t.tapAvailable t.hub.tapLoaded = true → t.retap = { t with hub := { t.hub with tap := t.hub.tapLoaded } }) ∧
      (t.tapAvailable t.hub.tapLoaded = false → t.retap = { t with hub := { t.hub with tap := .bypass } }) ∧
      (t.sec.lc = .scrapped ∨ t.sec.lc = .operational ∧ (t.sec.debugEn = false ∨ t.anyConfidential = true) →
        t.tapAvailable .debug = false ∧ ∀ i, t.tapAvailable (.hbm1500 i) = false))

/-- R397, R409 to R411: which transitions are accepted, by whom and with what token; every other request is refused and changes nothing;
the end of the wipes puts the new state in force, blows one fuse (and those of the seed for SCRAPPED), clears the retire list for
RETURNED, and resets; after a thermal shutdown no wipe ends, by the model's choice (log entry 45). R412, R415, R474: PART_CONF is written
in OPERATIONAL only and with every context of the partition FREE; a changed value waits for the reset that it makes, whether or not one is
running. DEBUG_EN is refused while a partition is confidential, and its clearing ends a session in OPERATIONAL: a test instruction that is
no longer available acts as BYPASS, and as itself again once it is. Where the spec leaves a point open, the statement takes the choice of
the model (log entries 42, 45, 50 and 55). -/
def Obligations.TheLifeCycleAndConfidentialityHold : Prop := TheLifeCycleTakesOnlyItsTransitions ∧ ConfidentialModeGuardsAndDebugEnds


/-- R213, R418, R419: a MEASURE out of range or of another partition's context is turned away; one whose range no issued command writes is logged
with the SHAKE256 digest of what its read, having met the errors that stand there, gives, extends LOGHASH and seals its range under SEAL; a full log refuses it, a busy range lets it wait. -/
def Sys2Proof.Claims.MeasureLogsAndSeals : Prop :=
  ∀ (s : State) (pr : Principal) (n : Fin 16) (d : List Byte), Open s 8 (prOwns pr n) true →
    let j := measureOf n d
    let c := s.counted pr rOK
    (d.length < 24 → exec (.measure pr n d) s = answers pr s rRANGE) ∧ (24 < d.length → exec (.measure pr n d) s = answers pr s rTOO_LARGE) ∧
    (d.length = 24 → ¬ MeasureFields d → exec (.measure pr n d) s = answers pr s rRANGE) ∧
    (MeasureFields d → 4096 ≤ j.ctx ∨ (s.ctx j.ctx).part.toNat ≠ n → exec (.measure pr n d) s = answers pr s rREFUSED) ∧
    (MeasureFields d → j.ctx < 4096 → (s.ctx j.ctx).part.toNat = n →
      let wait : State := { c with sec := { c.sec with measures := c.sec.measures ++ [j] } }
      (s.measureBusy j = true → exec (.measure pr n d) s = .next wait) ∧
      (s.measureBusy j = false → 256 ≤ (s.mlog n).length → exec (.measure pr n d) s = .next (c.answer rREFUSED)) ∧
      (s.measureBusy j = false → (s.mlog n).length < 256 →
        let o := c.vaReadErrs j.ctx j.va j.len []
        (∀ st, o.1 = .fault st → exec (.measure pr n d) s = .next (o.2.answer rREFUSED)) ∧
        (o.1 = .held → exec (.measure pr n d) s = .next wait) ∧
        (∀ b, o.1 = .ok b →
          let t := o.2.appendLog n 1 j.fix j.ctx j.va j.len (shake256 b)
          exec (.measure pr n d) s = .next
            ((if j.fix then t.setCtx j.ctx { t.ctx j.ctx with seals := (t.ctx j.ctx).seals ++ [(j.va, j.len)] } else t).answer rOK) ∧
          t.mlog n = s.mlog n ++ [{ bytes := logEntry 1 j.fix j.ctx (s.mlog n).length j.va j.len (shake256 b) }] ∧
          t.logHash n = shake256 (s.logHash n ++ logEntry 1 j.fix j.ctx (s.mlog n).length j.va j.len (shake256 b)))))

/-- R420 to R422: ATT_REQUEST makes the signed report for its requester and, for the device's scope, keeps the digests of the last four;
CKEY_INSTALL takes a key that opens for a report among those four in OPERATIONAL, and counts a refusal; CKEY_CLEAR drops the key. -/
def Sys2Proof.Claims.ReportsAndTheCarillonKey : Prop :=
  ∀ (s : State) (pr : Principal) (d : List Byte) (v : BitVec 8),
    let scope := natAt d 0 1
    let r := s.attReport scope (bytesAt d 1 64)
    let no := answers pr (ckeyRefuses s) rREFUSED
    (WriteOpen s (prHost pr || prBmc pr || prOwns pr scope) true →
      (d.length < 65 → exec (.attRequest pr d) s = answers pr s rRANGE) ∧ (65 < d.length → exec (.attRequest pr d) s = answers pr s rTOO_LARGE) ∧
      (d.length = 65 → scope < 16 ∨ scope = 255 →
        ∃ t, exec (.attRequest pr d) s = answers pr t rOK ∧ sget [] t.sec.report (prKey pr) = r ∧ t.sec.reports = s.sec.reports + 1 ∧
          (scope = 255 → t.sec.digests = (shake256 r :: s.sec.digests).take 4) ∧ (scope < 16 → t.sec.digests = s.sec.digests)) ∧
      (d.length = 65 → 16 ≤ scope → scope ≠ 255 → exec (.attRequest pr d) s = answers pr s rRANGE)) ∧
    (WriteOpen s (prHost pr || prBmc pr) true → d.length = 1792 →
      (s.sec.lc ≠ .operational ∨ bytesAt d 0x670 64 ∉ s.sec.digests → exec (.ckeyInstall pr d) s = no) ∧
      (s.sec.ckeyOpen d = none → exec (.ckeyInstall pr d) s = no) ∧
      (s.sec.lc = .operational → bytesAt d 0x670 64 ∈ s.sec.digests → ∀ k, s.sec.ckeyOpen d = some k →
        exec (.ckeyInstall pr d) s = answers pr { s with sec := { s.sec with ckey := some k, ckeyId := bytesAt d 0x630 64 } } rOK)) ∧
    (WriteOpen s (prHost pr || prBmc pr || prCp pr) false →
      exec (.ckeyClear pr 1) s = answers pr { s with sec := { s.sec with ckey := none, ckeyId := List.replicate 64 0 } } rOK ∧
      exec (.ckeyClear pr 0) s = answers pr s rOK ∧ (1 < v.toNat → exec (.ckeyClear pr v) s = answers pr s rRANGE))

/-- R213, R418, R419: a MEASURE out of range or of another partition's context is turned away; one whose range no issued command writes is
logged with the SHAKE256 digest of what its read, having met the errors that stand there, gives, extends LOGHASH and seals its range under
SEAL; a full log refuses it, a busy range lets it wait. R420 to R422: ATT_REQUEST makes the signed report for its requester and, for the
device's scope, keeps the digests of the last four; CKEY_INSTALL takes a key that opens for a report among those four in OPERATIONAL, and
counts a refusal; CKEY_CLEAR drops the key. Where the spec leaves a point open, the statement takes the choice of the model (log entries
9, 42, 43, 51 and 52). -/
def Obligations.MeasurementsReportsAndKeys : Prop := MeasureLogsAndSeals ∧ ReportsAndTheCarillonKey


/-- R213, R423, R424, R428: PKG_LOAD, whose read of the header meets the errors that stand there, runs at once or waits behind at most 16 others, and the load that becomes the running one takes the key held then;
its end, its reads having met the errors that stand in the memory, writes the plaintext of every segment and logs it with the digest of the package,
or leaves a reason: 1 no key, 2 format, 3 a segment that does not authenticate, 4 an access, 5 aborted, 6 a full log; after reasons 3, 4 and 6 what
it had written is zeros. -/
def Sys2Proof.Claims.PackagesLoadInTheirTurn : Prop :=
  (∀ (s : State) (pr : Principal) (n : Fin 16) (d : List Byte), WriteOpen s (prHost pr || prOwns pr n) true → d.length = 26 →
    let j := pkgOf n d
    let loading : Sec := { s.sec with pkgState := sset 0 s.sec.pkgState n 1 }
    let u := s.meetRanges j.ctx [(j.src, 4096)]
    (s.pkgBarred j = true → exec (.pkgLoad pr n d) s = answers pr s rREFUSED) ∧
    (s.pkgBarred j = false → u.pkgOverlaps j = true → exec (.pkgLoad pr n d) s = answers pr u rREFUSED) ∧
    (s.pkgBarred j = false → u.pkgOverlaps j = false →
      (17 ≤ s.sec.pkgs.length → exec (.pkgLoad pr n d) s = answers pr u rBUSY) ∧
      (s.sec.pkgs = [] → exec (.pkgLoad pr n d) s =
        answers pr { u with sec := { loading with pkgs := [{ j with key := s.sec.ckey, keyId := s.sec.ckeyId }] } } rOK) ∧
      (s.sec.pkgs ≠ [] → s.sec.pkgs.length < 17 →
        exec (.pkgLoad pr n d) s = answers pr { u with sec := { loading with pkgs := s.sec.pkgs ++ [j] } } rOK))) ∧
  (∀ (s : State) (k : PkgJob) (r : List PkgJob), s.sec.pkgs = k :: r →
    let s1 := s.meetRanges k.ctx [(k.src, 4096)]
    (k.aborted = true → exec .pkgLoadEnd s = .next (s1.pkgDone k 5)) ∧
    (k.aborted = false →
      (∀ st, s1.vaRead k.ctx k.src 4096 = .fault st → exec .pkgLoadEnd s = .next (s1.pkgDone k 4)) ∧
      (∀ h, s1.vaRead k.ctx k.src 4096 = .ok h →
        (k.key = none ∨ bytesAt h 0x20 64 ≠ k.keyId → exec .pkgLoadEnd s = .next (s1.pkgDone k 1)) ∧
        (∀ key, k.key = some key → bytesAt h 0x20 64 = k.keyId →
          (pkgFormatOk h k.len = false → exec .pkgLoadEnd s = .next (s1.pkgDone k 2)) ∧
          (pkgFormatOk h k.len = true →
            let s2 := s1.meetRanges k.ctx [(k.src, pkgBytes h)]
            let whole := s2.vaRead k.ctx k.src (pkgBytes h)
            (∀ why t, whole ≠ .held → s2.pkgSegs k key h 0 (pkgCount h) = .ok (some why, t) →
              exec .pkgLoadEnd s = .next (loadUndone s2 t k key h why)) ∧
            (∀ b t, whole = .ok b → s2.pkgSegs k key h 0 (pkgCount h) = .ok (none, t) →
              (256 ≤ (t.mlog k.part).length → exec .pkgLoadEnd s = .next (loadUndone s2 t k key h 6)) ∧
              ((t.mlog k.part).length < 256 →
                exec .pkgLoadEnd s = .next ((t.appendLog k.part 2 false k.ctx k.dst (pkgPlain h) (shake256 b)).pkgDone k 0))))))) ∧
    (∀ (key h c : List Byte) (i m : Nat),
      let size := 2 ^ pkgLog h
      let n := min size (pkgPlain h - i * size)
      s.vaRead k.ctx (k.src + 4096 + i * (size + 16)) (n + 16) = .ok c →
        (pkgSegment key h i c = none → s.pkgSegs k key h i (m + 1) = .ok (some 3, s)) ∧
        (∀ p t, pkgSegment key h i c = some p → s.vaWrite k.ctx (k.dst + i * size) (bytesAt p 0 n) = .ok t →
          s.pkgSegs k key h i (m + 1) = t.pkgSegs k key h (i + 1) m) ∧
        (∀ p e, pkgSegment key h i c = some p → s.vaWrite k.ctx (k.dst + i * size) (bytesAt p 0 n) = .fault e →
          s.pkgSegs k key h i (m + 1) = .ok (some 4, s.meetWrites [(k.ctx, k.dst + i * size, n)]))) ∧
    (∀ reason, (s.pkgDone k reason).sec.pkgs.map PkgJob.dst = r.map PkgJob.dst ∧
      sget 0 (s.pkgDone k reason).sec.pkgState k.part = BitVec.ofNat 16 (if reason = 0 then 2 else reason * 256 + 3)))

/-- R409, R417, R425: outside SCRAPPED an SPDM message is answered with the identity key and joins the session's transcript, which opens the session
where it authenticates it; within the session IDE_KM programs keys, makes a stream secure once its keys are set, and turns it off. -/
def Sys2Proof.Claims.IdeStreamsBecomeSecureWithTheirKeys : Prop :=
  ∀ (s : State) (k : Fin 17) (msg : List Byte) (key : BitVec 256), s.hub.ready = true → s.host.linkUp = true →
    (s.sec.lc = .scrapped → exec (.spdmRequest msg) s = .next s ∧ ∀ o, exec (.ideKm k o) s = .next s) ∧
    (s.sec.spdm = false → ∀ o, exec (.ideKm k o) s = .next s) ∧
    (s.sec.lc ≠ .scrapped →
      let log := s.sec.spdmLog ++ [msg]
      (s.sec.idKey = none → exec (.spdmRequest msg) s = .next s) ∧
      (∀ x, s.sec.idKey = some x →
        let answer := Config.spdmReply x.2 log
        exec (.spdmRequest msg) s = .next ({ s with sec := { s.sec with
          spdm := s.sec.spdm || Config.spdmOpens x.1.toList (log ++ [answer]), spdmLog := log ++ [answer] } }.emit (.doe answer))) ∧
      (s.sec.spdm = true →
        let now := sget 0 s.sec.ide (k.val + 1)
        let gives (o : IdeOp) (v : BitVec 8) (keys : Sparse (BitVec 256)) : Prop := exec (.ideKm k o) s = .next ((List.range 17).foldl State.busWake
          ({ s with sec := { s.sec with ide := sset 0 s.sec.ide (k.val + 1) v, ideKeys := keys } }.stallHost.unstallHost))
        gives (.program key) (if now = 2 then 2 else 1) (sset 0 s.sec.ideKeys (k.val + 1) key) ∧ gives .secure (if now = 0 then 0 else 2) s.sec.ideKeys ∧
          gives .off 0 (sset 0 s.sec.ideKeys (k.val + 1) 0)))

/-- R213, R423, R424, R428: PKG_LOAD, whose read of the header meets the errors that stand there, runs at once or waits behind at most 16
others, and the load that becomes the running one takes the key held then; its end, its reads having met the errors that stand in the
memory, writes the plaintext of every segment and logs it with the digest of the package, or leaves a reason: 1 no key, 2 format, 3 a
segment that does not authenticate, 4 an access, 5 aborted, 6 a full log; after reasons 3, 4 and 6 what it had written is zeros. R409,
R417, R425: outside SCRAPPED an SPDM message is answered with the identity key and joins the session's transcript, which opens the session
where it authenticates it; within the session IDE_KM programs keys, makes a stream secure once its keys are set, and turns it off. Where
the spec leaves a point open, the statement takes the choice of the model (log entries 9, 51, 52 and 73). -/
def Obligations.PackagesAndStreamsAreSecured : Prop := PackagesLoadInTheirTurn ∧ IdeStreamsBecomeSecureWithTheirKeys


/-! ### Voxyx, the mailbox and MCTP (R431 to R452) -/

namespace Sys2Proof.Claims

open Sys2Proof Sys2Proof.Machine

/-- A request that has just arrived. -/
def asked (ch : Channel) (op : BitVec 8) (m : VMsg) : VWait := { ch := ch, op := op, msg := m, passed := false, quiet := false }

/-- R442: a response joins the held ones of its channel, of which the newest 16 stay. -/
def hold (s : State) (ch : Channel) (h : HeldResp) : State := s.setChan { s.chan ch with held := (h :: (s.chan ch).held).take 16 }

/-- R442, R452: a request is answered with a reply: BUSY is counted and not held, DENIED is counted, and the response leaves on its channel. -/
def answeredWith (s : State) (w : VWait) (r : Reply) : State :=
  let k := chanSub w.ch
  let h : HeldResp := { token := w.msg.token, op := w.op, index := w.msg.index, sub := w.msg.sub, flags := r.flags, offset := r.offset,
                        result := r.result, data := r.data }
  if r.result = rBUSY then (s.vcount 2 k).respond w h
  else if r.result = rDENIED then (hold (s.vcount 1 k) w.ch h).respond w h
  else (hold s w.ch h).respond w h

/-- R441, R449: a request is carried out; a peer's WRITE is DENIED. -/
def carriedOut (s : State) (w : VWait) : State :=
  if chanSub w.ch = 4 ∧ w.op = 2 then answeredWith s w (.code rDENIED)
  else let a := s.voxOp w.ch (chanPrincipal w.ch) w.op.toNat w.msg; answeredWith a.2 w a.1

/-- R442 to R444, R449: what becomes of a request that arrives on its channel: BUSY over the limit, else it waits its turn; where none waits, a
retry is answered from the held responses, a malformed request with MALFORMED, and any other is carried out, once the control processor has it
where that serves it: at once, or when it reads the request's packet. -/
abbrev Arrives (s : State) (ch : Channel) (op : BitVec 8) (m : VMsg) (u : State) : Prop :=
  let k := chanSub ch
  let w := asked ch op m
  let s1 := s.vcount 0 k
  (chanLimit ch ≤ (s.waitOf ch).length → u = answeredWith s1 w (.code rBUSY)) ∧
  ((s.waitOf ch).length < chanLimit ch → u = { s1 with dict := { s1.dict with waiting := s.dict.waiting ++ [w] } }.settleWaits) ∧
  (s.dict.waiting = [] →
    (∀ h, (s.chan ch).held.find? (fun h => h.token == m.token) = some h → u = (s1.vcount 3 k).respond w h) ∧
    ((∀ h ∈ (s.chan ch).held, h.token ≠ m.token) →
      (malformed m op.toNat (chanMax ch) = true → u = answeredWith s1 w (.code rMALFORMED)) ∧
      (malformed m op.toNat (chanMax ch) = false →
        (s.passes w = false → u = carriedOut s1 w) ∧
        (s.passes w = true → s.cpIdle = true → u = carriedOut (s1.passThrough (msgWords op m).length) w) ∧
        (s.passes w = true → s.cpIdle = false →
          u = { s1 with dict := { s1.dict with waiting := [{ w with passed := true }] } }.post qidCpReq (msgWords op m)))))

/-- R441: a segment of a write goes on behind the bytes v: the first behind none, any other behind those that the channel's transfer of its entry
holds, at their end, within 10 s of the one before. -/
abbrev SegmentBehind (s : State) (ch : Channel) (m : VMsg) (v : List Byte) : Prop :=
  (m.flags.getLsbD 0 = true ∧ m.offset = 0 ∧ v = []) ∨
  (m.flags.getLsbD 0 = false ∧ ∃ t, (s.chan ch).transfer = some t ∧ t.index = m.index ∧ t.sub = m.sub ∧ t.value.length = m.offset.toNat ∧
    s.now ≤ t.last + 10000000000 ∧ v = t.value)

/-- R441: the channel holds no incomplete write. -/
def noTransfer (s : State) (ch : Channel) : State := s.setChan { s.chan ch with transfer := none }

end Sys2Proof.Claims

/-- R439, R442 to R445, R449, R452: every request that its channel carries is answered once: MALFORMED and a retry without being executed,
the retry from the held responses; any other with its operation's result, which is held unless it is BUSY. A peer's WRITE is DENIED. One
that the dictionary engine executes waits while an earlier one to the same entry stands in the CP request channel. A request over a
mailbox is written to MB_REQ and GO follows. Where the spec leaves a point open, the statement takes the choice of the model (log entries
10 and 43). -/
def Obligations.EveryRequestIsAnswered : Prop :=
  ∀ (s : State) (ch : Channel) (m0 : VMsg) (env : MctpEnv),
    let asks (o : Out) (op : BitVec 8) (m : VMsg) : Prop :=
      (s.chanOpen ch = false ∨ s.carries ch m env = false → o = .next s) ∧
      (s.chanOpen ch = true → s.carries ch m env = true →
        ((∀ fn, ch ≠ .mailbox fn) → ∃ u, o = .next u ∧ Arrives s ch op m u) ∧
        (∀ fn, ch = .mailbox fn →
          let f := s.fn fn
          (f.mailbox.busy = true → o = .next (s.mbIgnore ((min 2048 (16 + m.data.length) + 7) / 8 + 1))) ∧
          (f.mailbox.busy = false →
            o = .next ((s.setFn fn { f with mailbox := f.mailbox.putReq 0 ((reqBytes op m).take 2048) }).mailboxSubmit fn op m))))
    (∀ w, s.nextWait = some w → s.toExecute w = true → s.passes w = false → ∀ x ∈ s.dict.waiting, x.passed = true → x.entry ≠ w.entry) ∧
    asks (exec (.voxyxRead ch m0 env) s) 1 m0 ∧ asks (exec (.voxyxWrite ch m0 env) s) 2 m0 ∧ asks (exec (.voxyxInfo ch m0 env) s) 3 m0 ∧
    asks (exec (.voxyxCancel ch m0 env) s) 4 m0 ∧ asks (exec (.fwImage ch m0 env) s) 2 { m0 with index := 0x9001, sub := 1 } ∧
    asks (exec (.fwRecovery ch m0 env) s) 2 { m0 with index := 0x9011, sub := 1 } ∧
    (∀ b eid, ch = .mctp b eid → (s.carries ch m0 env = true ↔ env.typ = 0x7E ∧ env.vendor = true ∧ env.proto = 1 ∧ m0.data.length ≤ 2035 ∧
      (b = 0 → (∀ a, env.addr = some a → a = s.busAddr) ∧ (s.dict.i3cAddr = none → env.pec = true))))

/-- R431, R434, R441, R444: the operations on an entry that the life-cycle state and the firmware allow: NO_ENTRY, DENIED and TYPE before
anything happens; READ gives the value, WRITE has the entry's effect, CANCEL drops what the channel keeps. -/
def Sys2Proof.Claims.OperationsFollowTheRights : Prop :=
  ∀ (s : State) (ch : Channel) (pr : Principal) (m : VMsg) (op : Nat), s.turnedAway op m.index.toNat m.sub.toNat = none →
    (s.findEntry pr m.index.toNat m.sub.toNat = none → s.voxOp ch pr op m = (.code rNO_ENTRY, s)) ∧
    (∀ e rd wr, s.findEntry pr m.index.toNat m.sub.toNat = some (e, rd, wr) →
      (op = 1 → rd = false → s.voxOp ch pr op m = (.code rDENIED, s)) ∧
      (op = 2 → wr = false → s.voxOp ch pr op m = (.code rDENIED, s)) ∧
      (∀ n, e.typ.size = some n →
        (op = 1 → rd = true → cpReads e = false →
          s.voxOp ch pr op m = if m.len.toNat = n then
            ({ flags := 0, offset := 0, result := rOK, data := s.dictRead pr e.index m.sub.toNat }, s) else (.code rTYPE, s)) ∧
        (op = 2 → wr = true → s.writeGate (e.index / 4096) true (cpWrites e m.sub.toNat) = none →
          (m.len.toNat ≠ n → s.voxOp ch pr op m = (.code rTYPE, s)) ∧
          (m.len.toNat = n →
            let a := s.applyWrite pr e.index m.sub.toNat m.data
            s.voxOp ch pr op m = (.code a.1, a.2)))) ∧
      (e.typ.size = none →
        (op = 1 → rd = true → s.fw.run ≠ none → s.voxOp ch pr op m = s.readDomain ch pr m e.index m.sub.toNat) ∧
        (op = 1 → rd = true → cpReads e = true → s.fw.run = none → s.voxOp ch pr op m = (.code rBUSY, s)) ∧
        (op = 2 → wr = true → s.writeGate (e.index / 4096) true (cpWrites e m.sub.toNat) = none →
          s.voxOp ch pr op m = s.writeSegment ch pr m e.index m.sub.toNat)) ∧
      (∀ r, op = 2 → wr = true → s.writeGate (e.index / 4096) true (cpWrites e m.sub.toNat) = some r → s.voxOp ch pr op m = (.code r, s)) ∧
      (op = 4 → s.voxOp ch pr op m =
        (.code rOK, if cpReads e then s.setChan { s.chan ch with snapshot := none, transfer := none } else s)))

/-- R41, R233, R434, R443, R452: an entry that has a row of its own: before the dictionary is served a write changes nothing; where a gate
stands in the way the answer is the gate's, the request is counted, and nothing else changes. R431, R434, R441, R444: the operations on an
entry that the life-cycle state and the firmware allow: NO_ENTRY, DENIED and TYPE before anything happens; READ gives the value, WRITE has
the entry's effect, CANCEL drops what the channel keeps. Where the spec leaves a point open, the statement takes the choice of the model
(log entries 42 and 43). -/
def Obligations.WritesAndRequestsFollowTheRights : Prop := GatedWritesChangeNothing ∧ OperationsFollowTheRights


/-- R441, R456, R460, R463: a segment of FW_IMAGE: FIRST erases the slot other than the active one, each segment is stored behind the last, and
LAST makes the slot PENDING; while a slot is in TRIAL, and over 20 MiB, it is refused. Every other value that is written by segments is kept until
LAST and then takes effect whole: the recovery image in flash, in two life-cycle states and not while it runs itself, any other as a WRITE of the
value; a segment out of order ends the transfer. -/
def Sys2Proof.Claims.ImageSegmentsFillTheOtherSlot : Prop :=
  ∀ (s : State) (ch : Channel) (value : List Byte) (first last : Bool) (len : Nat) (pr : Principal) (m : VMsg) (index sub : Nat) (v : List Byte),
    let f := s.fw
    let g := f.imageSegment value first last
    g.image (!f.active) = value ∧ g.image f.active = f.image f.active ∧ g.slot f.active = f.slot f.active ∧ g.active = f.active ∧
    g.fused = f.fused ∧ g.run = f.run ∧
    (last = true → g.slot (!f.active) = .pending) ∧ (last = false → first = true → g.slot (!f.active) = .empty) ∧
    (last = false → first = false → g.slot (!f.active) = f.slot (!f.active)) ∧
    (f.slotA = .trial ∨ f.slotB = .trial ∨ 20971520 < len → s.imageBad ch 0x9001 first len = some rREFUSED) ∧
    ((s.sec.lc ≠ .provisioned ∧ s.sec.lc ≠ .returned) ∨ f.run = some .recovery → s.imageBad ch 0x9011 first len = some rREFUSED) ∧
    ((s.sec.lc = .provisioned ∨ s.sec.lc = .returned) → f.run ≠ some .recovery →
      s.imageBad ch 0x9011 first len = if 16777216 < len then some rTOO_LARGE else none) ∧
    ((∀ b, ¬ SegmentBehind s ch m b) → s.writeSegment ch pr m index sub = (.code rSEGMENT, noTransfer s ch)) ∧
    (SegmentBehind s ch m v →
      let whole := v ++ m.data
      let begins := m.flags.getLsbD 0
      let ends := m.flags.getLsbD 1
      let kept (t : State) : State := t.setChan { s.chan ch with transfer := some { index := m.index, sub := m.sub, value := whole, last := s.now } }
      let slot : State := { s with fw := f.imageSegment whole begins ends }
      (∀ r, s.imageBad ch index begins whole.length = some r →
        s.writeSegment ch pr m index sub = (.code r, if r = rBUSY then s else noTransfer s ch)) ∧
      (s.imageBad ch index begins whole.length = none →
        (ends = false → s.writeSegment ch pr m index sub = (.code rOK, kept (if index = 0x9001 then slot else s))) ∧
        (ends = true → index = 0x9001 → s.writeSegment ch pr m index sub = (.code rOK, slot.setChan { s.chan ch with transfer := none })) ∧
        (ends = true → index = 0x9011 → s.writeSegment ch pr m index sub =
          (.code rOK, { noTransfer s ch with fw := { f with recovery := whole } })) ∧
        (ends = true → index ≠ 0x9001 → index ≠ 0x9011 →
          let a := (noTransfer s ch).applyWrite pr index sub whole
          s.writeSegment ch pr m index sub = (.code a.1, a.2))))

/-- R441: a READ of a value that is read by segments: FIRST takes a snapshot of the whole value, any other reads the snapshot that the channel holds
of the entry and that has not lapsed; the answer carries up to LEN bytes from OFFSET, FINAL where they reach the end, and the snapshot lapses 10 s
after it. Without a snapshot the answer is SEGMENT. -/
def Sys2Proof.Claims.SegmentedReadsComeFromASnapshot : Prop :=
  ∀ (s : State) (ch : Channel) (pr : Principal) (m : VMsg) (index sub : Nat) (k : Snapshot),
    let c := s.chan ch
    let fresh : Snapshot := { index := m.index, sub := m.sub, value := s.dictRead pr index sub, last := s.now }
    let holds (k : Snapshot) : Prop := c.snapshot = some k ∧ k.index = m.index ∧ k.sub = m.sub ∧ s.now < k.last + 10000000000
    let gives (v : List Byte) : Prop :=
      let data := (v.drop m.offset.toNat).take (min m.len.toNat (chanMax ch - 16))
      s.readDomain ch pr m index sub =
        ({ flags := if v.length ≤ m.offset.toNat + data.length then 2 else 0, offset := m.offset.toNat, result := rOK, data := data },
          s.setChan { c with snapshot := some { index := m.index, sub := m.sub, value := v, last := s.now } })
    (m.flags.getLsbD 0 = true → gives fresh.value) ∧
    (m.flags.getLsbD 0 = false → (∀ k, ¬ holds k) → s.readDomain ch pr m index sub = (.code rSEGMENT, s)) ∧
    (m.flags.getLsbD 0 = false → holds k → index ≠ 0x8031 → gives k.value) ∧
    (m.flags.getLsbD 0 = false → holds k → index = 0x8031 → s.confHides pr index sub = false → gives k.value) ∧
    (m.flags.getLsbD 0 = false → holds k → index = 0x8031 → s.confHides pr index sub = true →
      s.readDomain ch pr m index sub = (.code rDENIED, s))

/-- R9, R447, R448: a write of 1 to GO submits the request that stands in MB_REQ, which stays: BUSY stands and MB_RSP is empty until the response
is there with DONE, raising its vector under IEN; GO and writes of MB_REQ under BUSY are dropped and counted; DONE clears where a 1 is written,
IEN, VEC and MB_REQ take what is written, and a read answers the register's 64 bits; a snapshot lapses 10 s after its last read. -/
def Sys2Proof.Claims.TheMailboxServesItsFunction : Prop :=
  ∀ (s : State) (fn : Fin 17) (ide : Bool) (w : VWait) (h : HeldResp) (ch : Channel) (v : W64) (off : BitVec 16),
    let f := s.fn fn
    let b := f.mailbox
    let o := off.toNat / 8
    let put (b : Mailbox) : State := s.setFn fn { f with mailbox := b }
    let write := exec (.mailboxGo fn off (.write v) ide) s
    (s.takesRequest fn ide = false → write = .next s) ∧
    (s.takesRequest fn ide = true →
      (o = 0 → (v.getLsbD 0 = false ∨ s.hub.ready = false → write = .next s) ∧
        (v.getLsbD 0 = true → s.hub.ready = true →
          (b.busy = true → write = .next (s.mbIgnore 1)) ∧
          (b.busy = false → ∃ u, write = .next u ∧
            Arrives (put { b with busy := true, rsp := [] }) (.mailbox fn) (mailboxOp b.req) (mailboxMsg b.req) u))) ∧
      (o = 1 → write = .next (put { b with done := b.done && !v.getLsbD 1 })) ∧
      (o = 2 → write = .next (put { b with ien := v.getLsbD 11, vec := v.extractLsb' 0 11 })) ∧
      (256 ≤ o → o < 512 → b.busy = true → write = .next (s.mbIgnore 1)) ∧
      (256 ≤ o → o < 512 → b.busy = false → write = .next
        (put { b with req := (bytesAt b.req 0 (8 * o - 2048) ++ leBytes 8 v.toNat ++ b.req.drop (8 * o - 2040)).take 2048 })) ∧
      exec (.mailboxGo fn off .read ide) s = .next (s.emit (.completion fn (leBytes 8 (b.reg (8 * o))) false)) ∧
      b.reg 8 = b.rsp.length % 65536 * 65536 + (if b.done then 2 else 0) + (if b.busy then 1 else 0) ∧
      b.reg 16 = (if b.ien then 2048 else 0) + b.vec.toNat) ∧
    (w.ch = .mailbox fn → w.quiet = false → b.busy = true →
      let e := s.emit (.voxyx w.ch h.op h.token h.flags h.offset h.result h.data)
      let u := e.setFn fn { f with mailbox := { b with rsp := respBytes h, busy := false, done := true } }
      s.respond w h = if b.ien then u.msix fn b.vec.toNat else u) ∧
    (∀ k, (s.chan ch).snapshot = some k →
      (k.last + 10000000000 ≤ s.now → exec (.snapshotLapse ch) s = .next (s.setChan { s.chan ch with snapshot := none })) ∧
      (s.now < k.last + 10000000000 → exec (.snapshotLapse ch) s = .next s))

/-- R445, R446: each binding answers the five MCTP control commands and keeps the endpoint ID that Set Endpoint ID gives it; the I3C port takes
its dynamic address and loses it with RSTDAA. -/
def Sys2Proof.Claims.ManagementBindingsAnswer : Prop :=
  ∀ (s : State) (b : Fin 2) (eid : BitVec 8) (addr : BitVec 7),
    let named := { s with dict := { s.dict with eids := sset 0 s.dict.eids b eid } }
    (s.mctpOpen b = true →
      (eid ≠ 0 → eid ≠ 0xFF → exec (.setEndpointId b eid) s = .next (named.mctpReply b 1)) ∧
      (eid = 0 ∨ eid = 0xFF → exec (.setEndpointId b eid) s = .next (s.mctpReply b 1)) ∧
      exec (.getEndpointId b) s = .next (s.mctpReply b 2) ∧ exec (.getMctpVersionSupport b) s = .next (s.mctpReply b 4) ∧
      exec (.getMessageTypeSupport b) s = .next (s.mctpReply b 5) ∧ exec (.getVendorMessageSupport b) s = .next (s.mctpReply b 6)) ∧
    (s.mctpOpen b = false → ∀ c ∈ [Instr.setEndpointId b eid, .getEndpointId b, .getMctpVersionSupport b, .getMessageTypeSupport b,
      .getVendorMessageSupport b], exec c s = .next s) ∧
    (s.alive = true → exec (.dynamicAddressAssign addr) s = .next { s with dict := { s.dict with i3cAddr := some addr } }) ∧
    (s.alive = true → exec .rstdaa s = .next { s with dict := { s.dict with i3cAddr := none } }) ∧
    (s.alive = false → exec (.dynamicAddressAssign addr) s = .next s ∧ exec .rstdaa s = .next s) ∧
    s.mctpReply b 1 = s.emit (.mctp (if b = 1 then .pcie else match s.dict.i3cAddr with
      | some a => .i3c a
      | none => .smbus s.smbusAddr) 1 (Config.mctpBody 1 b (sget 0 s.dict.eids b))) ∧
    s.smbusAddr = 0x60 + s.hub.maddr.setWidth 7

/-- R9, R447, R448: a write of 1 to GO submits the request that stands in MB_REQ, which stays: BUSY stands and MB_RSP is empty until the
response is there with DONE, raising its vector under IEN; GO and writes of MB_REQ under BUSY are dropped and counted; DONE clears where a
1 is written, IEN, VEC and MB_REQ take what is written, and a read answers the register's 64 bits; a snapshot lapses 10 s after its last
read. R445, R446: each binding answers the five MCTP control commands and keeps the endpoint ID that Set Endpoint ID gives it; the I3C
port takes its dynamic address and loses it with RSTDAA. Where the spec leaves a point open, the statement takes the choice of the model
(log entries 10 and 43). -/
def Obligations.MailboxAndBindingsAnswer : Prop := TheMailboxServesItsFunction ∧ ManagementBindingsAnswer


/-! ### Boot, firmware, self-test and the test access port (R453 to R491) -/

namespace Sys2Proof.Claims

open Sys2Proof Sys2Proof.Machine

/-- R437, R438, R464: what every device reset leaves: memory, queues, contexts, ports and the dictionary at their reset values, nothing served yet,
fuses and flash as they were, and a thermal shutdown that is not over (`down`) in force (R397). -/
abbrev AtRest (down : Bool) (s t : State) : Prop :=
  t.damper.shutdown = down ∧ t.hub.fault = (if down then 4 else 0) ∧
    t.hub.timer = 0 ∧ t.hub.trained = false ∧ t.hub.started = false ∧ t.hub.ready = false ∧ t.mem.bytes = [] ∧ t.mem.poison = [] ∧
    t.mq = Mq.reset ∧ t.eth = Eth.reset ∧ t.car = Carillon.reset ∧ t.peal = Peal.reset ∧ t.dict = Dict.reset ∧ t.disp.ctxs = [] ∧ t.disp.issued = [] ∧
    t.sec.lc = s.sec.lc ∧ t.sec.transitions = s.sec.transitions ∧ t.sec.seedOff = s.sec.seedOff ∧ t.sec.ckey = none ∧ t.fw.fused = s.fw.fused ∧
    t.fw.imageA = s.fw.imageA ∧ t.fw.imageB = s.fw.imageB ∧ t.fw.recovery = s.fw.recovery ∧ t.fw.run = none ∧
    t.mem.retireList = s.fw.flashRetire ∧ t.mem.retireCeLimit = s.fw.flashCeLimit.getD 1024 ∧ t.damper.capSet = s.fw.flashCap.getD Config.capFused

/-- R456: a slot that a start selects runs and is as its state's row says. -/
abbrev SlotRuns (f g : Fw) (b : Bool) : Prop :=
  g.selected = slotRun b ∧ (f.slot b = .pending → g.slot b = .trial ∧ g.trialBoots = 1) ∧
    (f.slot b = .trial → g.slot b = .trial ∧ g.trialBoots = f.trialBoots + 1) ∧ (f.slot b = .confirmed → g.slot b = .confirmed)

/-- R461: an open trial of slot b. -/
abbrev OnTrial (s : State) (b : Bool) (t0 : Nat) : Prop := s.fw.selected.slot = some b ∧ s.fw.slot b = .trial ∧ s.fw.trialFrom = some t0

end Sys2Proof.Claims

/-- R397, R437, R455, R464, R475, R484: a device reset, and the fall of PWRGD or DEVRST_N, leave the device at rest; a core whose test a reset cut
off is CHOKED with its abort bit until the dictionary is served. Thermal shutdown and a low THERM_N last until the rails have been removed with
PWRGD low. A device reset samples MADDR, and ROM selects by the boot record's current copy; of the copy that a power loss cuts
while a start writes it, none is left, and the other stands. -/
def Sys2Proof.Claims.ResetsLeaveTheDeviceAtRest : Prop :=
  ∀ (s : State) (power torn : Bool) (maddr : BitVec 2),
    let cut (t : State) : Prop := (∀ r ∈ s.bist.cores, (t.core r.target).life = .choked ∧ sget 0 t.bist.statusCore r.target = 7) ∧
      (∀ p ∈ s.bist.aborted, (t.core p).life = .choked ∧ sget 0 t.bist.statusCore p = 7) ∧ (s.bist.cores = [] → s.bist.aborted = [] → t.cores = [])
    let off := power && !s.hub.pwrgd
    let kept := if torn && s.alive && s.fw.run.isNone then s.fw.cut else s.fw
    (∃ t, exec (.deviceReset power maddr) s = .next t ∧ AtRest (s.damper.shutdown && !off) s t ∧ cut t ∧ t.alive = true ∧ t.hub.refclkH = true ∧
      t.hub.refclkE = true ∧ t.hub.maddr = maddr ∧ t.hub.thermN = (off || s.hub.thermN) ∧ t.fw = s.fw.afterReset.load.select) ∧
    (∃ t, exec (.pwrgdLow torn) s = .next t ∧ AtRest s.damper.shutdown s t ∧ cut t ∧ t.alive = false ∧ t.hub.thermN = s.hub.thermN ∧
      t.fw = kept.afterReset ∧ (s.fw.recordAt = some true → s.fw.cut = { s.fw with copy1 := [] }) ∧
      (s.fw.recordAt = some false → s.fw.cut = { s.fw with copy0 := [] }) ∧ (s.fw.recordAt = none → s.fw.cut = s.fw)) ∧
    (∃ t, exec .devrstNLow s = .next t ∧ AtRest s.damper.shutdown s t ∧ cut t ∧ t.alive = false ∧ t.hub.thermN = s.hub.thermN)

/-- R455, R456, R459: a start tries slot A and then slot B where it is PENDING or in TRIAL, then the active slot and the other one where CONFIRMED; one
whose image does not verify, or whose third boot in TRIAL was its last, becomes BAD; then comes the recovery image, and last the ROM loader. A
record is written to the copy that is not current and is the one that ROM reads next; with no valid copy both slots are taken to be EMPTY. -/
def Sys2Proof.Claims.AStartSelectsItsImage : Prop :=
  ∀ (f : Fw),
    (bootValid f.copy0 = false → bootValid f.copy1 = false → f.load.slotA = .empty ∧ f.load.slotB = .empty) ∧
    f.record.recordAt = some (f.current == some false) ∧ (f.current = some true → f.record.copy1 = f.copy1) ∧ (f.current = some false → f.record.copy0 = f.copy0) ∧
    (f.trialBoots < 256 → (∀ c, f.current = some c → natAt (if c then f.copy1 else f.copy0) 4 4 = f.bootSeq.toNat) → f.record.load = f.record) ∧
    let fresh (b : Bool) : Prop := f.slot b = .pending ∨ f.slot b = .trial
    let good (b : Bool) : Prop := imageOk 1 f.fusedNow (f.image b) = true ∧ (f.slot b = .trial → f.trialBoots < 3)
    (fresh false → good false → SlotRuns f f.select false) ∧
    (¬ fresh false → fresh true → good true → SlotRuns f f.select true) ∧
    (fresh false → ¬ good false → f.select.slot false = .bad) ∧
    ((fresh false → ¬ good false) → fresh true → ¬ good true → f.select.slot true = .bad) ∧
    (¬ fresh false → ¬ fresh true →
      (f.slot f.active = .confirmed → good f.active → SlotRuns f f.select f.active) ∧
      ((f.slot f.active ≠ .confirmed ∨ ¬ good f.active) → f.slot (!f.active) = .confirmed → good (!f.active) → SlotRuns f f.select (!f.active))) ∧
    ((∀ b, f.slot b = .empty ∨ f.slot b = .bad) →
      f.select.selected = if imageOk 2 0 f.recovery = true then .recovery else .loader) ∧
    f.select.bootSeq = f.bootSeq + 1

/-- R464, rows 6 to 8, R20, R200, R397: the selected image starts; the end of training records the failed stacks, whose ranges have no placement group; then
the dictionary is served. -/
def Sys2Proof.Claims.BootGoesThroughItsRows : Prop :=
  ∀ (s : State) (failed : List (Fin 32)) (rows : List Nat) (slabs : List (Fin 65536)), s.alive = true →
    (s.fw.run = none → ∃ t, exec .imageStart s = .next t ∧ t.fw.run = some s.fw.selected ∧ t.fw.loaded = s.fw.imageOf s.fw.selected ∧ t.hub.started = true ∧
      (∀ b, s.fw.selected.slot = some b → s.fw.slot b = .trial → t.fw.trialFrom = some s.now)) ∧
    (s.fw.run ≠ none → exec .imageStart s = .next s) ∧
    (s.hub.trained = false → s.damper.shutdown = false → ∃ t, exec (.hbmTrainingEnd failed rows slabs) s = .next t ∧ t.hub.trained = true ∧
      (∀ k : Fin 32, k.val ∈ t.mem.failed ↔ k ∈ failed) ∧ (∀ n ∈ slabs, (t.slab n.val).rp = true) ∧
      (∀ k ∈ failed, ∀ n, slabQuad n = k.val / 8 → slabRange n = k.val % 8 → t.slabLife n = .retired)) ∧
    (s.hub.trained = true → s.hub.started = true → ∃ t, exec .dictReady s = .next t ∧
      t = { s with hub := { s.hub with ready := true }, bist := { s.bist with aborted := t.bist.aborted } } ∧
      t.bist.aborted = if s.hub.ready then s.bist.aborted else []) ∧
    (s.hub.trained = false ∨ s.hub.started = false → exec .dictReady s = .next s) ∧
    (s.damper.shutdown = true ∨ s.hub.trained = true → exec (.hbmTrainingEnd failed rows slabs) s = .next s)

/-- R370, R461, R465: a restart of the control processor flushes its request queue, drops snapshots and transfers and selects an image; its end
counts it and names its cause; its watchdog expires no earlier than CP_WDT after the image's start. A trial window that closes makes its slot BAD and restarts. -/
def Sys2Proof.Claims.ControlProcessorRestarts : Prop :=
  ∀ (s : State) (cause : BitVec 8), s.alive = true →
    let m := s.mqueue qidCpReq
    let restarted (o : Out) (f : Fw) (k : BitVec 8) : Prop := ∃ t, o = .next t ∧ t.fw.run = none ∧ t.fw.restarting = some k ∧
      t.fw.selected = { f with run := none, trialFrom := none, restarting := some k }.load.select.selected ∧ (PortFree m → (t.mqueue qidCpReq).pkts = []) ∧
      (∀ w ∈ t.dict.waiting, w.passed = false) ∧
      (∀ c ∈ t.dict.chans, c.snapshot = none ∧ c.transfer = none) ∧ t.cores = s.cores ∧ t.disp = s.disp ∧ t.mem = s.mem
    (s.fw.run ≠ none → 1 ≤ cause.toNat → cause.toNat ≤ 4 → restarted (exec (.cpRestart cause) s) s.fw cause) ∧
    (s.fw.run ≠ none → s.fw.wdtFrom + s.fw.wdt * 1000000 ≤ s.now → restarted (exec .cpWatchdog s) s.fw 1) ∧
    (s.now < s.fw.wdtFrom + s.fw.wdt * 1000000 → exec .cpWatchdog s = .next s) ∧
    (s.fw.run = none → exec (.cpRestart cause) s = .next s ∧ exec .cpWatchdog s = .next s) ∧
    (∀ b t0, OnTrial s b t0 → t0 + 600000000000 ≤ s.now → restarted (exec .trialWindowClose s) ((s.fw.setSlot b .bad).record) 1) ∧
    (∀ b t0, OnTrial s b t0 → s.now < t0 + 600000000000 → exec .trialWindowClose s = .next s) ∧
    (∀ k, s.fw.restarting = some k → s.fw.run = none → ∃ t, exec .cpRestartEnd s = .next t ∧ t.fw.run = some s.fw.selected ∧
      t.fw.restarts = satAdd 32 s.fw.restarts 1 ∧ t.fw.lastCause = k ∧ t.fw.restarting = none ∧
      (PortFree (s.mqueue qidFault) → (t.mqueue qidFault).seq = ((s.mqueue qidFault).seq + 1) % 65536))

/-- R464, rows 6 to 8, R20, R200, R397: the selected image starts; the end of training records the failed stacks, whose ranges have no
placement group; then the dictionary is served. R370, R461, R465: a restart of the control processor flushes its request queue, drops
snapshots and transfers and selects an image; its end counts it and names its cause; its watchdog expires no earlier than CP_WDT after the
image's start. A trial window that closes makes its slot BAD and restarts. Where the spec leaves a point open, the statement takes the
choice of the model (log entries 45, 53, 58 and 67). -/
def Obligations.BootsAndRestartsRunTheirImage : Prop := BootGoesThroughItsRows ∧ ControlProcessorRestarts


/-- R456, R462: FW_CONFIRM in an open trial window makes the slot CONFIRMED and active; with FENCE a higher version is fused while fewer than 64
are, and never falls; outside a window it changes nothing. -/
def Sys2Proof.Claims.ConfirmationEndsTheTrial : Prop :=
  ∀ (s : State) (pr : Principal) (v : BitVec 8), Open s 9 (prHost pr || prCp pr) true →
    (1 < v.toNat → exec (.fwConfirm pr v) s = answers pr s rRANGE) ∧ exec (.fwConfirm pr 0) s = answers pr s rOK ∧
    (∀ b t0, OnTrial s b t0 → s.now < t0 + 600000000000 →
      exec (.fwConfirm pr 1) s = answers pr { s with fw := s.fw.confirm b } rOK ∧ (s.fw.confirm b).slot b = .confirmed ∧ (s.fw.confirm b).active = b ∧
      (s.fw.confirm b).trialFrom = none ∧
      (imgFence (s.fw.image b) = true → s.fw.fusedNow < imgVersion (s.fw.image b) → s.fw.fused.length < 64 →
        (s.fw.confirm b).fusedNow = imgVersion (s.fw.image b)) ∧
      (imgFence (s.fw.image b) = false ∨ 64 ≤ s.fw.fused.length → (s.fw.confirm b).fused = s.fw.fused)) ∧
    (s.fw.trialFrom = none → exec (.fwConfirm pr 1) s = answers pr s rOK)

/-- R441, R456, R460, R463: a segment of FW_IMAGE: FIRST erases the slot other than the active one, each segment is stored behind the
last, and LAST makes the slot PENDING; while a slot is in TRIAL, and over 20 MiB, it is refused. Every other value that is written by
segments is kept until LAST and then takes effect whole: the recovery image in flash, in two life-cycle states and not while it runs
itself, any other as a WRITE of the value; a segment out of order ends the transfer. R441: a READ of a value that is read by segments:
FIRST takes a snapshot of the whole value, any other reads the snapshot that the channel holds of the entry and that has not lapsed; the
answer carries up to LEN bytes from OFFSET, FINAL where they reach the end, and the snapshot lapses 10 s after it. Without a snapshot the
answer is SEGMENT. R455, R456, R459: a start tries slot A and then slot B where it is PENDING or in TRIAL, then the active slot and the
other one where CONFIRMED; one whose image does not verify, or whose third boot in TRIAL was its last, becomes BAD; then comes the
recovery image, and last the ROM loader. A record is written to the copy that is not current and is the one that ROM reads next; with no
valid copy both slots are taken to be EMPTY. R456, R462: FW_CONFIRM in an open trial window makes the slot CONFIRMED and active; with
FENCE a higher version is fused while fewer than 64 are, and never falls; outside a window it changes nothing. Where the spec leaves a
point open, the statement takes the choice of the model (log entries 43 and 53). -/
def Obligations.ImagesAreStoredSelectedAndConfirmed : Prop := ImageSegmentsFillTheOtherSlot ∧ SegmentedReadsComeFromASnapshot ∧ AStartSelectsItsImage ∧ ConfirmationEndsTheTrial


/-- R27, R487: a hub link that cannot retrain is device fault 2 and a ring link 3; the loss of REFCLK_H drops the link with the reads that it carried and is fault 1; the loss of
REFCLK_E takes every port that is not disabled down. -/
def Sys2Proof.Claims.LostLinksAndClocksAreFaults : Prop :=
  ∀ (s : State) (ring : Bool), s.alive = true →
    exec (.linkFault ring) s = .next (s.deviceFault (if ring then 3 else 2)) ∧
    (∀ cause, cause < 65536 → (s.hub.fault = 0 → (s.deviceFault cause).hub.fault = BitVec.ofNat 16 cause) ∧
      (s.hub.fault ≠ 0 → (s.deviceFault cause).hub.fault = s.hub.fault) ∧
      (PortFree (s.mqueue qidFault) → ((s.deviceFault cause).mqueue qidFault).seq = ((s.mqueue qidFault).seq + 1) % 65536)) ∧
    (∃ t, exec .refclkHLoss s = .next t ∧ t.hub.refclkH = false ∧ t.host.linkUp = false ∧ t.sec.ide = [] ∧ (s.hub.fault = 0 → t.hub.fault = 1) ∧
      ∀ a ∈ t.mem.held, a.write.isSome = true) ∧
    (s.eth.ports.length = 8 → ∃ t, exec .refclkELoss s = .next t ∧ t.hub.refclkE = false ∧
      ∀ k < 8, (t.port k).st = if (s.port k).st = .disabled then .disabled else .down)

/-- R397, R437, R455, R464, R475, R484: a device reset, and the fall of PWRGD or DEVRST_N, leave the device at rest; a core whose test a
reset cut off is CHOKED with its abort bit until the dictionary is served. Thermal shutdown and a low THERM_N last until the rails have
been removed with PWRGD low. A device reset samples MADDR, and ROM selects by the boot record's current copy; of the copy that a power
loss cuts while a start writes it, none is left, and the other stands. R27, R487: a hub link that cannot retrain is device fault 2 and a
ring link 3; the loss of REFCLK_H drops the link with the reads that it carried and is fault 1; the loss of REFCLK_E takes every port that
is not disabled down. Where the spec leaves a point open, the statement takes the choice of the model (log entries 2, 53, 54 and 56). -/
def Obligations.ResetsAndLostClocksTakeHold : Prop := ResetsLeaveTheDeviceAtRest ∧ LostLinksAndClocksAreFaults


/-- R397, R467 to R471, R475: BIST_START of a core scope takes a CHOKED core whose quadrant tests no other; the wider scopes need maintenance; reserved
values are out of range. A core that passes is PASSED, one that fails stays CHOKED, its memory signature being as expected exactly when no word
fails, and a wider run ends in a device reset; after a thermal shutdown no core is wiped and no test ends, by the model's choice (log entry 45). -/
def Sys2Proof.Claims.SelfTestsStartAndEnd : Prop :=
  ∀ (s : State) (pr : Principal) (v : BitVec 16) (p : Fin 68) (x : BistResult) (rows : List Nat),
    let outOfRange (o : Out) (scope : Nat) : Prop := bistRun v = none ∨ bistScope v ≠ scope → o = answers pr s rRANGE
    let wide (o : Out) (scope : Nat) : Prop := ∀ r, bistRun v = some r → r.scope = scope →
      (s.inMaintenance = true → s.bist.maint = none → s.bist.cores = [] → o = answers pr { s with bist := { s.bist with maint := some r } } rOK) ∧
      (s.inMaintenance = false ∨ s.bist.maint ≠ none ∨ s.bist.cores ≠ [] → o = answers pr s rREFUSED)
    (Open s 10 (prHost pr || prBmc pr || prCp pr) true →
      outOfRange (exec (.bistCore pr v) s) 1 ∧ outOfRange (exec (.bistQuadrant pr v) s) 2 ∧ outOfRange (exec (.bistHub pr v) s) 3 ∧
      outOfRange (exec (.bistDevice pr v) s) 4 ∧
      (∀ r, bistRun v = some r → r.scope = 1 →
        ((s.core r.target).life = .choked → (∀ k ∈ s.bist.cores, quadOf k.target ≠ quadOf r.target) →
          let s1 := s.setCore r.target { (if s.damper.shutdown then s.core r.target else (s.core r.target).wiped) with life := .testing }
          exec (.bistCore pr v) s = answers pr { s1 with bist := { s1.bist with
            cores := s.bist.cores ++ [r], statusCore := sset 0 s.bist.statusCore r.target 1 } } rOK) ∧
        ((s.core r.target).life ≠ .choked ∨ (∃ k ∈ s.bist.cores, quadOf k.target = quadOf r.target) →
          exec (.bistCore pr v) s = answers pr s rREFUSED)) ∧
      wide (exec (.bistQuadrant pr v) s) 2 ∧ wide (exec (.bistHub pr v) s) 3 ∧ wide (exec (.bistDevice pr v) s) 4) ∧
    (s.damper.shutdown = true → exec (.coreBistEnd p x) s = .next s ∧ exec (.maintBistEnd x rows) s = .next s) ∧
    (∀ r, s.damper.shutdown = false → s.bist.cores.find? (fun k => k.target == p.val) = some r →
      ∃ t, exec (.coreBistEnd p x) s = .next t ∧
        (t.core p).life = (if bistPass r x (Config.bistExpect 0) (Config.bistExpect 1) then .passed else .choked) ∧
        (t.core p).sp = Scratch.reset ∧ (t.core p).run = none ∧ (t.core p).tlb = Tlb.reset ∧
        sget 0 t.bist.statusCore p = bistStatus r x (Config.bistExpect 0) (Config.bistExpect 1) ∧
        (r.memory = true → (sget 0 t.bist.msigCore p = Config.bistExpect 1 ↔ x.failing = 0)) ∧ (∀ k ∈ t.bist.cores, k.target ≠ p.val) ∧ t.mem = s.mem ∧ t.disp = s.disp) ∧
    (∀ r, s.damper.shutdown = false → s.bist.maint = some r → ∃ t, exec (.maintBistEnd x rows) s = .next t ∧ t.bist.maint = none ∧ t.hub.ready = false ∧
      t.mem.bytes = [] ∧ sget 0 t.bist.statusDev (r.scope - 2) = bistStatus r x (bistExpected r.scope).1 (bistExpected r.scope).2)

/-- R397, R473: HBM_TEST is refused while a slab whose placement includes the stack is ASSIGNED or wipes; its end leaves those slabs zero, every other byte
as it was, and the failing rows on the retire list, those it adds counted in HBM_STATUS; after a thermal shutdown none ends, by the
model's choice (log entry 45). -/
def Sys2Proof.Claims.HbmTestsZeroTheirStack : Prop :=
  ∀ (s : State) (pr : Principal) (st : Fin 32) (rows : List Nat),
    (Open s 10 (prHost pr || prBmc pr || prCp pr) true →
      let busy := (s.bist.hbmRunning.contains st.val || s.mem.slabs.any fun e => s.slabUses e.1 st.val && (e.2.life == .assigned || e.2.wipe)) = true
      (busy → exec (.hbmTest pr st 1) s = answers pr s rREFUSED) ∧
      (¬ busy → exec (.hbmTest pr st 1) s = answers pr { s with bist := { s.bist with
        hbmRunning := setIns s.bist.hbmRunning st, hbmStatus := sset 0 s.bist.hbmStatus st 1 } } rOK) ∧
      exec (.hbmTest pr st 0) s = answers pr s rOK) ∧
    (s.bist.hbmRunning.contains st.val = true → s.damper.shutdown = false → ∃ t, exec (.hbmTestEnd st rows) s = .next t ∧ st.val ∉ t.bist.hbmRunning ∧
      (∀ a, s.slabUses (a / 2 ^ 25) st = true → sget 0 t.mem.bytes a = 0) ∧
      (∀ a, s.slabUses (a / 2 ^ 25) st = false → sget 0 t.mem.bytes a = sget 0 s.mem.bytes a) ∧
      (∀ h ∈ t.mem.latent, s.slabUses (h.word * 64 / 2 ^ 25) st = false) ∧ (∀ r, r ∈ t.mem.retireList ↔ r ∈ s.mem.retireList ∨ r ∈ rows) ∧
      sget 0 t.bist.hbmStatus st =
        BitVec.ofNat 32 (min 65535 (t.mem.retireList.length - s.mem.retireList.length) * 65536 + if rows = [] then 2 else 3)) ∧
    (s.bist.hbmRunning.contains st.val = false ∨ s.damper.shutdown = true → exec (.hbmTestEnd st rows) s = .next s)

/-- R397, R467 to R471, R475: BIST_START of a core scope takes a CHOKED core whose quadrant tests no other; the wider scopes need
maintenance; reserved values are out of range. A core that passes is PASSED, one that fails stays CHOKED, its memory signature being as
expected exactly when no word fails, and a wider run ends in a device reset; after a thermal shutdown no core is wiped and no test ends,
by the model's choice (log entry 45). R397, R473: HBM_TEST is refused while a slab whose placement includes the stack is ASSIGNED or
wipes; its end leaves those slabs zero, every other byte as it was, and the failing rows on the retire list, those it adds counted in
HBM_STATUS; after a thermal shutdown none ends, by the model's choice (log entry 45). Where the spec leaves a point open, the statement
takes the choice of the model (log entries 45 and 54). -/
def Obligations.TestsRunAndEnd : Prop := SelfTestsStartAndEnd ∧ HbmTestsZeroTheirStack


/-- R415, R474, R475, R481: an instruction of the test access port takes force where it is available and is BYPASS elsewhere, and from the
reset on after which it is not available, and again once it is; a board-test instruction that is in the port takes force once DEVRST_N
falls; IDCODE shifts out the identity, and SAMPLE the levels of the balls, taking the boundary register's next contents, which EXTEST and
CLAMP drive at every ball that the device can drive, EXTEST_PULSE and EXTEST_TRAIN with the opposite level at the lanes during a pulse,
and HIGHZ at none; a scan under EXTEST and its like shifts out the balls that it has captured and takes new contents. Where the spec
leaves a point open, the statement takes the choice of the model (log entries 55 and 72). -/
def Obligations.TapInstructionsTakeForceWhereAvailable : Prop :=
  ∀ (s : State) (st : Fin 32) (b : Boundary) (pins : Pins) (units : Driven) (pulse : Bool),
    let inForce (o : Out) (ok : Bool) (t : TapInstr) : Prop :=
      o = .next { s with hub := { s.hub with tap := if ok then t else .bypass, tapLoaded := t } }
    let board := s.sec.lc != .scrapped && !s.hub.devrstN
    inForce (exec .bypass s) true .bypass ∧ inForce (exec .tapReset s) (s.sec.lc != .scrapped) .idcode ∧
    (s.sec.lc = .scrapped → inForce (exec (.samplePreload b pins) s) true .bypass) ∧
    (s.sec.lc ≠ .scrapped → exec (.samplePreload b pins) s = .next ({ s with hub := { s.hub with tap := .sample, tapLoaded := .sample, boundary := b } }.emit
      (.boundary s.hub.pwrgd s.hub.devrstN s.hub.perstN s.hub.maddr s.alertN s.hub.thermN pins))) ∧
    (∀ t ∈ [TapInstr.extest, .clamp], s.hub.tap = t → s.drivenBalls units pulse = some s.hub.boundary.out) ∧
    (∀ t ∈ [TapInstr.extestPulse, .extestTrain], s.hub.tap = t → s.drivenBalls units pulse = some (if pulse then
      { s.hub.boundary.out with ethTx := ~~~s.hub.boundary.out.ethTx, pcieTx := ~~~s.hub.boundary.out.pcieTx } else s.hub.boundary.out)) ∧
    (s.hub.tap = .highz → s.drivenBalls units pulse = none) ∧
    (∀ t ∈ [TapInstr.idcode, .bypass, .sample, .debug, .hbm1500 st], s.hub.tap = t → s.drivenBalls units pulse = some units) ∧
    (∀ i ∈ [TapInstr.extest, .extestPulse, .extestTrain, .clamp, .highz], s.hub.tapLoaded = i → s.sec.lc ≠ .scrapped →
      ∃ t, exec .devrstNLow s = .next t ∧ t.hub.tap = i) ∧
    (∀ t ∈ [TapInstr.extest, .extestPulse, .extestTrain, .clamp], s.hub.tap = t → s.alertBall = s.hub.boundary.alertN ∧ s.thermBall = s.hub.boundary.thermN) ∧
    (s.hub.tap = .highz → s.alertBall = true ∧ s.thermBall = true) ∧
    (∀ t ∈ [TapInstr.idcode, .bypass, .sample, .debug, .hbm1500 st], s.hub.tap = t → s.alertBall = s.alertN ∧ s.thermBall = s.hub.thermN) ∧
    (let scanned (o : Out) (t : TapInstr) : Prop :=
       o = .next ({ s with hub := { s.hub with tap := t, tapLoaded := t, boundary := b } }.emit
         (.boundary s.hub.pwrgd s.hub.devrstN s.hub.perstN s.hub.maddr s.hub.boundary.alertN s.hub.boundary.thermN pins))
     (board = true → scanned (exec (.extest (some (b, pins))) s) .extest ∧ scanned (exec (.extestPulse (some (b, pins))) s) .extestPulse ∧
       scanned (exec (.extestTrain (some (b, pins))) s) .extestTrain) ∧
     ∀ sc : Option (Boundary × Pins), board = false ∨ sc = none →
       inForce (exec (.extest sc) s) board .extest ∧ inForce (exec (.extestPulse sc) s) board .extestPulse ∧
         inForce (exec (.extestTrain sc) s) board .extestTrain) ∧
    (∀ t, exec (.deviceReset false 0) s = .next t →
      (s.hub.tapLoaded ∈ [TapInstr.extest, .extestPulse, .extestTrain, .clamp, .highz, .bypass] → t.hub.tap = .bypass) ∧
      (∀ i ∈ [TapInstr.debug, .hbm1500 st], s.hub.tapLoaded = i → t.hub.tap = if t.debugOk then i else .bypass)) ∧
    inForce (exec .clamp s) board .clamp ∧ inForce (exec .highz s) board .highz ∧ inForce (exec (.hbm1500 st) s) s.debugOk (.hbm1500 st) ∧
    inForce (exec .debugInstruction s) s.debugOk .debug ∧
    (s.sec.lc = .scrapped → inForce (exec .idcode s) true .bypass) ∧
    (s.sec.lc ≠ .scrapped → exec .idcode s = .next ({ s with hub := { s.hub with tap := .idcode, tapLoaded := .idcode } }.emit (.tdo 0x17A70ABB 32))) ∧
    (s.debugOk = true ↔ s.sec.lc ≠ .scrapped ∧ (s.sec.lc = .operational → s.sec.debugEn = true ∧ s.anyConfidential = false))

/-! ### The block as a whole -/

namespace Sys2Proof.Claims

open Sys2Proof Sys2Proof.Machine

/-- The commands that issue an instruction on core p but for PEAL, each with its number of words. -/
def issues (p : Fin 68) (w x : W64) (h : List EccHit) : List (Instr × Nat) :=
  [(.add p w x, wordsOf (vopElu .add w)), (.sub p w x, wordsOf (vopElu .sub w)), (.mul p w x, wordsOf (vopElu .mul w)),
   (.fma p w x, wordsOf (vopElu .fma w)), (.minV p w x, wordsOf (vopElu .min w)), (.maxV p w x, wordsOf (vopElu .max w)),
   (.absV p w x, wordsOf (vopElu .abs w)), (.negV p w x, wordsOf (vopElu .neg w)), (.cmpEq p w x, wordsOf (vopElu .cmpEq w)),
   (.cmpNe p w x, wordsOf (vopElu .cmpNe w)), (.cmpLt p w x, wordsOf (vopElu .cmpLt w)), (.cmpLe p w x, wordsOf (vopElu .cmpLe w)),
   (.sel p w x, wordsOf (vopElu .sel w)), (.cvt p w x, wordsOf (vopElu .cvt w)), (.recip p w x, wordsOf (vopElu .recip w)),
   (.rsqrt p w x, wordsOf (vopElu .rsqrt w)), (.exp2 p w x, wordsOf (vopElu .exp2 w)), (.log2 p w x, wordsOf (vopElu .log2 w)),
   (.sin p w x, wordsOf (vopElu .sin w)), (.cos p w x, wordsOf (vopElu .cos w)), (.act p w x, wordsOf (vopElu .act w)),
   (.dact p w x, wordsOf (vopElu .dact w)), (.smbwd p w x, wordsOf (vopElu .smbwd w)), (.vredSum p w, 1), (.vredSumsq p w, 1),
   (.vredSumprod p w, 1), (.vredMax p w, 1), (.vredMin p w, 1), (.vredAmax p w, 1)] ++
  [(.mpass p w x, wordsOf (bitN w 43)), (.mdrain p w x, wordsOf (drainElu w)), (.vcomp p w, 1), (.vexpd p w, 1), (.vpermBlock p w, 1),
   (.vpermGather p w, 1), (.vpermScatter p w, 1), (.vpack p w, 1), (.vunpk p w, 1), (.load p w, 1), (.store p w, 1), (.send p w, 1),
   (.openWin p w, 1), (.waitTag p w, 1), (.waitPeal p w, 1), (.waitGang p w, 1), (.waitEngines p w, 1), (.signal p w, 1), (.desc p w h, 1),
   (.loop p w, 1), (.br p w, 1), (.call p w, 1), (.ret p w, 1), (.sadd p w, 1), (.ssub p w, 1), (.smul p w, 1), (.sand p w, 1), (.sor p w, 1),
   (.sshl p w, 1), (.sshr p w, 1), (.sliImm p w, 1), (.sliExt p w x, 2), (.sliLoad p w h, 1), (.sliStore p w, 1)]

/-- R101, R488: the requests that an instruction sends through its core's port at its issue. -/
def portRequests (c : Core) : Instr → Option Nat
  | .signal _ _ => some 1
  | .load _ w => some (c.moveRequests .load w)
  | .store _ w => some (c.moveRequests .store w)
  | .send _ w => some (c.moveRequests .send w)
  | _ => none

/-- Nothing outside the cores and the dispatch unit has changed. -/
abbrev SameOutside (s t : State) : Prop :=
  t.pending = s.pending ∧ t.hub = s.hub ∧ t.mem = s.mem ∧ t.mq = s.mq ∧ t.host = s.host ∧ t.eth = s.eth ∧ t.peal = s.peal ∧ t.car = s.car ∧
    t.damper = s.damper ∧ t.sec = s.sec ∧ t.dict = s.dict ∧ t.fw = s.fw ∧ t.bist = s.bist

/-- The number of the command that a core runs. -/
def runsNow (s : State) (k : Nat) : Option Nat := (s.core k).run.map RunRef.uid

end Sys2Proof.Claims

/-- A step takes the command at the front of the queue: it is the command's effect on the state with the queue's rest. -/
def Obligations.StepRunsTheFrontCommand : Prop :=
  ∀ (s : State) (c : Instr) (r : List Instr), s.pending = c :: r → step s = exec c { s with pending := r }

/-- Every command answers a next state, whatever the state, and leaves the queue of the waiting commands as it was: the spec turns every
error into an effect on the device. Where the spec leaves a point open, the statement takes the choice of the model (log entry 57). -/
def Obligations.EveryCommandCompletesAndLeavesTheQueue : Prop :=
  ∀ (c : Instr) (s : State), ∃ t, exec c s = .next t ∧ t.pending = s.pending

/-- R40, R304, R407, R487: on an empty queue, by the model's choice (log entry 1), 10 ns pass: the hub timer runs from REFCLK_H and the port
timers from REFCLK_E, modulo 2^64; nothing passes in reset. -/
def Obligations.TimePassesOnAnEmptyQueue : Prop :=
  ∀ (s : State), s.pending = [] →
    (s.alive = false → step s = .next s) ∧
    (s.alive = true → ∃ t, step s = .next t ∧ t.pending = [] ∧
      t.hub.timer = (if s.hub.refclkH then (s.hub.timer + 10) % 2 ^ 64 else s.hub.timer) ∧
      (s.eth.ports.length = 8 → ∀ k < 8, (t.port k).timer =
        if s.hub.refclkE then ((s.port k).timer + 10) % 2 ^ 64 else (s.port k).timer))

/-- R40, R101, R203, R218, R237, R308, R347, R387, R406, R437: with values of log entries 2 to 4, what the state after device reset holds:
nothing waits, no core runs, every slab is FREE with no quota, the registers have the defaults of their tables, and memory has its canonical
form. -/
def Obligations.ResetHoldsTheDefaults : Prop :=
  let s := State.reset
  s.pending = [] ∧ s.hub.timer = 0 ∧ s.hub.fault = 0 ∧ s.hub.ready = false ∧ Memory.wf s.mem = true ∧
    (∀ p : Fin 68, (s.core p).life = .opened ∧ (s.core p).epoch = 0 ∧ (s.core p).run = none) ∧
    (∀ n < 65536, s.slabLife n = .free ∧ (s.slab n).wipe = false) ∧ (∀ n < 16, sget 0 s.mem.quota n = 0 ∧ (s.part n).cores = 0 ∧ (s.part n).conf = false) ∧
    (∀ c < 4096, (s.ctx c).life = .free) ∧ s.disp.issued = [] ∧ s.mem.retireCeLimit = 1024 ∧ s.mem.scrubPeriod = 86400 ∧ s.mem.opState = 0 ∧
    (∀ q < 32, (s.mqueue q).pkts = []) ∧ s.eth.mgmtEtype = 0x88B5 ∧
    (∀ k < 8, (s.port k).lanes = (if k % 2 = 0 then 4 else 0) ∧ (s.port k).maxFrame = 9216 ∧ (s.port k).pcpToTc = 0x00FAC688 ∧ (s.port k).gates = 0xFF ∧
      (s.port k).pauseLimit = 20 ∧ (s.port k).pauseRecovery = 100) ∧
    s.peal.udpPort = 48731 ∧ s.peal.rtoMin = 100 ∧ s.peal.retxLimit = 16 ∧ s.peal.insts = [] ∧ s.car.en = false ∧ s.car.ownRank = 0xFFFF ∧ s.car.period = 1000 ∧
    s.car.miss = 3 ∧ s.car.limit = 1000 ∧ s.damper.capSet = Config.capFused ∧ s.damper.lendPeriod = 10000 ∧ s.damper.lendThresh = 3277 ∧
    s.damper.lendLease = 100 ∧ s.damper.lendGuard = 10 ∧ s.sec.ckey = none ∧ s.sec.debugEn = false ∧ s.fw.wdt = 1000

/-- The frame of issue (R75 to R79, R96, R101, R169, R197): an instruction on a core that does not issue has no effect, but that the
requests of SIGNAL, LOAD, STORE and SEND on a core that has been choked are dropped at its port and counted; one whose words the cache
does not hold stalls and asks for the line; and whatever it does at its issue, only its core, the dispatch unit and the cores of its own
command can change. Register s0 reads as zero and discards writes. Where the spec leaves a point open, the statement takes the choice of
the model (log entries 15, 38, 45 and 70). -/
def Obligations.IssueTouchesOnlyItsCommand : Prop :=
  (∀ (s : State) (p : Fin 68) (w x : W64) (h : List EccHit), ∀ e ∈ issues p w x h,
    (s.canIssue p = false → exec e.1 s = .next (match portRequests (s.core p) e.1 with
      | some n => if (s.core p).life = .choked then s.dropAtPort p n else s
      | none => s)) ∧
    (∀ l, s.canIssue p = true → (s.core p).seq.missing e.2 = some l →
      exec e.1 s = .next (s.setCore p { s.core p with seq := { (s.core p).seq with miss := some l } })) ∧
    (∃ t, exec e.1 s = .next t ∧ SameOutside s t ∧ ∀ k, k ≠ p.val → runsNow s k ≠ runsNow s p → t.core k = s.core k)) ∧
  (∀ (q : Seq) (v : W64), q.reg 0 = 0 ∧ q.setReg 0 v = q ∧
    ∀ r, r ≠ 0 → (q.setReg r v).reg r = v ∧ ∀ r', r' ≠ r → (q.setReg r v).reg r' = q.reg r')

/-- Every step keeps the canonical form of device memory: addresses strictly rise, and no entry holds zero. -/
def Obligations.EveryStepKeepsMemoryCanonical : Prop :=
  ∀ (s t : State), Memory.wf s.mem = true → step s = .next t → Memory.wf t.mem = true

/-- R409, R410, R417, R462: fuses only ever blow: no step lowers the count of transitions or the fused firmware version or restores the seed, and a
SCRAPPED device stays SCRAPPED. -/
def Obligations.FusesOnlyBlow : Prop :=
  ∀ (s t : State), step s = .next t →
    s.sec.transitions ≤ t.sec.transitions ∧ (s.sec.seedOff = true → t.sec.seedOff = true) ∧ s.fw.fusedNow ≤ t.fw.fusedNow ∧
    (s.sec.lc = .scrapped → s.sec.lcTarget = none → t.sec.lc = .scrapped ∧ t.sec.lcTarget = none)
end

