-- ==== Sys2Proof/Laws/Sparse.lean ====
section
/-! SUPPORT. Sparse tables and byte stores: a read after a write, and the canonical form that every write keeps. -/

namespace Sys2Proof.Machine

/-! ### Reads after writes -/

section Tables

variable {α : Type} (d : α)

@[simp] theorem sget_nil (k : Nat) : sget d [] k = d := rfl

theorem sget_sput_same (m : Sparse α) (k : Nat) (v : α) : sget d (sput m k v) k = v := by
  induction m with
  | nil => simp [sput, sget]
  | cons e r ih =>
    obtain ⟨a, w⟩ := e
    simp only [sput]
    split
    · simp [sget]
    · split
      · simp [sget]
      · rename_i h
        simp [sget, Ne.symm h, ih]

theorem sget_sput_ne (m : Sparse α) {k j : Nat} (v : α) (h : j ≠ k) : sget d (sput m k v) j = sget d m j := by
  induction m with
  | nil => simp [sput, sget, Ne.symm h]
  | cons e r ih =>
    obtain ⟨a, w⟩ := e
    simp only [sput]
    split
    · simp [sget, Ne.symm h]
    · split
      · rename_i e
        simp [sget, Ne.symm h, ← e]
      · simp [sget, ih]

theorem sget_filter_same (m : Sparse α) (k : Nat) : sget d (m.filter fun e => e.1 != k) k = d := by
  induction m with
  | nil => rfl
  | cons e r ih =>
    obtain ⟨a, w⟩ := e
    by_cases h : a = k <;> simp [sget, h, ih]

theorem sget_filter (m : Sparse α) (p : Nat → Bool) (k : Nat) :
    sget d (m.filter fun e => p e.1) k = if p k then sget d m k else d := by
  induction m with
  | nil => simp
  | cons e r ih =>
    obtain ⟨a, w⟩ := e
    by_cases h : p a <;> by_cases e : a = k
    · subst e
      simp [sget, h]
    · simp [sget, h, e, ih]
    · subst e
      simp [h, ih]
    · simp [sget, h, e, ih]

variable [DecidableEq α]

@[simp] theorem sget_sset_same (m : Sparse α) (k : Nat) (v : α) : sget d (sset d m k v) k = v := by
  unfold sset
  split
  · rename_i h
    rw [sget_filter_same, h]
  · exact sget_sput_same d m k v

theorem sget_sset_ne (m : Sparse α) {k j : Nat} (v : α) (h : j ≠ k) : sget d (sset d m k v) j = sget d m j := by
  unfold sset
  split
  · have := sget_filter d m (fun a => a != k) j
    simpa [h] using this
  · exact sget_sput_ne d m v h

theorem sget_sset (m : Sparse α) (k j : Nat) (v : α) : sget d (sset d m k v) j = if j = k then v else sget d m j := by
  split
  · rename_i h
    subst h
    exact sget_sset_same d m _ v
  · rename_i h
    exact sget_sset_ne d m v h

@[simp] theorem sget_smod_same (m : Sparse α) (k : Nat) (f : α → α) : sget d (smod d m k f) k = f (sget d m k) := sget_sset_same d m k _

theorem sget_smod_ne (m : Sparse α) {k j : Nat} (f : α → α) (h : j ≠ k) : sget d (smod d m k f) j = sget d m j := sget_sset_ne d m _ h

/-! ### The canonical form -/

theorem swf_iff (m : Sparse α) : swf d m = true ↔ (∀ e ∈ m, e.2 ≠ d) ∧ m.Pairwise fun a b => a.1 < b.1 := by
  simp [swf]

@[simp] theorem swf_nil : swf d ([] : Sparse α) = true := by simp [swf]

theorem swf_filter {m : Sparse α} (p : Nat × α → Bool) (h : swf d m = true) : swf d (m.filter p) = true := by
  rw [swf_iff] at h ⊢
  exact ⟨fun e he => h.1 e (List.mem_filter.1 he).1, h.2.filter p⟩

omit [DecidableEq α] in
theorem mem_sput {m : Sparse α} {k : Nat} {v : α} {e : Nat × α} (h : e ∈ sput m k v) : e = (k, v) ∨ e ∈ m := by
  induction m with
  | nil => simpa [sput] using h
  | cons x r ih =>
    obtain ⟨a, w⟩ := x
    simp only [sput] at h
    split at h
    · simpa using h
    · split at h
      · rcases List.mem_cons.1 h with h | h
        · exact .inl h
        · exact .inr (List.mem_cons_of_mem _ h)
      · rcases List.mem_cons.1 h with h | h
        · exact .inr (h ▸ List.mem_cons_self)
        · exact (ih h).imp_right (List.mem_cons_of_mem _)

omit [DecidableEq α] in
theorem pairwise_sput {m : Sparse α} (k : Nat) (v : α) (h : m.Pairwise fun a b => a.1 < b.1) :
    (sput m k v).Pairwise fun a b => a.1 < b.1 := by
  induction m with
  | nil => simp [sput]
  | cons x r ih =>
    obtain ⟨a, w⟩ := x
    rw [List.pairwise_cons] at h
    simp only [sput]
    split
    · rename_i hk
      refine List.pairwise_cons.2 ⟨fun e he => ?_, List.pairwise_cons.2 h⟩
      rcases List.mem_cons.1 he with rfl | he
      · exact hk
      · exact lt_trans hk (h.1 e he)
    · split
      · rename_i hk
        subst hk
        exact List.pairwise_cons.2 ⟨h.1, h.2⟩
      · rename_i h1 h2
        refine List.pairwise_cons.2 ⟨fun e he => ?_, ih h.2⟩
        rcases mem_sput he with rfl | he
        · show a < k
          omega
        · exact h.1 e he

theorem swf_sset {m : Sparse α} (k : Nat) (v : α) (h : swf d m = true) : swf d (sset d m k v) = true := by
  unfold sset
  split
  · exact swf_filter d _ h
  · rename_i hv
    rw [swf_iff] at h ⊢
    refine ⟨fun e he => ?_, pairwise_sput k v h.2⟩
    rcases mem_sput he with rfl | he
    · exact hv
    · exact h.1 e he

theorem swf_smod {m : Sparse α} (k : Nat) (f : α → α) (h : swf d m = true) : swf d (smod d m k f) = true := swf_sset d k _ h

end Tables

/-! ### Byte stores -/

theorem swf_bput {m : List Host.Cell} (l : List Byte) (h : swf 0 m = true) : ∀ a, swf 0 (bput m a l) = true := by
  induction l generalizing m with
  | nil => exact fun _ => h
  | cons b r ih => exact fun a => ih (swf_sset 0 a b h) (a + 1)

theorem swf_bzero {m : List Host.Cell} (a n : Nat) (h : swf 0 m = true) : swf 0 (bzero m a n) = true := swf_filter 0 _ h

theorem sget_bput_out (l : List Byte) : ∀ (m : List Host.Cell) (a j : Nat), j < a ∨ a + l.length ≤ j → sget 0 (bput m a l) j = sget 0 m j := by
  induction l with
  | nil => exact fun _ _ _ _ => rfl
  | cons b r ih =>
    intro m a j h
    simp only [List.length_cons] at h
    rw [bput, ih _ _ _ (by omega), sget_sset_ne _ _ _ (by omega)]

theorem sget_bput_in (l : List Byte) : ∀ (m : List Host.Cell) (a i : Nat), i < l.length → sget 0 (bput m a l) (a + i) = l.getD i 0 := by
  induction l with
  | nil => exact fun _ _ _ h => absurd h (by simp)
  | cons b r ih =>
    intro m a i h
    cases i with
    | zero => rw [bput, sget_bput_out _ _ _ _ (by omega)]; simp
    | succ i =>
      have := ih (sset 0 m a b) (a + 1) i (by simpa using h)
      rw [bput, show a + (i + 1) = a + 1 + i by omega, this]
      simp

theorem sget_bzero (m : List Host.Cell) (a n j : Nat) : sget 0 (bzero m a n) j = if a ≤ j ∧ j < a + n then 0 else sget 0 m j := by
  have := sget_filter (0 : Byte) m (fun x => decide (x < a ∨ a + n ≤ x)) j
  unfold bzero
  rw [this]
  by_cases h : a ≤ j ∧ j < a + n
  · rw [if_pos h, if_neg (by simp; omega)]
  · rw [if_neg h, if_pos (by simp; omega)]

@[simp] theorem length_bget (m : List Host.Cell) (a n : Nat) : (bget m a n).length = n := by simp [bget]

/-- What is stored is read back. -/
theorem bget_bput (m : List Host.Cell) (a : Nat) (l : List Byte) : bget (bput m a l) a l.length = l := by
  apply List.ext_getElem
  · simp
  · intro i h1 h2
    simp only [bget, List.getElem_map, List.getElem_range]
    rw [sget_bput_in l m a i h2]
    simp [h2]

/-! ### Little-endian strings -/

@[simp] theorem length_leBytes (n v : Nat) : (leBytes n v).length = n := by
  induction n generalizing v with
  | zero => rfl
  | succ n ih => simp [leBytes, ih]

theorem leNat_leBytes (n : Nat) : ∀ v, leNat (leBytes n v) = v % 256 ^ n := by
  induction n with
  | zero => intro v; simp [leBytes, leNat, Nat.mod_one]
  | succ n ih =>
    intro v
    simp only [leBytes, leNat, ih, BitVec.toNat_ofNat]
    have h : v % (256 * 256 ^ n) = v % 256 + 256 * (v / 256 % 256 ^ n) := Nat.mod_mul
    rw [Nat.pow_succ (n := 256) (m := n), Nat.mul_comm (256 ^ n), h]

@[simp] theorem length_bytesAt (l : List Byte) (o n : Nat) : (bytesAt l o n).length = n := by simp [bytesAt]

end Sys2Proof.Machine
end

