-- ==== Sys2Proof/Laws/State.lean ====
section
/-! SUPPORT. What each update of the state leaves of every field: one lemma per field, true by unfolding, so that no proof unfolds a record. -/

namespace Sys2Proof.Machine

variable (s : State)

/-! ### State.setCore -/

@[simp] theorem State.setCore_pending (p : Nat) (c : Core) : (s.setCore p c).pending = s.pending := rfl
@[simp] theorem State.setCore_hub (p : Nat) (c : Core) : (s.setCore p c).hub = s.hub := rfl
@[simp] theorem State.setCore_cores (p : Nat) (c : Core) : (s.setCore p c).cores = sset Core.reset s.cores p c := rfl
@[simp] theorem State.setCore_mem (p : Nat) (c : Core) : (s.setCore p c).mem = s.mem := rfl
@[simp] theorem State.setCore_disp (p : Nat) (c : Core) : (s.setCore p c).disp = s.disp := rfl
@[simp] theorem State.setCore_mq (p : Nat) (c : Core) : (s.setCore p c).mq = s.mq := rfl
@[simp] theorem State.setCore_host (p : Nat) (c : Core) : (s.setCore p c).host = s.host := rfl
@[simp] theorem State.setCore_eth (p : Nat) (c : Core) : (s.setCore p c).eth = s.eth := rfl
@[simp] theorem State.setCore_peal (p : Nat) (c : Core) : (s.setCore p c).peal = s.peal := rfl
@[simp] theorem State.setCore_car (p : Nat) (c : Core) : (s.setCore p c).car = s.car := rfl
@[simp] theorem State.setCore_damper (p : Nat) (c : Core) : (s.setCore p c).damper = s.damper := rfl
@[simp] theorem State.setCore_sec (p : Nat) (c : Core) : (s.setCore p c).sec = s.sec := rfl
@[simp] theorem State.setCore_dict (p : Nat) (c : Core) : (s.setCore p c).dict = s.dict := rfl
@[simp] theorem State.setCore_fw (p : Nat) (c : Core) : (s.setCore p c).fw = s.fw := rfl
@[simp] theorem State.setCore_bist (p : Nat) (c : Core) : (s.setCore p c).bist = s.bist := rfl

/-! ### State.modCore -/

@[simp] theorem State.modCore_pending (p : Nat) (f : Core → Core) : (s.modCore p f).pending = s.pending := rfl
@[simp] theorem State.modCore_hub (p : Nat) (f : Core → Core) : (s.modCore p f).hub = s.hub := rfl
@[simp] theorem State.modCore_cores (p : Nat) (f : Core → Core) : (s.modCore p f).cores = sset Core.reset s.cores p (f (s.core p)) := rfl
@[simp] theorem State.modCore_mem (p : Nat) (f : Core → Core) : (s.modCore p f).mem = s.mem := rfl
@[simp] theorem State.modCore_disp (p : Nat) (f : Core → Core) : (s.modCore p f).disp = s.disp := rfl
@[simp] theorem State.modCore_mq (p : Nat) (f : Core → Core) : (s.modCore p f).mq = s.mq := rfl
@[simp] theorem State.modCore_host (p : Nat) (f : Core → Core) : (s.modCore p f).host = s.host := rfl
@[simp] theorem State.modCore_eth (p : Nat) (f : Core → Core) : (s.modCore p f).eth = s.eth := rfl
@[simp] theorem State.modCore_peal (p : Nat) (f : Core → Core) : (s.modCore p f).peal = s.peal := rfl
@[simp] theorem State.modCore_car (p : Nat) (f : Core → Core) : (s.modCore p f).car = s.car := rfl
@[simp] theorem State.modCore_damper (p : Nat) (f : Core → Core) : (s.modCore p f).damper = s.damper := rfl
@[simp] theorem State.modCore_sec (p : Nat) (f : Core → Core) : (s.modCore p f).sec = s.sec := rfl
@[simp] theorem State.modCore_dict (p : Nat) (f : Core → Core) : (s.modCore p f).dict = s.dict := rfl
@[simp] theorem State.modCore_fw (p : Nat) (f : Core → Core) : (s.modCore p f).fw = s.fw := rfl
@[simp] theorem State.modCore_bist (p : Nat) (f : Core → Core) : (s.modCore p f).bist = s.bist := rfl

/-! ### State.setCtx -/

@[simp] theorem State.setCtx_pending (c : Nat) (x : Ctx) : (s.setCtx c x).pending = s.pending := rfl
@[simp] theorem State.setCtx_hub (c : Nat) (x : Ctx) : (s.setCtx c x).hub = s.hub := rfl
@[simp] theorem State.setCtx_cores (c : Nat) (x : Ctx) : (s.setCtx c x).cores = s.cores := rfl
@[simp] theorem State.setCtx_mem (c : Nat) (x : Ctx) : (s.setCtx c x).mem = s.mem := rfl
@[simp] theorem State.setCtx_disp_parts (c : Nat) (x : Ctx) : (s.setCtx c x).disp.parts = s.disp.parts := rfl
@[simp] theorem State.setCtx_disp_ctxs (c : Nat) (x : Ctx) : (s.setCtx c x).disp.ctxs = sset Ctx.reset s.disp.ctxs c x := rfl
@[simp] theorem State.setCtx_disp_issued (c : Nat) (x : Ctx) : (s.setCtx c x).disp.issued = s.disp.issued := rfl
@[simp] theorem State.setCtx_disp_nextUid (c : Nat) (x : Ctx) : (s.setCtx c x).disp.nextUid = s.disp.nextUid := rfl
@[simp] theorem State.setCtx_disp_ctxSel (c : Nat) (x : Ctx) : (s.setCtx c x).disp.ctxSel = s.disp.ctxSel := rfl
@[simp] theorem State.setCtx_disp_slabSel (c : Nat) (x : Ctx) : (s.setCtx c x).disp.slabSel = s.disp.slabSel := rfl
@[simp] theorem State.setCtx_disp_map (c : Nat) (x : Ctx) : (s.setCtx c x).disp.map = s.disp.map := rfl
@[simp] theorem State.setCtx_disp_spare (c : Nat) (x : Ctx) : (s.setCtx c x).disp.spare = s.disp.spare := rfl
@[simp] theorem State.setCtx_disp_arbs (c : Nat) (x : Ctx) : (s.setCtx c x).disp.arbs = s.disp.arbs := rfl
@[simp] theorem State.setCtx_disp_stallLimit (c : Nat) (x : Ctx) : (s.setCtx c x).disp.stallLimit = s.disp.stallLimit := rfl
@[simp] theorem State.setCtx_mq (c : Nat) (x : Ctx) : (s.setCtx c x).mq = s.mq := rfl
@[simp] theorem State.setCtx_host (c : Nat) (x : Ctx) : (s.setCtx c x).host = s.host := rfl
@[simp] theorem State.setCtx_eth (c : Nat) (x : Ctx) : (s.setCtx c x).eth = s.eth := rfl
@[simp] theorem State.setCtx_peal (c : Nat) (x : Ctx) : (s.setCtx c x).peal = s.peal := rfl
@[simp] theorem State.setCtx_car (c : Nat) (x : Ctx) : (s.setCtx c x).car = s.car := rfl
@[simp] theorem State.setCtx_damper (c : Nat) (x : Ctx) : (s.setCtx c x).damper = s.damper := rfl
@[simp] theorem State.setCtx_sec (c : Nat) (x : Ctx) : (s.setCtx c x).sec = s.sec := rfl
@[simp] theorem State.setCtx_dict (c : Nat) (x : Ctx) : (s.setCtx c x).dict = s.dict := rfl
@[simp] theorem State.setCtx_fw (c : Nat) (x : Ctx) : (s.setCtx c x).fw = s.fw := rfl
@[simp] theorem State.setCtx_bist (c : Nat) (x : Ctx) : (s.setCtx c x).bist = s.bist := rfl

/-! ### State.setPart -/

@[simp] theorem State.setPart_pending (n : Nat) (x : Part) : (s.setPart n x).pending = s.pending := rfl
@[simp] theorem State.setPart_hub (n : Nat) (x : Part) : (s.setPart n x).hub = s.hub := rfl
@[simp] theorem State.setPart_cores (n : Nat) (x : Part) : (s.setPart n x).cores = s.cores := rfl
@[simp] theorem State.setPart_mem (n : Nat) (x : Part) : (s.setPart n x).mem = s.mem := rfl
@[simp] theorem State.setPart_disp_parts (n : Nat) (x : Part) : (s.setPart n x).disp.parts = sset Part.reset s.disp.parts n x := rfl
@[simp] theorem State.setPart_disp_ctxs (n : Nat) (x : Part) : (s.setPart n x).disp.ctxs = s.disp.ctxs := rfl
@[simp] theorem State.setPart_disp_issued (n : Nat) (x : Part) : (s.setPart n x).disp.issued = s.disp.issued := rfl
@[simp] theorem State.setPart_disp_nextUid (n : Nat) (x : Part) : (s.setPart n x).disp.nextUid = s.disp.nextUid := rfl
@[simp] theorem State.setPart_disp_ctxSel (n : Nat) (x : Part) : (s.setPart n x).disp.ctxSel = s.disp.ctxSel := rfl
@[simp] theorem State.setPart_disp_slabSel (n : Nat) (x : Part) : (s.setPart n x).disp.slabSel = s.disp.slabSel := rfl
@[simp] theorem State.setPart_disp_map (n : Nat) (x : Part) : (s.setPart n x).disp.map = s.disp.map := rfl
@[simp] theorem State.setPart_disp_spare (n : Nat) (x : Part) : (s.setPart n x).disp.spare = s.disp.spare := rfl
@[simp] theorem State.setPart_disp_arbs (n : Nat) (x : Part) : (s.setPart n x).disp.arbs = s.disp.arbs := rfl
@[simp] theorem State.setPart_disp_stallLimit (n : Nat) (x : Part) : (s.setPart n x).disp.stallLimit = s.disp.stallLimit := rfl
@[simp] theorem State.setPart_mq (n : Nat) (x : Part) : (s.setPart n x).mq = s.mq := rfl
@[simp] theorem State.setPart_host (n : Nat) (x : Part) : (s.setPart n x).host = s.host := rfl
@[simp] theorem State.setPart_eth (n : Nat) (x : Part) : (s.setPart n x).eth = s.eth := rfl
@[simp] theorem State.setPart_peal (n : Nat) (x : Part) : (s.setPart n x).peal = s.peal := rfl
@[simp] theorem State.setPart_car (n : Nat) (x : Part) : (s.setPart n x).car = s.car := rfl
@[simp] theorem State.setPart_damper (n : Nat) (x : Part) : (s.setPart n x).damper = s.damper := rfl
@[simp] theorem State.setPart_sec (n : Nat) (x : Part) : (s.setPart n x).sec = s.sec := rfl
@[simp] theorem State.setPart_dict (n : Nat) (x : Part) : (s.setPart n x).dict = s.dict := rfl
@[simp] theorem State.setPart_fw (n : Nat) (x : Part) : (s.setPart n x).fw = s.fw := rfl
@[simp] theorem State.setPart_bist (n : Nat) (x : Part) : (s.setPart n x).bist = s.bist := rfl

/-! ### State.modCmd -/

@[simp] theorem State.modCmd_pending (uid : Nat) (f : Issued → Issued) : (s.modCmd uid f).pending = s.pending := rfl
@[simp] theorem State.modCmd_hub (uid : Nat) (f : Issued → Issued) : (s.modCmd uid f).hub = s.hub := rfl
@[simp] theorem State.modCmd_cores (uid : Nat) (f : Issued → Issued) : (s.modCmd uid f).cores = s.cores := rfl
@[simp] theorem State.modCmd_mem (uid : Nat) (f : Issued → Issued) : (s.modCmd uid f).mem = s.mem := rfl
@[simp] theorem State.modCmd_disp_parts (uid : Nat) (f : Issued → Issued) : (s.modCmd uid f).disp.parts = s.disp.parts := rfl
@[simp] theorem State.modCmd_disp_ctxs (uid : Nat) (f : Issued → Issued) : (s.modCmd uid f).disp.ctxs = s.disp.ctxs := rfl
@[simp] theorem State.modCmd_disp_issued (uid : Nat) (f : Issued → Issued) : (s.modCmd uid f).disp.issued = modFirst (fun i => i.uid == uid) f s.disp.issued := rfl
@[simp] theorem State.modCmd_disp_nextUid (uid : Nat) (f : Issued → Issued) : (s.modCmd uid f).disp.nextUid = s.disp.nextUid := rfl
@[simp] theorem State.modCmd_disp_ctxSel (uid : Nat) (f : Issued → Issued) : (s.modCmd uid f).disp.ctxSel = s.disp.ctxSel := rfl
@[simp] theorem State.modCmd_disp_slabSel (uid : Nat) (f : Issued → Issued) : (s.modCmd uid f).disp.slabSel = s.disp.slabSel := rfl
@[simp] theorem State.modCmd_disp_map (uid : Nat) (f : Issued → Issued) : (s.modCmd uid f).disp.map = s.disp.map := rfl
@[simp] theorem State.modCmd_disp_spare (uid : Nat) (f : Issued → Issued) : (s.modCmd uid f).disp.spare = s.disp.spare := rfl
@[simp] theorem State.modCmd_disp_arbs (uid : Nat) (f : Issued → Issued) : (s.modCmd uid f).disp.arbs = s.disp.arbs := rfl
@[simp] theorem State.modCmd_disp_stallLimit (uid : Nat) (f : Issued → Issued) : (s.modCmd uid f).disp.stallLimit = s.disp.stallLimit := rfl
@[simp] theorem State.modCmd_mq (uid : Nat) (f : Issued → Issued) : (s.modCmd uid f).mq = s.mq := rfl
@[simp] theorem State.modCmd_host (uid : Nat) (f : Issued → Issued) : (s.modCmd uid f).host = s.host := rfl
@[simp] theorem State.modCmd_eth (uid : Nat) (f : Issued → Issued) : (s.modCmd uid f).eth = s.eth := rfl
@[simp] theorem State.modCmd_peal (uid : Nat) (f : Issued → Issued) : (s.modCmd uid f).peal = s.peal := rfl
@[simp] theorem State.modCmd_car (uid : Nat) (f : Issued → Issued) : (s.modCmd uid f).car = s.car := rfl
@[simp] theorem State.modCmd_damper (uid : Nat) (f : Issued → Issued) : (s.modCmd uid f).damper = s.damper := rfl
@[simp] theorem State.modCmd_sec (uid : Nat) (f : Issued → Issued) : (s.modCmd uid f).sec = s.sec := rfl
@[simp] theorem State.modCmd_dict (uid : Nat) (f : Issued → Issued) : (s.modCmd uid f).dict = s.dict := rfl
@[simp] theorem State.modCmd_fw (uid : Nat) (f : Issued → Issued) : (s.modCmd uid f).fw = s.fw := rfl
@[simp] theorem State.modCmd_bist (uid : Nat) (f : Issued → Issued) : (s.modCmd uid f).bist = s.bist := rfl

/-! ### State.delCmd -/

@[simp] theorem State.delCmd_pending (uid : Nat) : (s.delCmd uid).pending = s.pending := rfl
@[simp] theorem State.delCmd_hub (uid : Nat) : (s.delCmd uid).hub = s.hub := rfl
@[simp] theorem State.delCmd_cores (uid : Nat) : (s.delCmd uid).cores = s.cores := rfl
@[simp] theorem State.delCmd_mem (uid : Nat) : (s.delCmd uid).mem = s.mem := rfl
@[simp] theorem State.delCmd_disp_parts (uid : Nat) : (s.delCmd uid).disp.parts = s.disp.parts := rfl
@[simp] theorem State.delCmd_disp_ctxs (uid : Nat) : (s.delCmd uid).disp.ctxs = s.disp.ctxs := rfl
@[simp] theorem State.delCmd_disp_issued (uid : Nat) : (s.delCmd uid).disp.issued = delFirst (fun i => i.uid == uid) s.disp.issued := rfl
@[simp] theorem State.delCmd_disp_nextUid (uid : Nat) : (s.delCmd uid).disp.nextUid = s.disp.nextUid := rfl
@[simp] theorem State.delCmd_disp_ctxSel (uid : Nat) : (s.delCmd uid).disp.ctxSel = s.disp.ctxSel := rfl
@[simp] theorem State.delCmd_disp_slabSel (uid : Nat) : (s.delCmd uid).disp.slabSel = s.disp.slabSel := rfl
@[simp] theorem State.delCmd_disp_map (uid : Nat) : (s.delCmd uid).disp.map = s.disp.map := rfl
@[simp] theorem State.delCmd_disp_spare (uid : Nat) : (s.delCmd uid).disp.spare = s.disp.spare := rfl
@[simp] theorem State.delCmd_disp_arbs (uid : Nat) : (s.delCmd uid).disp.arbs = s.disp.arbs := rfl
@[simp] theorem State.delCmd_disp_stallLimit (uid : Nat) : (s.delCmd uid).disp.stallLimit = s.disp.stallLimit := rfl
@[simp] theorem State.delCmd_mq (uid : Nat) : (s.delCmd uid).mq = s.mq := rfl
@[simp] theorem State.delCmd_host (uid : Nat) : (s.delCmd uid).host = s.host := rfl
@[simp] theorem State.delCmd_eth (uid : Nat) : (s.delCmd uid).eth = s.eth := rfl
@[simp] theorem State.delCmd_peal (uid : Nat) : (s.delCmd uid).peal = s.peal := rfl
@[simp] theorem State.delCmd_car (uid : Nat) : (s.delCmd uid).car = s.car := rfl
@[simp] theorem State.delCmd_damper (uid : Nat) : (s.delCmd uid).damper = s.damper := rfl
@[simp] theorem State.delCmd_sec (uid : Nat) : (s.delCmd uid).sec = s.sec := rfl
@[simp] theorem State.delCmd_dict (uid : Nat) : (s.delCmd uid).dict = s.dict := rfl
@[simp] theorem State.delCmd_fw (uid : Nat) : (s.delCmd uid).fw = s.fw := rfl
@[simp] theorem State.delCmd_bist (uid : Nat) : (s.delCmd uid).bist = s.bist := rfl

/-! ### State.setFn -/

@[simp] theorem State.setFn_pending (k : Nat) (x : Fn) : (s.setFn k x).pending = s.pending := rfl
@[simp] theorem State.setFn_hub (k : Nat) (x : Fn) : (s.setFn k x).hub = s.hub := rfl
@[simp] theorem State.setFn_cores (k : Nat) (x : Fn) : (s.setFn k x).cores = s.cores := rfl
@[simp] theorem State.setFn_mem (k : Nat) (x : Fn) : (s.setFn k x).mem = s.mem := rfl
@[simp] theorem State.setFn_disp (k : Nat) (x : Fn) : (s.setFn k x).disp = s.disp := rfl
@[simp] theorem State.setFn_mq (k : Nat) (x : Fn) : (s.setFn k x).mq = s.mq := rfl
@[simp] theorem State.setFn_host_fns (k : Nat) (x : Fn) : (s.setFn k x).host.fns = sset Fn.reset s.host.fns k x := rfl
@[simp] theorem State.setFn_host_linkUp (k : Nat) (x : Fn) : (s.setFn k x).host.linkUp = s.host.linkUp := rfl
@[simp] theorem State.setFn_host_gen (k : Nat) (x : Fn) : (s.setFn k x).host.gen = s.host.gen := rfl
@[simp] theorem State.setFn_host_width (k : Nat) (x : Fn) : (s.setFn k x).host.width = s.host.width := rfl
@[simp] theorem State.setFn_host_waitLimit (k : Nat) (x : Fn) : (s.setFn k x).host.waitLimit = s.host.waitLimit := rfl
@[simp] theorem State.setFn_host_cred (k : Nat) (x : Fn) : (s.setFn k x).host.cred = s.host.cred := rfl
@[simp] theorem State.setFn_host_reattachRefused (k : Nat) (x : Fn) : (s.setFn k x).host.reattachRefused = s.host.reattachRefused := rfl
@[simp] theorem State.setFn_host_vfEnable (k : Nat) (x : Fn) : (s.setFn k x).host.vfEnable = s.host.vfEnable := rfl
@[simp] theorem State.setFn_host_numVfs (k : Nat) (x : Fn) : (s.setFn k x).host.numVfs = s.host.numVfs := rfl
@[simp] theorem State.setFn_host_vfBars (k : Nat) (x : Fn) : (s.setFn k x).host.vfBars = s.host.vfBars := rfl
@[simp] theorem State.setFn_host_cache (k : Nat) (x : Fn) : (s.setFn k x).host.cache = s.host.cache := rfl
@[simp] theorem State.setFn_eth (k : Nat) (x : Fn) : (s.setFn k x).eth = s.eth := rfl
@[simp] theorem State.setFn_peal (k : Nat) (x : Fn) : (s.setFn k x).peal = s.peal := rfl
@[simp] theorem State.setFn_car (k : Nat) (x : Fn) : (s.setFn k x).car = s.car := rfl
@[simp] theorem State.setFn_damper (k : Nat) (x : Fn) : (s.setFn k x).damper = s.damper := rfl
@[simp] theorem State.setFn_sec (k : Nat) (x : Fn) : (s.setFn k x).sec = s.sec := rfl
@[simp] theorem State.setFn_dict (k : Nat) (x : Fn) : (s.setFn k x).dict = s.dict := rfl
@[simp] theorem State.setFn_fw (k : Nat) (x : Fn) : (s.setFn k x).fw = s.fw := rfl
@[simp] theorem State.setFn_bist (k : Nat) (x : Fn) : (s.setFn k x).bist = s.bist := rfl

/-! ### State.setSlab -/

@[simp] theorem State.setSlab_pending (n : Nat) (e : SlabEntry) : (s.setSlab n e).pending = s.pending := rfl
@[simp] theorem State.setSlab_hub (n : Nat) (e : SlabEntry) : (s.setSlab n e).hub = s.hub := rfl
@[simp] theorem State.setSlab_cores (n : Nat) (e : SlabEntry) : (s.setSlab n e).cores = s.cores := rfl
@[simp] theorem State.setSlab_mem_bytes (n : Nat) (e : SlabEntry) : (s.setSlab n e).mem.bytes = s.mem.bytes := rfl
@[simp] theorem State.setSlab_mem_poison (n : Nat) (e : SlabEntry) : (s.setSlab n e).mem.poison = s.mem.poison := rfl
@[simp] theorem State.setSlab_mem_slabs (n : Nat) (e : SlabEntry) : (s.setSlab n e).mem.slabs = sset SlabEntry.reset s.mem.slabs n e := rfl
@[simp] theorem State.setSlab_mem_failed (n : Nat) (e : SlabEntry) : (s.setSlab n e).mem.failed = s.mem.failed := rfl
@[simp] theorem State.setSlab_mem_quota (n : Nat) (e : SlabEntry) : (s.setSlab n e).mem.quota = s.mem.quota := rfl
@[simp] theorem State.setSlab_mem_opState (n : Nat) (e : SlabEntry) : (s.setSlab n e).mem.opState = s.mem.opState := rfl
@[simp] theorem State.setSlab_mem_opSlabs (n : Nat) (e : SlabEntry) : (s.setSlab n e).mem.opSlabs = s.mem.opSlabs := rfl
@[simp] theorem State.setSlab_mem_wipes (n : Nat) (e : SlabEntry) : (s.setSlab n e).mem.wipes = s.mem.wipes := rfl
@[simp] theorem State.setSlab_mem_held (n : Nat) (e : SlabEntry) : (s.setSlab n e).mem.held = s.mem.held := rfl
@[simp] theorem State.setSlab_mem_retireCeLimit (n : Nat) (e : SlabEntry) : (s.setSlab n e).mem.retireCeLimit = s.mem.retireCeLimit := rfl
@[simp] theorem State.setSlab_mem_scrubPeriod (n : Nat) (e : SlabEntry) : (s.setSlab n e).mem.scrubPeriod = s.mem.scrubPeriod := rfl
@[simp] theorem State.setSlab_mem_scrubPos (n : Nat) (e : SlabEntry) : (s.setSlab n e).mem.scrubPos = s.mem.scrubPos := rfl
@[simp] theorem State.setSlab_mem_ceRows (n : Nat) (e : SlabEntry) : (s.setSlab n e).mem.ceRows = s.mem.ceRows := rfl
@[simp] theorem State.setSlab_mem_retireList (n : Nat) (e : SlabEntry) : (s.setSlab n e).mem.retireList = s.mem.retireList := rfl
@[simp] theorem State.setSlab_mem_retiredSlabs (n : Nat) (e : SlabEntry) : (s.setSlab n e).mem.retiredSlabs = s.mem.retiredSlabs := rfl
@[simp] theorem State.setSlab_mem_stackCe (n : Nat) (e : SlabEntry) : (s.setSlab n e).mem.stackCe = s.mem.stackCe := rfl
@[simp] theorem State.setSlab_mem_stackUe (n : Nat) (e : SlabEntry) : (s.setSlab n e).mem.stackUe = s.mem.stackUe := rfl
@[simp] theorem State.setSlab_mem_rowsRepaired (n : Nat) (e : SlabEntry) : (s.setSlab n e).mem.rowsRepaired = s.mem.rowsRepaired := rfl
@[simp] theorem State.setSlab_disp (n : Nat) (e : SlabEntry) : (s.setSlab n e).disp = s.disp := rfl
@[simp] theorem State.setSlab_mq (n : Nat) (e : SlabEntry) : (s.setSlab n e).mq = s.mq := rfl
@[simp] theorem State.setSlab_host (n : Nat) (e : SlabEntry) : (s.setSlab n e).host = s.host := rfl
@[simp] theorem State.setSlab_eth (n : Nat) (e : SlabEntry) : (s.setSlab n e).eth = s.eth := rfl
@[simp] theorem State.setSlab_peal (n : Nat) (e : SlabEntry) : (s.setSlab n e).peal = s.peal := rfl
@[simp] theorem State.setSlab_car (n : Nat) (e : SlabEntry) : (s.setSlab n e).car = s.car := rfl
@[simp] theorem State.setSlab_damper (n : Nat) (e : SlabEntry) : (s.setSlab n e).damper = s.damper := rfl
@[simp] theorem State.setSlab_sec (n : Nat) (e : SlabEntry) : (s.setSlab n e).sec = s.sec := rfl
@[simp] theorem State.setSlab_dict (n : Nat) (e : SlabEntry) : (s.setSlab n e).dict = s.dict := rfl
@[simp] theorem State.setSlab_fw (n : Nat) (e : SlabEntry) : (s.setSlab n e).fw = s.fw := rfl
@[simp] theorem State.setSlab_bist (n : Nat) (e : SlabEntry) : (s.setSlab n e).bist = s.bist := rfl

/-! ### State.setOpState -/

@[simp] theorem State.setOpState_pending (v : BitVec 16) : (s.setOpState v).pending = s.pending := rfl
@[simp] theorem State.setOpState_hub (v : BitVec 16) : (s.setOpState v).hub = s.hub := rfl
@[simp] theorem State.setOpState_cores (v : BitVec 16) : (s.setOpState v).cores = s.cores := rfl
@[simp] theorem State.setOpState_mem_bytes (v : BitVec 16) : (s.setOpState v).mem.bytes = s.mem.bytes := rfl
@[simp] theorem State.setOpState_mem_poison (v : BitVec 16) : (s.setOpState v).mem.poison = s.mem.poison := rfl
@[simp] theorem State.setOpState_mem_slabs (v : BitVec 16) : (s.setOpState v).mem.slabs = s.mem.slabs := rfl
@[simp] theorem State.setOpState_mem_failed (v : BitVec 16) : (s.setOpState v).mem.failed = s.mem.failed := rfl
@[simp] theorem State.setOpState_mem_quota (v : BitVec 16) : (s.setOpState v).mem.quota = s.mem.quota := rfl
@[simp] theorem State.setOpState_mem_opState (v : BitVec 16) : (s.setOpState v).mem.opState = v := rfl
@[simp] theorem State.setOpState_mem_opSlabs (v : BitVec 16) : (s.setOpState v).mem.opSlabs = s.mem.opSlabs := rfl
@[simp] theorem State.setOpState_mem_wipes (v : BitVec 16) : (s.setOpState v).mem.wipes = s.mem.wipes := rfl
@[simp] theorem State.setOpState_mem_held (v : BitVec 16) : (s.setOpState v).mem.held = s.mem.held := rfl
@[simp] theorem State.setOpState_mem_retireCeLimit (v : BitVec 16) : (s.setOpState v).mem.retireCeLimit = s.mem.retireCeLimit := rfl
@[simp] theorem State.setOpState_mem_scrubPeriod (v : BitVec 16) : (s.setOpState v).mem.scrubPeriod = s.mem.scrubPeriod := rfl
@[simp] theorem State.setOpState_mem_scrubPos (v : BitVec 16) : (s.setOpState v).mem.scrubPos = s.mem.scrubPos := rfl
@[simp] theorem State.setOpState_mem_ceRows (v : BitVec 16) : (s.setOpState v).mem.ceRows = s.mem.ceRows := rfl
@[simp] theorem State.setOpState_mem_retireList (v : BitVec 16) : (s.setOpState v).mem.retireList = s.mem.retireList := rfl
@[simp] theorem State.setOpState_mem_retiredSlabs (v : BitVec 16) : (s.setOpState v).mem.retiredSlabs = s.mem.retiredSlabs := rfl
@[simp] theorem State.setOpState_mem_stackCe (v : BitVec 16) : (s.setOpState v).mem.stackCe = s.mem.stackCe := rfl
@[simp] theorem State.setOpState_mem_stackUe (v : BitVec 16) : (s.setOpState v).mem.stackUe = s.mem.stackUe := rfl
@[simp] theorem State.setOpState_mem_rowsRepaired (v : BitVec 16) : (s.setOpState v).mem.rowsRepaired = s.mem.rowsRepaired := rfl
@[simp] theorem State.setOpState_disp (v : BitVec 16) : (s.setOpState v).disp = s.disp := rfl
@[simp] theorem State.setOpState_mq (v : BitVec 16) : (s.setOpState v).mq = s.mq := rfl
@[simp] theorem State.setOpState_host (v : BitVec 16) : (s.setOpState v).host = s.host := rfl
@[simp] theorem State.setOpState_eth (v : BitVec 16) : (s.setOpState v).eth = s.eth := rfl
@[simp] theorem State.setOpState_peal (v : BitVec 16) : (s.setOpState v).peal = s.peal := rfl
@[simp] theorem State.setOpState_car (v : BitVec 16) : (s.setOpState v).car = s.car := rfl
@[simp] theorem State.setOpState_damper (v : BitVec 16) : (s.setOpState v).damper = s.damper := rfl
@[simp] theorem State.setOpState_sec (v : BitVec 16) : (s.setOpState v).sec = s.sec := rfl
@[simp] theorem State.setOpState_dict (v : BitVec 16) : (s.setOpState v).dict = s.dict := rfl
@[simp] theorem State.setOpState_fw (v : BitVec 16) : (s.setOpState v).fw = s.fw := rfl
@[simp] theorem State.setOpState_bist (v : BitVec 16) : (s.setOpState v).bist = s.bist := rfl

/-! ### State.setQueue -/

@[simp] theorem State.setQueue_pending (q : Nat) (m : MsgQueue) : (s.setQueue q m).pending = s.pending := rfl
@[simp] theorem State.setQueue_hub (q : Nat) (m : MsgQueue) : (s.setQueue q m).hub = s.hub := rfl
@[simp] theorem State.setQueue_cores (q : Nat) (m : MsgQueue) : (s.setQueue q m).cores = s.cores := rfl
@[simp] theorem State.setQueue_mem (q : Nat) (m : MsgQueue) : (s.setQueue q m).mem = s.mem := rfl
@[simp] theorem State.setQueue_disp (q : Nat) (m : MsgQueue) : (s.setQueue q m).disp = s.disp := rfl
@[simp] theorem State.setQueue_mq_queues (q : Nat) (m : MsgQueue) : (s.setQueue q m).mq.queues = sset MsgQueue.reset s.mq.queues q m := rfl
@[simp] theorem State.setQueue_mq_rings (q : Nat) (m : MsgQueue) : (s.setQueue q m).mq.rings = s.mq.rings := rfl
@[simp] theorem State.setQueue_mq_faultqReset (q : Nat) (m : MsgQueue) : (s.setQueue q m).mq.faultqReset = s.mq.faultqReset := rfl
@[simp] theorem State.setQueue_host (q : Nat) (m : MsgQueue) : (s.setQueue q m).host = s.host := rfl
@[simp] theorem State.setQueue_eth (q : Nat) (m : MsgQueue) : (s.setQueue q m).eth = s.eth := rfl
@[simp] theorem State.setQueue_peal (q : Nat) (m : MsgQueue) : (s.setQueue q m).peal = s.peal := rfl
@[simp] theorem State.setQueue_car (q : Nat) (m : MsgQueue) : (s.setQueue q m).car = s.car := rfl
@[simp] theorem State.setQueue_damper (q : Nat) (m : MsgQueue) : (s.setQueue q m).damper = s.damper := rfl
@[simp] theorem State.setQueue_sec (q : Nat) (m : MsgQueue) : (s.setQueue q m).sec = s.sec := rfl
@[simp] theorem State.setQueue_dict (q : Nat) (m : MsgQueue) : (s.setQueue q m).dict = s.dict := rfl
@[simp] theorem State.setQueue_fw (q : Nat) (m : MsgQueue) : (s.setQueue q m).fw = s.fw := rfl
@[simp] theorem State.setQueue_bist (q : Nat) (m : MsgQueue) : (s.setQueue q m).bist = s.bist := rfl

/-! ### State.putPacket -/

@[simp] theorem State.putPacket_pending (q : Nat) (w : List W64) (u : Nat) : (s.putPacket q w u).pending = s.pending := rfl
@[simp] theorem State.putPacket_hub (q : Nat) (w : List W64) (u : Nat) : (s.putPacket q w u).hub = s.hub := rfl
@[simp] theorem State.putPacket_cores (q : Nat) (w : List W64) (u : Nat) : (s.putPacket q w u).cores = s.cores := rfl
@[simp] theorem State.putPacket_mem (q : Nat) (w : List W64) (u : Nat) : (s.putPacket q w u).mem = s.mem := rfl
@[simp] theorem State.putPacket_disp (q : Nat) (w : List W64) (u : Nat) : (s.putPacket q w u).disp = s.disp := rfl
@[simp] theorem State.putPacket_mq_queues (q : Nat) (w : List W64) (u : Nat) : (s.putPacket q w u).mq.queues = sset MsgQueue.reset s.mq.queues q ((s.mqueue q).ask s.now q { src := u, pop := 1, words := w, stop := .done }) := rfl
@[simp] theorem State.putPacket_mq_rings (q : Nat) (w : List W64) (u : Nat) : (s.putPacket q w u).mq.rings = s.mq.rings := rfl
@[simp] theorem State.putPacket_mq_faultqReset (q : Nat) (w : List W64) (u : Nat) : (s.putPacket q w u).mq.faultqReset = s.mq.faultqReset := rfl
@[simp] theorem State.putPacket_host (q : Nat) (w : List W64) (u : Nat) : (s.putPacket q w u).host = s.host := rfl
@[simp] theorem State.putPacket_eth (q : Nat) (w : List W64) (u : Nat) : (s.putPacket q w u).eth = s.eth := rfl
@[simp] theorem State.putPacket_peal (q : Nat) (w : List W64) (u : Nat) : (s.putPacket q w u).peal = s.peal := rfl
@[simp] theorem State.putPacket_car (q : Nat) (w : List W64) (u : Nat) : (s.putPacket q w u).car = s.car := rfl
@[simp] theorem State.putPacket_damper (q : Nat) (w : List W64) (u : Nat) : (s.putPacket q w u).damper = s.damper := rfl
@[simp] theorem State.putPacket_sec (q : Nat) (w : List W64) (u : Nat) : (s.putPacket q w u).sec = s.sec := rfl
@[simp] theorem State.putPacket_dict (q : Nat) (w : List W64) (u : Nat) : (s.putPacket q w u).dict = s.dict := rfl
@[simp] theorem State.putPacket_fw (q : Nat) (w : List W64) (u : Nat) : (s.putPacket q w u).fw = s.fw := rfl
@[simp] theorem State.putPacket_bist (q : Nat) (w : List W64) (u : Nat) : (s.putPacket q w u).bist = s.bist := rfl

/-! ### State.setRing -/

@[simp] theorem State.setRing_pending (r : Nat) (x : Ring) : (s.setRing r x).pending = s.pending := rfl
@[simp] theorem State.setRing_hub (r : Nat) (x : Ring) : (s.setRing r x).hub = s.hub := rfl
@[simp] theorem State.setRing_cores (r : Nat) (x : Ring) : (s.setRing r x).cores = s.cores := rfl
@[simp] theorem State.setRing_mem (r : Nat) (x : Ring) : (s.setRing r x).mem = s.mem := rfl
@[simp] theorem State.setRing_disp (r : Nat) (x : Ring) : (s.setRing r x).disp = s.disp := rfl
@[simp] theorem State.setRing_mq_queues (r : Nat) (x : Ring) : (s.setRing r x).mq.queues = s.mq.queues := rfl
@[simp] theorem State.setRing_mq_rings (r : Nat) (x : Ring) : (s.setRing r x).mq.rings = sset Ring.reset s.mq.rings r x := rfl
@[simp] theorem State.setRing_mq_faultqReset (r : Nat) (x : Ring) : (s.setRing r x).mq.faultqReset = s.mq.faultqReset := rfl
@[simp] theorem State.setRing_host (r : Nat) (x : Ring) : (s.setRing r x).host = s.host := rfl
@[simp] theorem State.setRing_eth (r : Nat) (x : Ring) : (s.setRing r x).eth = s.eth := rfl
@[simp] theorem State.setRing_peal (r : Nat) (x : Ring) : (s.setRing r x).peal = s.peal := rfl
@[simp] theorem State.setRing_car (r : Nat) (x : Ring) : (s.setRing r x).car = s.car := rfl
@[simp] theorem State.setRing_damper (r : Nat) (x : Ring) : (s.setRing r x).damper = s.damper := rfl
@[simp] theorem State.setRing_sec (r : Nat) (x : Ring) : (s.setRing r x).sec = s.sec := rfl
@[simp] theorem State.setRing_dict (r : Nat) (x : Ring) : (s.setRing r x).dict = s.dict := rfl
@[simp] theorem State.setRing_fw (r : Nat) (x : Ring) : (s.setRing r x).fw = s.fw := rfl
@[simp] theorem State.setRing_bist (r : Nat) (x : Ring) : (s.setRing r x).bist = s.bist := rfl

/-! ### State.emit -/

@[simp] theorem State.emit_pending (e : Emit) : (s.emit e).pending = s.pending := rfl
@[simp] theorem State.emit_hub_timer (e : Emit) : (s.emit e).hub.timer = s.hub.timer := rfl
@[simp] theorem State.emit_hub_fault (e : Emit) : (s.emit e).hub.fault = s.hub.fault := rfl
@[simp] theorem State.emit_hub_pwrgd (e : Emit) : (s.emit e).hub.pwrgd = s.hub.pwrgd := rfl
@[simp] theorem State.emit_hub_devrstN (e : Emit) : (s.emit e).hub.devrstN = s.hub.devrstN := rfl
@[simp] theorem State.emit_hub_perstN (e : Emit) : (s.emit e).hub.perstN = s.hub.perstN := rfl
@[simp] theorem State.emit_hub_thermN (e : Emit) : (s.emit e).hub.thermN = s.hub.thermN := rfl
@[simp] theorem State.emit_hub_refclkH (e : Emit) : (s.emit e).hub.refclkH = s.hub.refclkH := rfl
@[simp] theorem State.emit_hub_refclkE (e : Emit) : (s.emit e).hub.refclkE = s.hub.refclkE := rfl
@[simp] theorem State.emit_hub_maddr (e : Emit) : (s.emit e).hub.maddr = s.hub.maddr := rfl
@[simp] theorem State.emit_hub_trained (e : Emit) : (s.emit e).hub.trained = s.hub.trained := rfl
@[simp] theorem State.emit_hub_started (e : Emit) : (s.emit e).hub.started = s.hub.started := rfl
@[simp] theorem State.emit_hub_ready (e : Emit) : (s.emit e).hub.ready = s.hub.ready := rfl
@[simp] theorem State.emit_hub_tap (e : Emit) : (s.emit e).hub.tap = s.hub.tap := rfl
@[simp] theorem State.emit_hub_tapLoaded (e : Emit) : (s.emit e).hub.tapLoaded = s.hub.tapLoaded := rfl
@[simp] theorem State.emit_hub_boundary (e : Emit) : (s.emit e).hub.boundary = s.hub.boundary := rfl
@[simp] theorem State.emit_hub_free (e : Emit) : (s.emit e).hub.free = s.hub.free := rfl
@[simp] theorem State.emit_hub_out (e : Emit) : (s.emit e).hub.out = e :: s.hub.out := rfl
@[simp] theorem State.emit_cores (e : Emit) : (s.emit e).cores = s.cores := rfl
@[simp] theorem State.emit_mem (e : Emit) : (s.emit e).mem = s.mem := rfl
@[simp] theorem State.emit_disp (e : Emit) : (s.emit e).disp = s.disp := rfl
@[simp] theorem State.emit_mq (e : Emit) : (s.emit e).mq = s.mq := rfl
@[simp] theorem State.emit_host (e : Emit) : (s.emit e).host = s.host := rfl
@[simp] theorem State.emit_eth (e : Emit) : (s.emit e).eth = s.eth := rfl
@[simp] theorem State.emit_peal (e : Emit) : (s.emit e).peal = s.peal := rfl
@[simp] theorem State.emit_car (e : Emit) : (s.emit e).car = s.car := rfl
@[simp] theorem State.emit_damper (e : Emit) : (s.emit e).damper = s.damper := rfl
@[simp] theorem State.emit_sec (e : Emit) : (s.emit e).sec = s.sec := rfl
@[simp] theorem State.emit_dict (e : Emit) : (s.emit e).dict = s.dict := rfl
@[simp] theorem State.emit_fw (e : Emit) : (s.emit e).fw = s.fw := rfl
@[simp] theorem State.emit_bist (e : Emit) : (s.emit e).bist = s.bist := rfl

/-! ### State.answer -/

@[simp] theorem State.answer_pending (r : BitVec 8) : (s.answer r).pending = s.pending := rfl
@[simp] theorem State.answer_hub_timer (r : BitVec 8) : (s.answer r).hub.timer = s.hub.timer := rfl
@[simp] theorem State.answer_hub_fault (r : BitVec 8) : (s.answer r).hub.fault = s.hub.fault := rfl
@[simp] theorem State.answer_hub_pwrgd (r : BitVec 8) : (s.answer r).hub.pwrgd = s.hub.pwrgd := rfl
@[simp] theorem State.answer_hub_devrstN (r : BitVec 8) : (s.answer r).hub.devrstN = s.hub.devrstN := rfl
@[simp] theorem State.answer_hub_perstN (r : BitVec 8) : (s.answer r).hub.perstN = s.hub.perstN := rfl
@[simp] theorem State.answer_hub_thermN (r : BitVec 8) : (s.answer r).hub.thermN = s.hub.thermN := rfl
@[simp] theorem State.answer_hub_refclkH (r : BitVec 8) : (s.answer r).hub.refclkH = s.hub.refclkH := rfl
@[simp] theorem State.answer_hub_refclkE (r : BitVec 8) : (s.answer r).hub.refclkE = s.hub.refclkE := rfl
@[simp] theorem State.answer_hub_maddr (r : BitVec 8) : (s.answer r).hub.maddr = s.hub.maddr := rfl
@[simp] theorem State.answer_hub_trained (r : BitVec 8) : (s.answer r).hub.trained = s.hub.trained := rfl
@[simp] theorem State.answer_hub_started (r : BitVec 8) : (s.answer r).hub.started = s.hub.started := rfl
@[simp] theorem State.answer_hub_ready (r : BitVec 8) : (s.answer r).hub.ready = s.hub.ready := rfl
@[simp] theorem State.answer_hub_tap (r : BitVec 8) : (s.answer r).hub.tap = s.hub.tap := rfl
@[simp] theorem State.answer_hub_tapLoaded (r : BitVec 8) : (s.answer r).hub.tapLoaded = s.hub.tapLoaded := rfl
@[simp] theorem State.answer_hub_boundary (r : BitVec 8) : (s.answer r).hub.boundary = s.hub.boundary := rfl
@[simp] theorem State.answer_hub_free (r : BitVec 8) : (s.answer r).hub.free = s.hub.free := rfl
@[simp] theorem State.answer_hub_out (r : BitVec 8) : (s.answer r).hub.out = .answer r :: s.hub.out := rfl
@[simp] theorem State.answer_cores (r : BitVec 8) : (s.answer r).cores = s.cores := rfl
@[simp] theorem State.answer_mem (r : BitVec 8) : (s.answer r).mem = s.mem := rfl
@[simp] theorem State.answer_disp (r : BitVec 8) : (s.answer r).disp = s.disp := rfl
@[simp] theorem State.answer_mq (r : BitVec 8) : (s.answer r).mq = s.mq := rfl
@[simp] theorem State.answer_host (r : BitVec 8) : (s.answer r).host = s.host := rfl
@[simp] theorem State.answer_eth (r : BitVec 8) : (s.answer r).eth = s.eth := rfl
@[simp] theorem State.answer_peal (r : BitVec 8) : (s.answer r).peal = s.peal := rfl
@[simp] theorem State.answer_car (r : BitVec 8) : (s.answer r).car = s.car := rfl
@[simp] theorem State.answer_damper (r : BitVec 8) : (s.answer r).damper = s.damper := rfl
@[simp] theorem State.answer_sec (r : BitVec 8) : (s.answer r).sec = s.sec := rfl
@[simp] theorem State.answer_dict (r : BitVec 8) : (s.answer r).dict = s.dict := rfl
@[simp] theorem State.answer_fw (r : BitVec 8) : (s.answer r).fw = s.fw := rfl
@[simp] theorem State.answer_bist (r : BitVec 8) : (s.answer r).bist = s.bist := rfl

/-! ### State.setTap -/

@[simp] theorem State.setTap_pending (ok : Bool) (t : TapInstr) : (s.setTap ok t).pending = s.pending := rfl
@[simp] theorem State.setTap_hub_timer (ok : Bool) (t : TapInstr) : (s.setTap ok t).hub.timer = s.hub.timer := rfl
@[simp] theorem State.setTap_hub_fault (ok : Bool) (t : TapInstr) : (s.setTap ok t).hub.fault = s.hub.fault := rfl
@[simp] theorem State.setTap_hub_pwrgd (ok : Bool) (t : TapInstr) : (s.setTap ok t).hub.pwrgd = s.hub.pwrgd := rfl
@[simp] theorem State.setTap_hub_devrstN (ok : Bool) (t : TapInstr) : (s.setTap ok t).hub.devrstN = s.hub.devrstN := rfl
@[simp] theorem State.setTap_hub_perstN (ok : Bool) (t : TapInstr) : (s.setTap ok t).hub.perstN = s.hub.perstN := rfl
@[simp] theorem State.setTap_hub_thermN (ok : Bool) (t : TapInstr) : (s.setTap ok t).hub.thermN = s.hub.thermN := rfl
@[simp] theorem State.setTap_hub_refclkH (ok : Bool) (t : TapInstr) : (s.setTap ok t).hub.refclkH = s.hub.refclkH := rfl
@[simp] theorem State.setTap_hub_refclkE (ok : Bool) (t : TapInstr) : (s.setTap ok t).hub.refclkE = s.hub.refclkE := rfl
@[simp] theorem State.setTap_hub_maddr (ok : Bool) (t : TapInstr) : (s.setTap ok t).hub.maddr = s.hub.maddr := rfl
@[simp] theorem State.setTap_hub_trained (ok : Bool) (t : TapInstr) : (s.setTap ok t).hub.trained = s.hub.trained := rfl
@[simp] theorem State.setTap_hub_started (ok : Bool) (t : TapInstr) : (s.setTap ok t).hub.started = s.hub.started := rfl
@[simp] theorem State.setTap_hub_ready (ok : Bool) (t : TapInstr) : (s.setTap ok t).hub.ready = s.hub.ready := rfl
@[simp] theorem State.setTap_hub_tap (ok : Bool) (t : TapInstr) : (s.setTap ok t).hub.tap = if ok then t else .bypass := rfl
@[simp] theorem State.setTap_hub_tapLoaded (ok : Bool) (t : TapInstr) : (s.setTap ok t).hub.tapLoaded = t := rfl
@[simp] theorem State.setTap_hub_boundary (ok : Bool) (t : TapInstr) : (s.setTap ok t).hub.boundary = s.hub.boundary := rfl
@[simp] theorem State.setTap_hub_free (ok : Bool) (t : TapInstr) : (s.setTap ok t).hub.free = s.hub.free := rfl
@[simp] theorem State.setTap_hub_out (ok : Bool) (t : TapInstr) : (s.setTap ok t).hub.out = s.hub.out := rfl
@[simp] theorem State.setTap_cores (ok : Bool) (t : TapInstr) : (s.setTap ok t).cores = s.cores := rfl
@[simp] theorem State.setTap_mem (ok : Bool) (t : TapInstr) : (s.setTap ok t).mem = s.mem := rfl
@[simp] theorem State.setTap_disp (ok : Bool) (t : TapInstr) : (s.setTap ok t).disp = s.disp := rfl
@[simp] theorem State.setTap_mq (ok : Bool) (t : TapInstr) : (s.setTap ok t).mq = s.mq := rfl
@[simp] theorem State.setTap_host (ok : Bool) (t : TapInstr) : (s.setTap ok t).host = s.host := rfl
@[simp] theorem State.setTap_eth (ok : Bool) (t : TapInstr) : (s.setTap ok t).eth = s.eth := rfl
@[simp] theorem State.setTap_peal (ok : Bool) (t : TapInstr) : (s.setTap ok t).peal = s.peal := rfl
@[simp] theorem State.setTap_car (ok : Bool) (t : TapInstr) : (s.setTap ok t).car = s.car := rfl
@[simp] theorem State.setTap_damper (ok : Bool) (t : TapInstr) : (s.setTap ok t).damper = s.damper := rfl
@[simp] theorem State.setTap_sec (ok : Bool) (t : TapInstr) : (s.setTap ok t).sec = s.sec := rfl
@[simp] theorem State.setTap_dict (ok : Bool) (t : TapInstr) : (s.setTap ok t).dict = s.dict := rfl
@[simp] theorem State.setTap_fw (ok : Bool) (t : TapInstr) : (s.setTap ok t).fw = s.fw := rfl
@[simp] theorem State.setTap_bist (ok : Bool) (t : TapInstr) : (s.setTap ok t).bist = s.bist := rfl

/-! ### State.setPort -/

@[simp] theorem State.setPort_pending (k : Nat) (p : Port) : (s.setPort k p).pending = s.pending := rfl
@[simp] theorem State.setPort_hub (k : Nat) (p : Port) : (s.setPort k p).hub = s.hub := rfl
@[simp] theorem State.setPort_cores (k : Nat) (p : Port) : (s.setPort k p).cores = s.cores := rfl
@[simp] theorem State.setPort_mem (k : Nat) (p : Port) : (s.setPort k p).mem = s.mem := rfl
@[simp] theorem State.setPort_disp (k : Nat) (p : Port) : (s.setPort k p).disp = s.disp := rfl
@[simp] theorem State.setPort_mq (k : Nat) (p : Port) : (s.setPort k p).mq = s.mq := rfl
@[simp] theorem State.setPort_host (k : Nat) (p : Port) : (s.setPort k p).host = s.host := rfl
@[simp] theorem State.setPort_eth_ports (k : Nat) (p : Port) : (s.setPort k p).eth.ports = s.eth.ports.set k p := rfl
@[simp] theorem State.setPort_eth_mgmtEtype (k : Nat) (p : Port) : (s.setPort k p).eth.mgmtEtype = s.eth.mgmtEtype := rfl
@[simp] theorem State.setPort_peal (k : Nat) (p : Port) : (s.setPort k p).peal = s.peal := rfl
@[simp] theorem State.setPort_car (k : Nat) (p : Port) : (s.setPort k p).car = s.car := rfl
@[simp] theorem State.setPort_damper (k : Nat) (p : Port) : (s.setPort k p).damper = s.damper := rfl
@[simp] theorem State.setPort_sec (k : Nat) (p : Port) : (s.setPort k p).sec = s.sec := rfl
@[simp] theorem State.setPort_dict (k : Nat) (p : Port) : (s.setPort k p).dict = s.dict := rfl
@[simp] theorem State.setPort_fw (k : Nat) (p : Port) : (s.setPort k p).fw = s.fw := rfl
@[simp] theorem State.setPort_bist (k : Nat) (p : Port) : (s.setPort k p).bist = s.bist := rfl

/-! ### State.setConn -/

@[simp] theorem State.setConn_pending (r : Nat) (c : Conn) : (s.setConn r c).pending = s.pending := rfl
@[simp] theorem State.setConn_hub (r : Nat) (c : Conn) : (s.setConn r c).hub = s.hub := rfl
@[simp] theorem State.setConn_cores (r : Nat) (c : Conn) : (s.setConn r c).cores = s.cores := rfl
@[simp] theorem State.setConn_mem (r : Nat) (c : Conn) : (s.setConn r c).mem = s.mem := rfl
@[simp] theorem State.setConn_disp (r : Nat) (c : Conn) : (s.setConn r c).disp = s.disp := rfl
@[simp] theorem State.setConn_mq (r : Nat) (c : Conn) : (s.setConn r c).mq = s.mq := rfl
@[simp] theorem State.setConn_host (r : Nat) (c : Conn) : (s.setConn r c).host = s.host := rfl
@[simp] theorem State.setConn_eth (r : Nat) (c : Conn) : (s.setConn r c).eth = s.eth := rfl
@[simp] theorem State.setConn_peal_insts (r : Nat) (c : Conn) : (s.setConn r c).peal.insts = s.peal.insts := rfl
@[simp] theorem State.setConn_peal_tx (r : Nat) (c : Conn) : (s.setConn r c).peal.tx = s.peal.tx := rfl
@[simp] theorem State.setConn_peal_rx (r : Nat) (c : Conn) : (s.setConn r c).peal.rx = s.peal.rx := rfl
@[simp] theorem State.setConn_peal_conns (r : Nat) (c : Conn) : (s.setConn r c).peal.conns = sset Conn.reset s.peal.conns r c := rfl
@[simp] theorem State.setConn_peal_keep (r : Nat) (c : Conn) : (s.setConn r c).peal.keep = s.peal.keep := rfl
@[simp] theorem State.setConn_peal_stepGen (r : Nat) (c : Conn) : (s.setConn r c).peal.stepGen = s.peal.stepGen := rfl
@[simp] theorem State.setConn_peal_cancelled (r : Nat) (c : Conn) : (s.setConn r c).peal.cancelled = s.peal.cancelled := rfl
@[simp] theorem State.setConn_peal_early (r : Nat) (c : Conn) : (s.setConn r c).peal.early = s.peal.early := rfl
@[simp] theorem State.setConn_peal_landed (r : Nat) (c : Conn) : (s.setConn r c).peal.landed = s.peal.landed := rfl
@[simp] theorem State.setConn_peal_resumed (r : Nat) (c : Conn) : (s.setConn r c).peal.resumed = s.peal.resumed := rfl
@[simp] theorem State.setConn_peal_regions (r : Nat) (c : Conn) : (s.setConn r c).peal.regions = s.peal.regions := rfl
@[simp] theorem State.setConn_peal_udpPort (r : Nat) (c : Conn) : (s.setConn r c).peal.udpPort = s.peal.udpPort := rfl
@[simp] theorem State.setConn_peal_parts (r : Nat) (c : Conn) : (s.setConn r c).peal.parts = s.peal.parts := rfl
@[simp] theorem State.setConn_peal_rtoMin (r : Nat) (c : Conn) : (s.setConn r c).peal.rtoMin = s.peal.rtoMin := rfl
@[simp] theorem State.setConn_peal_retxLimit (r : Nat) (c : Conn) : (s.setConn r c).peal.retxLimit = s.peal.retxLimit := rfl
@[simp] theorem State.setConn_peal_ccTarget (r : Nat) (c : Conn) : (s.setConn r c).peal.ccTarget = s.peal.ccTarget := rfl
@[simp] theorem State.setConn_peal_ccGain (r : Nat) (c : Conn) : (s.setConn r c).peal.ccGain = s.peal.ccGain := rfl
@[simp] theorem State.setConn_peal_counters (r : Nat) (c : Conn) : (s.setConn r c).peal.counters = s.peal.counters := rfl
@[simp] theorem State.setConn_peal_fenced (r : Nat) (c : Conn) : (s.setConn r c).peal.fenced = s.peal.fenced := rfl
@[simp] theorem State.setConn_car (r : Nat) (c : Conn) : (s.setConn r c).car = s.car := rfl
@[simp] theorem State.setConn_damper (r : Nat) (c : Conn) : (s.setConn r c).damper = s.damper := rfl
@[simp] theorem State.setConn_sec (r : Nat) (c : Conn) : (s.setConn r c).sec = s.sec := rfl
@[simp] theorem State.setConn_dict (r : Nat) (c : Conn) : (s.setConn r c).dict = s.dict := rfl
@[simp] theorem State.setConn_fw (r : Nat) (c : Conn) : (s.setConn r c).fw = s.fw := rfl
@[simp] theorem State.setConn_bist (r : Nat) (c : Conn) : (s.setConn r c).bist = s.bist := rfl

/-! ### State.setKeeps -/

@[simp] theorem State.setKeeps_pending (n : Nat) (l : List Keep) : (s.setKeeps n l).pending = s.pending := rfl
@[simp] theorem State.setKeeps_hub (n : Nat) (l : List Keep) : (s.setKeeps n l).hub = s.hub := rfl
@[simp] theorem State.setKeeps_cores (n : Nat) (l : List Keep) : (s.setKeeps n l).cores = s.cores := rfl
@[simp] theorem State.setKeeps_mem (n : Nat) (l : List Keep) : (s.setKeeps n l).mem = s.mem := rfl
@[simp] theorem State.setKeeps_disp (n : Nat) (l : List Keep) : (s.setKeeps n l).disp = s.disp := rfl
@[simp] theorem State.setKeeps_mq (n : Nat) (l : List Keep) : (s.setKeeps n l).mq = s.mq := rfl
@[simp] theorem State.setKeeps_host (n : Nat) (l : List Keep) : (s.setKeeps n l).host = s.host := rfl
@[simp] theorem State.setKeeps_eth (n : Nat) (l : List Keep) : (s.setKeeps n l).eth = s.eth := rfl
@[simp] theorem State.setKeeps_peal_insts (n : Nat) (l : List Keep) : (s.setKeeps n l).peal.insts = s.peal.insts := rfl
@[simp] theorem State.setKeeps_peal_tx (n : Nat) (l : List Keep) : (s.setKeeps n l).peal.tx = s.peal.tx := rfl
@[simp] theorem State.setKeeps_peal_rx (n : Nat) (l : List Keep) : (s.setKeeps n l).peal.rx = s.peal.rx := rfl
@[simp] theorem State.setKeeps_peal_conns (n : Nat) (l : List Keep) : (s.setKeeps n l).peal.conns = s.peal.conns := rfl
@[simp] theorem State.setKeeps_peal_keep (n : Nat) (l : List Keep) : (s.setKeeps n l).peal.keep = sset [] s.peal.keep n l := rfl
@[simp] theorem State.setKeeps_peal_stepGen (n : Nat) (l : List Keep) : (s.setKeeps n l).peal.stepGen = s.peal.stepGen := rfl
@[simp] theorem State.setKeeps_peal_cancelled (n : Nat) (l : List Keep) : (s.setKeeps n l).peal.cancelled = s.peal.cancelled := rfl
@[simp] theorem State.setKeeps_peal_early (n : Nat) (l : List Keep) : (s.setKeeps n l).peal.early = s.peal.early := rfl
@[simp] theorem State.setKeeps_peal_landed (n : Nat) (l : List Keep) : (s.setKeeps n l).peal.landed = s.peal.landed := rfl
@[simp] theorem State.setKeeps_peal_resumed (n : Nat) (l : List Keep) : (s.setKeeps n l).peal.resumed = s.peal.resumed := rfl
@[simp] theorem State.setKeeps_peal_regions (n : Nat) (l : List Keep) : (s.setKeeps n l).peal.regions = s.peal.regions := rfl
@[simp] theorem State.setKeeps_peal_udpPort (n : Nat) (l : List Keep) : (s.setKeeps n l).peal.udpPort = s.peal.udpPort := rfl
@[simp] theorem State.setKeeps_peal_parts (n : Nat) (l : List Keep) : (s.setKeeps n l).peal.parts = s.peal.parts := rfl
@[simp] theorem State.setKeeps_peal_rtoMin (n : Nat) (l : List Keep) : (s.setKeeps n l).peal.rtoMin = s.peal.rtoMin := rfl
@[simp] theorem State.setKeeps_peal_retxLimit (n : Nat) (l : List Keep) : (s.setKeeps n l).peal.retxLimit = s.peal.retxLimit := rfl
@[simp] theorem State.setKeeps_peal_ccTarget (n : Nat) (l : List Keep) : (s.setKeeps n l).peal.ccTarget = s.peal.ccTarget := rfl
@[simp] theorem State.setKeeps_peal_ccGain (n : Nat) (l : List Keep) : (s.setKeeps n l).peal.ccGain = s.peal.ccGain := rfl
@[simp] theorem State.setKeeps_peal_counters (n : Nat) (l : List Keep) : (s.setKeeps n l).peal.counters = s.peal.counters := rfl
@[simp] theorem State.setKeeps_peal_fenced (n : Nat) (l : List Keep) : (s.setKeeps n l).peal.fenced = s.peal.fenced := rfl
@[simp] theorem State.setKeeps_car (n : Nat) (l : List Keep) : (s.setKeeps n l).car = s.car := rfl
@[simp] theorem State.setKeeps_damper (n : Nat) (l : List Keep) : (s.setKeeps n l).damper = s.damper := rfl
@[simp] theorem State.setKeeps_sec (n : Nat) (l : List Keep) : (s.setKeeps n l).sec = s.sec := rfl
@[simp] theorem State.setKeeps_dict (n : Nat) (l : List Keep) : (s.setKeeps n l).dict = s.dict := rfl
@[simp] theorem State.setKeeps_fw (n : Nat) (l : List Keep) : (s.setKeeps n l).fw = s.fw := rfl
@[simp] theorem State.setKeeps_bist (n : Nat) (l : List Keep) : (s.setKeeps n l).bist = s.bist := rfl

/-! ### State.modInst -/

@[simp] theorem State.modInst_pending (o : BitVec 32) (g : BitVec 8) (f : Inst → Inst) : (s.modInst o g f).pending = s.pending := rfl
@[simp] theorem State.modInst_hub (o : BitVec 32) (g : BitVec 8) (f : Inst → Inst) : (s.modInst o g f).hub = s.hub := rfl
@[simp] theorem State.modInst_cores (o : BitVec 32) (g : BitVec 8) (f : Inst → Inst) : (s.modInst o g f).cores = s.cores := rfl
@[simp] theorem State.modInst_mem (o : BitVec 32) (g : BitVec 8) (f : Inst → Inst) : (s.modInst o g f).mem = s.mem := rfl
@[simp] theorem State.modInst_disp (o : BitVec 32) (g : BitVec 8) (f : Inst → Inst) : (s.modInst o g f).disp = s.disp := rfl
@[simp] theorem State.modInst_mq (o : BitVec 32) (g : BitVec 8) (f : Inst → Inst) : (s.modInst o g f).mq = s.mq := rfl
@[simp] theorem State.modInst_host (o : BitVec 32) (g : BitVec 8) (f : Inst → Inst) : (s.modInst o g f).host = s.host := rfl
@[simp] theorem State.modInst_eth (o : BitVec 32) (g : BitVec 8) (f : Inst → Inst) : (s.modInst o g f).eth = s.eth := rfl
@[simp] theorem State.modInst_peal_insts (o : BitVec 32) (g : BitVec 8) (f : Inst → Inst) : (s.modInst o g f).peal.insts = modFirst (fun i => i.desc.opid == o && i.desc.group == g) f s.peal.insts := rfl
@[simp] theorem State.modInst_peal_tx (o : BitVec 32) (g : BitVec 8) (f : Inst → Inst) : (s.modInst o g f).peal.tx = s.peal.tx := rfl
@[simp] theorem State.modInst_peal_rx (o : BitVec 32) (g : BitVec 8) (f : Inst → Inst) : (s.modInst o g f).peal.rx = s.peal.rx := rfl
@[simp] theorem State.modInst_peal_conns (o : BitVec 32) (g : BitVec 8) (f : Inst → Inst) : (s.modInst o g f).peal.conns = s.peal.conns := rfl
@[simp] theorem State.modInst_peal_keep (o : BitVec 32) (g : BitVec 8) (f : Inst → Inst) : (s.modInst o g f).peal.keep = s.peal.keep := rfl
@[simp] theorem State.modInst_peal_stepGen (o : BitVec 32) (g : BitVec 8) (f : Inst → Inst) : (s.modInst o g f).peal.stepGen = s.peal.stepGen := rfl
@[simp] theorem State.modInst_peal_cancelled (o : BitVec 32) (g : BitVec 8) (f : Inst → Inst) : (s.modInst o g f).peal.cancelled = s.peal.cancelled := rfl
@[simp] theorem State.modInst_peal_early (o : BitVec 32) (g : BitVec 8) (f : Inst → Inst) : (s.modInst o g f).peal.early = s.peal.early := rfl
@[simp] theorem State.modInst_peal_landed (o : BitVec 32) (g : BitVec 8) (f : Inst → Inst) : (s.modInst o g f).peal.landed = s.peal.landed := rfl
@[simp] theorem State.modInst_peal_resumed (o : BitVec 32) (g : BitVec 8) (f : Inst → Inst) : (s.modInst o g f).peal.resumed = s.peal.resumed := rfl
@[simp] theorem State.modInst_peal_regions (o : BitVec 32) (g : BitVec 8) (f : Inst → Inst) : (s.modInst o g f).peal.regions = s.peal.regions := rfl
@[simp] theorem State.modInst_peal_udpPort (o : BitVec 32) (g : BitVec 8) (f : Inst → Inst) : (s.modInst o g f).peal.udpPort = s.peal.udpPort := rfl
@[simp] theorem State.modInst_peal_parts (o : BitVec 32) (g : BitVec 8) (f : Inst → Inst) : (s.modInst o g f).peal.parts = s.peal.parts := rfl
@[simp] theorem State.modInst_peal_rtoMin (o : BitVec 32) (g : BitVec 8) (f : Inst → Inst) : (s.modInst o g f).peal.rtoMin = s.peal.rtoMin := rfl
@[simp] theorem State.modInst_peal_retxLimit (o : BitVec 32) (g : BitVec 8) (f : Inst → Inst) : (s.modInst o g f).peal.retxLimit = s.peal.retxLimit := rfl
@[simp] theorem State.modInst_peal_ccTarget (o : BitVec 32) (g : BitVec 8) (f : Inst → Inst) : (s.modInst o g f).peal.ccTarget = s.peal.ccTarget := rfl
@[simp] theorem State.modInst_peal_ccGain (o : BitVec 32) (g : BitVec 8) (f : Inst → Inst) : (s.modInst o g f).peal.ccGain = s.peal.ccGain := rfl
@[simp] theorem State.modInst_peal_counters (o : BitVec 32) (g : BitVec 8) (f : Inst → Inst) : (s.modInst o g f).peal.counters = s.peal.counters := rfl
@[simp] theorem State.modInst_peal_fenced (o : BitVec 32) (g : BitVec 8) (f : Inst → Inst) : (s.modInst o g f).peal.fenced = s.peal.fenced := rfl
@[simp] theorem State.modInst_car (o : BitVec 32) (g : BitVec 8) (f : Inst → Inst) : (s.modInst o g f).car = s.car := rfl
@[simp] theorem State.modInst_damper (o : BitVec 32) (g : BitVec 8) (f : Inst → Inst) : (s.modInst o g f).damper = s.damper := rfl
@[simp] theorem State.modInst_sec (o : BitVec 32) (g : BitVec 8) (f : Inst → Inst) : (s.modInst o g f).sec = s.sec := rfl
@[simp] theorem State.modInst_dict (o : BitVec 32) (g : BitVec 8) (f : Inst → Inst) : (s.modInst o g f).dict = s.dict := rfl
@[simp] theorem State.modInst_fw (o : BitVec 32) (g : BitVec 8) (f : Inst → Inst) : (s.modInst o g f).fw = s.fw := rfl
@[simp] theorem State.modInst_bist (o : BitVec 32) (g : BitVec 8) (f : Inst → Inst) : (s.modInst o g f).bist = s.bist := rfl

/-! ### State.dropWaiters -/

@[simp] theorem State.dropWaiters_pending (uid : Nat) : (s.dropWaiters uid).pending = s.pending := rfl
@[simp] theorem State.dropWaiters_hub (uid : Nat) : (s.dropWaiters uid).hub = s.hub := rfl
@[simp] theorem State.dropWaiters_cores (uid : Nat) : (s.dropWaiters uid).cores = s.cores := rfl
@[simp] theorem State.dropWaiters_mem (uid : Nat) : (s.dropWaiters uid).mem = s.mem := rfl
@[simp] theorem State.dropWaiters_disp (uid : Nat) : (s.dropWaiters uid).disp = s.disp := rfl
@[simp] theorem State.dropWaiters_mq (uid : Nat) : (s.dropWaiters uid).mq = s.mq := rfl
@[simp] theorem State.dropWaiters_host (uid : Nat) : (s.dropWaiters uid).host = s.host := rfl
@[simp] theorem State.dropWaiters_eth (uid : Nat) : (s.dropWaiters uid).eth = s.eth := rfl
@[simp] theorem State.dropWaiters_peal_insts (uid : Nat) : (s.dropWaiters uid).peal.insts = s.peal.insts.map fun i => if i.uid = uid then { i with waiters := [] } else i := rfl
@[simp] theorem State.dropWaiters_peal_tx (uid : Nat) : (s.dropWaiters uid).peal.tx = s.peal.tx := rfl
@[simp] theorem State.dropWaiters_peal_rx (uid : Nat) : (s.dropWaiters uid).peal.rx = s.peal.rx := rfl
@[simp] theorem State.dropWaiters_peal_conns (uid : Nat) : (s.dropWaiters uid).peal.conns = s.peal.conns := rfl
@[simp] theorem State.dropWaiters_peal_keep (uid : Nat) : (s.dropWaiters uid).peal.keep = s.peal.keep := rfl
@[simp] theorem State.dropWaiters_peal_stepGen (uid : Nat) : (s.dropWaiters uid).peal.stepGen = s.peal.stepGen := rfl
@[simp] theorem State.dropWaiters_peal_cancelled (uid : Nat) : (s.dropWaiters uid).peal.cancelled = s.peal.cancelled := rfl
@[simp] theorem State.dropWaiters_peal_early (uid : Nat) : (s.dropWaiters uid).peal.early = s.peal.early := rfl
@[simp] theorem State.dropWaiters_peal_landed (uid : Nat) : (s.dropWaiters uid).peal.landed = s.peal.landed := rfl
@[simp] theorem State.dropWaiters_peal_resumed (uid : Nat) : (s.dropWaiters uid).peal.resumed = s.peal.resumed := rfl
@[simp] theorem State.dropWaiters_peal_regions (uid : Nat) : (s.dropWaiters uid).peal.regions = s.peal.regions := rfl
@[simp] theorem State.dropWaiters_peal_udpPort (uid : Nat) : (s.dropWaiters uid).peal.udpPort = s.peal.udpPort := rfl
@[simp] theorem State.dropWaiters_peal_parts (uid : Nat) : (s.dropWaiters uid).peal.parts = s.peal.parts := rfl
@[simp] theorem State.dropWaiters_peal_rtoMin (uid : Nat) : (s.dropWaiters uid).peal.rtoMin = s.peal.rtoMin := rfl
@[simp] theorem State.dropWaiters_peal_retxLimit (uid : Nat) : (s.dropWaiters uid).peal.retxLimit = s.peal.retxLimit := rfl
@[simp] theorem State.dropWaiters_peal_ccTarget (uid : Nat) : (s.dropWaiters uid).peal.ccTarget = s.peal.ccTarget := rfl
@[simp] theorem State.dropWaiters_peal_ccGain (uid : Nat) : (s.dropWaiters uid).peal.ccGain = s.peal.ccGain := rfl
@[simp] theorem State.dropWaiters_peal_counters (uid : Nat) : (s.dropWaiters uid).peal.counters = s.peal.counters := rfl
@[simp] theorem State.dropWaiters_peal_fenced (uid : Nat) : (s.dropWaiters uid).peal.fenced = s.peal.fenced := rfl
@[simp] theorem State.dropWaiters_car (uid : Nat) : (s.dropWaiters uid).car = s.car := rfl
@[simp] theorem State.dropWaiters_damper (uid : Nat) : (s.dropWaiters uid).damper = s.damper := rfl
@[simp] theorem State.dropWaiters_sec (uid : Nat) : (s.dropWaiters uid).sec = s.sec := rfl
@[simp] theorem State.dropWaiters_dict (uid : Nat) : (s.dropWaiters uid).dict = s.dict := rfl
@[simp] theorem State.dropWaiters_fw (uid : Nat) : (s.dropWaiters uid).fw = s.fw := rfl
@[simp] theorem State.dropWaiters_bist (uid : Nat) : (s.dropWaiters uid).bist = s.bist := rfl

/-! ### State.modStream -/

@[simp] theorem State.modStream_pending (r k : Nat) (f : TxStream → TxStream) : (s.modStream r k f).pending = s.pending := rfl
@[simp] theorem State.modStream_hub (r k : Nat) (f : TxStream → TxStream) : (s.modStream r k f).hub = s.hub := rfl
@[simp] theorem State.modStream_cores (r k : Nat) (f : TxStream → TxStream) : (s.modStream r k f).cores = s.cores := rfl
@[simp] theorem State.modStream_mem (r k : Nat) (f : TxStream → TxStream) : (s.modStream r k f).mem = s.mem := rfl
@[simp] theorem State.modStream_disp (r k : Nat) (f : TxStream → TxStream) : (s.modStream r k f).disp = s.disp := rfl
@[simp] theorem State.modStream_mq (r k : Nat) (f : TxStream → TxStream) : (s.modStream r k f).mq = s.mq := rfl
@[simp] theorem State.modStream_host (r k : Nat) (f : TxStream → TxStream) : (s.modStream r k f).host = s.host := rfl
@[simp] theorem State.modStream_eth (r k : Nat) (f : TxStream → TxStream) : (s.modStream r k f).eth = s.eth := rfl
@[simp] theorem State.modStream_peal_insts (r k : Nat) (f : TxStream → TxStream) : (s.modStream r k f).peal.insts = s.peal.insts := rfl
@[simp] theorem State.modStream_peal_tx (r k : Nat) (f : TxStream → TxStream) : (s.modStream r k f).peal.tx = modFirst (fun t => t.rank == r && t.stream == k) f s.peal.tx := rfl
@[simp] theorem State.modStream_peal_rx (r k : Nat) (f : TxStream → TxStream) : (s.modStream r k f).peal.rx = s.peal.rx := rfl
@[simp] theorem State.modStream_peal_conns (r k : Nat) (f : TxStream → TxStream) : (s.modStream r k f).peal.conns = s.peal.conns := rfl
@[simp] theorem State.modStream_peal_keep (r k : Nat) (f : TxStream → TxStream) : (s.modStream r k f).peal.keep = s.peal.keep := rfl
@[simp] theorem State.modStream_peal_stepGen (r k : Nat) (f : TxStream → TxStream) : (s.modStream r k f).peal.stepGen = s.peal.stepGen := rfl
@[simp] theorem State.modStream_peal_cancelled (r k : Nat) (f : TxStream → TxStream) : (s.modStream r k f).peal.cancelled = s.peal.cancelled := rfl
@[simp] theorem State.modStream_peal_early (r k : Nat) (f : TxStream → TxStream) : (s.modStream r k f).peal.early = s.peal.early := rfl
@[simp] theorem State.modStream_peal_landed (r k : Nat) (f : TxStream → TxStream) : (s.modStream r k f).peal.landed = s.peal.landed := rfl
@[simp] theorem State.modStream_peal_resumed (r k : Nat) (f : TxStream → TxStream) : (s.modStream r k f).peal.resumed = s.peal.resumed := rfl
@[simp] theorem State.modStream_peal_regions (r k : Nat) (f : TxStream → TxStream) : (s.modStream r k f).peal.regions = s.peal.regions := rfl
@[simp] theorem State.modStream_peal_udpPort (r k : Nat) (f : TxStream → TxStream) : (s.modStream r k f).peal.udpPort = s.peal.udpPort := rfl
@[simp] theorem State.modStream_peal_parts (r k : Nat) (f : TxStream → TxStream) : (s.modStream r k f).peal.parts = s.peal.parts := rfl
@[simp] theorem State.modStream_peal_rtoMin (r k : Nat) (f : TxStream → TxStream) : (s.modStream r k f).peal.rtoMin = s.peal.rtoMin := rfl
@[simp] theorem State.modStream_peal_retxLimit (r k : Nat) (f : TxStream → TxStream) : (s.modStream r k f).peal.retxLimit = s.peal.retxLimit := rfl
@[simp] theorem State.modStream_peal_ccTarget (r k : Nat) (f : TxStream → TxStream) : (s.modStream r k f).peal.ccTarget = s.peal.ccTarget := rfl
@[simp] theorem State.modStream_peal_ccGain (r k : Nat) (f : TxStream → TxStream) : (s.modStream r k f).peal.ccGain = s.peal.ccGain := rfl
@[simp] theorem State.modStream_peal_counters (r k : Nat) (f : TxStream → TxStream) : (s.modStream r k f).peal.counters = s.peal.counters := rfl
@[simp] theorem State.modStream_peal_fenced (r k : Nat) (f : TxStream → TxStream) : (s.modStream r k f).peal.fenced = s.peal.fenced := rfl
@[simp] theorem State.modStream_car (r k : Nat) (f : TxStream → TxStream) : (s.modStream r k f).car = s.car := rfl
@[simp] theorem State.modStream_damper (r k : Nat) (f : TxStream → TxStream) : (s.modStream r k f).damper = s.damper := rfl
@[simp] theorem State.modStream_sec (r k : Nat) (f : TxStream → TxStream) : (s.modStream r k f).sec = s.sec := rfl
@[simp] theorem State.modStream_dict (r k : Nat) (f : TxStream → TxStream) : (s.modStream r k f).dict = s.dict := rfl
@[simp] theorem State.modStream_fw (r k : Nat) (f : TxStream → TxStream) : (s.modStream r k f).fw = s.fw := rfl
@[simp] theorem State.modStream_bist (r k : Nat) (f : TxStream → TxStream) : (s.modStream r k f).bist = s.bist := rfl

/-! ### State.modRx -/

@[simp] theorem State.modRx_pending (r k : Nat) (f : RxStream → RxStream) : (s.modRx r k f).pending = s.pending := rfl
@[simp] theorem State.modRx_hub (r k : Nat) (f : RxStream → RxStream) : (s.modRx r k f).hub = s.hub := rfl
@[simp] theorem State.modRx_cores (r k : Nat) (f : RxStream → RxStream) : (s.modRx r k f).cores = s.cores := rfl
@[simp] theorem State.modRx_mem (r k : Nat) (f : RxStream → RxStream) : (s.modRx r k f).mem = s.mem := rfl
@[simp] theorem State.modRx_disp (r k : Nat) (f : RxStream → RxStream) : (s.modRx r k f).disp = s.disp := rfl
@[simp] theorem State.modRx_mq (r k : Nat) (f : RxStream → RxStream) : (s.modRx r k f).mq = s.mq := rfl
@[simp] theorem State.modRx_host (r k : Nat) (f : RxStream → RxStream) : (s.modRx r k f).host = s.host := rfl
@[simp] theorem State.modRx_eth (r k : Nat) (f : RxStream → RxStream) : (s.modRx r k f).eth = s.eth := rfl
@[simp] theorem State.modRx_peal_insts (r k : Nat) (f : RxStream → RxStream) : (s.modRx r k f).peal.insts = s.peal.insts := rfl
@[simp] theorem State.modRx_peal_tx (r k : Nat) (f : RxStream → RxStream) : (s.modRx r k f).peal.tx = s.peal.tx := rfl
@[simp] theorem State.modRx_peal_rx (r k : Nat) (f : RxStream → RxStream) : (s.modRx r k f).peal.rx = modFirst (fun t => t.rank == r && t.stream == k) f s.peal.rx := rfl
@[simp] theorem State.modRx_peal_conns (r k : Nat) (f : RxStream → RxStream) : (s.modRx r k f).peal.conns = s.peal.conns := rfl
@[simp] theorem State.modRx_peal_keep (r k : Nat) (f : RxStream → RxStream) : (s.modRx r k f).peal.keep = s.peal.keep := rfl
@[simp] theorem State.modRx_peal_stepGen (r k : Nat) (f : RxStream → RxStream) : (s.modRx r k f).peal.stepGen = s.peal.stepGen := rfl
@[simp] theorem State.modRx_peal_cancelled (r k : Nat) (f : RxStream → RxStream) : (s.modRx r k f).peal.cancelled = s.peal.cancelled := rfl
@[simp] theorem State.modRx_peal_early (r k : Nat) (f : RxStream → RxStream) : (s.modRx r k f).peal.early = s.peal.early := rfl
@[simp] theorem State.modRx_peal_landed (r k : Nat) (f : RxStream → RxStream) : (s.modRx r k f).peal.landed = s.peal.landed := rfl
@[simp] theorem State.modRx_peal_resumed (r k : Nat) (f : RxStream → RxStream) : (s.modRx r k f).peal.resumed = s.peal.resumed := rfl
@[simp] theorem State.modRx_peal_regions (r k : Nat) (f : RxStream → RxStream) : (s.modRx r k f).peal.regions = s.peal.regions := rfl
@[simp] theorem State.modRx_peal_udpPort (r k : Nat) (f : RxStream → RxStream) : (s.modRx r k f).peal.udpPort = s.peal.udpPort := rfl
@[simp] theorem State.modRx_peal_parts (r k : Nat) (f : RxStream → RxStream) : (s.modRx r k f).peal.parts = s.peal.parts := rfl
@[simp] theorem State.modRx_peal_rtoMin (r k : Nat) (f : RxStream → RxStream) : (s.modRx r k f).peal.rtoMin = s.peal.rtoMin := rfl
@[simp] theorem State.modRx_peal_retxLimit (r k : Nat) (f : RxStream → RxStream) : (s.modRx r k f).peal.retxLimit = s.peal.retxLimit := rfl
@[simp] theorem State.modRx_peal_ccTarget (r k : Nat) (f : RxStream → RxStream) : (s.modRx r k f).peal.ccTarget = s.peal.ccTarget := rfl
@[simp] theorem State.modRx_peal_ccGain (r k : Nat) (f : RxStream → RxStream) : (s.modRx r k f).peal.ccGain = s.peal.ccGain := rfl
@[simp] theorem State.modRx_peal_counters (r k : Nat) (f : RxStream → RxStream) : (s.modRx r k f).peal.counters = s.peal.counters := rfl
@[simp] theorem State.modRx_peal_fenced (r k : Nat) (f : RxStream → RxStream) : (s.modRx r k f).peal.fenced = s.peal.fenced := rfl
@[simp] theorem State.modRx_car (r k : Nat) (f : RxStream → RxStream) : (s.modRx r k f).car = s.car := rfl
@[simp] theorem State.modRx_damper (r k : Nat) (f : RxStream → RxStream) : (s.modRx r k f).damper = s.damper := rfl
@[simp] theorem State.modRx_sec (r k : Nat) (f : RxStream → RxStream) : (s.modRx r k f).sec = s.sec := rfl
@[simp] theorem State.modRx_dict (r k : Nat) (f : RxStream → RxStream) : (s.modRx r k f).dict = s.dict := rfl
@[simp] theorem State.modRx_fw (r k : Nat) (f : RxStream → RxStream) : (s.modRx r k f).fw = s.fw := rfl
@[simp] theorem State.modRx_bist (r k : Nat) (f : RxStream → RxStream) : (s.modRx r k f).bist = s.bist := rfl

/-! ### State.gcount -/

@[simp] theorem State.gcount_pending (k : Nat) : (s.gcount k).pending = s.pending := rfl
@[simp] theorem State.gcount_hub (k : Nat) : (s.gcount k).hub = s.hub := rfl
@[simp] theorem State.gcount_cores (k : Nat) : (s.gcount k).cores = s.cores := rfl
@[simp] theorem State.gcount_mem (k : Nat) : (s.gcount k).mem = s.mem := rfl
@[simp] theorem State.gcount_disp (k : Nat) : (s.gcount k).disp = s.disp := rfl
@[simp] theorem State.gcount_mq (k : Nat) : (s.gcount k).mq = s.mq := rfl
@[simp] theorem State.gcount_host (k : Nat) : (s.gcount k).host = s.host := rfl
@[simp] theorem State.gcount_eth (k : Nat) : (s.gcount k).eth = s.eth := rfl
@[simp] theorem State.gcount_peal_insts (k : Nat) : (s.gcount k).peal.insts = s.peal.insts := rfl
@[simp] theorem State.gcount_peal_tx (k : Nat) : (s.gcount k).peal.tx = s.peal.tx := rfl
@[simp] theorem State.gcount_peal_rx (k : Nat) : (s.gcount k).peal.rx = s.peal.rx := rfl
@[simp] theorem State.gcount_peal_conns (k : Nat) : (s.gcount k).peal.conns = s.peal.conns := rfl
@[simp] theorem State.gcount_peal_keep (k : Nat) : (s.gcount k).peal.keep = s.peal.keep := rfl
@[simp] theorem State.gcount_peal_stepGen (k : Nat) : (s.gcount k).peal.stepGen = s.peal.stepGen := rfl
@[simp] theorem State.gcount_peal_cancelled (k : Nat) : (s.gcount k).peal.cancelled = s.peal.cancelled := rfl
@[simp] theorem State.gcount_peal_early (k : Nat) : (s.gcount k).peal.early = s.peal.early := rfl
@[simp] theorem State.gcount_peal_landed (k : Nat) : (s.gcount k).peal.landed = s.peal.landed := rfl
@[simp] theorem State.gcount_peal_resumed (k : Nat) : (s.gcount k).peal.resumed = s.peal.resumed := rfl
@[simp] theorem State.gcount_peal_regions (k : Nat) : (s.gcount k).peal.regions = s.peal.regions := rfl
@[simp] theorem State.gcount_peal_udpPort (k : Nat) : (s.gcount k).peal.udpPort = s.peal.udpPort := rfl
@[simp] theorem State.gcount_peal_parts (k : Nat) : (s.gcount k).peal.parts = s.peal.parts := rfl
@[simp] theorem State.gcount_peal_rtoMin (k : Nat) : (s.gcount k).peal.rtoMin = s.peal.rtoMin := rfl
@[simp] theorem State.gcount_peal_retxLimit (k : Nat) : (s.gcount k).peal.retxLimit = s.peal.retxLimit := rfl
@[simp] theorem State.gcount_peal_ccTarget (k : Nat) : (s.gcount k).peal.ccTarget = s.peal.ccTarget := rfl
@[simp] theorem State.gcount_peal_ccGain (k : Nat) : (s.gcount k).peal.ccGain = s.peal.ccGain := rfl
@[simp] theorem State.gcount_peal_counters (k : Nat) : (s.gcount k).peal.counters = smod 0 s.peal.counters k (satAdd 64 · 1) := rfl
@[simp] theorem State.gcount_peal_fenced (k : Nat) : (s.gcount k).peal.fenced = s.peal.fenced := rfl
@[simp] theorem State.gcount_car (k : Nat) : (s.gcount k).car = s.car := rfl
@[simp] theorem State.gcount_damper (k : Nat) : (s.gcount k).damper = s.damper := rfl
@[simp] theorem State.gcount_sec (k : Nat) : (s.gcount k).sec = s.sec := rfl
@[simp] theorem State.gcount_dict (k : Nat) : (s.gcount k).dict = s.dict := rfl
@[simp] theorem State.gcount_fw (k : Nat) : (s.gcount k).fw = s.fw := rfl
@[simp] theorem State.gcount_bist (k : Nat) : (s.gcount k).bist = s.bist := rfl

/-! ### State.setRank -/

@[simp] theorem State.setRank_pending (r : Nat) (e : RankEntry) : (s.setRank r e).pending = s.pending := rfl
@[simp] theorem State.setRank_hub (r : Nat) (e : RankEntry) : (s.setRank r e).hub = s.hub := rfl
@[simp] theorem State.setRank_cores (r : Nat) (e : RankEntry) : (s.setRank r e).cores = s.cores := rfl
@[simp] theorem State.setRank_mem (r : Nat) (e : RankEntry) : (s.setRank r e).mem = s.mem := rfl
@[simp] theorem State.setRank_disp (r : Nat) (e : RankEntry) : (s.setRank r e).disp = s.disp := rfl
@[simp] theorem State.setRank_mq (r : Nat) (e : RankEntry) : (s.setRank r e).mq = s.mq := rfl
@[simp] theorem State.setRank_host (r : Nat) (e : RankEntry) : (s.setRank r e).host = s.host := rfl
@[simp] theorem State.setRank_eth (r : Nat) (e : RankEntry) : (s.setRank r e).eth = s.eth := rfl
@[simp] theorem State.setRank_peal (r : Nat) (e : RankEntry) : (s.setRank r e).peal = s.peal := rfl
@[simp] theorem State.setRank_car_en (r : Nat) (e : RankEntry) : (s.setRank r e).car.en = s.car.en := rfl
@[simp] theorem State.setRank_car_ownRank (r : Nat) (e : RankEntry) : (s.setRank r e).car.ownRank = s.car.ownRank := rfl
@[simp] theorem State.setRank_car_ownInc (r : Nat) (e : RankEntry) : (s.setRank r e).car.ownInc = s.car.ownInc := rfl
@[simp] theorem State.setRank_car_st (r : Nat) (e : RankEntry) : (s.setRank r e).car.st = s.car.st := rfl
@[simp] theorem State.setRank_car_axis (r : Nat) (e : RankEntry) : (s.setRank r e).car.axis = s.car.axis := rfl
@[simp] theorem State.setRank_car_activeRanks (r : Nat) (e : RankEntry) : (s.setRank r e).car.activeRanks = s.car.activeRanks := rfl
@[simp] theorem State.setRank_car_ranks (r : Nat) (e : RankEntry) : (s.setRank r e).car.ranks = sset RankEntry.reset s.car.ranks r e := rfl
@[simp] theorem State.setRank_car_limit (r : Nat) (e : RankEntry) : (s.setRank r e).car.limit = s.car.limit := rfl
@[simp] theorem State.setRank_car_takeover (r : Nat) (e : RankEntry) : (s.setRank r e).car.takeover = s.car.takeover := rfl
@[simp] theorem State.setRank_car_fresh (r : Nat) (e : RankEntry) : (s.setRank r e).car.fresh = s.car.fresh := rfl
@[simp] theorem State.setRank_car_period (r : Nat) (e : RankEntry) : (s.setRank r e).car.period = s.car.period := rfl
@[simp] theorem State.setRank_car_miss (r : Nat) (e : RankEntry) : (s.setRank r e).car.miss = s.car.miss := rfl
@[simp] theorem State.setRank_car_tollSeq (r : Nat) (e : RankEntry) : (s.setRank r e).car.tollSeq = s.car.tollSeq := rfl
@[simp] theorem State.setRank_car_lastToll (r : Nat) (e : RankEntry) : (s.setRank r e).car.lastToll = s.car.lastToll := rfl
@[simp] theorem State.setRank_car_silent (r : Nat) (e : RankEntry) : (s.setRank r e).car.silent = s.car.silent := rfl
@[simp] theorem State.setRank_car_stale (r : Nat) (e : RankEntry) : (s.setRank r e).car.stale = s.car.stale := rfl
@[simp] theorem State.setRank_car_nextToll (r : Nat) (e : RankEntry) : (s.setRank r e).car.nextToll = s.car.nextToll := rfl
@[simp] theorem State.setRank_car_unreset (r : Nat) (e : RankEntry) : (s.setRank r e).car.unreset = s.car.unreset := rfl
@[simp] theorem State.setRank_car_fencedToll (r : Nat) (e : RankEntry) : (s.setRank r e).car.fencedToll = s.car.fencedToll := rfl
@[simp] theorem State.setRank_car_slackSum (r : Nat) (e : RankEntry) : (s.setRank r e).car.slackSum = s.car.slackSum := rfl
@[simp] theorem State.setRank_car_slackN (r : Nat) (e : RankEntry) : (s.setRank r e).car.slackN = s.car.slackN := rfl
@[simp] theorem State.setRank_damper (r : Nat) (e : RankEntry) : (s.setRank r e).damper = s.damper := rfl
@[simp] theorem State.setRank_sec (r : Nat) (e : RankEntry) : (s.setRank r e).sec = s.sec := rfl
@[simp] theorem State.setRank_dict (r : Nat) (e : RankEntry) : (s.setRank r e).dict = s.dict := rfl
@[simp] theorem State.setRank_fw (r : Nat) (e : RankEntry) : (s.setRank r e).fw = s.fw := rfl
@[simp] theorem State.setRank_bist (r : Nat) (e : RankEntry) : (s.setRank r e).bist = s.bist := rfl

/-! ### State.vcount -/

@[simp] theorem State.vcount_pending (k j : Nat) : (s.vcount k j).pending = s.pending := rfl
@[simp] theorem State.vcount_hub (k j : Nat) : (s.vcount k j).hub = s.hub := rfl
@[simp] theorem State.vcount_cores (k j : Nat) : (s.vcount k j).cores = s.cores := rfl
@[simp] theorem State.vcount_mem (k j : Nat) : (s.vcount k j).mem = s.mem := rfl
@[simp] theorem State.vcount_disp (k j : Nat) : (s.vcount k j).disp = s.disp := rfl
@[simp] theorem State.vcount_mq (k j : Nat) : (s.vcount k j).mq = s.mq := rfl
@[simp] theorem State.vcount_host (k j : Nat) : (s.vcount k j).host = s.host := rfl
@[simp] theorem State.vcount_eth (k j : Nat) : (s.vcount k j).eth = s.eth := rfl
@[simp] theorem State.vcount_peal (k j : Nat) : (s.vcount k j).peal = s.peal := rfl
@[simp] theorem State.vcount_car (k j : Nat) : (s.vcount k j).car = s.car := rfl
@[simp] theorem State.vcount_damper (k j : Nat) : (s.vcount k j).damper = s.damper := rfl
@[simp] theorem State.vcount_sec (k j : Nat) : (s.vcount k j).sec = s.sec := rfl
@[simp] theorem State.vcount_dict_chans (k j : Nat) : (s.vcount k j).dict.chans = s.dict.chans := rfl
@[simp] theorem State.vcount_dict_waiting (k j : Nat) : (s.vcount k j).dict.waiting = s.dict.waiting := rfl
@[simp] theorem State.vcount_dict_counters (k j : Nat) : (s.vcount k j).dict.counters = if j = 0 then s.dict.counters else smod 0 s.dict.counters (256 * k + j) (satAdd 64 · 1) := rfl
@[simp] theorem State.vcount_dict_eids (k j : Nat) : (s.vcount k j).dict.eids = s.dict.eids := rfl
@[simp] theorem State.vcount_dict_i3cAddr (k j : Nat) : (s.vcount k j).dict.i3cAddr = s.dict.i3cAddr := rfl
@[simp] theorem State.vcount_fw (k j : Nat) : (s.vcount k j).fw = s.fw := rfl
@[simp] theorem State.vcount_bist (k j : Nat) : (s.vcount k j).bist = s.bist := rfl

/-! ### State.dropWait -/

@[simp] theorem State.dropWait_pending (ch : Channel) : (s.dropWait ch).pending = s.pending := rfl
@[simp] theorem State.dropWait_hub (ch : Channel) : (s.dropWait ch).hub = s.hub := rfl
@[simp] theorem State.dropWait_cores (ch : Channel) : (s.dropWait ch).cores = s.cores := rfl
@[simp] theorem State.dropWait_mem (ch : Channel) : (s.dropWait ch).mem = s.mem := rfl
@[simp] theorem State.dropWait_disp (ch : Channel) : (s.dropWait ch).disp = s.disp := rfl
@[simp] theorem State.dropWait_mq (ch : Channel) : (s.dropWait ch).mq = s.mq := rfl
@[simp] theorem State.dropWait_host (ch : Channel) : (s.dropWait ch).host = s.host := rfl
@[simp] theorem State.dropWait_eth (ch : Channel) : (s.dropWait ch).eth = s.eth := rfl
@[simp] theorem State.dropWait_peal (ch : Channel) : (s.dropWait ch).peal = s.peal := rfl
@[simp] theorem State.dropWait_car (ch : Channel) : (s.dropWait ch).car = s.car := rfl
@[simp] theorem State.dropWait_damper (ch : Channel) : (s.dropWait ch).damper = s.damper := rfl
@[simp] theorem State.dropWait_sec (ch : Channel) : (s.dropWait ch).sec = s.sec := rfl
@[simp] theorem State.dropWait_dict_chans (ch : Channel) : (s.dropWait ch).dict.chans = s.dict.chans := rfl
@[simp] theorem State.dropWait_dict_waiting (ch : Channel) : (s.dropWait ch).dict.waiting = delFirst (fun w => w.ch == ch) s.dict.waiting := rfl
@[simp] theorem State.dropWait_dict_counters (ch : Channel) : (s.dropWait ch).dict.counters = s.dict.counters := rfl
@[simp] theorem State.dropWait_dict_eids (ch : Channel) : (s.dropWait ch).dict.eids = s.dict.eids := rfl
@[simp] theorem State.dropWait_dict_i3cAddr (ch : Channel) : (s.dropWait ch).dict.i3cAddr = s.dict.i3cAddr := rfl
@[simp] theorem State.dropWait_fw (ch : Channel) : (s.dropWait ch).fw = s.fw := rfl
@[simp] theorem State.dropWait_bist (ch : Channel) : (s.dropWait ch).bist = s.bist := rfl

end Sys2Proof.Machine
end

