-- ==== Sys2Proof/Laws/Memory.lean ====
section
/-! SUPPORT. Device memory: the canonical form that every memory operation keeps, and what a write leaves of the other bytes and of the rest of
the state. -/

namespace Sys2Proof.Machine

@[simp] theorem Mem.reset_wf : Memory.wf Mem.reset = true := by decide

theorem State.reset_mem_wf : Memory.wf State.reset.mem = true := Mem.reset_wf

theorem Memory.wf_of_bytes {m n : Mem} (h : Memory.wf m = true) (e : n.bytes = m.bytes) : Memory.wf n = true := by
  unfold Memory.wf at h ⊢
  rw [e]
  exact h

/-! ### What a packet posted to a queue may change (R222, R228) -/

/-- Packets have been posted, or the ports of queues looked at, from s to t: besides the message queues only the trace, the free values drawn,
the counter of discarded requests and the functions' vectors may have changed, the last three where a queue reset itself. -/
structure State.QueueStep (s t : State) : Prop where
  pending : t.pending = s.pending
  hub     : t.hub = { s.hub with out := t.hub.out, free := t.hub.free }
  cores   : t.cores = s.cores
  mem     : t.mem = s.mem
  disp    : t.disp = s.disp
  host    : t.host = { s.host with fns := t.host.fns }
  eth     : t.eth = s.eth
  peal    : t.peal = s.peal
  car     : t.car = s.car
  damper  : t.damper = s.damper
  sec     : t.sec = s.sec
  dict    : t.dict = { s.dict with counters := t.dict.counters }
  fw      : t.fw = s.fw
  bist    : t.bist = s.bist

theorem State.QueueStep.refl (s : State) : s.QueueStep s := by constructor <;> rfl

theorem State.QueueStep.trans {s t u : State} (h : s.QueueStep t) (k : t.QueueStep u) : s.QueueStep u where
  pending := k.pending.trans h.pending
  hub := by rw [k.hub, h.hub]
  cores := k.cores.trans h.cores
  mem := k.mem.trans h.mem
  disp := k.disp.trans h.disp
  host := by rw [k.host, h.host]
  eth := k.eth.trans h.eth
  peal := k.peal.trans h.peal
  car := k.car.trans h.car
  damper := k.damper.trans h.damper
  sec := k.sec.trans h.sec
  dict := by rw [k.dict, h.dict]
  fw := k.fw.trans h.fw
  bist := k.bist.trans h.bist

theorem State.setQueue_queueStep (s : State) (q : Nat) (m : MsgQueue) : s.QueueStep (s.setQueue q m) := by constructor <;> rfl
theorem State.settlePorts_queueStep (s : State) (q : Nat) : s.QueueStep (s.settlePorts q) := s.setQueue_queueStep q _
theorem State.putPacket_queueStep (s : State) (q : Nat) (w : List W64) (u : Nat) : s.QueueStep (s.putPacket q w u) := s.setQueue_queueStep q _

theorem State.notePoisoned_queueStep (s : State) (q : Nat) (b : Bool) : s.QueueStep (s.notePoisoned q b) := by
  unfold State.notePoisoned
  split
  · constructor <;> rfl
  · exact .refl s

theorem State.cutWord_queueStep (s : State) (q : Nat) : s.QueueStep (s.cutWord q) := by
  unfold State.cutWord
  refine State.QueueStep.trans ?_ (State.notePoisoned_queueStep _ _ _)
  constructor <;> rfl

theorem State.resetPorts_queueStep (s : State) (q : Nat) : s.QueueStep (s.resetPorts q) := by
  unfold State.resetPorts
  dsimp only
  refine State.QueueStep.trans ?_ ((State.setQueue_queueStep _ _ _).trans (State.settlePorts_queueStep _ _))
  split
  · exact s.cutWord_queueStep q
  · exact .refl s

theorem State.msix_queueStep (s : State) (f v : Nat) : s.QueueStep (s.msix f v) := by
  unfold State.msix
  dsimp only
  split_ifs <;> constructor <;> rfl

theorem State.noteFaultReset_queueStep (s : State) : s.QueueStep { s with mq := { s.mq with faultqReset := true } } := by constructor <;> rfl

theorem State.resetFaultQueue_queueStep (s : State) : s.QueueStep s.resetFaultQueue :=
  ((s.resetPorts_queueStep qidFault).trans (State.noteFaultReset_queueStep _)).trans (State.msix_queueStep _ 0 0)

theorem State.resetQueue_queueStep (s : State) (q : Nat) : s.QueueStep (s.resetQueue q) := by
  unfold State.resetQueue
  split
  · exact s.resetFaultQueue_queueStep
  · dsimp only
    have h : ∀ t : State, t.QueueStep (if (t.mqueue qidFault).mismatch then t.resetFaultQueue else t) := fun t => by
      split
      · exact t.resetFaultQueue_queueStep
      · exact .refl t
    have k := fun w => ((s.resetPorts_queueStep q).trans (h _)).trans (State.putPacket_queueStep _ qidFault w unitQueues)
    split
    · exact (k _).trans (State.putPacket_queueStep _ _ _ _)
    · exact k _

theorem State.checkPointers_queueStep (s : State) (q : Nat) : s.QueueStep (s.checkPointers q) := by
  unfold State.checkPointers
  split
  · exact s.resetQueue_queueStep q
  · exact .refl s

theorem State.loseBegun_queueStep (s : State) (q : Nat) : s.QueueStep (s.loseBegun q) :=
  (s.setQueue_queueStep q _).trans (State.resetQueue_queueStep _ _)

theorem State.post_queueStep (s : State) (q : Nat) (w : List W64) (u : Nat) : s.QueueStep (s.post q w u) := by
  unfold State.post
  split
  · exact s.loseBegun_queueStep q
  · exact s.putPacket_queueStep q w u

theorem State.settleQueue_queueStep (s : State) (q : Nat) : s.QueueStep (s.settleQueue q) :=
  (s.checkPointers_queueStep q).trans (State.settlePorts_queueStep _ q)

theorem State.applyFlush_queueStep (s : State) (q : Nat) : s.QueueStep (s.applyFlush q) := by
  unfold State.applyFlush
  dsimp only
  split
  · exact s.settleQueue_queueStep q
  · exact .refl s

theorem State.flushQueue_queueStep (s : State) (q : Nat) : s.QueueStep (s.flushQueue q) :=
  (s.setQueue_queueStep q _).trans (State.applyFlush_queueStep _ q)

theorem State.statusEvent_queueStep (s : State) (q k : Nat) (st : BitVec 16) (p : Option Nat) (cq : Option (Nat × Nat)) (w u : Nat) :
    s.QueueStep (s.statusEvent q k st p cq w u) := s.post_queueStep q _ u

theorem State.eccEvent_queueStep (s : State) (pa : Nat) : s.QueueStep (s.eccEvent pa) := by
  unfold State.eccEvent
  dsimp only
  split <;> exact s.statusEvent_queueStep ..

@[simp] theorem State.post_pending (s : State) (q : Nat) (w : List W64) (u : Nat) : (s.post q w u).pending = s.pending := (s.post_queueStep q w u).pending
@[simp] theorem State.post_cores (s : State) (q : Nat) (w : List W64) (u : Nat) : (s.post q w u).cores = s.cores := (s.post_queueStep q w u).cores
@[simp] theorem State.post_mem (s : State) (q : Nat) (w : List W64) (u : Nat) : (s.post q w u).mem = s.mem := (s.post_queueStep q w u).mem
@[simp] theorem State.post_disp (s : State) (q : Nat) (w : List W64) (u : Nat) : (s.post q w u).disp = s.disp := (s.post_queueStep q w u).disp
@[simp] theorem State.post_eth (s : State) (q : Nat) (w : List W64) (u : Nat) : (s.post q w u).eth = s.eth := (s.post_queueStep q w u).eth
@[simp] theorem State.post_peal (s : State) (q : Nat) (w : List W64) (u : Nat) : (s.post q w u).peal = s.peal := (s.post_queueStep q w u).peal
@[simp] theorem State.post_car (s : State) (q : Nat) (w : List W64) (u : Nat) : (s.post q w u).car = s.car := (s.post_queueStep q w u).car
@[simp] theorem State.post_damper (s : State) (q : Nat) (w : List W64) (u : Nat) : (s.post q w u).damper = s.damper := (s.post_queueStep q w u).damper
@[simp] theorem State.post_sec (s : State) (q : Nat) (w : List W64) (u : Nat) : (s.post q w u).sec = s.sec := (s.post_queueStep q w u).sec
@[simp] theorem State.post_fw (s : State) (q : Nat) (w : List W64) (u : Nat) : (s.post q w u).fw = s.fw := (s.post_queueStep q w u).fw
@[simp] theorem State.post_bist (s : State) (q : Nat) (w : List W64) (u : Nat) : (s.post q w u).bist = s.bist := (s.post_queueStep q w u).bist
@[simp] theorem State.eccEvent_mem (s : State) (pa : Nat) : (s.eccEvent pa).mem = s.mem := (s.eccEvent_queueStep pa).mem

/-! ### What a write may change (R213 to R215) -/

/-- A memory operation has taken s to t: device memory and, by the errors that it met, the retire list in flash and the message queues have
changed, and the canonical form stands. -/
structure State.MemStep (s t : State) : Prop where
  pending : t.pending = s.pending
  hub     : t.hub = { s.hub with out := t.hub.out, free := t.hub.free }
  cores   : t.cores = s.cores
  disp    : t.disp = s.disp
  host    : t.host = { s.host with fns := t.host.fns }
  eth     : t.eth = s.eth
  peal    : t.peal = s.peal
  car     : t.car = s.car
  damper  : t.damper = s.damper
  sec     : t.sec = s.sec
  dict    : t.dict = { s.dict with counters := t.dict.counters }
  fw      : t.fw = { s.fw with flashRetire := t.fw.flashRetire }
  bist    : t.bist = s.bist
  wf      : Memory.wf s.mem = true → Memory.wf t.mem = true

theorem State.MemStep.refl (s : State) : s.MemStep s := by constructor <;> first | rfl | exact id

theorem State.MemStep.trans {s t u : State} (h : s.MemStep t) (k : t.MemStep u) : s.MemStep u where
  pending := k.pending.trans h.pending
  hub := by rw [k.hub, h.hub]
  cores := k.cores.trans h.cores
  disp := k.disp.trans h.disp
  host := by rw [k.host, h.host]
  eth := k.eth.trans h.eth
  peal := k.peal.trans h.peal
  car := k.car.trans h.car
  damper := k.damper.trans h.damper
  sec := k.sec.trans h.sec
  dict := by rw [k.dict, h.dict]
  fw := by rw [k.fw, h.fw]
  bist := k.bist.trans h.bist
  wf := fun w => k.wf (h.wf w)

theorem State.QueueStep.memStep {s t : State} (h : s.QueueStep t) : s.MemStep t where
  pending := h.pending
  hub := h.hub
  cores := h.cores
  disp := h.disp
  host := h.host
  eth := h.eth
  peal := h.peal
  car := h.car
  damper := h.damper
  sec := h.sec
  dict := h.dict
  fw := by rw [h.fw]
  bist := h.bist
  wf := fun w => by rw [h.mem]; exact w

/-! #### Errors that a read meets -/

/-- What an error that a read meets leaves: a memory step that changes no byte. -/
structure State.ErrStep (s t : State) : Prop where
  step  : s.MemStep t
  bytes : t.mem.bytes = s.mem.bytes

theorem State.ErrStep.refl (s : State) : s.ErrStep s := ⟨.refl s, rfl⟩
theorem State.ErrStep.trans {s t u : State} (h : s.ErrStep t) (k : t.ErrStep u) : s.ErrStep u := ⟨h.step.trans k.step, k.bytes.trans h.bytes⟩
theorem State.QueueStep.errStep {s t : State} (h : s.QueueStep t) : s.ErrStep t := ⟨h.memStep, by rw [h.mem]⟩

/-- A change of the memory's tables that leaves its bytes. -/
theorem State.errStep_mem (s : State) (m : Mem) (h : m.bytes = s.mem.bytes) : s.ErrStep { s with mem := m } := by
  refine ⟨?_, h⟩
  constructor <;> first | rfl | exact fun w => Memory.wf_of_bytes w h

theorem State.setSlab_errStep (s : State) (n : Nat) (e : SlabEntry) : s.ErrStep (s.setSlab n e) := s.errStep_mem _ rfl

theorem State.addRetire_errStep (s : State) (r : Nat) : s.ErrStep (s.addRetire r) := by
  refine ⟨?_, rfl⟩
  constructor <;> first | rfl | exact fun w => Memory.wf_of_bytes w rfl

theorem State.checkRetire_errStep (s : State) (n : Nat) : s.ErrStep (s.checkRetire n) := by
  unfold State.checkRetire
  dsimp only
  split
  · exact s.setSlab_errStep n _
  · exact .refl s

theorem State.noteRow_errStep (s : State) (b : Bool) (r : Nat) :
    s.ErrStep (if b then { s with mem := { s.mem with ceRows := setIns s.mem.ceRows r } } else s) := by
  split
  · exact s.errStep_mem _ rfl
  · exact .refl s

theorem State.retireAgain_errStep (s : State) (b : Bool) (r : Nat) : s.ErrStep (if b then s.addRetire r else s) := by
  split
  · exact s.addRetire_errStep r
  · exact .refl s

theorem State.countCe_errStep (s : State) (k : Nat) : s.ErrStep { s with mem := { s.mem with stackCe := smod 0 s.mem.stackCe k (satAdd 64 · 1) } } :=
  s.errStep_mem _ rfl

theorem State.correctedError_errStep (s : State) (pa : Nat) (b : Bool) : s.ErrStep (s.correctedError pa b) :=
  ((((s.setSlab_errStep _ _).trans (State.countCe_errStep _ _)).trans (State.checkRetire_errStep _ _)).trans (State.noteRow_errStep _ b _)).trans
    (State.retireAgain_errStep _ _ _)

theorem State.poisonWord_errStep (s : State) (w k : Nat) :
    s.ErrStep { s with mem := { s.mem with poison := setIns s.mem.poison w, stackUe := smod 0 s.mem.stackUe k (satAdd 32 · 1) } } :=
  s.errStep_mem _ rfl

theorem State.uncorrectedError_errStep (s : State) (pa : Nat) : s.ErrStep (s.uncorrectedError pa) :=
  ((((s.setSlab_errStep _ _).trans (State.poisonWord_errStep _ _ _)).trans (State.checkRetire_errStep _ _)).trans
    (State.eccEvent_queueStep _ _).errStep).trans (State.addRetire_errStep _ _)

theorem State.clearErr_errStep (s : State) (w : Nat) :
    s.ErrStep { s with mem := { s.mem with latent := s.mem.latent.filter fun k => k.word != w } } :=
  s.errStep_mem _ rfl

theorem State.meetErr_errStep (s : State) (h : EccHit) (b : Bool) : s.ErrStep (s.meetErr h b) := by
  refine (s.clearErr_errStep h.word).trans ?_
  unfold State.meetErr
  generalize ({ s with mem := { s.mem with latent := s.mem.latent.filter fun k => k.word != h.word } } : State) = u
  dsimp only
  split_ifs
  · exact .refl _
  · exact State.uncorrectedError_errStep _ _
  · exact State.correctedError_errStep _ _ _

theorem State.memErrs_errStep (s : State) (segs : List (Nat × Nat)) (hits : List EccHit) : s.ErrStep (s.memErrs segs hits) := by
  unfold State.memErrs
  dsimp only
  have k : ∀ (l : List EccHit) (t : State), t.ErrStep (l.foldl (fun s h => s.meetErr h false) t) := fun l => by
    induction l with
    | nil => exact .refl
    | cons h r ih => exact fun t => (t.meetErr_errStep h false).trans (ih _)
  exact (s.errStep_mem (s.mem.upset hits) rfl).trans (k _ _)

/-! #### Writes -/

/-- R214: poison and errors cleared where a whole word is written. -/
def State.clearWord (s : State) (pa n : Nat) : State :=
  if n = 64 then
    { s with mem := { s.mem with poison := setDel s.mem.poison (pa / 64) (pa / 64 + 1), latent := s.mem.latent.filter fun h => h.word != pa / 64 } }
  else s

/-- R214: a write within one word is discarded with a report, or stored. -/
theorem State.putWord_eq (s : State) (pa : Nat) (data : List Byte) : s.putWord pa data =
    if (s.clearWord pa data.length).mem.poison.contains (pa / 64) then (s.clearWord pa data.length).eccEvent pa
    else { s.clearWord pa data.length with mem := { (s.clearWord pa data.length).mem with bytes := bput s.mem.bytes pa data } } := by
  unfold State.putWord State.clearWord
  by_cases h : data.length = 64 <;> simp [h]

@[simp] theorem State.clearWord_bytes (s : State) (pa n : Nat) : (s.clearWord pa n).mem.bytes = s.mem.bytes := by
  unfold State.clearWord
  split <;> rfl

theorem State.wholeWord_errStep (s : State) (w : Nat) :
    s.ErrStep { s with mem := { s.mem with poison := setDel s.mem.poison w (w + 1), latent := s.mem.latent.filter fun h => h.word != w } } :=
  s.errStep_mem _ rfl

theorem State.clearWord_memStep (s : State) (pa n : Nat) : s.MemStep (s.clearWord pa n) := by
  unfold State.clearWord
  split
  · exact (s.wholeWord_errStep _).step
  · exact .refl s

theorem State.putWord_memStep (s : State) (pa : Nat) (data : List Byte) : s.MemStep (s.putWord pa data) := by
  rw [State.putWord_eq]
  refine (s.clearWord_memStep pa data.length).trans ?_
  split
  · exact (State.eccEvent_queueStep _ pa).memStep
  · constructor <;> first | rfl | skip
    intro h
    have h : swf 0 s.mem.bytes = true := by simpa [Memory.wf] using h
    exact swf_bput data h pa

theorem State.putWords_memStep (k : Nat) : ∀ (s : State) (pa : Nat) (data : List Byte), s.MemStep (s.putWords pa data k) := by
  induction k with
  | zero => exact fun s _ _ => .refl s
  | succ k ih =>
    intro s pa data
    unfold State.putWords
    split
    · exact .refl s
    · exact (s.putWord_memStep ..).trans (ih _ _ _)

theorem State.memWrite_memStep (s : State) (pa : Nat) (data : List Byte) : s.MemStep (s.memWrite pa data) :=
  (s.memErrs_errStep _ _).step.trans (putWords_memStep _ _ pa data)

theorem State.putSegs_memStep (l : List (Nat × Nat)) : ∀ (s : State) (data : List Byte), s.MemStep (s.putSegs l data) := by
  induction l with
  | nil => exact fun s _ => .refl s
  | cons g r ih => exact fun s data => (s.memWrite_memStep ..).trans (ih _ _)

/-! #### Table words that a walk reads -/

theorem State.meetWalk_errStep (s : State) (c va : Nat) : s.ErrStep (s.meetWalk c va) := by
  unfold State.meetWalk
  dsimp only [List.foldl_cons, List.foldl_nil]
  split
  · exact .refl s
  · exact ((State.memErrs_errStep _ _ _).trans (State.memErrs_errStep _ _ _)).trans (State.memErrs_errStep _ _ _)

theorem State.meetPages_errStep (c : Nat) (w : Bool) (l : List Nat) : ∀ s : State, s.ErrStep (s.meetPages c w l) := by
  induction l with
  | nil => exact .refl
  | cons va r ih =>
    intro s
    unfold State.meetPages
    dsimp only
    split
    · exact (s.meetWalk_errStep c va).trans (ih _)
    · exact s.meetWalk_errStep c va

theorem State.meetWalks_errStep (s : State) (c va n : Nat) (w : Bool) : s.ErrStep (s.meetWalks c va n w) := by
  unfold State.meetWalks
  split
  · exact .refl s
  · exact State.meetPages_errStep c w _ s

/-- A write of a context's virtual range: where it is served it is a memory step. -/
theorem State.vaWrite_memStep {s t : State} {c va : Nat} {data : List Byte} (h : s.vaWrite c va data = .ok t) : s.MemStep t := by
  unfold State.vaWrite at h
  dsimp only at h
  split at h
  · cases h
  · cases h
  · cases h
    exact (s.meetWalks_errStep c va data.length true).step.trans (putSegs_memStep _ _ data)

/-! ### Bytes -/

/-- A write within one word changes no byte outside its own. -/
theorem State.putWord_byte_out (s : State) (pa : Nat) (data : List Byte) (a : Nat) (h : a < pa ∨ pa + data.length ≤ a) :
    sget 0 (s.putWord pa data).mem.bytes a = sget 0 s.mem.bytes a := by
  rw [State.putWord_eq]
  split
  · simp
  · exact sget_bput_out data _ pa a h

/-- A write changes no byte outside its own. -/
theorem State.putWords_byte_out (k : Nat) : ∀ (s : State) (pa : Nat) (data : List Byte) (a : Nat), a < pa ∨ pa + data.length ≤ a →
    sget 0 (s.putWords pa data k).mem.bytes a = sget 0 s.mem.bytes a := by
  induction k with
  | zero => exact fun _ _ _ _ _ => rfl
  | succ k ih =>
    intro s pa data a h
    unfold State.putWords
    split
    · rfl
    · dsimp only
      have e : (data.take (64 - pa % 64)).length = min (64 - pa % 64) data.length := List.length_take
      by_cases c : data.length ≤ 64 - pa % 64
      · have z : data.drop (64 - pa % 64) = [] := List.drop_eq_nil_of_le c
        rw [z]
        have n : ∀ u : State, u.putWords (pa + (64 - pa % 64)) [] k = u := by
          intro u
          cases k <;> rfl
        rw [n]
        exact s.putWord_byte_out _ _ _ (by omega)
      · rw [ih _ _ _ _ (by rw [List.length_drop]; omega)]
        exact s.putWord_byte_out _ _ _ (by omega)

theorem State.memWrite_byte_out (s : State) (pa : Nat) (data : List Byte) (a : Nat) (h : a < pa ∨ pa + data.length ≤ a) :
    sget 0 (s.memWrite pa data).mem.bytes a = sget 0 s.mem.bytes a := by
  rw [← (s.memErrs_errStep (mergeWords pa data.length) []).bytes]
  exact putWords_byte_out _ _ pa data a h

/-! ### Wipes (R216, R217) -/

/-- The end of a wipe keeps the canonical form. -/
theorem State.endWipe_wf (s : State) (j : WipeJob) (h : Memory.wf s.mem = true) : Memory.wf (s.endWipe j).mem = true := by
  have z : swf 0 (bzero s.mem.bytes j.base j.len) = true := swf_bzero _ _ h
  have e : (s.endWipe j).mem.bytes = bzero s.mem.bytes j.base j.len := by
    unfold State.endWipe
    dsimp only
    split <;> split <;> (try split) <;> simp
  simpa [Memory.wf, e] using z

end Sys2Proof.Machine
end

