-- ==== Sys2Proof/Laws/Ops.lean ====
section
/-! SUPPORT. What each shared operation can do, said once: the parts of the state read back, gated writes, faults, interrupts, issue, access and
translation. -/

namespace Sys2Proof.Machine

/-! ### Parts of the state read back -/

section Parts

variable (s : State)

theorem State.core_setCore (p k : Nat) (c : Core) : (s.setCore p c).core k = if k = p then c else s.core k := sget_sset _ _ _ _ _
@[simp] theorem State.core_setCore_same (p : Nat) (c : Core) : (s.setCore p c).core p = c := sget_sset_same _ _ _ _
theorem State.ctx_setCtx (c k : Nat) (x : Ctx) : (s.setCtx c x).ctx k = if k = c then x else s.ctx k := sget_sset _ _ _ _ _
@[simp] theorem State.ctx_setCtx_same (c : Nat) (x : Ctx) : (s.setCtx c x).ctx c = x := sget_sset_same _ _ _ _
theorem State.part_setPart (n k : Nat) (x : Part) : (s.setPart n x).part k = if k = n then x else s.part k := sget_sset _ _ _ _ _
@[simp] theorem State.part_setPart_same (n : Nat) (x : Part) : (s.setPart n x).part n = x := sget_sset_same _ _ _ _
theorem State.fn_setFn (n k : Nat) (x : Fn) : (s.setFn n x).fn k = if k = n then x else s.fn k := sget_sset _ _ _ _ _
@[simp] theorem State.fn_setFn_same (n : Nat) (x : Fn) : (s.setFn n x).fn n = x := sget_sset_same _ _ _ _
theorem State.slab_setSlab (n k : Nat) (x : SlabEntry) : (s.setSlab n x).slab k = if k = n then x else s.slab k := sget_sset _ _ _ _ _
@[simp] theorem State.slab_setSlab_same (n : Nat) (x : SlabEntry) : (s.setSlab n x).slab n = x := sget_sset_same _ _ _ _
theorem State.mqueue_setQueue (n k : Nat) (x : MsgQueue) : (s.setQueue n x).mqueue k = if k = n then x else s.mqueue k := sget_sset _ _ _ _ _
@[simp] theorem State.mqueue_setQueue_same (n : Nat) (x : MsgQueue) : (s.setQueue n x).mqueue n = x := sget_sset_same _ _ _ _
theorem State.ring_setRing (n k : Nat) (x : Ring) : (s.setRing n x).ring k = if k = n then x else s.ring k := sget_sset _ _ _ _ _
@[simp] theorem State.ring_setRing_same (n : Nat) (x : Ring) : (s.setRing n x).ring n = x := sget_sset_same _ _ _ _
theorem State.conn_setConn (n k : Nat) (x : Conn) : (s.setConn n x).conn k = if k = n then x else s.conn k := sget_sset _ _ _ _ _
@[simp] theorem State.conn_setConn_same (n : Nat) (x : Conn) : (s.setConn n x).conn n = x := sget_sset_same _ _ _ _
theorem State.rankEntry_setRank (n k : Nat) (x : RankEntry) : (s.setRank n x).rankEntry k = if k = n then x else s.rankEntry k :=
  sget_sset _ _ _ _ _
@[simp] theorem State.rankEntry_setRank_same (n : Nat) (x : RankEntry) : (s.setRank n x).rankEntry n = x := sget_sset_same _ _ _ _

theorem State.port_setPort_same (k : Nat) (p : Port) (h : k < s.eth.ports.length) : (s.setPort k p).port k = p := by
  simp [State.port, h]

theorem State.port_setPort_ne {k j : Nat} (p : Port) (h : j ≠ k) : (s.setPort k p).port j = s.port j := by
  simp [State.port, Ne.symm h]

/-- A posted packet asks for its queue's write port; the other queues stay. -/
theorem State.mqueue_putPacket (q k : Nat) (w : List W64) (u : Nat) : (s.putPacket q w u).mqueue k =
    if k = q then (s.mqueue q).ask s.now q { src := u, pop := 1, words := w, stop := .done } else s.mqueue k :=
  s.mqueue_setQueue q k _

/-- R228: a posted packet that finds its queue's write pointers in step asks for the port; where they differ it is lost. -/
theorem State.post_sound (q : Nat) (w : List W64) (u : Nat) (h : (s.mqueue q).mismatch = false) : s.post q w u = s.putPacket q w u := by
  simp [State.post, h]

end Parts

/-! ### Queue blocks (R222, R225, R262) -/

theorem MsgQueue.makeRoom_seq (q n : Nat) (l : List Packet) (m : MsgQueue) : (m.makeRoom q n l).seq = m.seq := by
  induction l generalizing m with
  | nil => rfl
  | cons k r ih =>
    unfold MsgQueue.makeRoom
    dsimp only
    split_ifs <;> first | rfl | exact ih _

theorem MsgQueue.makeRoom_ports (q n : Nat) (l : List Packet) (m : MsgQueue) :
    (m.makeRoom q n l).writing = m.writing ∧ (m.makeRoom q n l).waiting = m.waiting ∧ (m.makeRoom q n l).flush = m.flush ∧
      (m.makeRoom q n l).reading = m.reading := by
  induction l generalizing m with
  | nil => exact ⟨rfl, rfl, rfl, rfl⟩
  | cons k r ih =>
    unfold MsgQueue.makeRoom
    dsimp only
    split_ifs <;> first | exact ⟨rfl, rfl, rfl, rfl⟩ | exact ih _

/-- R262: a single input that asks is granted, whatever its credit. -/
theorem Arbiter.pick_one (a : Arbiter) (i : Nat) {p : Nat} (h : 0 < p) : a.pick [(i, p)] = some i := by
  have l : 0 < sget 0 (a.fill [(i, p)]) i := by
    unfold Arbiter.fill
    dsimp only [List.all_cons, List.all_nil, List.foldl_cons, List.foldl_nil]
    by_cases k : sget 0 (a.drop [(i, p)]).credit i = 0
    · simp [k, sget_sset_same, h]
    · simpa [k] using Nat.pos_of_ne_zero k
  unfold Arbiter.pick
  simp only [List.filter_cons, l, decide_true, if_pos, List.filter_nil, List.map_cons, List.map_nil, List.find?_cons, List.find?_nil,
    List.head?_cons]
  split <;> rename_i e <;> split at e <;> simp_all

/-- Nothing happens at a free write port with nobody waiting and no flush pending. -/
theorem MsgQueue.settle_idle (m : MsgQueue) (now q k : Nat) (hw : m.writing = none) (hq : m.waiting = []) (hf : m.flush = false) :
    m.settle now q k = m := by
  cases k with
  | zero => rfl
  | succ k => simp [MsgQueue.settle, hw, hq, hf, MsgQueue.asks, MsgQueue.ready, Arbiter.pick]

/-- A whole packet leaves the write port free, and the others waiting. -/
theorem MsgQueue.put_done (m : MsgQueue) (now q : Nat) (a : Ask) (hd : a.stop = .done) :
    (m.put now q a).writing = none ∧ (m.put now q a).waiting = m.waiting ∧ (m.put now q a).flush = m.flush := by
  unfold MsgQueue.put
  split
  rename_i seq old need m' e
  have k : m'.waiting = m.waiting ∧ m'.flush = m.flush := by
    split at e <;> simp only [Prod.mk.injEq] at e <;> obtain ⟨-, -, -, rfl⟩ := e <;> exact ⟨rfl, rfl⟩
  have r := m'.makeRoom_ports q need m'.mayGo
  rw [hd]
  exact ⟨rfl, r.2.1.trans k.1, r.2.2.1.trans k.2⟩

/-- The one producer that waits at a free port gets it. -/
theorem MsgQueue.settle_one (m : MsgQueue) (now q k : Nat) (a : Ask) (hw : m.writing = none) (hq : m.waiting = [a]) (hf : m.flush = false)
    (hp : 0 < a.pop) :
    m.settle now q (k + 1) =
      MsgQueue.settle now q k ({ m with waiting := [], arb := (m.arb.grant [(a.src, a.pop)] a.src).drop [] }.put now q a) := by
  have e : m.asks = [(a.src, a.pop)] := by simp [MsgQueue.asks, MsgQueue.ready, setIns, hq, hf]
  have u : m.unask a.src = { m with waiting := [] } := by simp [MsgQueue.unask, delFirst, hq]
  have f : m.waiting.find? (fun x => x.src == a.src) = some a := by simp [hq]
  simp only [MsgQueue.settle, hw, hf, e, Arbiter.pick_one _ _ hp, f, u]
  rfl

/-- R222, R262: a free write port with nobody waiting takes a whole packet at once. -/
theorem MsgQueue.ask_free (m : MsgQueue) (now q : Nat) (a : Ask) (hw : m.writing = none) (hq : m.waiting = []) (hf : m.flush = false)
    (hp : 0 < a.pop) (hd : a.stop = .done) :
    m.ask now q a = { m with arb := (m.arb.grant [(a.src, a.pop)] a.src).drop [] }.put now q a := by
  obtain ⟨h1, h2, h3⟩ := MsgQueue.put_done { m with arb := (m.arb.grant [(a.src, a.pop)] a.src).drop [] } now q a hd
  have g : { m with waiting := [], arb := (m.arb.grant [(a.src, a.pop)] a.src).drop [] } =
      { m with arb := (m.arb.grant [(a.src, a.pop)] a.src).drop [] } := by rw [← hq]
  have one := MsgQueue.settle_one { m with waiting := [{ a with late := m.flush }] } now q 2 { a with late := m.flush } hw rfl hf hp
  have done := MsgQueue.settle_idle _ now q 2 h1 (h2.trans hq) (h3.trans hf)
  unfold MsgQueue.ask
  have l : m.waiting ++ [{ a with late := m.flush }] = [{ a with late := m.flush }] := by rw [hq]; rfl
  rw [l]
  exact (one.trans (congrArg (fun x : MsgQueue => MsgQueue.settle now q 2 (x.put now q a)) g)).trans done

/-- R221, R222: a packet that a free port takes is the queue's newest and carries the queue's SEQ, which moves on. -/
theorem MsgQueue.ask_free_seq (m : MsgQueue) (now q : Nat) (a : Ask) (hw : m.writing = none) (hq : m.waiting = []) (hf : m.flush = false)
    (hp : 0 < a.pop) (hd : a.stop = .done) :
    (m.ask now q a).seq = (m.seq + 1) % 65536 ∧ (m.ask now q a).pkts.getLast? = some (Packet.make q m.seq now a.words) := by
  rw [MsgQueue.ask_free m now q a hw hq hf hp hd]
  unfold MsgQueue.put
  simp only [hw, hd]
  exact ⟨MsgQueue.makeRoom_seq _ _ _ _, by simp⟩

/-- A posted packet that finds the port free takes the next SEQ. -/
theorem State.post_seq (s : State) (q : Nat) (w : List W64) (u : Nat) (hw : (s.mqueue q).writing = none) (hq : (s.mqueue q).waiting = [])
    (hf : (s.mqueue q).flush = false) (hm : (s.mqueue q).mismatch = false) :
    ((s.post q w u).mqueue q).seq = ((s.mqueue q).seq + 1) % 65536 := by
  rw [s.post_sound q w u hm, State.mqueue_putPacket, if_pos rfl]
  exact (MsgQueue.ask_free_seq _ _ _ _ hw hq hf Nat.one_pos rfl).1

/-! ### Registers (R79) -/

@[simp] theorem Seq.reg_zero (q : Seq) : q.reg 0 = 0 := rfl
@[simp] theorem Seq.setReg_zero (q : Seq) (v : W64) : q.setReg 0 v = q := rfl

theorem Seq.reg_setReg_same (q : Seq) {r : BitVec 5} (v : W64) (h : r ≠ 0) : (q.setReg r v).reg r = v := by
  unfold Seq.setReg Seq.reg
  rw [if_neg h, if_neg h]
  exact sget_sset_same _ _ _ _

theorem Seq.reg_setReg_ne (q : Seq) {r k : BitVec 5} (v : W64) (h : k ≠ r) : (q.setReg r v).reg k = q.reg k := by
  unfold Seq.setReg Seq.reg
  split
  · rfl
  · split
    · rfl
    · exact sget_sset_ne _ _ _ fun e => h (BitVec.eq_of_toNat_eq e)

/-! ### Dictionary writes (R434, R443, R452, R464) -/

/-- R452: counting a request changes the Voxyx counters alone. -/
theorem State.counted_eq (s : State) (pr : Principal) (r : BitVec 8) :
    s.counted pr r = { s with dict := { s.dict with counters := (s.counted pr r).dict.counters } } := by
  unfold State.counted State.vcount
  dsimp only
  split_ifs <;> rfl

@[simp] theorem State.counted_pending (s : State) (pr : Principal) (r : BitVec 8) : (s.counted pr r).pending = s.pending := by rw [State.counted_eq]
@[simp] theorem State.counted_hub (s : State) (pr : Principal) (r : BitVec 8) : (s.counted pr r).hub = s.hub := by rw [State.counted_eq]
@[simp] theorem State.counted_cores (s : State) (pr : Principal) (r : BitVec 8) : (s.counted pr r).cores = s.cores := by rw [State.counted_eq]
@[simp] theorem State.counted_mem (s : State) (pr : Principal) (r : BitVec 8) : (s.counted pr r).mem = s.mem := by rw [State.counted_eq]
@[simp] theorem State.counted_disp (s : State) (pr : Principal) (r : BitVec 8) : (s.counted pr r).disp = s.disp := by rw [State.counted_eq]
@[simp] theorem State.counted_mq (s : State) (pr : Principal) (r : BitVec 8) : (s.counted pr r).mq = s.mq := by rw [State.counted_eq]
@[simp] theorem State.counted_host (s : State) (pr : Principal) (r : BitVec 8) : (s.counted pr r).host = s.host := by rw [State.counted_eq]
@[simp] theorem State.counted_eth (s : State) (pr : Principal) (r : BitVec 8) : (s.counted pr r).eth = s.eth := by rw [State.counted_eq]
@[simp] theorem State.counted_peal (s : State) (pr : Principal) (r : BitVec 8) : (s.counted pr r).peal = s.peal := by rw [State.counted_eq]
@[simp] theorem State.counted_car (s : State) (pr : Principal) (r : BitVec 8) : (s.counted pr r).car = s.car := by rw [State.counted_eq]
@[simp] theorem State.counted_damper (s : State) (pr : Principal) (r : BitVec 8) : (s.counted pr r).damper = s.damper := by rw [State.counted_eq]
@[simp] theorem State.counted_sec (s : State) (pr : Principal) (r : BitVec 8) : (s.counted pr r).sec = s.sec := by rw [State.counted_eq]
@[simp] theorem State.counted_fw (s : State) (pr : Principal) (r : BitVec 8) : (s.counted pr r).fw = s.fw := by rw [State.counted_eq]
@[simp] theorem State.counted_bist (s : State) (pr : Principal) (r : BitVec 8) : (s.counted pr r).bist = s.bist := by rw [State.counted_eq]

section Served
variable (s : State) (pr : Principal) (k : Nat) (a n : Bool) (f : State → BitVec 8 × State)

theorem State.dictWriteAt_unserved (h : s.hub.ready = false) : s.dictWriteAt pr k a n f = s := by
  simp [State.dictWriteAt, h]

theorem State.dictWriteAt_gated (h : s.hub.ready = true) {r : BitVec 8} (g : s.writeGate k a n = some r) :
    s.dictWriteAt pr k a n f = (s.counted pr r).answer r := by
  simp [State.dictWriteAt, h, g]

theorem State.dictWriteAt_goes (h : s.hub.ready = true) (g : s.writeGate k a n = none) :
    s.dictWriteAt pr k a n f = ((f s).2.counted pr (f s).1).answer (f s).1 := by
  simp [State.dictWriteAt, h, g]

/-- The three outcomes of a write with a row of its own. -/
theorem State.dictWriteAt_cases :
    (s.hub.ready = false ∧ s.dictWriteAt pr k a n f = s) ∨
    (∃ r, s.hub.ready = true ∧ s.writeGate k a n = some r ∧ s.dictWriteAt pr k a n f = (s.counted pr r).answer r) ∨
    (s.hub.ready = true ∧ s.writeGate k a n = none ∧ s.dictWriteAt pr k a n f = ((f s).2.counted pr (f s).1).answer (f s).1) := by
  cases h : s.hub.ready with
  | false => exact .inl ⟨rfl, s.dictWriteAt_unserved pr k a n f h⟩
  | true =>
    cases g : s.writeGate k a n with
    | some r => exact .inr (.inl ⟨r, rfl, rfl, s.dictWriteAt_gated pr k a n f h g⟩)
    | none => exact .inr (.inr ⟨rfl, rfl, s.dictWriteAt_goes pr k a n f h g⟩)

end Served

/-- A write that goes ahead is within the rights, in a life-cycle state that takes it, with its firmware up. -/
theorem State.writeGate_none {s : State} {k : Nat} {a n : Bool} (h : s.writeGate k a n = none) :
    s.sec.lc ≠ .scrapped ∧ s.sec.lcTarget = none ∧ a = true ∧ (n = true → s.fw.run ≠ none) := by
  unfold State.writeGate at h
  split at h
  · cases h
  · rename_i h1
    split at h
    · cases h
    · split at h
      · cases h
      · rename_i h2
        split at h
        · cases h
        · split at h
          · cases h
          · rename_i h5
            simp only [Bool.or_eq_true, not_or, Bool.not_eq_true, beq_eq_false_iff_ne, ne_eq, Option.isSome_eq_false_iff,
              Option.isNone_iff_eq_none] at h1
            refine ⟨h1.1, h1.2, by simpa using h2, fun e => ?_⟩
            subst e
            simpa [Option.isNone_iff_eq_none] using h5

/-! ### Interrupts (R284, R286) -/

/-- A vector is deferred by quarantine, pends while it cannot be sent, or is sent. -/
theorem State.msix_cases (s : State) (f v : Nat) :
    (s.quarantined f = true ∧ s.msix f v = s.setFn f { s.fn f with deferred := setIns (s.fn f).deferred v }) ∨
    (s.quarantined f = false ∧ s.msix f v = s.setFn f { s.fn f with pendingVec := setIns (s.fn f).pendingVec v }) ∨
    (s.quarantined f = false ∧ s.canMaster f = true ∧ (s.fn f).fnMask = false ∧ (s.fn f).msixEn = true ∧ v ∈ (s.fn f).unmasked ∧ s.msix f v = s.emit ((s.fn f).message f v)) := by
  unfold State.msix
  dsimp only
  split
  · rename_i h
    exact .inl ⟨h, rfl⟩
  · rename_i h
    split
    · exact .inr (.inl ⟨by simpa using h, rfl⟩)
    · rename_i k
      simp only [Bool.or_eq_true, not_or, Bool.not_eq_true, Bool.not_eq_false', List.contains_iff_mem] at k
      exact .inr (.inr ⟨by simpa using h, by simpa using k.2, k.1.1.1, by simpa using k.1.1.2, by simpa using k.1.2, rfl⟩)

/-! ### Issue (R75 to R78, R166 to R170) -/

theorem issue_idle (s : State) (p n : Nat) (f : Core → Issue) (h : s.canIssue p = false) : issue s p n f = s := by
  simp [issue, h]

theorem issue_miss (s : State) (p n : Nat) (f : Core → Issue) (h : s.canIssue p = true) {l : Nat} (m : (s.core p).seq.missing n = some l) :
    issue s p n f = s.setCore p { s.core p with seq := { (s.core p).seq with miss := some l } } := by
  simp [issue, h, m]

/-- What an instruction does at its issue, by what its own part answers. -/
theorem issue_own (s : State) (p n : Nat) (f : Core → Issue) (h : s.canIssue p = true) (m : (s.core p).seq.missing n = none) :
    issue s p n f = match f (s.core p) with
      | .stall => s.setCore p { s.core p with seq := { (s.core p).seq with stalled := true } }
      | .bad => s.faultCore p stBAD_COMMAND
      | .go c => s.setCore p (c.retire n ((s.core p).seq.pc + w64 (8 * n)))
      | .goto c pc => s.setCore p (c.retire n pc)
      | .act c g => g (s.setCore p (c.retire n ((s.core p).seq.pc + w64 (8 * n)))) := by
  rcases e : f (s.core p) with _ | _ | _ | _ | _ <;> simp [issue, h, m, e]

@[simp] theorem Core.retire_eng (c : Core) (n : Nat) (pc : W64) : (c.retire n pc).eng = c.eng := rfl
@[simp] theorem Core.retire_sp (c : Core) (n : Nat) (pc : W64) : (c.retire n pc).sp = c.sp := rfl
@[simp] theorem Core.retire_run (c : Core) (n : Nat) (pc : W64) : (c.retire n pc).run = c.run := rfl
@[simp] theorem Core.retire_life (c : Core) (n : Nat) (pc : W64) : (c.retire n pc).life = c.life := rfl
@[simp] theorem Core.retire_pc (c : Core) (n : Nat) (pc : W64) : (c.retire n pc).seq.pc = pc := rfl
@[simp] theorem Core.retire_regs (c : Core) (n : Nat) (pc : W64) : (c.retire n pc).seq.regs = c.seq.regs := rfl
@[simp] theorem Core.retire_descs (c : Core) (n : Nat) (pc : W64) : (c.retire n pc).seq.descs = c.seq.descs := rfl
@[simp] theorem Core.retire_ret (c : Core) (n : Nat) (pc : W64) : (c.retire n pc).seq.ret = c.seq.ret := rfl
@[simp] theorem Core.retire_flags (c : Core) (n : Nat) (pc : W64) : (c.retire n pc).seq.flags = c.seq.flags := rfl
@[simp] theorem Core.retire_reg (c : Core) (n : Nat) (pc : W64) (r : BitVec 5) : (c.retire n pc).seq.reg r = c.seq.reg r := rfl

/-! ### Faults (R98, R197, R260) -/

theorem State.faultCore_none (s : State) (p : Nat) (st : BitVec 16) (h : (s.core p).run = none) : s.faultCore p st = s := by
  simp [State.faultCore, h]

theorem State.faultCore_some (s : State) (p : Nat) (st : BitVec 16) {r : RunRef} (h : (s.core p).run = some r) :
    s.faultCore p st = s.faultCmd r.uid st := by
  simp [State.faultCore, h]

theorem State.faultCmd_none (s : State) (uid : Nat) (st : BitVec 16) (h : s.cmd uid = none) : s.faultCmd uid st = s := by
  simp [State.faultCmd, h]

/-! ### Access and translation (R204, R211) -/

theorem State.access_ok {s : State} {part pa : Nat} : s.access part pa = .ok () ↔ s.slabLife (pa / 2 ^ 25) = .assigned ∧
    (s.slab (pa / 2 ^ 25)).owner.toNat = part ∧ s.wiping pa = false ∧ s.damper.shutdown = false := by
  unfold State.access
  generalize pa / 2 ^ 25 = n
  dsimp only
  by_cases h : s.slabLife n = .assigned ∧ (s.slab n).owner.toNat = part
  · cases w : s.wiping pa <;> cases d : s.damper.shutdown <;> simp [h.1, h.2]
  · rw [if_neg h]
    exact ⟨fun e => (nomatch e), fun e => absurd ⟨e.1, e.2.1⟩ h⟩

/-- A translated address lies in a slab of the context's partition that no wipe holds. -/
theorem State.translate_ok {s : State} {c va pa : Nat} {w : Bool} (h : s.translate c va w = .ok pa) :
    s.access (s.ctx c).part.toNat pa = .ok () ∧ s.walk (s.ctx c).part.toNat (s.ctx c).ptbase.toNat va w = .ok pa := by
  unfold State.translate at h
  dsimp only at h
  split at h
  · rename_i pa' hw
    split at h
    · rename_i u ha
      cases h
      exact ⟨ha, hw⟩
    · cases h
    · cases h
  · rename_i g
    exact absurd h (g _)

/-! ### The scratchpad's error-correcting code (R88) -/

/-- R88: reads that meet errors change nothing of a core but its fault and its count of corrected errors, and a fault once found stays. -/
theorem Core.scratchErrs_frame (c : Core) (now : Nat) (reads : List (Nat × Nat)) (hits : List EccHit) :
    c.scratchErrs now reads hits = { c with fault := (c.scratchErrs now reads hits).fault, corrected := (c.scratchErrs now reads hits).corrected } ∧
      ∀ f, c.fault = some f → (c.scratchErrs now reads hits).fault = some f := by
  induction hits generalizing c with
  | nil => exact ⟨rfl, fun _ h => h⟩
  | cons h r ih =>
    simp only [Core.scratchErrs, List.foldl_cons] at ih ⊢
    split
    · exact ih c
    · split
      · exact ⟨(ih _).1, fun f e => (ih _).2 f (by simp [e])⟩
      · exact ⟨(ih _).1, fun f e => (ih _).2 f e⟩

@[simp] theorem Core.scratchErrs_nil (c : Core) (now : Nat) (reads : List (Nat × Nat)) : c.scratchErrs now reads [] = c := rfl

@[simp] theorem Core.scratchErrs_seq (c : Core) (now : Nat) (reads : List (Nat × Nat)) (hits : List EccHit) :
    (c.scratchErrs now reads hits).seq = c.seq := by
  rw [(c.scratchErrs_frame now reads hits).1]
@[simp] theorem Core.scratchErrs_sp (c : Core) (now : Nat) (reads : List (Nat × Nat)) (hits : List EccHit) :
    (c.scratchErrs now reads hits).sp = c.sp := by
  rw [(c.scratchErrs_frame now reads hits).1]
@[simp] theorem Core.scratchErrs_eng (c : Core) (now : Nat) (reads : List (Nat × Nat)) (hits : List EccHit) :
    (c.scratchErrs now reads hits).eng = c.eng := by
  rw [(c.scratchErrs_frame now reads hits).1]
@[simp] theorem Core.scratchErrs_run (c : Core) (now : Nat) (reads : List (Nat × Nat)) (hits : List EccHit) :
    (c.scratchErrs now reads hits).run = c.run := by
  rw [(c.scratchErrs_frame now reads hits).1]
@[simp] theorem Core.scratchErrs_life (c : Core) (now : Nat) (reads : List (Nat × Nat)) (hits : List EccHit) :
    (c.scratchErrs now reads hits).life = c.life := by
  rw [(c.scratchErrs_frame now reads hits).1]

/-! ### The cap loop (R388, R396) -/

@[simp] theorem Damper.capUnits_temps (d : Damper) (q : Nat) (b : Bool) : (d.capUnits q b).temps = d.temps := by
  simp only [Damper.capUnits]; split_ifs <;> rfl
@[simp] theorem Damper.capUnits_tjLimit (d : Damper) (q : Nat) (b : Bool) : (d.capUnits q b).tjLimit = d.tjLimit := by
  simp only [Damper.capUnits]; split_ifs <;> rfl
@[simp] theorem Damper.capUnits_shutdown (d : Damper) (q : Nat) (b : Bool) : (d.capUnits q b).shutdown = d.shutdown := by
  simp only [Damper.capUnits]; split_ifs <;> rfl
@[simp] theorem Damper.capUnits_vcq (d : Damper) (q : Nat) (b : Bool) : (d.capUnits q b).vcq = d.vcq := by
  simp only [Damper.capUnits]; split_ifs <;> rfl

/-- A run of the loop takes the temperatures of its reading, one that the reading lacks being 25 °C. -/
theorem Damper.run_temps (d : Damper) (now : Nat) (m : CapSample) : (d.run now m).temps = (List.range 5).map (m.temps.getD · 25000) := by
  simp only [Damper.run, show List.range 4 = [0, 1, 2, 3] from rfl, List.foldl, Damper.capUnits_temps]; split_ifs <;> rfl

/-- R396: what a run makes of the limit of 100 °C. -/
theorem Damper.run_tjLimit (d : Damper) (now : Nat) (m : CapSample) : (d.run now m).tjLimit =
    (if 100000 ≤ maxTemp ((List.range 5).map (m.temps.getD · 25000)) then true
     else if maxTemp ((List.range 5).map (m.temps.getD · 25000)) < 98000 then false else d.tjLimit) := by
  rw [← Damper.run_temps d now m]
  simp only [Damper.run, show List.range 4 = [0, 1, 2, 3] from rfl, List.foldl, Damper.capUnits_temps, Damper.capUnits_tjLimit]; split_ifs <;> rfl

/-- R397, R487: what a thermal shutdown leaves: no core issues. -/
@[simp] theorem State.shutDown_damper (s : State) : s.shutDown.damper.shutdown = true := by
  simp only [State.shutDown, State.deviceFault, State.postCause, State.post_damper, State.draw]; split_ifs <;> rfl
@[simp] theorem State.shutDown_canIssue (s : State) (p : Nat) : s.shutDown.canIssue p = false := by simp [State.canIssue]

/-! ### Windows that close first (R42) -/

/-- R372: a rank goes silent with its event, or nothing changes. -/
theorem State.goSilent_cases (s : State) (r : Nat) :
    (s.car.miss * s.car.period * 1000 ≤ s.tollAge r ∧ r ∉ s.car.silent ∧
      s.goSilent r = ({ s with car := { s.car with silent := setIns s.car.silent r } }).carEvent 1 0 r) ∨ s.goSilent r = s := by
  simp only [State.goSilent]
  split
  · rename_i h
    simp only [Bool.and_eq_true, decide_eq_true_eq, Bool.not_eq_true', List.contains_eq_mem, decide_eq_false_iff_not] at h
    exact .inl ⟨h.2, h.1.2, rfl⟩
  · exact .inr rfl

end Sys2Proof.Machine
end

