-- ==== Sys2Proof/WellFormed.lean ====
section
/-! DEFINITION. Which operand lists a command can carry: the lengths that the spec fixes for what arrives with it. -/

namespace Sys2Proof

/-- A Geril packet: LEN spells the payload's bytes (R316). -/
def GPkt.wf (k : GPkt) : Bool := k.len.toNat == k.payload.length

/-- A Voxyx message: at most 65,535 data bytes, the count that LEN spells (R439). -/
def VMsg.wf (m : VMsg) : Bool := decide (m.data.length < 65536)

/-- A received frame has bytes. -/
def RxFrame.wf (f : RxFrame) : Bool := !f.bytes.isEmpty

/-- The telemetry of one run of the cap loop names four VCQ rails, ten others and five dies (R389). -/
def CapSample.wf (m : CapSample) : Bool := decide (m.vcqMv.length = 4) && decide (m.rails.length = 10) && decide (m.temps.length = 5)

/-- R166, R167: the major opcode of an instruction word. -/
def opcodeIs (code : Nat) (w : W64) : Bool := decide (w.toNat / 2 ^ 58 = code)

/-- The operands of a command have the shape that the spec gives what it carries: an instruction's word has its opcode. -/
def Instr.wf : Instr → Bool
  | .mpass _ w _ => opcodeIs 0x01 w
  | .mdrain _ w _ => opcodeIs 0x02 w
  | .add _ w _ | .sub _ w _ | .mul _ w _ | .fma _ w _ | .minV _ w _ | .maxV _ w _ | .absV _ w _ | .negV _ w _ => opcodeIs 0x04 w
  | .cmpEq _ w _ | .cmpNe _ w _ | .cmpLt _ w _ | .cmpLe _ w _ | .sel _ w _ | .cvt _ w _ => opcodeIs 0x04 w
  | .recip _ w _ | .rsqrt _ w _ | .exp2 _ w _ | .log2 _ w _ | .sin _ w _ | .cos _ w _ => opcodeIs 0x04 w
  | .act _ w _ | .dact _ w _ | .smbwd _ w _ => opcodeIs 0x04 w
  | .vredSum _ w | .vredSumsq _ w | .vredSumprod _ w | .vredMax _ w | .vredMin _ w | .vredAmax _ w => opcodeIs 0x05 w
  | .vcomp _ w => opcodeIs 0x06 w
  | .vexpd _ w => opcodeIs 0x07 w
  | .vpermBlock _ w | .vpermGather _ w | .vpermScatter _ w => opcodeIs 0x08 w
  | .vpack _ w => opcodeIs 0x09 w
  | .vunpk _ w => opcodeIs 0x0A w
  | .load _ w | .store _ w | .send _ w | .openWin _ w => opcodeIs 0x0C w
  | .reduceScatter _ w | .allGather _ w | .allReduce _ w | .allToAll _ w | .broadcast _ w | .put _ w | .get _ w => opcodeIs 0x0D w
  | .mirrorPut _ w | .permute _ w | .hostRead _ w | .hostWrite _ w | .publish _ w | .claim _ w | .stepEnd _ w => opcodeIs 0x0D w
  | .waitTag _ w | .waitPeal _ w | .waitGang _ w | .waitEngines _ w => opcodeIs 0x10 w
  | .signal _ w => opcodeIs 0x11 w
  | .desc _ w _ => opcodeIs 0x12 w
  | .loop _ w => opcodeIs 0x14 w
  | .br _ w => opcodeIs 0x15 w
  | .call _ w => opcodeIs 0x16 w
  | .ret _ w => opcodeIs 0x17 w
  | .sadd _ w => opcodeIs 0x18 w
  | .ssub _ w => opcodeIs 0x19 w
  | .smul _ w => opcodeIs 0x1A w
  | .sand _ w => opcodeIs 0x1B w
  | .sor _ w => opcodeIs 0x1C w
  | .sshl _ w => opcodeIs 0x1D w
  | .sshr _ w => opcodeIs 0x1E w
  | .sliImm _ w | .sliExt _ w _ | .sliLoad _ w _ | .sliStore _ w => opcodeIs 0x1F w
  | .drainEnd _ upset _ => upset.all fun u => decide (u.1 < 16384)
  | .commandFetch _ _ d _ => decide (d.length = 0 ∨ d.length = 256)
  | .refetchTimer _ _ d _ => decide (d.length = 0 ∨ d.length = 256)
  | .windowRead _ off len _ _ => decide (0 < len ∧ off.toNat % 33554432 + len ≤ 33554432)
  | .windowWrite _ off data _ _ => decide (0 < data.length ∧ off.toNat % 33554432 + data.length ≤ 33554432)
  | .mqPacketWrite _ words a => decide (0 < a.pop ∧ a.pop < 4096 ∧ words.length ≤ 256) && (a.stop == .abandoned || !words.isEmpty)
  | .pfcFrame _ _ quanta => decide (quanta.length = 8)
  | .frameReceive _ f _ _ => f.wf
  | .gerilData k => k.wf
  | .gerilAck k => k.wf
  | .hello k => k.wf
  | .helloAck k => k.wf
  | .fenced k => k.wf
  | .announce k => k.wf
  | .resume k => k.wf
  | .stepEndReceive k => k.wf
  | .commitNotice k => k.wf
  | .abortPeer k => k.wf
  | .close k => k.wf
  | .capLoop m => m.wf
  | .mailboxGo _ _ _ _ => true
  | .voxyxRead _ m _ => m.wf
  | .voxyxWrite _ m _ => m.wf
  | .voxyxInfo _ m _ => m.wf
  | .voxyxCancel _ m _ => m.wf
  | .fwImage _ m _ => m.wf
  | .fwRecovery _ m _ => m.wf
  | .mpassEntry _ _ | .drainStart _ | .vectorStart _ _ | .sendArrive _ _ _ _ | .moveComplete _ _ _ _ | .waitEnd _ | .icacheFill _ _ => true
  | .slotEnd _ | .pealComplete _ _ _ | .doorbell _ _ _ _ _ | .semAdd _ _ _ _ | .run _ _ | .mark _ _ | .commit _ _ | .sliceClose _ => true
  | .killComplete _ | .rerun _ | .overrun _ | .contextTeardown _ | .teardownEnd _ | .tollPrompt _ | .toll _ | .tollCheck _ _ => true
  | .missedTolls _ | .stallWatchdog _ _ | .choke _ _ _ | .coreChoke _ _ _ | .coreReadmit _ _ | .create _ | .stop _ | .ctxResume _ => true
  | .ctxReset _ | .destroy _ | .partReset _ _ _ | .assign _ _ | .release _ _ | .setWbias _ _ | .setChx _ _ | .slabWipeStart _ => true
  | .slabWipeEnd _ | .patrolScrub _ _ | .hbmTest _ _ _ | .hbmTestEnd _ _ | .mqPacketRead _ _ _ | .mqFlush _ _ _ | .flushEffect _ => true
  | .deliverPacket _ _ | .ringConsumerWrite _ _ _ _ | .ringRestart _ _ _ _ | .hpatRead _ _ _ | .atomicopRequest _ _ | .msixUnmask _ _ _ => true
  | .linkTraining _ _ | .perstN | .hotReset | .vfFlr _ _ | .hostWaitLimit _ | .reattachKeep _ _ _ | .reattachDivert _ _ _ => true
  | .pauseExpire _ _ | .pfcRepeat _ _ | .pauseLimit _ _ | .pauseRecovery _ _ | .frameTransmit _ _ | .gateEntry _ | .gateCommit _ _ _ => true
  | .gateChange _ | .portTimer _ _ _ | .portLanes _ _ _ | .portMedia _ _ _ | .portAn _ _ _ | .linkChange _ _ _ | .trainingRetry _ => true
  | .ackTimer _ _ | .rtoExpiry _ _ _ | .carillonEn _ _ | .takeover _ _ | .takeoverLimit | .carillonRejoin _ _ | .devTollSend => true
  | .deviceToll _ | .peerSilent _ | .fastLoop _ _ | .peakHoldEnd _ | .thermalShutdown | .telemetryLost _ | .telemetryRestored => true
  | .capSet _ _ | .lendPeriod | .grant _ | .answer _ | .recall _ | .returnLoan _ | .leaseClose _ _ | .loanLapse _ | .lcToProvisioned _ _ => true
  | .lcToOperational _ _ | .lcToReturned _ _ | .lcToScrapped _ _ | .lcWipeEnd | .partConf _ _ _ | .debugEn _ _ | .measure _ _ _ => true
  | .attRequest _ _ | .ckeyInstall _ _ | .ckeyClear _ _ | .pkgLoad _ _ _ | .pkgLoadEnd | .ideKm _ _ | .snapshotLapse _ => true
  | .setEndpointId _ _ | .getEndpointId _ | .getMctpVersionSupport _ | .getMessageTypeSupport _ | .getVendorMessageSupport _ => true
  | .dynamicAddressAssign _ | .rstdaa | .fwConfirm _ _ | .trialWindowClose | .cpWatchdog | .cpRestart _ | .cpRestartEnd => true
  | .bistCore _ _ | .bistQuadrant _ _ | .bistHub _ _ | .bistDevice _ _ | .coreBistEnd _ _ | .maintBistEnd _ _ | .bypass => true
  | .idcode | .samplePreload _ _ | .extest _ | .clamp | .highz | .extestPulse _ | .extestTrain _ | .hbm1500 _ | .debugInstruction => true
  | .tapReset | .deviceReset _ _ | .pwrgdLow _ | .imageStart | .hbmTrainingEnd _ _ _ | .dictReady | .linkFault _ | .refclkHLoss => true
  | .refclkELoss | .devrstNLow | .lastElementWritten _ _ | .lastWavefrontLeft _ | .windowControlWrite _ _ _ | .pageAttributeWrite _ _ _ _ => true
  | .configurationRequest _ _ _ | .spdmRequest _ => true

end Sys2Proof
end

