-- ==== Sys2Proof/Tests/Slice0.lean ====
section
/-! SUPPORT. The model's own tests: an ill-formed command for each check of WellFormed, states that meet the hypotheses of each statement,
and single steps whose results are worked out from the spec. -/

set_option Elab.async false

namespace Sys2Proof.Tests

open Sys2Proof Sys2Proof.Machine Sys2Proof.Claims

/-! ### Small states -/

/-- A booted device with its PCIe link up and its 16 VFs enabled. -/
def on : State :=
  { State.reset with
    hub := { Hub.reset with trained := true, started := true, ready := true }
    fw := { Fw.reset with run := some .slotA }
    host := { HostIf.reset with linkUp := true, vfEnable := true, numVfs := 16 } }

/-- A word from (value, lowest bit) pairs. -/
def word (l : List (Nat × Nat)) : W64 := BitVec.ofNat 64 (l.map fun e => e.1 * 2 ^ e.2).sum

/-- A descriptor of one dimension: BASE, FMT, EXT0, STRIDE0. -/
def dsc (base fmt ext stride : Nat) : BitVec 256 := BitVec.ofNat 256 (base + fmt * 2 ^ 25 + (ext - 1) * 2 ^ 32 + stride * 2 ^ 96)

/-- Core 0 runs gang slot 0 of command 7, at address 0 with its line held; d1 to d4 are four rising binary32 streams of four elements,
d5 two TH8E4 elements, d6 four bits. -/
def core0 : Core :=
  { Core.reset with
    run := some { uid := 7, slot := 0 }
    seq := { Seq.reset with icache := [0], descs := [(1, dsc 0 2 4 4), (2, dsc 64 2 4 4), (3, dsc 128 2 4 4), (4, dsc 192 2 4 4),
                                                     (5, dsc 256 6 2 1), (6, dsc 320 8 4 0)] } }

def entry0 : CmdEntry :=
  { opc := 1, demote := false, cplen := false, cplloc := false, qmask := 0, gang := 1, prog := 0, args := 0, seed := 0, waits := [], reads := [],
    writes := [], cpladdr := 0, cpltag := 0, rels := [], irq := none, irqWord := 0, reserved := false, divert := false }

def cmd0 : Issued :=
  { uid := 7, ctx := 3, queue := 0, idx := 0, entry := entry0, restart := true, gang := [0], ended := [], gsems := [], stage := .running,
    sliceAt := 0, sliceLen := 10000000, allow := none, reruns := 0, choked := false }

def ctx0 : Ctx := { Ctx.reset with life := .active, part := 2 }

/-- Command 7 of context 3, partition 2, runs on core 0. -/
def run (c : Core) : State :=
  { on with cores := [(0, c)], disp := { Disp.reset with issued := [cmd0], ctxs := [(3, ctx0)], nextUid := 8 } }

def withSeq (f : Seq → Seq) : Core := { core0 with seq := f core0.seq }
def withEng (f : Engines → Engines) : Core := { core0 with eng := f core0.eng }

/-- The next state of a command. -/
def after (c : Instr) (s : State) : State :=
  match exec c s with
  | .next t => t
  | _ => s

/-- Slabs 0 and 1 are assigned to partition 2; the tables of context 3 at address 0 map its first 32 MiB to slab 1, whose first byte is 11. -/
def slab2 : SlabEntry := { SlabEntry.reset with life := .assigned, owner := 2, wbias := 2 }
def mem0 : Mem :=
  { Mem.reset with bytes := [(0, 1), (2, 4), (262144, 7), (262147, 2), (33554432, 11)], slabs := [(0, slab2), (1, slab2)] }

/-- Command 7 runs on core 0, may write the first 32 bytes, and belongs to a PEAL partition. -/
def mapped : State :=
  { run core0 with
    mem := mem0, peal := { Peal.reset with parts := 4 }
    disp := { Disp.reset with issued := [{ cmd0 with entry := { entry0 with writes := [(0, 32)] } }], ctxs := [(3, ctx0)], nextUid := 8 } }

/-! ### Witnesses: the core -/

/-- SADD s1, s2, s3 and SADD s1, s2, −1. -/
def saddWord : W64 := word [(0x18, 58), (1, 52), (2, 47), (3, 42)]
def saddImm : W64 := word [(0x18, 58), (1, 52), (2, 47), (1, 41), (0xFFFFFFFF, 0)]

theorem test_wit_alu : Ready (run core0) 0 1 ∧ AluFree core0.seq saddWord ∧ AluShape 0x18 false false saddWord ∧
    AluShape 0x1B true false (word [(0x1B, 58), (1, 52), (1, 40), (1, 39)]) ∧ AluShape 0x1E false true (word [(0x1E, 58), (1, 38)]) ∧
    ¬ AluShape 0x18 false false (word [(0x18, 58), (1, 37)]) ∧ ¬ AluShape 0x19 false false saddWord := by decide

theorem test_sadd_wraps :
    aluA (withSeq fun q => q.setReg 2 0xFFFFFFFFFFFFFFFF).seq saddImm + aluB core0.seq saddImm = 0xFFFFFFFFFFFFFFFE := by decide

/-- FORMs 0 to 3 of SLI with SD s1, SA s2; the last address of the scratchpad, and the first behind it. -/
def sli (form imm : Nat) : W64 := word [(0x1F, 58), (if form = 1 then 1 else 0, 57), (1, 52), (2, 47), (form, 45), (imm, 0)]

theorem test_wit_sli :
    (opOk 0x1F (sli 0 0x80000000) false = true ∧ opOk 0x1F (sli 1 0) true = true ∧ zeroBits (sli 3 7) 44 32 = true ∧ fld (sli 2 8) 46 45 = 2 ∧
      fld (sli 3 8) 46 45 = 3) ∧ Ready (run core0) 0 2 ∧ core0.seq.anyBusy [reg5 (sli 2 0) 52, reg5 (sli 2 0) 47] = false ∧
    sliAddr core0.seq (sli 2 33554424) % 8 = 0 ∧ sliAddr core0.seq (sli 2 33554424) + 8 ≤ 33554432 ∧
    33554432 < sliAddr core0.seq (sli 2 33554432) + 8 ∧ sliAddr core0.seq (sli 3 4) % 8 ≠ 0 ∧
    sbStalls core0.eng.score [{ owner := 0, lo := 33554424, hi := 33554432, write := true }] = false := by decide

/-- R88: an SLI load over a word of two wrong bits is a core fault; one wrong bit is counted; a line never written is not read. -/
def coreSp : Core := { core0 with sp := { core0.sp with written := [0], bytes := [(0, 1)] } }
theorem test_sli_upset : ((after (.sliLoad 0 (sli 2 0) [{ word := 0, bad := true }]) (run coreSp)).core 0).fault = some { cause := 2, time := 0 } ∧
    ((after (.sliLoad 0 (sli 2 0) [{ word := 0, bad := false }]) (run coreSp)).core 0).corrected = 1 ∧
    ((after (.sliLoad 0 (sli 2 0) [{ word := 0, bad := true }]) (run core0)).core 0).fault = none := by decide +kernel
theorem test_sli_sign : BitVec.ofInt 64 (sfld (sli 0 0x80000000) 31 0) = 0xFFFFFFFF80000000 := by decide

def loopWord : W64 := word [(0x14, 58), (1, 52), (0xFFFFFF, 0)]
def brWord (cond : Nat) : W64 := word [(0x15, 58), (cond, 54), (1, 49), (2, 44), (4, 0)]
def callWord (form : Nat) : W64 := word [(0x16, 58), (form, 56), (1, 51), (2, 0)]

/-- s1 = 1 and s2 = −1, the program counter at 8. -/
def coreBr : Core := withSeq fun q => { (q.setReg 1 1).setReg 2 0xFFFFFFFFFFFFFFFF with pc := 8 }

theorem test_wit_flow : Ready (run coreBr) 0 1 ∧ opOk 0x14 loopWord false = true ∧ zeroBits loopWord 51 24 = true ∧
    coreBr.seq.reg (reg5 loopWord 52) - 1 = 0 ∧ core0.seq.reg (reg5 loopWord 52) - 1 ≠ 0 ∧ opOk 0x15 (brWord 3) false = true ∧
    zeroBits (brWord 6) 43 24 = true ∧ opOk 0x16 (callWord 1) false = true ∧ zeroBits (callWord 0) 50 24 = true ∧
    (coreBr.seq.reg (reg5 (callWord 1) 51)).toNat % 8 ≠ 0 ∧ (target coreBr.seq (callWord 0)).toNat % 8 = 0 ∧
    opOk 0x17 (word [(0x17, 58)]) false = true ∧ zeroBits (word [(0x17, 58)]) 56 0 = true ∧ coreBr.seq.ret = [] := by decide

theorem test_branch_back : target coreBr.seq loopWord = 0 := by decide
theorem test_br_ltu_lt : Taken (brWord 3) (coreBr.seq.reg 1) (coreBr.seq.reg 2) ∧ ¬ Taken (brWord 5) (coreBr.seq.reg 1) (coreBr.seq.reg 2) ∧
    Taken (brWord 6) (coreBr.seq.reg 1) (coreBr.seq.reg 2) := by decide
theorem test_ret_ends : ((after (.ret 0 (word [(0x17, 58)])) (run coreBr)).core 0).seq.ending = true := by decide

def waitWord (kind v lo : Nat) : W64 := word [(0x10, 58), (kind, 54), (v, lo)]

theorem test_wit_wait : (opOk 0x10 (waitWord 0 15 50) false = true ∧ zeroBits (waitWord 0 15 50) 34 0 = true ∧ fld (waitWord 1 7 47) 56 54 = 1 ∧
      fld (waitWord 2 3 43) 56 54 = 2 ∧ fld (waitWord 3 7 35) 37 35 ≠ 0) ∧
    (run core0).waitHolds 0 (.tag 3) = true ∧ (run core0).waitHolds 0 (.gang 0 1) = false ∧
    opOk 0x11 (word [(0x11, 58), (3, 53), (1, 48), (1, 47)]) false = true ∧
    ((issued (run core0) 0 1 core0).cmdOf 0).isSome = true ∧ ∀ m ∈ core0.eng.moves, m.kind = .openWin := by decide

def descWord : W64 := word [(0x12, 58), (1, 52), (1, 51), (2, 41), (1, 37), (1, 32)]

theorem test_wit_desc : opOk 0x12 descWord false = true ∧ zeroBits descWord 22 20 = true ∧ fld descWord 40 37 < 11 ∧ fld descWord 31 28 < 11 ∧
    (patchDesc (dsc 64 2 4 4) 1 33554431).isSome = true ∧ patchDesc (dsc 64 2 4 4) 1 33554432 = none ∧
    (core0.seq.reg 3).toNat % 32 = 0 ∧ patchDesc 0 2 65536 = some (BitVec.ofNat 256 (65535 * 2 ^ 32)) ∧ patchDesc 0 2 65537 = none ∧
    patchDesc 0 6 0xFFFFFFFFFE000000 = some (BitVec.ofNat 256 (0x2000000 * 2 ^ 96)) ∧ patchDesc 0 6 0x2000000 = none := by decide

def descFarWord : W64 := word [(0x12, 58), (1, 52), (1, 46), (1, 0)]
def coreFar : Core := withSeq fun q => { q with regs := [(1, 0xFFFFFFFFFFFFFFE0)] }
theorem test_wit_desc_far : opOk 0x12 descFarWord false = true ∧ zeroBits descFarWord 22 20 = true ∧ bitN descFarWord 51 = false ∧
    Ready (run coreFar) 0 1 ∧ (coreFar.seq.reg (reg5 descFarWord 46)).toNat + 32 * fld descFarWord 19 0 = 2 ^ 64 := by and_intros <;> decide

/-- ADD d3, d1, d2; ACT with ELU; SEL with a mask of bits; SUM of d1 to s1. -/
def addWord : W64 := word [(0x04, 58), (1, 51), (1, 46), (2, 41), (3, 31)]
def eluWord : W64 := word [(0x04, 58), (1, 57), (0x18, 51), (1, 46), (3, 31), (6, 14)]
def selWord : W64 := word [(0x04, 58), (0x0D, 51), (6, 46), (1, 41), (2, 36), (3, 31)]
def sumWord : W64 := word [(0x05, 58), (1, 49), (4, 36), (1, 35), (1, 30)]

theorem test_wit_vop : VopLegal .add core0 addWord 0 ∧ VecRoom core0 (vopIns .add core0 addWord) (vopOuts core0 addWord) [] ∧
    VopLegal .act core0 eluWord 0x3F800000 ∧ ¬ VopLegal .act core0 eluWord 0 ∧ VopLegal .sel core0 selWord 0 ∧ ¬ VopLegal .add core0 selWord 0 ∧
    Ready (run core0) 0 (wordsOf (vopElu .act eluWord)) := by and_intros <;> decide

theorem test_wit_vred : VredLegal .sum core0 sumWord ∧ VecRoom core0 (vredIns .sum core0 sumWord) (vredOuts core0 sumWord) [1] ∧
    ¬ VredLegal .max core0 sumWord := by and_intros <;> decide

/-- d7 four 32-bit indices, d8 four 16-bit indices. -/
def coreVec : Core := withSeq fun q => { q with descs := q.descs ++ [(7, dsc 384 10 4 4), (8, dsc 448 9 4 2)] }
def vcompWord : W64 := word [(0x06, 58), (1, 52), (6, 47), (3, 42), (7, 37), (1, 36)]
def vexpdWord : W64 := word [(0x07, 58), (3, 52), (6, 47), (1, 42)]
def vpermWord (mode idx : Nat) : W64 := word [(0x08, 58), (mode, 55), (1, 50), (idx, 45), (3, 40)]
def packWord (code i o : Nat) : W64 := word [(code, 58), (i, 52), (o, 47)]

theorem test_wit_vmove : VcompLegal coreVec vcompWord ∧ VecRoom coreVec [named coreVec vcompWord 52, named coreVec vcompWord 47]
      ([named coreVec vcompWord 42] ++ if bitN vcompWord 36 then [named coreVec vcompWord 37] else []) [reg5 vcompWord 28] ∧
    VexpdLegal coreVec vexpdWord ∧ VecRoom coreVec [named coreVec vexpdWord 42, named coreVec vexpdWord 47] [named coreVec vexpdWord 52] [0] ∧
    VpermLegal 0 coreVec (vpermWord 0 8) ∧ VpermLegal 1 coreVec (vpermWord 1 7) ∧ VpermLegal 2 coreVec (vpermWord 2 7) ∧
    CopyLegal true coreVec (packWord 0x09 1 2) ∧ CopyLegal false coreVec (packWord 0x0A 1 2) ∧ ¬ VcompLegal coreVec vexpdWord ∧
    ¬ VpermLegal 0 coreVec (vpermWord 0 7) ∧ ¬ CopyLegal true coreVec (packWord 0x0A 1 2) := by and_intros <;> decide

/-! ### Witnesses: the engines, moves and PEAL -/

/-- MPASS of d7 by d8, 2 × 2 binary32 each, in three passes (PASSES 1); its accumulation in a0. -/
def mat (base : Nat) : BitVec 256 := BitVec.ofNat 256 (base + 2 * 2 ^ 25 + 2 ^ 32 + 2 ^ 48 + 4 * 2 ^ 96 + 8 * 2 ^ 122)
def coreMat : Core := withSeq fun q => { q with descs := q.descs ++ [(7, mat 512), (8, mat 576), (9, mat 640)] }
def mpassWord : W64 := word [(0x01, 58), (7, 52), (8, 47), (1, 45)]
def acc : Bank := { Bank.reset with st := .accumulating, m := 2, n := 2, scale := 0x3F800000 }
def coreAcc : Core := { coreMat with eng := { coreMat.eng with a0 := acc, lastBank := some false } }
def mdrainWord : W64 := word [(0x02, 58), (9, 52)]

theorem test_wit_mpass : MpassLegal coreMat mpassWord ∧ passGeometry (named coreMat mpassWord 52) (named coreMat mpassWord 47) false 0 = some (2, 2, 2) ∧
    (passBank coreMat.eng false 2 2 (scaleProduct (mat 512) (mat 576)) = some false) ∧ passBank coreAcc.eng true 2 2 0 = none ∧
    coreMat.eng.arrayQ.length < 4 ∧ sbStalls coreMat.eng.score (sbEntries 0 [named coreMat mpassWord 52, named coreMat mpassWord 47] []) = false ∧
    ¬ MpassLegal core0 mpassWord ∧ Ready (run coreMat) 0 (wordsOf (bitN mpassWord 43)) := by and_intros <;> decide

theorem test_wit_mdrain : MdrainLegal coreAcc mdrainWord 0 ∧ VecRoom coreAcc (drainIns coreAcc mdrainWord) (drainOuts coreAcc mdrainWord) [] ∧
    ¬ MdrainLegal coreMat mdrainWord 0 ∧ drainElu mdrainWord = false := by and_intros <;> decide

def pass0 : PassInstr :=
  { id := 1, a := { d := mat 512, mask := none }, b := { d := mat 576, mask := none }, passes := 1, hold := false, tap := none, bank := false,
    m := 2, n := 2, k := 2 }
def vec0 (op : VecOp) : VecInstr :=
  { id := 2, op := op, ins := [], outs := [{ d := mat 640, mask := none }], f64 := false, alpha := 0, n := 0, sd := none }
def drain0 : VecOp := .mdrain false 0 .sum 0 false false 0 false

theorem test_wit_events : (entryReady (withEng fun e => { e with arrayQ := [pass0], a0 := acc }).eng pass0 = true ∧ core0.seq.halted = false) ∧
    (vec0 (.copy false)).isDrainOp = false ∧ (vec0 drain0).isDrainOp = true ∧ (vec0 drain0).drains true = false ∧
    ((run core0).cmdOf 0).isSome = true ∧ core0.seq.miss = none ∧
    (withSeq fun q => { q with ending := true }).slotDone = true := by and_intros <;> decide

/-- The line of address 0 cannot be fetched where no table stands; the awaited line is then the command's fault. -/
theorem test_wit_line : (withSeq fun q => { q with miss := some 0 }).seq.miss = some 0 ∧
    (run core0).vaRead 3 0 256 = .fault stSLAB_ACCESS := by and_intros <;> decide

def moveWord (kind : Nat) : W64 := word [(0x0C, 58), (kind, 55), (15, 51), (1, 46), (2, 41), (3, 36), (4, 31)]

theorem test_wit_moves : moveOk .load (moveWord 0) = true ∧ moveOk .store (moveWord 1) = true ∧ moveOk .send (moveWord 2) = true ∧
    moveOk .openWin (moveWord 3) = true ∧ SidesOk core0 (moveWord 0) ∧ MoveRoom core0 (moveWord 0) true ∧ MoveRoom core0 (moveWord 3) false ∧
    (core0.seq.reg (reg5 (moveWord 0) 36)).toNat < 2 ^ 52 ∧ 2 ^ 52 ≤ ((withSeq fun q => q.setReg 3 0x10000000000000).seq.reg (reg5 (moveWord 0) 36)).toNat ∧
    (core0.seq.reg (reg5 (moveWord 2) 36)).toNat < cmd0.gang.length ∧ plainOk isAnyFmt (moveDl core0 (moveWord 2)) = true := by and_intros <;> decide

def move0 (k : MoveKind) : MoveInstr := { id := 4, kind := k, tag := 15, dl := dsc 0 2 4 4, dm := dsc 0 2 4 4, sa := 0, sb := 0, arrived := false }
def win0 : Window := { id := 5, tag := 15, lo := 64, len := 16, received := 0 }
/-- Core 0 sends to itself, gang slot 0, through an open window of 16 bytes. -/
def coreSend : Core := withEng fun e => { e with moves := [move0 .send], windows := [win0] }

theorem test_wit_send : coreSend.eng.moves[0]? = some (move0 .send) ∧ sget none cmd0.ended (move0 .send).sa.toNat = none ∧
    ((run coreSend).core (cmd0.gang.getD (move0 .send).sa.toNat 68)).runs cmd0.uid = true ∧
    (coreSend.eng.windows.find? fun v => v.tag == (move0 .send).tag) = some win0 ∧
    (move0 .send).sb.toNat + (packStream coreSend.sp (move0 .send).dl).length ≤ win0.len := by and_intros <;> decide

theorem test_wit_load_faults : (loadPieces 3 (move0 .load) (move0 .load).pairs core0.sp (run core0) core0.tlb).1 = .fault stSLAB_ACCESS ∧
    (∀ v ∈ coreSend.eng.windows, v.id ≠ (move0 .openWin).id) := by and_intros <;> decide

def pealWord : W64 := word [(0x0D, 58), (1, 52), (7, 49)]

theorem test_wit_peal : opOk 0x0D pealWord false = true ∧ zeroBits pealWord 48 0 = true ∧ core0.seq.anyBusy [reg5 pealWord 52] = false ∧
    fld pealWord 51 49 ∉ core0.eng.slots ∧ (core0.seq.reg (reg5 pealWord 52)).toNat % 64 = 0 ∧
    ((withSeq fun q => q.setReg 1 8).seq.reg (reg5 pealWord 52)).toNat % 64 ≠ 0 := by and_intros <;> decide

/-- The descriptor at address 0 is a HOST_WRITE of no bytes. -/
theorem test_wit_peal_read : mapped.pealOp 0 pealWord = some 11 ∧ (∃ b, mapped.vaRead 3 0 128 = .ok b) ∧ mapped.peal.insts = [] := by
  refine ⟨by decide, ⟨bget mem0.bytes 33554432 128, by decide⟩, by decide⟩

theorem test_wit_peal_ok :
    let d := decodePeal (bget mem0.bytes 33554432 128)
    (match mapped.view 3 d, mapped.cmdOf 0 with
      | .ok v, some (i, _) => mapped.pealOk i d v && !(run core0).pealOk i d v
      | _, _ => false) = true := by decide

/-! ### Witnesses: commands, contexts, cores -/

/-- Context 3 with queue 0 enabled and one entry announced; VF 3 masters the bus. -/
def ctxQ : Ctx := { ctx0 with record := Ctx.recordReset + BitVec.ofNat 512 (2 ^ 68), queues := [(0, { CmdQueue.reset with tail := 1 })] }
def vf3 : Fn := { Fn.reset with bme := true, quar := false, wen := true }
def partQ : Part := { Part.reset with cores := 0xFFFF, ctxQuota := 4 }
def fetching : State :=
  { on with disp := { Disp.reset with ctxs := [(3, ctxQ)], parts := [(2, partQ)] }, host := { on.host with fns := [(3, vf3)] } }

/-- 256 bytes of a RUN of one core with PHASE 1, and of a stale entry. -/
def entryBytes : List Byte := [0, 0, 0, 0, 0, 0x40, 0, 0x81] ++ List.replicate 248 0

theorem test_wit_doorbell : PageOf fetching 3 3 true ∧ PageOf fetching 0 3 true ∧ ¬ PageOf fetching 4 3 true := by and_intros <;> decide +kernel
theorem test_wit_fetch : Fetches fetching 3 0 ∧ (fetching.readEntry 3 0 entryBytes []).1 = .ok (bytesAt entryBytes 0 256) ∧ ((fetching.ctx 3).queue 0).refetch = none ∧
    entryPhase entryBytes = true ∧ entryPhase (List.replicate 256 0) ≠ ((fetching.ctx 3).queue 0).phase := by and_intros <;> decide +kernel
theorem test_phase_flips : (({ CmdQueue.reset with head := 15 } : CmdQueue).advance 16).head = 0 ∧
    (({ CmdQueue.reset with head := 15 } : CmdQueue).advance 16).phase = false ∧ (CmdQueue.reset.advance 16).head = 1 := by decide +kernel
theorem test_back_off : ((after (.commandFetch 3 0 (List.replicate 256 0) []) fetching).ctx 3 |>.queue 0).refetch = some 1000 := by decide +kernel

def headRun : Fetched := { idx := 0, entry := entry0, restart := true }
/-- The head of queue 0 is a RUN of one core of the 16 in quadrant 0. -/
def ready : State :=
  { fetching with disp := { fetching.disp with ctxs := [(3, { ctxQ with queues := [(0, { CmdQueue.reset with tail := 1, fetched := some headRun })] })] } }

theorem test_wit_run : ready.issuable 3 0 = true ∧ ready.rerunWaits 2 true = false ∧ ready.mayPlace 3 entry0 = true ∧
    ready.placement 3 entry0 true = some [0] ∧ (ready.ctx 3).debt < (ready.ctx 3).sliceNs := by and_intros <;> decide +kernel
theorem test_run_starts : ((after (.run 3 0) ready).core 0).run = some { uid := 0, slot := 0 } := by decide +kernel

def cmdState (i : Issued) : State := { fetching with disp := { fetching.disp with issued := [i], nextUid := 8 }, cores := [(0, core0)] }

theorem test_wit_commit : (cmdState { cmd0 with stage := .ended }).oldest 3 0 = some { cmd0 with stage := .ended } ∧
    (cmdState { cmd0 with stage := .ended }).recordReady 3 entry0 = .ok () ∧
    (cmdState cmd0).recordReady 3 { entry0 with cplen := true, cplloc := true } = .fault stSLAB_ACCESS ∧
    on.recordReady 3 { entry0 with cplen := true } = .held := by and_intros <;> decide +kernel
theorem test_status : ({ cmd0 with restart := false } : Issued).status = 0x0303 ∧ ({ cmd0 with reruns := 1 } : Issued).status = 0x0302 ∧ cmd0.status = 0 := by
  decide +kernel

/-- 10 ms later the slice of command 7 has closed; context 4 waits for its core. -/
def later : State := { cmdState cmd0 with hub := { on.hub with timer := 10000000 } }
theorem test_wit_slice : later.cmd 7 = some cmd0 ∧ cmd0.sliceAt + cmd0.sliceLen ≤ later.now ∧ later.contended cmd0 = false ∧
    (cmdState { cmd0 with stage := .killing }).cmd 7 = some { cmd0 with stage := .killing } ∧
    (let x := later.ctx 3; 8000000 + x.ovrNs ≤ later.now ∧ later.now < 8000001 + x.ovrNs) := by and_intros <;> decide +kernel
theorem test_wit_contended : ({ later with disp := { later.disp with ctxs := later.disp.ctxs ++
    [(4, { ctxQ with queues := [(0, { CmdQueue.reset with tail := 1, fetched := some { headRun with entry := { entry0 with gang := 16 } } })] })] } }).contended cmd0 = true := by
  decide +kernel
/-- R257: a head for which free cores suffice waits for none of the command's. -/
theorem test_not_contended : ({ later with disp := { later.disp with ctxs := later.disp.ctxs ++
    [(4, { ctxQ with queues := [(0, { CmdQueue.reset with tail := 1, fetched := some headRun })] })] } }).contended cmd0 = false := by decide +kernel
theorem test_wit_rerun : (cmdState { cmd0 with stage := .waitRerun }).cmd 7 = some { cmd0 with stage := .waitRerun } ∧
    1 ≤ ((cmdState cmd0).mappedCores 2 0).length ∧ ({ cmdState { cmd0 with stage := .waitRerun } with cores := [] }).placement 3 entry0 true = some [0] := by
  and_intros <;> decide +kernel

theorem test_wit_ctxop : ActsOn { fetching with disp := { fetching.disp with ctxSel := [(3, 3)] } } (.part 2) false ∧
    ActsOn { fetching with disp := { fetching.disp with ctxSel := [(0, 3)] } } .host true ∧
    ({ ctxQ with life := .free } : Ctx).valid = true ∧ ({ ctxQ with life := .free, record := 0 } : Ctx).valid = false ∧
    fetching.overReserved 3 = false ∧ fetching.ctxsHeld 2 < (fetching.part 2).ctxQuota ∧ (fetching.part 2).resetState ≠ 1 := by and_intros <;> decide +kernel

def fault0 : CtxFault := { status := stBAD_COMMAND, queue := 0, idx := 4, atFetch := true, uid := none, entry := none }
theorem test_wit_teardown : ({ ctxQ with pending := some fault0 } : Ctx).life = .active ∧
    (∀ j ∈ fetching.mem.wipes, j.why ≠ .teardown 3) ∧ Open fetching 0 (prHost .host || prCp .host || prOwns .host 2) false := by and_intros <;> decide +kernel
theorem test_teardown_event : ((after (.teardownEnd 3) { fetching with disp := { fetching.disp with
    ctxs := [(3, { ctxQ with life := .teardown, toFree := false, pending := some fault0 })] } }).mqueue 2).pkts =
    [Packet.make 2 0 0 [0x0105040228019000, 0, 0x10004]] := by decide +kernel

/-- Core 0 runs in toll interval 3. -/
def tolling : State := { run core0 with hub := { on.hub with timer := 192000 } }
theorem test_wit_toll : core0.run.isSome = true ∧ core0.life = .opened ∧ core0.toll.promptAt < tolling.now / 64000 ∧
    core0.toll.tollAt + 3 ≤ tolling.now / 64000 ∧ (run core0).now / 64000 < core0.toll.tollAt + 3 ∧ core0.fault = none ∧
    92000 + tolling.disp.stallLimit * 1000 ≤ tolling.now := by and_intros <;> decide +kernel
theorem test_toll_reaches_its_queue : ((after (.toll 0) { run { core0 with toll := { core0.toll with prompted := true } } with hub := on.hub }).mqueue 24).pkts.length = 1 := by
  decide +kernel

theorem test_wit_choke : Open (run core0) 0 (prHost .cp || prCp .cp) false ∧ core0.fault = none ∧
    ((run { core0 with life := .passed, run := none }).core 0).life = .passed := by and_intros <;> decide +kernel
theorem test_wit_slots : on.slotOf 0 = some 0 ∧ on.spareOf 0 = 16 ∧ (on.unmap 0).spareOf 0 = 0xFF ∧ ((on.unmap 0).unmap 1).mapAt 1 = 0xFF ∧
    (∀ k < 16, on.mapAt k ≠ 0xFF) := by decide +kernel


/-- Example 11.1: the inputs of a memory controller, with populations 3 and 13; a leaf source asks beside them. -/
theorem test_wit_arbiter : Asking [(0, 3), (1, 13)] ∧ Asking [(7, 1)] ∧ (∀ x ∈ [(0, 3), (1, 13)], sget 0 Arbiter.reset.credit x.1 ≤ x.2) := by
  and_intros <;> decide +kernel
theorem test_example_11_1 : (grants [(0, 3), (1, 13)] 32 Arbiter.reset).count 0 = 6 ∧ (grants [(0, 3), (1, 13)] 32 Arbiter.reset).count 1 = 26 := by
  decide +kernel
/-! ### Witnesses: memory and queues -/

/-- ASSIGN of n slabs from s to partition 2; the last slab, and one behind it. -/
def slabOpWord (op n s : Nat) : W64 := word [(op, 60), (2, 56), (2, 54), (n - 1, 32), (s, 0)]
def quotaed : State := { on with mem := { on.mem with quota := [(2, 8)] } }
def owned : State := { on with mem := mem0 }

theorem test_wit_slab_op : SlabOpen quotaed .host ∧ SlabRequest (slabOpWord 1 1 65535) ∧ ¬ SlabRequest (slabOpWord 1 2 65535) ∧
    (∀ k ∈ slabRangeOf (slabOpWord 1 1 65535), quotaed.slabLife k = .free ∧ ∀ st ∈ quotaed.bist.hbmRunning, quotaed.slabUses k st = false) ∧
    quotaed.slabsHeld 2 + slabCount (slabOpWord 1 1 65535) ≤ sget 0 quotaed.mem.quota 2 ∧
    (∀ k ∈ slabRangeOf (slabOpWord 2 2 0), owned.slabLife k = .assigned) ∧ owned.slabLife (slabFirst (slabOpWord 1 1 0)) ≠ .free ∧
    quotaed.slabLife (slabFirst (slabOpWord 2 1 0)) ≠ .assigned ∧
    SlabRequest (slabOpWord 1 1 0 + 0x1000000000000) := by
  and_intros <;> decide +kernel

def wiping : State := { owned with mem := { mem0 with wipes := [{ base := 33554432, len := 33554432, why := .release, running := true }] } }
theorem test_wit_wipe : (∀ j ∈ owned.mem.wipes, j.running = true → j.quad ≠ 0) ∧
    (wiping.mem.wipes.find? fun j => j.running && j.quad == 0) = some { base := 33554432, len := 33554432, why := .release, running := true } ∧
    wipeLeft [] 1 = false := by and_intros <;> decide +kernel
theorem test_wipe_zeroes : sget 0 wiping.mem.bytes 33554432 = 11 ∧ sget 0 (after (.slabWipeEnd 0) wiping).mem.bytes 33554432 = 0 ∧
    sget 0 (after (.slabWipeEnd 0) wiping).mem.bytes 262144 = 7 := by decide +kernel

theorem test_wit_scrub : owned.slabLife 0 ≠ .retired ∧ 0 ∉ owned.mem.poison ∧ owned.scrubNext 0 0 = 0 ∧
    rangesMeet (0, 64) (0 * 64, 64) = true := by and_intros <;> decide +kernel
theorem test_corrected_counts : ((owned.correctedError 64 true).slab 0).ce = 1 := by decide +kernel

def poisonedWord : State := { owned with mem := { mem0 with poison := [1] } }
theorem test_wit_poison : 64 / 64 ∈ poisonedWord.mem.poison ∧ ((poisonedWord.putWord 64 (List.replicate 64 9)).mem.poison = []) ∧
    sget 0 (poisonedWord.putWord 64 [9]).mem.bytes 64 = 0 ∧ sget 0 (poisonedWord.putWord 128 [9]).mem.bytes 128 = 9 := by and_intros <;> decide +kernel

theorem test_wit_translate : mapped.translate 3 33554431 true = .ok 67108863 ∧ mapped.translate 3 33554432 false = .fault stPAGE_FAULT ∧
    mapped.translate 3 (2 ^ 52) false = .fault stPAGE_FAULT := by and_intros <;> decide +kernel

def packet0 : Packet := Packet.make 2 4 0 [7, 8]
def queued : State := { on with mq := { Mq.reset with queues := [(2, { MsgQueue.reset with pkts := [packet0], seq := 5 })] } }
theorem test_wit_queue : queued.mayWrite 2 64 { src := 1, pop := 1, stop := .done, upset := none } = true ∧
    queued.mayWrite 2 65 { src := 1, pop := 1, stop := .done, upset := none } = false ∧
    PortFree (queued.mqueue 2) ∧ Sound (queued.mqueue 2) packet0 ∧ held 2 [packet0] + mqSpan 2 64 ≤ mqDepth 2 ∧
    (queued.mqueue 2).pkts = [packet0] ∧ queued.consumerRuns 2 = true ∧ mqDepth 2 ≠ 0 ∧ mqDepth 21 = 0 ∧
    Open queued 0 (prHost (.part 2) || prCp (.part 2) || (decide (2 < 16) && prOwns (.part 2) 2)) false := by and_intros <;> decide +kernel
/-- The control processor's request channel holds a packet that carries its end mark. -/
theorem test_wit_read : (let k := Packet.make 29 4 0 [7, 8]; k.len = none ∧ Sound { MsgQueue.reset with pkts := [k] } k) ∧ on.consumerRuns 29 = true := by
  and_intros <;> decide +kernel
/-- A producer waits while another writes its packet in parts. -/
theorem test_wit_wait_write : (queued.mqueue 2).writing = none ∧
    ((after (.mqPacketWrite 2 [7] { src := 1, pop := 1, stop := .more, upset := none }) queued).mqueue 2).writing = some { src := 41, seq := 5, words := [7] } := by and_intros <;> decide +kernel
/-- R223: a producer that wrote in part may abandon with no further word; SEQ is used and the words are counted. -/
def parted : State := after (.mqPacketWrite 2 [7] { src := 1, pop := 1, stop := .more, upset := none }) queued
theorem test_wit_abandon : parted.mayWrite 2 0 { src := 1, pop := 1, stop := .abandoned, upset := none } = true ∧ (parted.mqueue 2).mismatch = false ∧
    (parted.mqueue 2).waiting = [] ∧ (parted.mqueue 2).flush = false ∧ held 2 (parted.mqueue 2).pkts + mqSpan 2 1 ≤ mqDepth 2 ∧
    ((after (.mqPacketWrite 2 [] { src := 1, pop := 1, stop := .abandoned, upset := none }) parted).mqueue 2).lostW = 1 := by and_intros <;> decide +kernel
theorem test_wit_mismatch : ({ MsgQueue.reset with wr0 := 1 } : MsgQueue).mismatch = true ∧ MsgQueue.reset.mismatch = false := by decide
/-- R220, R225: a toll queue of 256 slots holds 128 tolls; one more discards the oldest. -/
def tolls (n : Nat) : MsgQueue := { MsgQueue.reset with pkts := List.replicate n (Packet.make 24 0 0 [1]) }
theorem test_full_queue : ((tolls 128).ask 0 24 { src := 0, pop := 1, words := [2], stop := .done }).lostP = 1 ∧
    ((tolls 127).ask 0 24 { src := 0, pop := 1, words := [2], stop := .done }).lostP = 0 := by decide +kernel

def ringed : State :=
  { queued with mq := { queued.mq with rings := [(2, { Ring.reset with base := 0x10000, size := 4096 })] }, host := { on.host with fns := [(3, vf3)] } }
theorem test_wit_ring : (let r := ringed.ring 2; 0 < r.size ∧ r.stopped = false ∧ (r.off + r.size - r.cons % r.size) % r.size + 24 < r.size ∧
    bitN r.base 0 = false) ∧ ringed.canMaster 3 = true ∧ ringed.takesRequest 3 = true ∧ ringSizeOk 4096 = true ∧ ringSizeOk 1048576 = true ∧
    ringSizeOk 2048 = false ∧ Open ringed 0 (prOwns (.part 2) 2) false := by and_intros <;> decide +kernel
theorem test_ring_moves : ((after (.deliverPacket 2 []) ringed).ring 2).off = 24 := by decide +kernel

/-! ### Witnesses: the host interface -/

def windowed : State := { owned with host := { on.host with fns := [(3, { vf3 with winBase := 0 })] } }
def secret : State := { windowed with disp := { Disp.reset with parts := [(2, { Part.reset with conf := true })] } }
theorem test_wit_window : (windowed.takesRequest 3 = true ∧ (windowed.fn 3).wen = true ∧ windowed.mem.held = []) ∧
    (let a := windowAt windowed 3 0 8 none []; WindowReaches windowed a ∧ WbiasAllows windowed a ∧ windowed.wiping a.pa = false ∧
      windowed.poisoned a.pa 8 = false ∧ WbiasAllows windowed { a with write := some [1] }) ∧
    (let b := windowAt secret 3 0 1 (some [1]) []; ¬ WindowReaches secret b ∧ secret.slabLife (b.pa / 2 ^ 25) = .assigned ∧ secret.confidential 2 = true) ∧
    windowed.slabLife ((windowAt windowed 3 (2 ^ 26) 8 none []).pa / 2 ^ 25) ≠ .assigned ∧
    (let w := { windowed with mem := { mem0 with slabs := [(0, { slab2 with wipe := true }), (1, slab2)] } }
     w.wiping 0 = true ∧ WindowReaches w (windowAt w 3 0 8 none [])) := by
  and_intros <;> decide +kernel
theorem test_window_reads : (after (.windowRead 3 0 1 []) windowed).hub.out = [.completion 3 [1] false] := by decide +kernel
theorem test_window_denies : (after (.windowWrite 3 0 [5] []) secret).mem = secret.mem ∧ ((after (.windowWrite 3 0 [5] []) secret).fn 3).winRefused = 1 := by
  decide +kernel

theorem test_wit_bar : windowed.takesRequest 3 = true ∧ windowed.host.linkUp = true ∧ linkModeOk 6 16 = true ∧ linkModeOk 3 16 = false ∧
    (windowed.fn 3).fnMask = false ∧ windowed.canMaster 3 = true ∧ windowed.fnThere 16 = true ∧ State.reset.fnThere 1 = false ∧
    windowed.ownsPage 0 3 = false ∧ fetching.ownsPage 3 3 = true ∧ windowed.alive = true ∧ windowed.hub.refclkH = true := by and_intros <;> decide +kernel
theorem test_pending_goes : ((({ windowed with host := { on.host with fns := [(3, { vf3 with msixEn := true, unmasked := [4], pendingVec := [4, 5] })] } }).sendPending 3).fn 3).pendingVec =
    [5] := by decide +kernel

def credited : State := { on with disp := { Disp.reset with parts := [(2, { Part.reset with cred := 9 })] } }
theorem test_wit_reattach : Open credited 0 (prHost .host || (decide ((2 : BitVec 8).toNat < 16) && prOwns .host 2)) true ∧ reattachFn 2 = some 3 ∧
    reattachFn 0xFF = some 0 ∧ reattachFn 16 = none ∧ (credited.fn 3).keeping = false ∧ credited.credOk 3 9 = true ∧ credited.credOk 3 8 = false := by
  and_intros <;> decide +kernel
def hostInst : Inst :=
  { desc := decodePeal (bget mem0.bytes 33554432 128), uid := 7, part := 2, ctx := 3, waiters := [(0, 7)], rx := [], status := none, done := false, flags := 0,
    opened := [], hit := false, dropped := false, stall := some 0, serve := none, staged := [], copied := [] }
theorem test_wit_wait_limit : hostInst.uid = 7 ∧ hostInst.stall = some 0 ∧
    0 + on.host.waitLimit * 1000000000 ≤ ({ on with hub := { on.hub with timer := 60000000000 } }).now := by and_intros <;> decide +kernel

theorem test_wit_gate : on.writeGate 0 false false = some rDENIED ∧ ({ on with sec := { on.sec with lc := .scrapped } }).writeGate 9 true false = some rREFUSED ∧
    ({ on with fw := { on.fw with run := some .loader } }).writeGate 9 true false = none := by and_intros <;> decide +kernel

/-! ### Witnesses: geril and the carillon -/

/-- An IPv4 address in its IPv4-mapped form. -/
def ip4 (a : Nat) : BitVec 128 := BitVec.ofNat 128 (0xFFFF * 2 ^ 32 + a)
def rank1 : RankEntry := { RankEntry.reset with ident := 5, inc := 2, state := 1, addrs := [ip4 0x0A000002, 0, 0, 0] }
def spare2 : RankEntry := { RankEntry.reset with ident := 9, inc := 0, state := 2 }
def portUp : Port := { Port.reset 0 with st := .up, ipv4 := 0x0A000001 }

/-- This device is rank 0 of incarnation 1, joined; rank 1 is active and rank 2 a spare. -/
def joined : State :=
  { on with
    car := { Carillon.reset with en := true, st := 1, ownRank := 0, ownInc := 1, activeRanks := 2,
                                 ranks := [(0, { RankEntry.reset with ident := State.reset.deviceId, inc := 1, state := 1 }), (1, rank1), (2, spare2)] }
    eth := { Eth.reset with ports := portUp :: Eth.reset.ports.tail } }

/-- A packet of rank 1 with an incarnation, to port 0's IPv4 address. -/
def pktI (inc : BitVec 32) (typ op seq : Nat) (payload : List Byte) : GPkt :=
  { port := 0, srcIp := ip4 0x0A000002, dstIp := ip4 0x0A000001, sport := 48731, dport := 48731, ecn := 2, df := true, cksumOk := true,
    head := ({ retx := false, last := true, ece := false, len := BitVec.ofNat 14 payload.length, offset := 0, opid := 77, gen := 0, inc := inc, dst := 0,
               src := 1, seq := BitVec.ofNat 32 seq, stream := 3, op := BitVec.ofNat 8 op, typ := BitVec.ofNat 4 typ, ver := 1 } : GHdr).word
    region := 0, at_ := 0, want := 0, tc := 0, payload := payload }
def pkt : Nat → Nat → Nat → List Byte → GPkt := pktI 2

/-- R316: the sequence number stands in bytes 4 to 7 of the header, the type in bits 7 to 4 of byte 0. -/
theorem test_header_bits : (pkt 1 0 4 []).head.extractLsb' 32 32 = 4 ∧ (pkt 1 0 4 []).head.extractLsb' 0 8 = 0x11 ∧
    (pkt 1 0 4 []).head.extractLsb' 96 32 = 2 ∧ (pkt 1 0 4 []).seq = 4 ∧ (pkt 1 0 4 []).typ = 1 := by decide +kernel
theorem test_wit_header : ∃ h : GHdr, (pkt 1 0 4 []).head = h.word := ⟨_, rfl⟩

theorem test_wit_accepted : Accepted joined (pkt 1 0 4 [9]) 1 none ∧ Accepted joined (pkt 2 0 4 [9]) 2 none ∧
    (∀ o ∈ [1, 2, 3, 5, 6, 7, 8, 9], Accepted joined (pkt 3 o 4 [9]) 3 (some o)) ∧ HeaderGood joined (pkt 3 4 4 [9]) 3 (some 4) := by
  and_intros <;> decide +kernel
theorem test_wit_stale : HeaderGood joined (pktI 1 1 0 4 [9]) 1 none ∧ (joined.rankEntry 1).present = true ∧
    HeaderGood joined (pktI 3 1 0 4 [9]) 1 none ∧ on.car.en = false ∧ joined.forGeril (pkt 1 0 4 [9]) = true ∧ joined.forGeril { pkt 1 0 4 [9] with dport := 9 } = false ∧ ({ pkt 1 0 4 [] with cksumOk := false } : GPkt).cksumOk = false := by
  and_intros <;> decide +kernel

/-- Rank 1's stream 3 expects packet 4 and holds packet 6. -/
def receiving : State :=
  { joined with peal := { Peal.reset with rx := [{ rank := 1, stream := 3, opid := 77, op := 0, expected := 4, held := [⟨pkt 1 0 6 [8], 0⟩], since := 0,
                                                   ackAt := some 0, ce := 0 }] } }
theorem test_wit_data : ((counted receiving (pkt 1 0 4 [9])).rxStream 1 3).isSome = true ∧
    (receiving.deliverData ⟨pkt 1 0 4 [9], 0⟩).isSome = true ∧ (BitVec.ofNat 32 3 - BitVec.ofNat 32 4 : BitVec 32).toNat ≥ 2 ^ 31 ∧
    1 + 1 ≤ receiving.rwndOf 77 := by and_intros <;> decide +kernel
/-- R320: packet 4 is delivered, packet 5 still missing; packet 5 then takes packet 6 with it. -/
theorem test_data_in_turn : ((after (.gerilData (pkt 1 0 4 [9])) receiving).peal.rx.map fun r => r.expected) = [5] ∧
    ((after (.gerilData (pkt 1 0 5 [9])) (after (.gerilData (pkt 1 0 4 [9])) receiving)).peal.rx.map fun r => (r.expected, r.held.length)) = [(7, 0)] := by
  decide +kernel
theorem test_duplicate_counted : sget 0 (after (.gerilData (pkt 1 0 3 [9])) receiving).peal.counters cDup = 1 := by decide +kernel

/-- A stream to rank 1 with a packet whose timeout has closed, sent again n times. -/
def txStream (n : Nat) : TxStream :=
  { rank := 1, stream := 3, port := 0, opid := 77, op := 0, tc := 0, gen := 0, source := none, total := 64, chunks := [], next := 5,
    unacked := [{ seq := 4, off := 0, pkt := pkt 1 0 4 (List.replicate 64 0), retx := n, deadline := 0, sentAt := 0 }], fastAt := [] }
def sending (n : Nat) : State := { joined with peal := { Peal.reset with tx := [txStream n] } }
theorem test_wit_timers : (receiving.rxStream 1 3).bind (fun r => r.ackAt) = some 0 ∧ ((sending 15).txStream 1 3).isSome = true ∧
    (sending 15).peal.retxLimit ≤ 15 + 1 ∧ ((sending 15).conn 1).unreach = false ∧ 0 + 1 < (sending 0).peal.retxLimit ∧
    (sending 15).maySend (txStream 15) = true ∧ on.maySend (txStream 15) = false := by and_intros <;> decide +kernel
/-- R321, R342: at RETX_LIMIT the peer is unreachable. -/
theorem test_unreachable : ((after (.rtoExpiry 1 3 4) (sending 15)).conn 1).unreach = true ∧ ((after (.rtoExpiry 1 3 4) (sending 14)).conn 1).unreach = false := by
  decide +kernel

theorem test_wit_control : joined.car.ownInc.toNat < natAt (pkt 3 3 0 (List.replicate 12 1)).payload 8 4 ∧ joined.car.st ≠ 3 ∧
    BitVec.ofNat 16 (natAt [1, 1] 0 2) ∈ faultCodes ∧ 0 ∉ faultCodes ∧ hostInst.desc.isHost = true := by and_intros <;> decide +kernel
def regioned : State := { joined with peal := { Peal.reset with regions := [(5, 1)], insts := [{ hostInst with desc := { hostInst.desc with opid := 77 } }] } }
theorem test_wit_commit_notice : natAt [5] 0 1 < 64 ∧ (∃ b < 256, regEnable (2 ^ b : BitVec 256) = true) ∧ (regioned.inst 77).isSome = true := by
  and_intros <;> decide +kernel

/-- ANNOUNCE of the spare with identity 9, which takes rank 1 over with incarnation 3. -/
def announce : GPkt := pktI 3 3 4 0 (leBytes 8 9 ++ leBytes 4 3)
theorem test_wit_announce : HeaderGood joined announce 3 (some 4) ∧ announce.inc.toNat = (joined.rankEntry 1).inc.toNat + 1 ∧
    ((List.range 255).find? fun x => ((counted joined announce).rankEntry x).state == 2 && ((counted joined announce).rankEntry x).ident == 9) = some 2 := by
  and_intros <;> decide +kernel
theorem test_takeover_seen : ((after (.announce announce) joined).rankEntry 1).inc = 3 ∧ ((after (.announce announce) joined).rankEntry 2).state = 3 := by
  decide +kernel

def taking : State :=
  { joined with car := { joined.car with takeover := some { deadline := 0, refused := false, waiting := [{ rank := 1, retx := 0, due := 0 }, { rank := 2, retx := 0, due := 0 }] } } }
theorem test_wit_resume : Accepted taking (pkt 3 5 0 []) 3 (some 5) ∧ (∃ a ∈ [(1, 0), (2, 0)], a.1 = 1) ∧ taking.car.activeRanks ≤ 2 := by
  and_intros <;> decide +kernel
theorem test_takeover_ends : (after (.resume (pkt 3 5 0 [])) taking).car.takeover = none := by decide +kernel

def spared : State := { joined with car := { joined.car with st := 2, ownRank := 2 } }
def fencedOff : State := { joined with car := { joined.car with st := 3, ranks := [(2, { spare2 with ident := State.reset.deviceId })] } }
theorem test_wit_carillon : Open joined 0 (prHost .host || prCp .host) true ∧ Open joined 0 (prHost .host || prCp .host) false ∧ joined.car.st ≠ 3 ∧
    spared.car.st = 2 ∧ 1 < spared.car.activeRanks ∧ (spared.rankEntry 1).state ≠ 0 ∧ (spared.rankEntry 1).inc ≠ 0xFFFFFFFF ∧
    fencedOff.car.st = 3 ∧ fencedOff.car.unreset &&& fencedOff.peal.parts = 0 ∧ (fencedOff.rankEntry 2).state = 2 := by and_intros <;> decide +kernel
theorem test_wit_rejoin : (fencedOff.rankEntry 2).ident = fencedOff.deviceId := rfl
theorem test_wit_tolls : joined.car.nextToll ≤ joined.now ∧ (joined.rankEntry 1).present = true ∧ (1 : Fin 255).val ≠ joined.ownRank ∧ 1 ∉ joined.car.silent ∧
    joined.tollAge 1 < joined.car.miss * joined.car.period * 1000 ∧
    joined.car.miss * joined.car.period * 1000 ≤ ({ joined with hub := { joined.hub with timer := 3000000 } } : State).tollAge 1 := by
  and_intros <;> decide +kernel

/-! ### Witnesses: ports -/

theorem test_wit_port : PortOpen joined .host ∧ LanesFit joined 0 4 ∧ LanesFit joined 0 2 ∧ ¬ LanesFit joined 1 4 ∧ ¬ LanesFit joined 1 1 ∧
    LanesFit joined 1 0 ∧ (0 : Nat) < joined.eth.ports.length ∧ (joined.port 0).an = true ∧ (joined.port 0).lanes ≠ 0 ∧ joined.hub.refclkE = true := by
  and_intros <;> decide +kernel
theorem test_wit_linkdown : (0 : Nat) < joined.eth.ports.length ∧ (joined.port 0).st = .up ∧ PortState.training ≠ .up := by and_intros <;> decide +kernel
theorem test_lanes_retrain : ((after (.portLanes .host 0 2) joined).port 0).st = .training ∧ ((after (.portLanes .host 0 0) joined).port 0).st = .disabled := by
  decide +kernel

def flow (f : ClassState → ClassState) (pfc : BitVec 8) : State :=
  { joined with eth := { joined.eth with ports := { portUp with pfcEn := pfc, ticks := 200000000, classes := [(3, f ClassState.reset)] } :: Eth.reset.ports.tail } }
theorem test_wit_pause : ((flow id 8).port 0).pfcEn.getLsbD 3 = true ∧ (((flow id 8).port 0).cls 3).broken = false ∧
    ((flow (fun c => { c with pauseEnd := some 200000000 }) 8).port 0).ticks = 200000000 ∧
    0 + portUp.pauseLimit * 1000000 ≤ 200000000 ∧ ((flow (fun c => { c with broken := true }) 8).port 0).cls 3 = { ClassState.reset with broken := true } ∧
    0 + pauseNs 65535 portUp.rate / 2 ≤ 200000000 := by and_intros <;> decide +kernel
/-- R304: a paused class is broken at 20 ms, with event 2. -/
theorem test_pause_breaks : (((after (.pauseLimit 0 3) (flow (fun c => { c with pauseEnd := some 200000000 }) 8)).port 0).cls 3).broken = true := by decide +kernel
/-- R304: quanta of 512 bit times; at 400 Gb/s one is 1.28 ns. -/
theorem test_quanta : pauseNs 100 400 = 128 := by decide +kernel

def frame64 (fcs : Bool) (n : Nat) : RxFrame := { fcs := fcs, symbol := false, bytes := List.replicate n 0 }
theorem test_wit_frame : GoodFrame portUp (frame64 false 64) ∧ ¬ GoodFrame portUp (frame64 true 64) ∧ ¬ GoodFrame portUp (frame64 false 63) ∧
    (portUp.cls (portUp.rxClass none)).share + 64 ≤ 262144 ∧
    262144 < (((flow (fun c => { c with share := 262143 }) 0).port 0).cls 3).share + 64 ∧ ((flow id 0).port 0).pfcEn.getLsbD 3 = false := by
  and_intros <;> decide +kernel
theorem test_runt_counted : sget 0 ((after (.frameReceive 0 (frame64 true 63) (0, 0) none) joined).port 0).counters pRxRunt = 1 ∧
    sget 0 ((after (.frameReceive 0 (frame64 true 63) (0, 0) none) joined).port 0).counters pRxFcs = 1 := by decide +kernel

def txf (n : Nat) : TxFrame := { tc := 2, len := n, body := .pfc 0 0 }
def queuedTx (g : Option Sched) (n : Nat) : State :=
  { joined with eth := { joined.eth with ports := { portUp with txq := [(2, [txf n])], active := g, gateEn := true } :: Eth.reset.ports.tail } }
def closed2 : Sched := { list := [(0x04, 1), (0, 999999)], cycle := 1000000, base := 0 }
theorem test_wit_transmit : sget [] ((queuedTx none 64).port 0).txq 2 = [txf 64] ∧ ((queuedTx none 64).port 0).mayStart 2 64 = true ∧
    ((queuedTx none 64).port 0).outranked 2 = false ∧ ((queuedTx none 64).port 0).oversize 2 64 = false ∧
    ((queuedTx (some closed2) 9000).port 0).oversize 2 9000 = true ∧ ((queuedTx none 64).port 0).st = .up := by and_intros <;> decide +kernel

def scheduled : Port := { portUp with pendList := leBytes 4 (5 + 4 * 256) ++ leBytes 4 9, pendCycle := 1000 }
theorem test_wit_schedule : PendingSchedule { portUp with pendList := [4, 0xE8, 3, 0, 0], pendCycle := 1000 } ∨ PendingSchedule scheduled := by decide +kernel
theorem test_change_time : changeTime 500 1000 0 = 1500 ∧ changeTime 500 1000 501 = 2500 ∧ changeTime 5000 1000 0 = 5000 := by decide +kernel

/-! ### Witnesses: a complete peal -/

/-- Core 0 has issued the HOST_WRITE of no bytes. -/
def hostWriting : State := after (.hostWrite 0 pealWord) { mapped with host := { mapped.host with fns := [(3, vf3)] } }
theorem test_wit_complete :
    (match hostWriting.peal.insts with
      | [i] => !i.done && i.status.isNone && (match hostWriting.view i.ctx i.desc with
        | .ok v => hostWriting.transfersDone i v && (match hostWriting.results i v [] with
          | .ok r => (match hostWriting.finishPeal i r [] with
            | .ok _ => true
            | _ => false)
          | _ => false)
        | _ => false)
      | _ => false) = true := by decide +kernel
/-- R342: completion frees the slot. -/
theorem test_complete_frees : (hostWriting.core 0).eng.slots = [7] ∧ ((after (.pealComplete 0 0 []) hostWriting).core 0).eng.slots = [] := by decide +kernel
/-! ### Witnesses: the damper and lending -/

def dampered (f : Damper → Damper) : State := { joined with damper := f joined.damper }
/-- The VCQ rails at 700 mV, one of the other rails at 1 V and p mA, every die at t. -/
def sample (p t : Nat) : CapSample :=
  { vcqMv := [700, 700, 700, 700], rails := ⟨1000, p⟩ :: List.replicate 9 ⟨0, 0⟩, temps := [t, t, t, t, t] }
/-- R389: module power is the sum of V × I: 1 V at 2 A and four rails of 0.7 V at 1 A are 4.8 W. -/
theorem test_power : samplePower (sample 2000 0) [1000, 1000, 1000, 1000] = 4800 := by decide
/-- R388: a reading older than 1 ms has left the mean; one older than 10 ms is not kept. -/
theorem test_mean : (let d : Damper := { Damper.reset with readings := [⟨0, 1000, [0, 0, 0, 0]⟩] }
     ((d.measure 999999 (sample 3 0)).powerOver 999999 1000000, (d.measure 1000000 (sample 3 0)).powerOver 1000000 1000000,
      (d.measure 10000000 (sample 3 0)).readings.length)) = (501, 3, 1) := by decide +kernel

theorem test_wit_cap : Open joined 0 (prHost .host || prBmc .host || prCp .host) true ∧ (399 : BitVec 16).toNat < 400 := by decide +kernel
theorem test_wit_cap_range : 400 ≤ (500 : BitVec 16).toNat ∧ (500 : BitVec 16).toNat ≤ Config.capFused := by
  refine ⟨by decide, ?_⟩
  unfold Config.capFused
  split <;> decide
theorem test_wit_cap_raise : 400 < (500 : BitVec 16).toNat ∧
    ({ Damper.reset with capSet := 500, capInForce := 500, meanPower := 600000 } : Damper).regPoint < 600000 * 1000 := by decide +kernel
theorem test_wit_loop : joined.damper.shutdown = false ∧ joined.damper.telemetry = true ∧ joined.damper.fastBits % 8 = 0 := by and_intros <;> decide +kernel
theorem test_wit_fast : (joined.damper.fastOf 1).highAt = none ∧ 228000 ≤ ({ Fast.reset with window := List.replicate 400 (0, 228000), timer := 4000 } : Fast).mean ∧
    ({ Fast.reset with window := List.replicate 400 (0, 228000), timer := 4010 } : Fast).mean < 228000 := by and_intros <;> decide +kernel
/-- R394: a sample of 290 A holds the quadrant for 4 µs. -/
theorem test_peak : ((after (.fastLoop 1 290000) joined).damper.fastOf 1).holdTil = some 4000 ∧
    ((after (.fastLoop 1 289999) joined).damper.fastOf 1).holdTil = none := by decide +kernel
theorem test_wit_telemetry : (dampered fun d => { d with telemetry := false }).damper.telemetry = false := by decide

def loan1 : Loan := { seq := 4, rank := 1, amount := 4000, sentAt := 0, recalled := none, granted := true }
def lending (own peer : Nat) : State :=
  dampered fun d => { d with lendEn := true, slackSum := own, slackN := 1, capSet := 400, lendStep := 4000, peerSlack := [(1, BitVec.ofNat 16 peer)] }
theorem test_wit_lend : (lending 9000 0).mayLend = true ∧ joined.mayLend = false ∧ lowestSlack (lending 9000 7).slacks = some (2, 0) ∧
    0 + (lending 9000 0).damper.lendThresh ≤ ownSlack (lending 9000 0).damper ∧ 0 + 4000 ≤ 400 * 150 ∧
    ¬ (100 : Nat) + (lending 100 0).damper.lendThresh ≤ ownSlack (lending 100 0).damper := by and_intros <;> decide +kernel
/-- R400: a decision is due LEND_PERIOD after the last one, and only then. -/
theorem test_wit_lend_due : (let s := { lending 0 0 with hub := { on.hub with timer := 10000000 } }
    s.alive = true ∧ s.damper.lendAt + s.damper.lendPeriod * 1000 ≤ s.now ∧ s.mayLend = true) ∧
    ¬ (lending 0 0).damper.lendAt + (lending 0 0).damper.lendPeriod * 1000 ≤ (lending 0 0).now ∧
    (dampered fun d => { d with lendEn := true, shutdown := true }).mayLend = false := by and_intros <;> decide +kernel
theorem test_wit_recall : (dampered fun d => { d with loans := [loan1], peerSlack := [(1, 5)] }).toRecall 4 = some loan1 ∧
    (dampered fun d => { d with capSet := 400, loans := [loan1], peerSlack := [(1, 5)] }).toRecall 5 = none := by and_intros <;> decide +kernel

def lendMsg (amount : Nat) : LendMsg := { ver := 1, rank := 1, inc := 2, dst := 0, loan := 9, amount := BitVec.ofNat 32 amount }
theorem test_wit_lend_message : LendOk joined (lendMsg 0) ∧ ¬ LendOk on (lendMsg 0) ∧ (lendMsg 0).inc = (joined.rankEntry 1).inc ∧
    ({ lendMsg 0 with inc := 1 } : LendMsg).inc ≠ (joined.rankEntry 1).inc ∧ (lending 0 0).damper.borrows = [] := by and_intros <;> decide +kernel
def borrowing : State := dampered fun d => { d with lendEn := true, borrows := [{ rank := 1, seq := 9, amount := 5, at_ := 0, ending := false }] }
theorem test_wit_borrow : LendOk borrowing (lendMsg 5) ∧ borrowing.now < 0 + (borrowing.damper.lendLease - borrowing.damper.lendGuard) * 1000000 ∧
    (borrowing.damper.borrows.find? fun b => b.rank == 1 && b.seq == 9).isSome = true := by and_intros <;> decide +kernel
/-- R400: a grant within 15 % of the own cap is taken; one above it is refused with amount 0. -/
theorem test_grant_bound : (after (.grant (lendMsg 60000)) (lending 0 0)).damper.borrowed = 60000 ∧
    (after (.grant (lendMsg 60001)) (lending 0 0)).damper.borrowed = 0 := by decide +kernel

/-! ### Witnesses: security -/

def life (lc : LifeCycle) (n : Nat) : State := { on with sec := { on.sec with lc := lc, transitions := n } }
theorem test_wit_life : WriteOpen (life .provisioned 1) (prHost .host || prBmc .host) true ∧ prHost .host = true ∧ prHost .bmc = false ∧
    (life .provisioned 1).sec.transitions < 15 ∧ (15 : Nat) ≤ (life .operational 15).sec.transitions ∧ (life .scrapped 3).sec.lc = .scrapped := by
  and_intros <;> decide +kernel
/-- A token is accepted only where the signature verifies (a function with no body), so the other premises are shown. -/
theorem test_wit_token (token : List Byte) (h : (life .returned 3).tokenOk token = true) : (life .returned 3).sec.lc = .returned ∧
    (life .returned 3).sec.transitions < 15 ∧ WriteOpen (life .returned 3) (prHost .host || prBmc .host) true ∧ (life .returned 3).tokenOk token = true := by
  refine ⟨rfl, by decide, by decide +kernel, h⟩
theorem test_life_cycle_moves : (after (.lcToReturned .bmc []) on).sec.lcTarget = some .returned ∧
    (after .lcWipeEnd (after (.lcToReturned .bmc []) on)).sec.lc = .returned := by decide +kernel

theorem test_wit_conf : WriteOpen on (prHost .host) false ∧ on.allFree 2 = true ∧ mapped.allFree 2 = false ∧ on.anyConfidential = false ∧
    secret.anyConfidential = true ∧ (on.part 2).conf = false ∧ (on.part 2).confNext = none ∧ (on.part 2).resetState ≠ 1 := by and_intros <;> decide +kernel

/-- MEASURE of 8 bytes at address 0 of context 3, sealed. -/
def meas : List Byte := [3, 0, 1, 0, 0, 0, 0, 0] ++ leBytes 8 0 ++ leBytes 8 8
theorem test_wit_measure : Open mapped 8 (prOwns (.part 2) 2) true ∧ MeasureFields meas ∧ ¬ MeasureFields (leBytes 24 0) ∧ (measureOf 2 meas).ctx = 3 ∧
    (mapped.ctx 3).part.toNat = 2 ∧ mapped.measureBusy (measureOf 2 meas) = true ∧
    ({ mapped with disp := { mapped.disp with issued := [] } } : State).measureBusy (measureOf 2 meas) = false ∧
    mapped.vaRead 3 0 8 = .ok [11, 0, 0, 0, 0, 0, 0, 0] ∧ mapped.vaRead 3 (2 ^ 40) 8 = .fault stPAGE_FAULT := by and_intros <;> decide +kernel

theorem test_wit_report : WriteOpen on (prHost .host || prBmc .host || prOwns .host 255) true ∧ natAt (255 :: List.replicate 64 1) 0 1 = 255 ∧
    (255 :: List.replicate 64 (1 : Byte)).length = 65 ∧ natAt ((16 : Byte) :: List.replicate 64 1) 0 1 = 16 := by and_intros <;> decide +kernel
def install : List Byte := List.replicate 1792 0
theorem test_wit_install : WriteOpen on (prHost .host || prBmc .host) true ∧ install.length = 1792 ∧ bytesAt install 0x670 64 ∉ on.sec.digests := by
  and_intros <;> decide +kernel
/-- A key opens only where the tag verifies (a function with no body), so the other premises are shown. -/
theorem test_wit_ckey (k : List Byte) (h : on.sec.ckeyOpen install = some k) :
    let s : State := { on with sec := { on.sec with digests := [List.replicate 64 0] } }
    s.sec.lc = .operational ∧ bytesAt install 0x670 64 ∈ s.sec.digests ∧ s.sec.ckeyOpen install = some k := by
  refine ⟨rfl, by decide +kernel, h⟩

/-- A package of one byte at address 0 of context 3, to be loaded at 8 MiB. -/
def pkgData : List Byte := leBytes 2 3 ++ leBytes 8 0 ++ leBytes 8 0x800000 ++ leBytes 8 1
def pkgMem (good : Nat) : State :=
  { mapped with
    disp := { mapped.disp with issued := [] }
    mem := { mem0 with bytes := [(0, 1), (2, 4), (262144, 7), (262147, 2), (33554432, 0x50), (33554433, 0x57), (33554434, 0x70), (33554435, 0x7A),
      (33554436, BitVec.ofNat 8 good), (33554440, 1), (33554448, 16), (33554452, 1)] } }
def pkgJob : PkgJob := { pkgOf 2 pkgData with key := some [1], keyId := List.replicate 64 0 }
theorem test_wit_pkg : WriteOpen (pkgMem 1) (prHost .host || prOwns .host 2) true ∧ pkgData.length = 26 ∧ (pkgMem 1).pkgBarred (pkgOf 2 pkgData) = false ∧
    (pkgMem 1).sec.pkgs = [] ∧ on.pkgBarred (pkgOf 2 pkgData) = true ∧
    ((pkgMem 1).meetRanges 3 [(0, 4096)]).pkgOverlaps (pkgOf 2 pkgData) = false ∧ (pkgMem 1).pkgOverlaps (pkgOf 2 (leBytes 2 3 ++ leBytes 8 0 ++ leBytes 8 0 ++ leBytes 8 1)) = true ∧ (pkgMem 1).vaRead 3 (2 ^ 40) 4096 = .fault stPAGE_FAULT := by and_intros <;> decide +kernel
theorem test_wit_pkg_header : pkgFormatOk [0x50, 0x57, 0x70, 0x7A, 1, 0, 0, 0, 1, 0, 0, 0, 0, 0, 0, 0, 16, 0, 0, 0, 1] 1 = true ∧
    pkgFormatOk [0x50, 0x57, 0x70, 0x7A, 2, 0, 0, 0, 1, 0, 0, 0, 0, 0, 0, 0, 16, 0, 0, 0, 1] 1 = false := by and_intros <;> decide +kernel

/-- The segment's plaintext is a function with no body, so what follows a segment that opens is shown. -/
theorem test_wit_pkg_load (h : List Byte) (e : bytesAt h 0x20 64 = pkgJob.keyId) (f : pkgFormatOk h 1 = true) (b : List Byte) (t : State)
    (g : (pkgMem 1).pkgSegs pkgJob [1] h 0 (pkgCount h) = .ok (none, t)) (m : (t.mlog 2).length < 256) :
    pkgJob.key = some [1] ∧ bytesAt h 0x20 64 = pkgJob.keyId ∧ pkgFormatOk h pkgJob.len = true ∧ (t.mlog pkgJob.part).length < 256 ∧
      b = b ∧ (pkgMem 1).pkgSegs pkgJob [1] h 0 (pkgCount h) = .ok (none, t) := ⟨rfl, e, f, m, rfl, g⟩

theorem test_wit_ide : on.hub.ready = true ∧ on.host.linkUp = true ∧ on.sec.spdm = false ∧
    ({ on with sec := { on.sec with spdm := true } } : State).sec.spdm = true := by decide
/-- R425: keys first, then secure. -/
theorem test_ide : sget 0 (after (.ideKm 0 .secure) { on with sec := { on.sec with spdm := true } }).sec.ide 1 = 0 ∧
    sget 0 (after (.ideKm 0 .secure) { on with sec := { on.sec with spdm := true, ide := [(1, 1)] } }).sec.ide 1 = 2 := by decide +kernel
/-! ### Witnesses: Voxyx, the mailbox and MCTP -/

def vmsg (index sub : Nat) (data : List Byte) (len : Nat) : VMsg :=
  { ver := 1, token := 5, index := BitVec.ofNat 16 index, sub := BitVec.ofNat 8 sub, flags := 3, offset := 0, len := BitVec.ofNat 16 len, result := 0,
    rsv := 0, data := data }
def box : Channel := .mailbox 0
def spoken (t : Nat) : HeldResp := { token := BitVec.ofNat 16 t, op := 1, index := 0x1001, sub := 1, flags := 0, offset := 0, result := 0, data := [7] }
/-- The PF's channel has answered the request of token 5. -/
def answered : State := { on with dict := { on.dict with chans := [{ Chan.fresh box with held := [spoken 5] }] } }

theorem test_wit_request : on.chanOpen box = true ∧ State.reset.chanOpen box = false ∧ malformed (vmsg 0x1001 1 [] 4) 1 (chanMax box) = false ∧
    malformed { vmsg 0x1001 1 [] 4 with ver := 2 } 1 (chanMax box) = true ∧ on.dict.waiting = [] ∧
    on.carries box (vmsg 0x1001 1 [] 4) .good = true ∧ (∀ h ∈ (on.chan box).held, h.token ≠ 5) ∧
    (answered.chan box).held.find? (fun h => h.token == 5) = some (spoken 5) ∧ joined.chanOpen (.peer 1) = true ∧
    malformed (vmsg 0xB003 1 [1] 1) 2 (chanMax (.peer 1)) = false ∧ on.chanOpen (.mctp 0 9) = true ∧
    on.carries (.mctp 0 9) (vmsg 0x1001 1 [] 4) .good = true ∧ on.carries (.mctp 0 9) (vmsg 0x1001 1 [] 4) { MctpEnv.good with typ := 1 } = false ∧
    chanSub (.peer 1) = 4 ∧ chanSub box ≠ 4 := by and_intros <;> decide +kernel
/-- R443, R449: four requests of a channel may wait, and one of a peer. -/
def crowded : State := { joined with dict := { joined.dict with waiting := [{ asked (.peer 1) 1 (vmsg 0x1001 1 [] 4) with passed := true }] } }
theorem test_wit_crowd : chanLimit (.peer 1) ≤ (crowded.waitOf (.peer 1)).length ∧ (crowded.waitOf box).length < chanLimit box := by decide +kernel
/-- R444: a persistent entry's write needs the control processor, an identity's read does not; its request channel is idle unless it holds a packet. -/
theorem test_wit_passes : on.passes (asked box 2 (vmsg 0x3000 2 [0, 2] 2)) = true ∧ on.passes (asked box 1 (vmsg 0x1000 2 [] 4)) = false ∧ on.cpIdle = true ∧
    ({ on with mq := { on.mq with queues := [(30, { MsgQueue.reset with pkts := [Packet.make 30 0 0 [1]] })] } } : State).cpIdle = false := by
  and_intros <;> decide +kernel
/-- R448: with no request before it, GO brings the response of 16 bytes with DONE. -/
theorem test_go : (let b := ((after (.mailboxGo 0 0 (.write 1))
      { on with host := { on.host with fns := [(0, { Fn.reset with mailbox := { Mailbox.reset with req := reqBytes 1 (vmsg 0x0001 1 [] 4) } })] } }).fn 0).mailbox
    (b.done, b.busy, b.rsp.length, natAt b.rsp 14 1)) = (true, false, 16, 1) := by decide +kernel
theorem test_wit_results :
    (on.voxOp box .host 1 (vmsg 0x0001 1 [] 4)).1.result = rNO_ENTRY ∧ (on.voxOp box .host 1 (vmsg 0x0001 1 [] 4)).1.result ≠ rBUSY ∧
    (({ on with fw := { on.fw with run := some .loader } } : State).voxOp box .host 1 (vmsg 0x4001 1 [] 4)).1.result = rBUSY := by
  and_intros <;> decide +kernel
/-- An entry's rights for a principal, its size, and whether the control processor reads it. -/
def rightsOf (index sub : Nat) (pr : Principal) : Option (Bool × Bool × Bool × Bool) :=
  (on.findEntry pr index sub).map fun e => (e.2.1, e.2.2, e.1.typ.size.isSome, cpReads e.1)
theorem test_wit_rights : on.turnedAway 1 0x1001 1 = none ∧ on.findEntry .host 0x0001 1 = none ∧ rightsOf 0x1000 2 .host = some (true, false, true, false) ∧
    rightsOf 0x2100 1 .host = some (false, true, true, false) ∧ rightsOf 0x1010 1 .host = some (true, true, true, false) ∧
    on.writeGate (0x1010 / 4096) true (match on.findEntry .host 0x1010 1 with
      | some e => cpWrites e.1 1
      | none => true) = none := by and_intros <;> decide +kernel

theorem test_wit_image : (Fw.reset.imageSegment [1] true false).slot true = .empty ∧ (Fw.reset.imageSegment [1] true true).slot true = .pending ∧
    ({ Fw.reset with slotB := .trial } : Fw).slotB = .trial := by and_intros <;> decide +kernel
def lapsing (t : Nat) : State :=
  { on with hub := { on.hub with timer := t }
            dict := { on.dict with chans := [{ Chan.fresh box with snapshot := some { index := 0, sub := 0, value := [], last := 0 } }] } }
theorem test_wit_mailbox : on.chanOpen (.mailbox 0) = true ∧ (on.fn 0).mailbox.busy = false ∧ ((lapsing 10000000000).chan box).snapshot.isSome = true ∧
    0 + 10000000000 ≤ (lapsing 10000000000).now ∧ (lapsing 5).now < 0 + 10000000000 ∧
    ((({ on with host := { on.host with fns := [(0, { Fn.reset with mailbox := { Mailbox.reset with busy := true } })] } } : State).fn 0).mailbox.busy = true) := by
  and_intros <;> decide +kernel
/-- R9, R448: DONE clears where a 1 is written, and the interrupt register keeps IEN and VEC. -/
def boxed : State := { on with host := { on.host with fns := [(0, { Fn.reset with mailbox := { Mailbox.reset with done := true } })] } }
theorem test_mailbox_done : boxed.takesRequest 0 = true ∧ ((after (.mailboxGo 0 8 (.write 1)) boxed).fn 0).mailbox.done = true ∧
    ((after (.mailboxGo 0 8 (.write 2)) boxed).fn 0).mailbox.done = false ∧
    ((after (.mailboxGo 0 16 (.write 0x803)) boxed).fn 0).mailbox.reg 16 = 0x803 ∧
    ((after (.mailboxGo 0 0x808 (.write 0x1234)) boxed).fn 0).mailbox.reg 0x808 = 0x1234 := by decide +kernel
theorem test_wit_mctp : on.mctpOpen 0 = true ∧ on.mctpOpen 1 = false ∧ (9 : BitVec 8) ≠ 0 ∧ on.alive = true := by and_intros <;> decide +kernel
/-- R445: an endpoint ID given is kept; 0xFF is none. -/
theorem test_eid : sget 0 (after (.setEndpointId 0 9) on).dict.eids 0 = 9 ∧ sget 0 (after (.setEndpointId 0 255) on).dict.eids 0 = 0 := by decide +kernel

/-! ### Witnesses: boot, firmware, self-test, test access port -/

def fresh : State := { State.reset with hub := { Hub.reset with trained := true } }
theorem test_wit_boot : State.reset.alive = true ∧ State.reset.fw.run = none ∧ on.fw.run ≠ none ∧ State.reset.hub.trained = false ∧
    on.hub.trained = true ∧ on.hub.started = true ∧ slabQuad 0 = 0 / 8 ∧ slabRange 0 = 0 % 8 := by and_intros <;> decide +kernel
/-- R20: a slab of a range whose stack failed is RETIRED. -/
theorem test_failed_stack : (after (.hbmTrainingEnd [0] [] []) State.reset).slabLife 0 = .retired ∧ (after (.hbmTrainingEnd [0] [] []) State.reset).hub.trained = true := by
  decide +kernel
theorem test_ready : (after .dictReady { fresh with hub := { fresh.hub with started := true } }).hub.ready = true ∧ (after .dictReady fresh).hub.ready = false := by
  decide +kernel

/-- Slot A runs in TRIAL since time 0; the timer is at t. -/
def trial (t : Nat) : State :=
  { on with hub := { on.hub with timer := t }, fw := { on.fw with slotA := .trial, selected := .slotA, trialFrom := some 0 } }
theorem test_wit_trial : OnTrial (trial 5) false 0 ∧ (trial 5).now < 0 + 600000000000 ∧ OnTrial (trial 600000000000) false 0 ∧
    0 + 600000000000 ≤ (trial 600000000000).now ∧ Open (trial 5) 9 (prHost .host || prCp .host) true ∧ on.fw.trialFrom = none := by and_intros <;> decide +kernel
def fencing (v : Nat) : Fw := { Fw.reset with imageA := List.replicate 7 0 ++ [1] ++ leBytes 4 v }
theorem test_wit_fence : imgFence ((fencing 3).image false) = true ∧ (fencing 3).fusedNow < imgVersion ((fencing 3).image false) ∧ (fencing 3).fused.length < 64 ∧
    imgFence (({ Fw.reset with imageA := [] } : Fw).image false) = false := by and_intros <;> decide +kernel
/-- R462: confirming an image with FENCE fuses its version. -/
theorem test_fence : ((fencing 3).confirm false).fusedNow = 3 ∧ ((fencing 3).confirm false).slot false = .confirmed := by decide +kernel
def restarting : State := { on with fw := { on.fw with run := none, restarting := some 2 } }
theorem test_wit_restart : restarting.fw.restarting = some 2 ∧ restarting.fw.run = none ∧ 1 ≤ (2 : BitVec 8).toNat ∧ on.alive = true ∧
    ({ on with hub := { on.hub with timer := 1000000000 } } : State).fw.wdtFrom + on.fw.wdt * 1000000 ≤ 1000000000 := by
  and_intros <;> decide +kernel
/-- An image verifies only where its signature does (a function with no body), so the other premises are shown. -/
theorem test_wit_select (f : Fw) (a : f.slotA = .confirmed) (b : f.slotB = .empty) (c : f.active = false) (h : imageOk 1 f.fusedNow (f.image false) = true) :
    ¬ (f.slot false = .pending ∨ f.slot false = .trial) ∧ ¬ (f.slot true = .pending ∨ f.slot true = .trial) ∧ f.slot f.active = .confirmed ∧
      (imageOk 1 f.fusedNow (f.image f.active) = true ∧ (f.slot f.active = .trial → f.trialBoots < 3)) := by
  simp [Fw.slot, a, b, c, h]
theorem test_wit_no_image : imageOk 1 ({ Fw.reset with imageA := [] } : Fw).fusedNow (({ Fw.reset with imageA := [] } : Fw).image false) = false ∧
    (∀ b, ({ Fw.reset with slotA := .bad } : Fw).slot b = .empty ∨ ({ Fw.reset with slotA := .bad } : Fw).slot b = .bad) := by
  refine ⟨by decide +kernel, by decide +kernel⟩

theorem test_wit_faults : on.hub.fault = 0 ∧ ({ on with hub := { on.hub with fault := 3 } } : State).hub.fault ≠ 0 ∧ on.eth.ports.length = 8 := by
  and_intros <;> decide +kernel

/-- BIST_START of core 5: scope 1, both kinds. -/
def start5 : BitVec 16 := BitVec.ofNat 16 (4096 + 3 * 1024 + 5)
def choked5 (f : Bist → Bist) : State := { on with cores := [(5, { Core.reset with life := .choked })], bist := f on.bist }
def run5 : BistRun := { scope := 1, logic := true, memory := true, target := 5 }
theorem test_wit_bist : Open (choked5 id) 10 (prHost .host || prBmc .host || prCp .host) true ∧ bistRun start5 = some run5 ∧
    ((choked5 id).core 5).life = .choked ∧ (choked5 id).bist.maint = none ∧ (∀ k ∈ (choked5 id).bist.cores, quadOf k.target ≠ quadOf 5) ∧
    bistRun 0 = none ∧ on.inMaintenance = true ∧ joined.inMaintenance = false ∧
    bistRun (BitVec.ofNat 16 (4 * 4096 + 1024)) = some { scope := 4, logic := true, memory := false, target := 0 } := by and_intros <;> decide +kernel
theorem test_wit_bist_end : (choked5 fun b => { b with cores := [run5] }).bist.cores.find? (fun k => k.target == (5 : Fin 68).val) = some run5 ∧
    (choked5 fun b => { b with maint := some run5 }).bist.maint = some run5 := by and_intros <;> decide +kernel
theorem test_bist_starts : ((after (.bistCore .host start5) (choked5 id)).core 5).life = .testing := by decide +kernel
theorem test_wit_hbm : owned.bist.hbmRunning.contains 0 = false ∧
    (owned.mem.slabs.any fun e => owned.slabUses e.1 0 && (e.2.life == .assigned || e.2.wipe)) = true ∧
    (on.mem.slabs.any fun e => on.slabUses e.1 0 && (e.2.life == .assigned || e.2.wipe)) = false ∧
    ({ on with bist := { on.bist with hbmRunning := [3] } } : State).bist.hbmRunning.contains 3 = true := by and_intros <;> decide +kernel
/-- R474: the identity is 0x17A70ABB. -/
theorem test_idcode : (after .idcode on).hub.out = [.tdo 0x17A70ABB 32] ∧ (after .idcode (life .scrapped 3)).hub.tap = .bypass := by decide +kernel

/-! ### Witnesses: the block as a whole -/

theorem test_wit_step : ({ on with pending := [.rstdaa, .idcode] } : State).pending = [.rstdaa, .idcode] ∧ on.pending = [] ∧ on.alive = true ∧
    ({ on with hub := { on.hub with pwrgd := false } } : State).alive = false ∧ Memory.wf on.mem = true ∧ Memory.wf mem0 = true := by
  and_intros <;> decide +kernel
theorem test_wit_issue : ((run core0).core 0).issuing = true ∧ ((run core0).core 1).issuing = false ∧
    ((run (withSeq fun q => { q with icache := [] })).core 0).seq.missing 1 = some 0 := by and_intros <;> decide +kernel
theorem test_wit_scrapped : (life .scrapped 3).sec.lc = .scrapped ∧ (life .scrapped 3).sec.lcTarget = none := ⟨rfl, rfl⟩
theorem test_time : (match step on with
  | .next t => t.hub.timer
  | _ => 0) = 10 := by decide +kernel
/-! ### WellFormed: what each check turns away -/

/-- A word of each opcode is no word of another one. -/
theorem test_wf_opcodes : opcodeIs 0x0D pealWord = true ∧ ∀ c ∈ [0x01, 0x02, 0x04, 0x05, 0x06, 0x07, 0x08, 0x09, 0x0A, 0x0C, 0x10, 0x11, 0x12, 0x14, 0x15,
    0x16, 0x17, 0x18, 0x19, 0x1A, 0x1B, 0x1C, 0x1D, 0x1E, 0x1F], opcodeIs c pealWord = false := by decide +kernel

/-- A PEAL word is no other instruction: one command of each opcode. -/
theorem test_wf_words : ∀ c ∈ [Instr.mpass 0 pealWord 0, .mdrain 0 pealWord 0, .add 0 pealWord 0, .sel 0 pealWord 0, .recip 0 pealWord 0, .act 0 pealWord 0,
    .vredSum 0 pealWord, .vcomp 0 pealWord, .vexpd 0 pealWord, .vpermBlock 0 pealWord, .vpack 0 pealWord, .vunpk 0 pealWord, .load 0 pealWord,
    .waitTag 0 pealWord, .signal 0 pealWord, .desc 0 pealWord [], .loop 0 pealWord, .br 0 pealWord, .call 0 pealWord, .ret 0 pealWord, .sadd 0 pealWord,
    .ssub 0 pealWord, .smul 0 pealWord, .sand 0 pealWord, .sor 0 pealWord, .sshl 0 pealWord, .sshr 0 pealWord, .sliImm 0 pealWord, .sliLoad 0 pealWord []],
    Instr.wf c = false := by decide +kernel
theorem test_wf_peal : ∀ c ∈ [Instr.put 0 0, .permute 0 0, .stepEnd 0 0], Instr.wf c = false := by decide +kernel
theorem test_wf_good : Instr.wf (.hostWrite 0 pealWord) = true ∧ Instr.wf .rstdaa = true ∧ Instr.wf (.windowRead 3 0 8 []) = true := by decide +kernel

theorem test_wf_upset : Instr.wf (.drainEnd 0 [(16384, 0)] []) = false ∧ Instr.wf (.drainEnd 0 [(16383, 0)] []) = true := by decide +kernel
theorem test_wf_entry : Instr.wf (.commandFetch 3 0 [1] []) = false ∧ Instr.wf (.refetchTimer 3 0 [1] []) = false ∧ Instr.wf (.commandFetch 3 0 [] []) = true := by
  decide +kernel
/-- R275: an access stays within one slab of the window. -/
theorem test_wf_window : Instr.wf (.windowRead 3 33554431 2 []) = false ∧ Instr.wf (.windowRead 3 0 0 []) = false ∧ Instr.wf (.windowWrite 3 0 [] []) = false ∧
    Instr.wf (.windowWrite 3 33554431 [1, 2] []) = false := by decide +kernel
theorem test_wf_packet : Instr.wf (.mqPacketWrite 2 [] { src := 0, pop := 1, stop := .done, upset := none }) = false ∧
    Instr.wf (.mqPacketWrite 2 (List.replicate 257 0) { src := 0, pop := 1, stop := .done, upset := none }) = false ∧ Instr.wf (.mqPacketWrite 2 [1] { src := 0, pop := 0, stop := .done, upset := none }) = false ∧
    Instr.wf (.mqPacketWrite 2 [1] { src := 0, pop := 4096, stop := .done, upset := none }) = false := by decide +kernel
theorem test_wf_quanta : Instr.wf (.pfcFrame 0 1 [5]) = false := by decide +kernel
theorem test_wf_frame : Instr.wf (.frameReceive 0 (frame64 false 0) (0, 0) none) = false := by decide +kernel
/-- R316: LEN spells the payload. -/
def long (typ op : Nat) : GPkt := { pkt typ op 4 [] with payload := [1] }
theorem test_wf_payload : ∀ c ∈ [Instr.gerilData (long 1 0), .gerilAck (long 2 0), .hello (long 3 1), .helloAck (long 3 2), .fenced (long 3 3),
    .announce (long 3 4), .resume (long 3 5), .stepEndReceive (long 3 6), .commitNotice (long 3 7), .abortPeer (long 3 8), .close (long 3 9)],
    Instr.wf c = false := by decide +kernel
theorem test_wf_sample : Instr.wf (.capLoop { sample 0 0 with temps := [1] }) = false ∧ Instr.wf (.capLoop { sample 0 0 with vcqMv := [] }) = false ∧
    Instr.wf (.capLoop (sample 0 0)) = true := by decide +kernel
theorem test_wf_message (m : VMsg) (h : 65536 ≤ m.data.length) : Instr.wf (.voxyxRead box m) = false ∧ Instr.wf (.voxyxWrite box m) = false ∧
    Instr.wf (.voxyxInfo box m) = false ∧ Instr.wf (.voxyxCancel box m) = false ∧ Instr.wf (.fwImage box m) = false ∧
    Instr.wf (.fwRecovery box m) = false := by
  have e : VMsg.wf m = false := by simpa [VMsg.wf] using h
  exact ⟨e, e, e, e, e, e⟩

/-! ### The table's words -/

/-- The table gives its rows no bits, so no word spells a command. -/
theorem test_no_words : decodeTableWord 64 0 = none ∧ decodeTableWord 0 0 = none ∧ State.reset.withFetchWord 64 0 = State.reset := by
  refine ⟨rfl, rfl, rfl⟩

/-! ### Witnesses: what resets, errors, tests and keys ask for -/

/-- R416: the first bytes of SHAKE256 of the empty string, from FIPS 202. -/
theorem test_shake256 : (shake256 []).take 4 = [0x46, 0xB9, 0xDD, 0x2B] := by decide +kernel
/-- R455: a record with its digest is valid, no bytes are not, and a change is written to the copy that is not current. -/
theorem test_wit_boot_record : bootValid Fw.reset.copy0 = true ∧ bootValid ([] : List Byte) = false := by decide +kernel
def written : Fw := { Fw.reset with bootSeq := 6, active := true, slotB := .trial, trialBoots := 2 }
theorem test_boot_record : written.current = some false ∧ written.record.current = some true ∧
    (let f := written.record.load; (f.bootSeq, f.active, f.slotA, f.slotB, f.trialBoots) = (7, true, .confirmed, .trial, 2)) := by decide +kernel
theorem test_serial : serialAbove 0 0xFFFFFFFF = true ∧ serialAbove 0xFFFFFFFF 0 = false ∧ serialAbove 5 5 = false := by decide
theorem test_wit_shutdown : (dampered fun d => { d with shutdown := true }).damper.shutdown = true ∧ on.damper.shutdown = false ∧ on.alive = true ∧
    ({ on with hub := { on.hub with devrstN := false } } : State).alive = false ∧ (choked5 fun b => { b with cores := [run5] }).bist.cores = [run5] := by
  and_intros <;> decide +kernel
/-- R397, R487: a shutdown lasts through DEVRST_N; with the rails removed it is over. -/
theorem test_shutdown_lasts :
    (let s := after .devrstNLow (after .thermalShutdown on); (s.damper.shutdown, s.hub.thermN)) = (true, false) ∧
    (let s := after (.deviceReset true 0) (after (.pwrgdLow false) (after .thermalShutdown on)); (s.damper.shutdown, s.hub.thermN)) = (false, true) := by
  decide +kernel
/-- R475: a core BIST that DEVRST_N cuts off is CHOKED with the abort bit after the reset. -/
theorem test_abort : (let s := after (.deviceReset false 0) (after .devrstNLow (choked5 fun b => { b with cores := [run5] }));
    ((s.core 5).life, sget 0 s.bist.statusCore 5)) = (.choked, 7) := by decide +kernel

def faulty : State := { owned with mem := { mem0 with latent := [⟨2, true⟩] } }
theorem test_wit_latent : (∀ h ∈ owned.mem.latent, h.word ≠ 0) ∧ (faulty.mem.latent.find? fun h => h.word == 2) = some ⟨2, true⟩ ∧ owned.mem.latent = [] ∧
    2 ∉ faulty.mem.poison := by and_intros <;> decide +kernel
/-- R214: an uncorrectable error that a read meets poisons its word and is counted. -/
theorem test_meet : (faulty.meetErr ⟨2, true⟩ false).mem.poison = [2] ∧ (faulty.meetErr ⟨2, true⟩ false).mem.latent = [] := by decide +kernel

theorem test_wit_teardown_end : ({ ctxQ with life := .teardown } : Ctx).owed = [] ∧ (∀ p ∈ ({ ctxQ with life := .teardown } : Ctx).used, (on.core p).wipeDue = false) ∧
    ((({ fetching with disp := { fetching.disp with ctxs := [(3, { ctxQ with life := .teardown })] } } : State).payOwed 3).ctx 3).life = .teardown := by
  and_intros <;> decide +kernel
/-- R101: the answer of a choked core is counted at its closed port. -/
theorem test_port_drops : ((after (.toll 0) (run { core0 with life := .choked, toll := { core0.toll with prompted := true } })).core 0).portDrops = 1 := by
  decide +kernel
theorem test_wit_window_goes : windowed.wipeMeets (windowAt windowed 3 0 8 none []) = false ∧ windowed.damper.shutdown = false ∧
    (let w := { windowed with mem := { mem0 with slabs := [(0, { slab2 with wipe := true }), (1, slab2)] } }
     w.wipeMeets (windowAt w 3 0 8 none []) = true) ∧ windowed.takesRequest 3 false = true ∧
    (let w := { windowed with mem := { mem0 with slabs := [(0, { slab2 with wbias := 1 }), (1, slab2)] } }
     (w.slab 0).wbias ≠ 2 ∧ w.wipeMeets (windowAt w 3 0 1 (some [1]) []) = false) := by and_intros <;> decide +kernel
theorem test_window_read_denied : (after (.windowRead 3 0 2 []) secret).hub.out = [.completion 3 [0xFF, 0xFF] false] := by decide +kernel
/-- R426: the VF of an IDE-required partition takes nothing outside its secure stream. -/
def required : State := { windowed with disp := { Disp.reset with parts := [(2, { Part.reset with ideReq := true })] } }
theorem test_wit_ide_required : required.ideOk 3 false = false ∧ windowed.ideOk 3 false = true ∧
    ({ required with sec := { required.sec with ide := [(3, 2)] } } : State).ideOk 3 true = true := by and_intros <;> decide +kernel
theorem test_wit_peal_states : hostWriting.cmdFaulted 7 = false ∧ (hostWriting.peal.insts.all fun i => !hostWriting.hostLost i) = true ∧
    (hostWriting.hostLost { hostInst with desc := { hostInst.desc with op := 10 } }) = false ∧
    ({ mapped with disp := { mapped.disp with issued := [{ cmd0 with stage := .faulted 1 }] } } : State).cmdFaulted 7 = true ∧
    ({ mapped with disp := { mapped.disp with issued := [{ cmd0 with entry := { entry0 with divert := true } }] } } : State).hostLost
      { hostInst with desc := { hostInst.desc with op := 11 } } = true := by and_intros <;> decide +kernel
/-- The device's seed and the answers of its identity key are constants with no value, so what they give is shown. -/
theorem test_wit_spdm (x : _) (h : on.sec.idKey = some x) : on.sec.lc ≠ .scrapped ∧ on.sec.idKey = some x ∧
    ({ on.sec with seedOff := true } : Sec).idKey = none := ⟨by decide, h, by decide⟩
/-- R474: a boundary cell drives its ball under EXTEST; HIGHZ releases it. -/
theorem test_balls : ({ on with hub := { on.hub with tap := .extest, boundary := ⟨false, true, .idle⟩ } } : State).alertBall = false ∧
    ({ on with hub := { on.hub with tap := .highz, boundary := ⟨false, true, .idle⟩ } } : State).alertBall = true := by decide +kernel
theorem test_tap_after_reset : (after (.deviceReset false 0) { on with hub := { on.hub with tap := .extest, tapLoaded := .extest, devrstN := false } }).hub.tap = .bypass := by
  decide +kernel
theorem test_wit_cpq : (∃ g, ({ portUp with cpq := [⟨[1], none⟩] } : Port).cpq = [g]) ∧ (0 : Nat) < 256 := ⟨⟨_, rfl⟩, by decide⟩

/-! ### Witnesses: ports closed, records cut, segments, tolls and board tests -/

/-- R101, R198: SIGNAL of a core that has been choked is dropped at its port; one of an open core is not. -/
def chokedRun : State := run { core0 with life := .choked }
theorem test_signal_dropped : ((after (.signal 0 0) chokedRun).core 0).portDrops = 1 ∧ ((after (.signal 0 0) (run core0)).core 0).portDrops = 0 := by
  decide +kernel
theorem test_wit_choke_records : PortFree (on.mqueue qidChoke) ∧ PortFree (on.mqueue qidFault) ∧ (on.mqueue 16).mismatch = false ∧ on.alive = true ∧
    ((mapped.cmdOf 0).map fun i => (mapped.ctx i.1.ctx).part.toNat) = some 2 := by and_intros <;> decide +kernel
/-- R366: a choke sends its packet, and a device in reset chokes no core. -/
theorem test_choke_packet : ((after (.choke 0 3 0) on).mqueue qidChoke).pkts.length = 1 ∧
    (let s : State := { on with hub := { on.hub with devrstN := false } }; ((after (.choke 0 3 0) s).core 0).life) = .opened := by decide +kernel

/-- R259: a debt of a whole slice skips the slice that the head would open. -/
def skipping : State :=
  { ready with disp := { ready.disp with ctxs := [(3, { ctxQ with debt := 20000000, queues := [(0, { CmdQueue.reset with tail := 1, fetched := some headRun })] })] } }
theorem test_wit_skip : skipping.placement 3 entry0 true = some [0] ∧ (skipping.ctx 3).sliceNs ≤ (skipping.ctx 3).debt ∧
    skipping.runGrant 3 0 (latencyCritical (skipping.ctx 3) entry0) = true := by and_intros <;> decide +kernel
theorem test_skip : ((after (.run 3 0) skipping).ctx 3).debt = 10000000 ∧ ((after (.run 3 0) skipping).ctx 3).skipTil = 10000000 := by decide +kernel
/-- R260, R419: the hazard ranges of a destroyed context's commands stand until its teardown ends. -/
theorem test_torn : ((mapped.destroy 3).ctx 3).torn = [(0, 32)] ∧ (mapped.ctx 3).life = .active ∧
    ((after (.teardownEnd 3) { mapped with disp := { Disp.reset with ctxs := [(3, { ctx0 with life := .teardown, toFree := true, torn := [(0, 32)] })] } }).ctx 3).torn = [] := by
  decide +kernel

/-- R101, R223: core 3's trace point writes nothing once its port is closed. -/
def traceShut : State := { on with cores := [(3, { Core.reset with life := .choked })] }
theorem test_trace_dropped : traceCore 16 3 = some 3 ∧ (traceShut.core 3).life ≠ .opened ∧
    ((after (.mqPacketWrite 16 [7] { src := 3, pop := 1, stop := .done, upset := none }) traceShut).core 3).portDrops = 1 ∧
    traceCore 2 3 = none := by decide +kernel
/-- R228: what the producer of an abandoned packet still writes of it is lost. -/
def cutOff : State := queued.setQueue 2 { queued.mqueue 2 with cut := [41] }
theorem test_wit_cut : 41 ∈ (cutOff.mqueue 2).cut ∧ 41 ∉ (queued.mqueue 2).cut ∧ cutOff.mayWrite 2 1 { src := 1, pop := 1, stop := .more, upset := none } = true ∧
    ((queued.mqueue 2).strikeWr 2).mismatch = true := by and_intros <;> decide +kernel
theorem test_cut : ((after (.mqPacketWrite 2 [9] { src := 1, pop := 1, stop := .done, upset := none }) cutOff).mqueue 2).pkts = [packet0] ∧
    ((after (.mqPacketWrite 2 [9] { src := 1, pop := 1, stop := .done, upset := none }) cutOff).mqueue 2).cut = [] := by decide +kernel

/-- A ring of event queue 2 in device memory, and the trace ring. -/
def dmRing : State := { ringed with mem := mem0, mq := { ringed.mq with rings := [(2, { Ring.reset with base := 0x10001, size := 4096 })] } }
def traceRing : State :=
  { on with
    mq := { Mq.reset with queues := [(17, { MsgQueue.reset with pkts := [Packet.make 17 4 0 [7, 8]], seq := 5 })], rings := [(16, { Ring.reset with base := 0x10000, size := 4096 })] }
    host := { on.host with fns := [(0, { vf3 with wen := false })] } }
theorem test_wit_rings : bitN (dmRing.ring 2).base 0 = true ∧ (∀ i < 3, dmRing.rangeAccess 2 (0x10000 + 8 * i) 8 = .ok ()) ∧ traceRing.canMaster 0 = true ∧
    0 < (traceRing.ring 16).size ∧ (traceRing.ring 16).stopped = false := by and_intros <;> decide +kernel
theorem test_ring_device_memory : sget 0 (after (.deliverPacket 2 []) dmRing).mem.bytes 0x10008 = 7 ∧ ((after (.deliverPacket 2 []) dmRing).ring 2).off = 24 := by
  decide +kernel
theorem test_ring_trace : ((after (.deliverPacket 17 []) traceRing).ring 16).off = 24 ∧ ((after (.deliverPacket 17 []) traceRing).mqueue 17).pkts = [] := by
  decide +kernel

/-- R295, R306: a port that leaves UP tells the event queues of its mask. -/
def masked : State := { joined with eth := { joined.eth with ports := { portUp with evqMask := 4, mgmtEn := false } :: joined.eth.ports.tail } }
theorem test_link_event : (masked.port 0).st ≠ .down ∧ (masked.port 0).evqMask.getLsbD 2 = true ∧ PortFree (masked.mqueue 2) ∧
    ((masked.setLink 0 .down).mqueue 2).pkts.length = 1 := by and_intros <;> decide +kernel
/-- R297, R449: a management frame of rank 1, whose incarnation is 2, with a Voxyx prefix of incarnation i. -/
def mgmtFrame (r i : Byte) : RxFrame :=
  { fcs := false, symbol := false, bytes := List.replicate 6 0 ++ [0x11, 0x22, 0x33, 0x44, 0x55, 0x61, 0x88, 0xB5, 0x10, 0, r, 0, i, 0, 0, 0] ++ List.replicate 42 0 }
def managed : State :=
  { joined with
    car := { joined.car with ranks := [(0, { RankEntry.reset with ident := State.reset.deviceId, inc := 1, state := 1 }), (1, { rank1 with mac := 0x112233445560 })] }
    eth := { joined.eth with ports := { portUp with mgmtEn := true } :: joined.eth.ports.tail } }
theorem test_wit_managed : portUp.isGeril (mgmtFrame 1 2) managed.peal.udpPort.toNat = false ∧ (mgmtFrame 1 2).etype = managed.eth.mgmtEtype.toNat ∧
    managed.macListed (mgmtFrame 1 2).srcMac = true ∧ managed.rankKnown 1 = true ∧ managed.rankKnown 9 = false ∧ (managed.rankEntry 1).inc = 2 ∧
    (masked.port 0).mgmtEn = false ∧ (masked.port 0).refusedAt = none := by and_intros <;> decide +kernel
theorem test_managed : sget 0 (managed.sortFrame 0 0 (mgmtFrame 1 1) none).dict.counters 0x402 = 1 ∧
    sget 0 (managed.sortFrame 0 0 (mgmtFrame 9 1) none).dict.counters 0x402 = 0 ∧
    sget 0 ((masked.sortFrame 0 0 (mgmtFrame 1 2) none).port 0).counters pRxMgmtRefused = 1 := by decide +kernel

/-- R371, R372: device tolls of rank 1 and of a rank that the table does not hold; a fenced device. -/
def tollOf (rank inc : Nat) (state : BitVec 8) : TollMsg :=
  { ver := 1, rank := BitVec.ofNat 16 rank, inc := BitVec.ofNat 32 inc, seq := 0, slack := 5, state := state, ident := rank1.ident }
def fencedSelf (told : Bool) : State := { joined with car := { joined.car with st := 3, fencedToll := told } }
theorem test_wit_toll_kinds : (joined.rankEntry 1).present = true ∧ (joined.rankEntry 1).inc = 2 ∧ (joined.rankEntry 9).present = false ∧
    (fencedSelf false).car.en = true ∧ (fencedSelf false).car.nextToll ≤ (fencedSelf false).now ∧
    1 ∈ ({ joined.car with silent := [1] } : Carillon).silent := by and_intros <;> decide +kernel
/-- The identity of the device itself is a constant with no body; here entry 0 lists another. -/
def listed : State := { joined with car := { joined.car with
  ranks := [(0, { RankEntry.reset with ident := 77, inc := 1, state := 1 }), (1, rank1), (2, { spare2 with ident := 99 })] } }
theorem test_tolls : (after (.deviceToll (tollOf 1 1 0)) listed).car.stale = 1 ∧ (after (.deviceToll (tollOf 1 3 0)) joined).car.stale = 1 ∧
    (after (.deviceToll (tollOf 9 1 0)) joined).car.stale = 0 ∧ (after .devTollSend (fencedSelf false)).car.fencedToll = true ∧
    (after .devTollSend (fencedSelf true)).car.tollSeq = 0 := by decide +kernel
theorem test_lend_unknown : (after (.grant { ver := 1, rank := 9, inc := 1, dst := 0, loan := 1, amount := 5 }) joined).peal = (joined.gcount cBadHdr).peal ∧
    (joined.gcount cBadHdr).peal ≠ joined.peal := by decide +kernel

/-- R43, R394: a sample of 4 µs ago counts, one of before then and one of now do not. -/
theorem test_window : ({ Fast.reset with window := [(0, 400000)], timer := 4000 } : Fast).mean = 1000 ∧
    ({ Fast.reset with window := [(0, 400000)], timer := 4001 } : Fast).mean = 0 ∧ ({ Fast.reset with window := [(0, 400000)], timer := 0 } : Fast).mean = 0 := by
  decide +kernel
/-- R397: after a thermal shutdown no test and no wipe of the memories ends. -/
def halted (b : Bist) : State := { on with damper := { on.damper with shutdown := true }, bist := b, sec := { on.sec with lcTarget := some .returned } }
theorem test_shutdown_waits : (halted { on.bist with cores := [run5], hbmRunning := [4] }).damper.shutdown = true ∧
    (after (.hbmTestEnd 4 []) (halted { on.bist with hbmRunning := [4] })).bist.hbmRunning = [4] ∧
    (after (.coreBistEnd 5 ⟨0, 0, 0⟩) (halted { on.bist with cores := [run5] })).bist.cores = [run5] ∧
    (after .lcWipeEnd (halted on.bist)).sec.lcTarget = some .returned := by decide +kernel

/-- R441: the second segment of an image, behind 4 bytes. -/
def sendingImage : State :=
  { on with dict := { on.dict with chans := [{ Chan.fresh box with transfer := some { index := 0x9001, sub := 1, value := [1, 2, 3, 4], last := 0 }
                                                                   snapshot := some { index := 0x8031, sub := 1, value := [7, 8, 9], last := 0 } }] } }
def segment (off : Nat) : VMsg := { vmsg 0x9001 1 [5] 3 with offset := BitVec.ofNat 32 off, flags := 2 }
theorem test_wit_segment : SegmentBehind sendingImage box (segment 4) [1, 2, 3, 4] ∧ sendingImage.imageBad box 0x9001 false 5 = none ∧
    ({ sendingImage with sec := { sendingImage.sec with lc := .returned } } : State).imageBad box 0x9011 false 5 = none :=
  ⟨.inr ⟨by decide +kernel, ⟨_, by rfl, by decide +kernel, by decide +kernel, by decide +kernel, by decide +kernel, rfl⟩⟩, by decide +kernel, by decide +kernel⟩
theorem test_segments : ((sendingImage.writeSegment box .host (segment 4) 0x9001 1).2.fw.image true) = [1, 2, 3, 4, 5] ∧
    (sendingImage.writeSegment box .host (segment 3) 0x9001 1).1.result = rSEGMENT := by decide +kernel
/-- R441: bytes 1 and 2 of the snapshot, the last ones. -/
theorem test_snapshot_read : (let a := (sendingImage.readDomain box .host { vmsg 0x8031 1 [] 3 with offset := 1, len := 5, flags := 0 } 0x8031 1).1; (a.data, a.flags)) = ([8, 9], 2) := by
  decide +kernel
theorem test_wit_writes_refused : on.writeGate 9 true true = none ∧ (halted on.bist).writeGate 8 true true = some rREFUSED := by and_intros <;> decide +kernel

/-- R455, R465: before a start has written, a power loss loses no record; one that cuts the start's record leaves the other copy. -/
theorem test_cut_record : (after (.pwrgdLow true) State.reset).fw.copy0 = State.reset.fw.copy0 ∧ written.record.recordAt = some true ∧
    written.record.cut.current = some false := by decide +kernel
/-- R474: EXTEST that stands in the port drives the balls once DEVRST_N falls. -/
def cells : Boundary := ⟨false, true, { Driven.idle with ethTx := 3 }⟩
def loaded : State := { on with hub := { on.hub with tapLoaded := .extest, boundary := cells } }
theorem test_extest_waits : loaded.hub.tap ≠ .extest ∧ (after .devrstNLow loaded).hub.tap = .extest ∧
    (after .devrstNLow loaded).drivenBalls .idle false = some cells.out ∧
    ((after .devrstNLow { loaded with hub := { loaded.hub with tapLoaded := .extestPulse } }).drivenBalls .idle true).map Driven.ethTx = some 0xFFFC := by decide +kernel
/-- R426: an FLR outside the secure stream that its VF needs is an Unsupported Request. -/
theorem test_flr_stream : required.host.linkUp = true ∧ required.fnThere 3 = true ∧ required.ideOk 3 false = false ∧
    (after (.vfFlr 2 false) required).hub.out = [.unsupported 3] := by decide +kernel
/-- R487: the reads that the lost link carried are lost; a held write is served. -/
theorem test_refclk_held : (after .refclkHLoss { windowed with mem := { windowed.mem with
    held := [windowAt windowed 3 0 8 none [], windowAt windowed 3 0 8 (some [1]) []] } }).mem.held.length = 1 := by decide +kernel
/-- R112: a drained bank without cells passes its comparison; one that an upset has struck fails it. -/
theorem test_wit_abft : abftBad (core0.eng.bank false) = false ∧ abftBad (upsetCells (core0.eng.bank false) [(0, 0x3F800000)]) = true := by
  and_intros <;> decide +kernel

/-! ### Witnesses: windows that close first, halted cores, cut producers -/

/-- R388, R396: a reading of 110 °C shuts the device down; one below it does not, and after a shutdown TJ_LIMIT is an event still. -/
theorem test_loop_shutdown : joined.alive = true ∧ 110000 ≤ maxTemp (joined.damper.run joined.now (sample 0 110000)).measurePace.temps ∧
    maxTemp (joined.damper.run joined.now (sample 0 109999)).measurePace.temps < 110000 ∧
    (joined.damper.run joined.now (sample 0 100000)).tjLimit = true ∧ joined.damper.tjLimit = false :=
  ⟨by decide +kernel, by simp only [Damper.measurePace, Damper.run_temps]; decide, by simp only [Damper.measurePace, Damper.run_temps]; decide,
    by rw [Damper.run_tjLimit]; decide, by decide +kernel⟩
theorem test_shutdown_fault : joined.shutDown.hub.fault = 4 ∧ joined.shutDown.damper.shutdown = true ∧ joined.shutDown.canIssue 0 = false := by
  and_intros <;> decide +kernel
/-- R397, R487: after a thermal shutdown no instruction issues and no pass enters. -/
theorem test_no_issue : ({ run core0 with damper := { on.damper with shutdown := true } } : State).canIssue 0 = false ∧ (run core0).canIssue 0 = true ∧
    ({ run core0 with damper := { on.damper with shutdown := true } } : State).damper.shutdown = true := by and_intros <;> decide +kernel
/-- R397: the teardown of a context after a shutdown waits. -/
theorem test_halted_teardown : (let s : State := { fetching with damper := { on.damper with shutdown := true } }
    (s.ctx 3).life ≠ .free ∧ (s.ctx 3).life ≠ .teardown ∧ ((s.destroy 3).mem.wipes.any fun j => j.why == .teardown 3) = true ∧
      (after (.teardownEnd 3) (s.destroy 3)).ctx 3 = (s.destroy 3).ctx 3) := by and_intros <;> decide +kernel
/-- R42, R372: a toll of rank 1 at the end of its third silent period reports the silence first. -/
def hush (t : Nat) : State := { listed with peal := { listed.peal with parts := 1 }, hub := { on.hub with timer := t } }
theorem test_wit_silence : (hush 3000000).car.miss * (hush 3000000).car.period * 1000 ≤ (hush 3000000).tollAge 1 ∧
    (hush 2999999).tollAge 1 < (hush 2999999).car.miss * (hush 2999999).car.period * 1000 ∧ (hush 0).rankOfIdent rank1.ident = some 1 ∧
    (∃ k ks a, (hush 0).pathPorts 1 = k :: ks ∧ (hush 0).path k 1 = some a) := by
  refine ⟨by decide +kernel, by decide +kernel, by decide +kernel, 0, [], (ip4 0x0A000001, ip4 0x0A000002), by decide +kernel, by decide +kernel⟩
theorem test_silent_toll : ((after (.deviceToll (tollOf 1 2 0)) (hush 3000000)).mqueue 0).pkts.length =
    ((after (.deviceToll (tollOf 1 2 0)) (hush 2999999)).mqueue 0).pkts.length + 2 ∧
    (after (.deviceToll (tollOf 1 2 0)) (hush 3000000)).car.silent = [] := by and_intros <;> decide +kernel
/-- R371: FENCED for a stale toll goes to the device whose identity it carries. -/
theorem test_fenced_sender : sget 0 (after (.deviceToll (tollOf 1 1 0)) (hush 0)).peal.counters cFenced = 1 ∧
    (after (.deviceToll { tollOf 1 1 0 with ident := 44 }) (hush 0)).peal.counters = (hush 0).peal.counters := by and_intros <;> decide +kernel
/-- R42, R100: the toll stamped at the end of the second silent interval does not hide its fault; one of the interval before does. -/
def tolled (time : Nat) : State := (run core0).setQueue 24 { MsgQueue.reset with pkts := [Packet.make 24 0 time [word [(0, 0), (core0.epoch.toNat, 24)]]] }
theorem test_late_toll : (((after (.tollCheck 0 []) (tolled (64000 * (core0.toll.tollAt + 3)))).core 0).fault.map fun f => f.cause) = some 6 ∧
    ((after (.tollCheck 0 []) (tolled (64000 * (core0.toll.tollAt + 3) - 1))).core 0).fault = none := by and_intros <;> decide +kernel
/-- R84: the descriptor of an OPEN is checked whole: ROUND 3 ends the command. -/
def openCore (round : Nat) : Core :=
  withSeq fun q => { q with regs := [(1, 64)], descs := [(1, dsc 0 2 4 4 ||| BitVec.ofNat 256 (round * 2 ^ 29))] }
theorem test_open_round : (named (openCore 3) (word [(1, 46)]) 46).ok isAnyFmt = false ∧ (named (openCore 0) (word [(1, 46)]) 46).ok isAnyFmt = true := by
  and_intros <;> decide +kernel
/-- R101, R488: a choked core's line fetch is four requests, its LOAD of 4 bytes one. -/
theorem test_choked_requests : ((after (.icacheFill 0 []) chokedRun).core 0).portDrops = 4 ∧
    ((after (.load 0 (moveWord 0)) chokedRun).core 0).portDrops = (chokedRun.core 0).moveRequests .load (moveWord 0) ∧
    (openCore 0).moveRequests .load (word [(0x0C, 58), (1, 46)]) = 1 := by and_intros <;> decide +kernel
/-- R228: a producer that was cut off is done with its abandonment; its next packet is written. -/
theorem test_cut_abandoned : (41 ∈ (cutOff.mqueue 2).cut) ∧
    ((after (.mqPacketWrite 2 [] { src := 1, pop := 1, stop := .abandoned, upset := none }) cutOff).mqueue 2).cut = [] := by and_intros <;> decide +kernel
/-- R235: a flush that finds pointer copies that differ leaves the QUEUE_RESET packet. -/
theorem test_mismatched_flush : (let s : State := queued.setQueue 2 { queued.mqueue 2 with wr1 := 9 }
    ((s.flushQueue 2).mqueue 2).pkts.length = 1 ∧ ((s.flushQueue 2).mqueue 2).flushed = 0 ∧ ((s.flushQueue 2).mqueue 2).lostP = 1 ∧
      (s.mqueue 2).waiting = []) := by and_intros <;> decide +kernel
/-- R42, R286: where a quarantine ends, a transfer whose window has closed ends its command. -/
def stalled (t : Nat) : State := { mapped with
  hub := { on.hub with timer := t }, peal := { mapped.peal with insts := [hostInst] },
  host := { mapped.host with fns := [(3, { vf3 with quar := false })] } }
theorem test_unstall : ((stalled 60000000000).unstallHost.cmd 7).map Issued.stage = some (.faulted stPAGE_FAULT) ∧
    ((stalled 60000000000).unstallHost.peal.insts.map Inst.stall) = [some 0] ∧ ((stalled 59999999999).unstallHost.peal.insts.map Inst.stall) = [none] ∧
    (stalled 0).quarantined (fnOfPart 2) = false ∧ ((stalled 0).cmd 7).isSome = true := by and_intros <;> decide +kernel
/-- R444: a request that the dictionary engine could execute waits behind one to its entry that stands in the CP request channel. -/
theorem test_entry_order : (let w (ch : Channel) (p : Bool) : VWait := { ch := ch, op := 1, msg := vmsg 0x1001 1 [] 4, passed := p, quiet := false }
    let s (i : BitVec 16) : State := { on with dict := { on.dict with
      waiting := [{ w (.mctp 0 9) true with msg := { vmsg 0 1 [] 4 with index := i } }, w box false] } }
    (s 0x1001).nextWait = none ∧ (s 0x1002).nextWait = some (w box false) ∧ (s 0x1002).toExecute (w box false) = true ∧
      (s 0x1002).passes (w box false) = false) := by and_intros <;> decide +kernel
/-- R474: a scan under EXTEST shifts out the balls and takes new contents; where the instruction is not available nothing is scanned. -/
theorem test_extest_scan : (let s : State := after .devrstNLow loaded
    (after (.extest (some (.idle, .idle))) s).hub.boundary = .idle ∧
      (after (.extest (some (.idle, .idle))) s).hub.out.head? =
        some (.boundary s.hub.pwrgd s.hub.devrstN s.hub.perstN s.hub.maddr cells.alertN cells.thermN .idle)) ∧
    (after (.extest (some (.idle, .idle))) loaded).hub.boundary = cells ∧ (after .devrstNLow loaded).boardOk = true := by and_intros <;> decide +kernel
/-- R415: a debug instruction that stands in the port takes force with DEBUG_EN and leaves it with it. -/
theorem test_retap : (let s : State := { on with hub := { on.hub with tapLoaded := .debug } }
    (after (.debugEn .host 1) s).hub.tap = .debug ∧ (after (.debugEn .host 0) (after (.debugEn .host 1) s)).hub.tap = .bypass ∧
      s.tapAvailable .debug = false) := by and_intros <;> decide +kernel
/-- R384: a device that CARILLON_STATE fences has had no partition reset since. -/
theorem test_fenced_write : (joined.becomeFenced).car.unreset = 0xFFFF ∧ (joined.becomeFenced).car.st = 3 := by decide +kernel
/-- R262, R299: a class whose gate closes has no credit. -/
theorem test_gate_credit : (let p : Port := { portUp with gateEn := true, active := some closed2, arb := { Arbiter.reset with credit := [(2, 1)] }, timer := 5,
                                                          txq := [(2, [txf 64])] }
    p.asksWire 2 = false ∧ sget 0 p.dropIdle.arb.credit 2 = 0) := by and_intros <;> decide +kernel
/-- R213, R214: the header of a package in which an uncorrectable error stands is poisoned by PKG_LOAD's read. -/
theorem test_pkg_header_errors : (let s : State := { pkgMem 1 with mem := { (pkgMem 1).mem with latent := [⟨33554432 / 64, true⟩] } }
    ((after (.pkgLoad .host 2 pkgData) s).poisoned 33554432 64) = true) := by decide +kernel
end Sys2Proof.Tests
end

section
/-! PROOFS. The scalar ALU (R193) and DESC (R189, R190): what each issues and what ends its command. -/

namespace Sys2Proof.Machine

open Sys2Proof.Claims

/-! ### Issue of an instruction whose lines are held -/

theorem issue_eq_issued {s : State} {p : Fin 68} {n : Nat} {f : Core → Issue} {c : Core} (ready : Ready s p n) (h : f (s.core p) = .go c) :
    issue s p n f = issued s p n c := by
  rw [issue_own s p n f ready.1 ready.2, h]; rfl

theorem issue_eq_rejected {s : State} {p : Fin 68} {n : Nat} {f : Core → Issue} (ready : Ready s p n) (h : f (s.core p) = .bad) :
    issue s p n f = rejected s p := by
  rw [issue_own s p n f ready.1 ready.2, h]; rfl

/-! ### The scalar ALU (R193) -/

/-- R193: the instructions that allow SPA and WFL. -/
def AluOp.allowsFlags : AluOp → Bool
  | .and | .or => true
  | _ => false

/-- R193: the instruction that allows ARITH. -/
def AluOp.allowsArith : AluOp → Bool
  | .shr => true
  | _ => false

/-- R193: a well-formed word of the instruction. -/
abbrev AluOp.Shape (k : AluOp) (w : W64) : Prop := AluShape (aluCode k) k.allowsFlags k.allowsArith w

/-- R193, R195: the core with the result in SD and, under WFL, the flags cleared by it. -/
def AluOp.applied (k : AluOp) (c : Core) (w : W64) : Core :=
  { c with seq := aluDone c.seq w (aluResult k (bitN w 38) (aluA c.seq w) (aluB c.seq w)) }

theorem aluFieldsOk_iff (k : AluOp) (spa wfl arith : Bool) :
    aluFieldsOk k spa wfl arith = true ↔
      (k.allowsFlags = false → spa = false ∧ wfl = false) ∧ (k.allowsArith = false → arith = false) := by
  cases k <;> simp [aluFieldsOk, AluOp.allowsFlags, AluOp.allowsArith, and_assoc]

theorem issueAlu_of_shape {k : AluOp} {c : Core} {w : W64} (shape : k.Shape w) (free : AluFree c.seq w) :
    issueAlu k c w = .go (k.applied c w) := by
  obtain ⟨op, zero, fields⟩ := shape
  have fieldsOk := (aluFieldsOk_iff k _ _ _).mpr fields
  simp only [issueAlu, op, zero, fieldsOk, free, Bool.not_true, Bool.or_false, Bool.false_eq_true, if_false]
  rfl

theorem issueAlu_of_not_shape {k : AluOp} {w : W64} (c : Core) (h : ¬ k.Shape w) : issueAlu k c w = .bad := by
  have check : (!opOk (aluCode k) w false || !zeroBits w 37 32 || !aluFieldsOk k (bitN w 40) (bitN w 39) (bitN w 38)) = true := by
    by_contra ok
    simp only [Bool.not_eq_true, Bool.or_eq_false_iff, Bool.not_eq_false', aluFieldsOk_iff] at ok
    obtain ⟨⟨op, zero⟩, fields⟩ := ok
    exact h ⟨op, zero, fields⟩
  simp only [issueAlu, check, if_true]

theorem alu_eq_issued {s : State} {p : Fin 68} {w : W64} (k : AluOp) (ready : Ready s p 1) (free : AluFree (s.core p).seq w) (shape : k.Shape w) :
    alu k p w s = .next (issued s p 1 (k.applied (s.core p) w)) :=
  congrArg Host.Outcome.next (issue_eq_issued ready (issueAlu_of_shape shape free))

theorem alu_eq_rejected {s : State} {p : Fin 68} {w : W64} (k : AluOp) (ready : Ready s p 1) (h : ¬ k.Shape w) :
    alu k p w s = .next (rejected s p) :=
  congrArg Host.Outcome.next (issue_eq_rejected ready (issueAlu_of_not_shape _ h))

/-! ### The patches of a descriptor (R190) -/

theorem patchDesc_base (d : BitVec 256) (v : W64) :
    patchDesc d 1 v = if v.toNat < 33554432 then some (dSet d 0 25 v.toNat) else none := rfl

theorem patchDesc_extent (d : BitVec 256) (v : W64) {k : Nat} (hk : k < 4) :
    patchDesc d (2 + k) v = if 1 ≤ v.toNat ∧ v.toNat ≤ 65536 then some (dSet d (32 + 16 * k) 16 (v.toNat - 1)) else none := by
  have pastBase : ¬ 2 + k = 0 ∧ ¬ 2 + k = 1 ∧ 2 + k ≤ 5 := by omega
  obtain ⟨h0, h1, h5⟩ := pastBase
  rw [patchDesc, if_neg h0, if_neg h1, if_pos h5, Nat.add_sub_cancel_left]

theorem patchDesc_stride (d : BitVec 256) (v : W64) {k : Nat} (hk : k < 4) :
    patchDesc d (6 + k) v =
      if -33554432 ≤ v.toInt ∧ v.toInt ≤ 33554431 then some (dSet d (96 + 26 * k) 26 (v.toNat % 2 ^ 26)) else none := by
  have pastExtents : ¬ 6 + k = 0 ∧ ¬ 6 + k = 1 ∧ ¬ 6 + k ≤ 5 ∧ 6 + k ≤ 9 := by omega
  obtain ⟨h0, h1, h5, h9⟩ := pastExtents
  rw [patchDesc, if_neg h0, if_neg h1, if_neg h5, if_pos h9, Nat.add_sub_cancel_left]

/-- R190: what each patch code accepts and writes. -/
theorem patchCodesChangeTheirField : PatchCodesChangeTheirField := by
  intro d v
  refine ⟨rfl, ?base, ?noBase, ?extent, ?noExtent, ?stride, ?noStride, rfl⟩
  case base => intro h; rw [patchDesc_base, if_pos h]
  case noBase => intro h; rw [patchDesc_base, if_neg (by omega)]
  case extent => intro k hk lo hi; rw [patchDesc_extent d v hk, if_pos ⟨lo, hi⟩]
  case noExtent => intro k hk h; rw [patchDesc_extent d v hk, if_neg (by omega)]
  case stride => intro k hk lo hi; rw [patchDesc_stride d v hk, if_pos ⟨lo, hi⟩]
  case noStride => intro k hk h; rw [patchDesc_stride d v hk, if_neg (by omega)]

/-! ### DESC (R189) -/

theorem Seq.anyBusy_eq_false_iff (q : Seq) (rs : List (BitVec 5)) : q.anyBusy rs = false ↔ ∀ r ∈ rs, q.anyBusy [r] = false := by
  simp only [Seq.anyBusy, List.any_eq_false, List.mem_singleton, forall_eq]

/-- R189: the registers that a DESC reads. -/
def descRegs (w : W64) : List (BitVec 5) :=
  (if bitN w 51 then [] else [reg5 w 46]) ++ (if fld w 40 37 = 0 then [] else [reg5 w 32]) ++ (if fld w 31 28 = 0 then [] else [reg5 w 23])

/-- R189: the scratchpad address SA + 32 × OFF. -/
def descAddr (q : Seq) (w : W64) : Nat := (q.reg (reg5 w 46)).toNat + 32 * fld w 19 0

/-- R189: the descriptor that a DESC patches. -/
def descSource (c : Core) (w : W64) : BitVec 256 :=
  if bitN w 51 then sget 0 c.seq.descs (fld w 45 41) else descOfBytes (c.sp.read (descAddr c.seq w) 32)

/-- R189: the descriptor behind patch 1 and patch 2. -/
def descPatched (c : Core) (w : W64) : Option (BitVec 256) :=
  (patchDesc (descSource c w) (fld w 40 37) (c.seq.reg (reg5 w 32))).bind fun d => patchDesc d (fld w 31 28) (c.seq.reg (reg5 w 23))

/-- R189, R88: the core with DD loaded with d, and with the errors that a read of the scratchpad has met. -/
def descLoaded (now : Nat) (e : List EccHit) (c : Core) (w : W64) (d : BitVec 256) : Core :=
  { (if bitN w 51 then c else c.scratchErrs now [(descAddr c.seq w, descAddr c.seq w + 32)] e) with
    seq := { c.seq with descs := sset 0 c.seq.descs (fld w 56 52) d } }

/-- R77, R189: a well-formed DESC whose registers no unfinished instruction writes. -/
structure DescIssues (q : Seq) (w : W64) : Prop where
  op : opOk 0x12 w false = true
  zero : zeroBits w 22 20 = true
  code1 : fld w 40 37 < 11
  code2 : fld w 31 28 < 11
  free : q.anyBusy (descRegs w) = false

/-- R189: the source of a DESC is a descriptor, or 32 aligned bytes of the scratchpad that no scoreboard write covers. -/
abbrev DescReadable (c : Core) (w : W64) : Prop :=
  bitN w 51 = false → (c.seq.reg (reg5 w 46)).toNat % 32 = 0 ∧ descAddr c.seq w + 32 ≤ 33554432 ∧
    ∀ e ∈ c.eng.score, e.write = true → meets (e.lo, e.hi) (descAddr c.seq w, descAddr c.seq w + 32) = false

theorem issueDesc_of_reserved_code (now : Nat) (e : List EccHit) (c : Core) {w : W64} (h : 11 ≤ fld w 40 37 ∨ 11 ≤ fld w 31 28) :
    issueDesc now e c w = .bad := by
  rcases h with h | h <;> simp [issueDesc, h]

theorem Core.maybe_scratchErrs_seq (skip : Bool) (c : Core) (now : Nat) (reads : List (Nat × Nat)) (hits : List EccHit) :
    (if skip then c else c.scratchErrs now reads hits).seq = c.seq := by
  cases skip <;> simp

/-- What is left of the issue of a DESC that is well formed and does not wait for a register. -/
theorem issueDesc_of_issues (now : Nat) (e : List EccHit) {c : Core} {w : W64} (ok : DescIssues c.seq w) :
    issueDesc now e c w =
      if !bitN w 51 && ((c.seq.reg (reg5 w 46)).toNat % 32 != 0 || decide (33554432 < descAddr c.seq w + 32)) then .bad
      else if !bitN w 51 && c.eng.score.any (fun e => e.write && meets (e.lo, e.hi) (descAddr c.seq w, descAddr c.seq w + 32)) then .stall
      else (descPatched c w).elim .bad fun d => .go (descLoaded now e c w d) := by
  obtain ⟨op, zero, code1, code2, free⟩ := ok
  have wellFormed : (!opOk 0x12 w false || !zeroBits w 22 20 || decide (11 ≤ fld w 40 37) || decide (11 ≤ fld w 31 28)) = false := by
    simp [op, zero, code1, code2]
  rw [descRegs] at free
  simp only [issueDesc, wellFormed, free, Bool.false_eq_true, if_false, descPatched, descSource, descLoaded, descAddr, scratchSize,
    Core.maybe_scratchErrs_seq]
  congr 2
  split
  · next h => rw [h]; rfl
  · next d1 h =>
    rw [h, Option.bind_some]
    split
    · next h2 => rw [h2]; rfl
    · next d2 h2 => rw [h2]; rfl

theorem issueDesc_of_bad_address (now : Nat) (e : List EccHit) {c : Core} {w : W64} (ok : DescIssues c.seq w) (src : bitN w 51 = false)
    (h : (c.seq.reg (reg5 w 46)).toNat % 32 ≠ 0 ∨ 33554432 < descAddr c.seq w + 32) : issueDesc now e c w = .bad := by
  rw [issueDesc_of_issues now e ok, if_pos (by simpa [src] using h)]

theorem issueDesc_of_readable (now : Nat) (e : List EccHit) {c : Core} {w : W64} (ok : DescIssues c.seq w) (readable : DescReadable c w) :
    issueDesc now e c w = (descPatched c w).elim .bad fun d => .go (descLoaded now e c w d) := by
  rw [issueDesc_of_issues now e ok]
  cases src : bitN w 51 with
  | true => simp
  | false =>
    obtain ⟨aligned, inside, unwritten⟩ := readable src
    have noWrite : c.eng.score.any (fun e => e.write && meets (e.lo, e.hi) (descAddr c.seq w, descAddr c.seq w + 32)) = false := by
      simpa [List.any_eq_false] using unwritten
    simp [aligned, noWrite, Nat.not_lt.mpr inside]

theorem descPatched_of_first {c : Core} {w : W64} {d : BitVec 256}
    (h : patchDesc (descSource c w) (fld w 40 37) (c.seq.reg (reg5 w 32)) = some d) :
    descPatched c w = patchDesc d (fld w 31 28) (c.seq.reg (reg5 w 23)) := by
  rw [descPatched, h, Option.bind_some]

theorem descPatched_of_first_none {c : Core} {w : W64}
    (h : patchDesc (descSource c w) (fld w 40 37) (c.seq.reg (reg5 w 32)) = none) : descPatched c w = none := by
  rw [descPatched, h, Option.bind_none]

theorem execDesc_eq_rejected {s : State} {p : Fin 68} {w : W64} {e : List EccHit} (ready : Ready s p 1)
    (h : issueDesc s.now e (s.core p) w = .bad) : execDesc p w s e = .next (rejected s p) :=
  congrArg Host.Outcome.next (issue_eq_rejected (f := fun c => issueDesc s.now e c w) ready h)

theorem execDesc_of_patched {s : State} {p : Fin 68} {w : W64} {d : BitVec 256} (e : List EccHit) (ready : Ready s p 1)
    (ok : DescIssues (s.core p).seq w) (readable : DescReadable (s.core p) w) (h : descPatched (s.core p) w = some d) :
    execDesc p w s e = .next (issued s p 1 (descLoaded s.now e (s.core p) w d)) :=
  congrArg Host.Outcome.next (issue_eq_issued (f := fun c => issueDesc s.now e c w) ready (by
    rw [issueDesc_of_readable s.now e ok readable, h, Option.elim_some]))

theorem execDesc_of_unpatched {s : State} {p : Fin 68} {w : W64} (e : List EccHit) (ready : Ready s p 1)
    (ok : DescIssues (s.core p).seq w) (readable : DescReadable (s.core p) w) (h : descPatched (s.core p) w = none) :
    execDesc p w s e = .next (rejected s p) :=
  execDesc_eq_rejected ready (by rw [issueDesc_of_readable s.now e ok readable, h, Option.elim_none])

/-- R189, R190, R88: what a DESC that can issue leaves, and what ends its command. -/
theorem descLoadsAndPatches : DescLoadsAndPatches := by
  intro s p w e ready
  refine ⟨fun _ code => execDesc_eq_rejected ready (issueDesc_of_reserved_code _ _ _ code), fun op zero code1 code2 free => ?_⟩
  have ok : DescIssues (s.core p).seq w := ⟨op, zero, code1, code2, (Seq.anyBusy_eq_false_iff _ _).mpr free⟩
  refine ⟨?badAddress, fun readable => ⟨?patched, ?secondFails, ?firstFails⟩⟩
  case badAddress =>
    exact fun src address => execDesc_eq_rejected ready (issueDesc_of_bad_address _ _ ok src (address.imp_right And.left))
  case patched =>
    exact fun _ _ first second => execDesc_of_patched e ready ok readable ((descPatched_of_first first).trans second)
  case secondFails =>
    exact fun _ first second => execDesc_of_unpatched e ready ok readable ((descPatched_of_first first).trans second)
  case firstFails =>
    exact fun first => execDesc_of_unpatched e ready ok readable (descPatched_of_first_none first)

end Sys2Proof.Machine

namespace Sys2Proof.Claims

open Sys2Proof.Machine

/-- Settles O1: one lemma over the seven operations says what a well-formed word leaves, another that any other word is rejected. -/
theorem scalarAluWritesItsResult : Obligations.ScalarAluWritesItsResult := by
  intro s p w ready
  refine ⟨fun free => ⟨?_, ?_, ?_, ?_, ?_, ?_, ?_⟩, ?_, ?_, ?_, ?_, ?_, ?_, ?_⟩
  · exact alu_eq_issued .add ready free
  · exact alu_eq_issued .sub ready free
  · exact alu_eq_issued .mul ready free
  · exact alu_eq_issued .and ready free
  · exact alu_eq_issued .or ready free
  · exact alu_eq_issued .shl ready free
  · exact alu_eq_issued .shr ready free
  · exact fun _ => alu_eq_rejected .add ready
  · exact fun _ => alu_eq_rejected .sub ready
  · exact fun _ => alu_eq_rejected .mul ready
  · exact fun _ => alu_eq_rejected .and ready
  · exact fun _ => alu_eq_rejected .or ready
  · exact fun _ => alu_eq_rejected .shl ready
  · exact fun _ => alu_eq_rejected .shr ready

/-- Settles O5, by what a DESC leaves and by what each patch code writes. -/
theorem descLoadsAndPatchesItsFields : Obligations.DescLoadsAndPatchesItsFields :=
  ⟨descLoadsAndPatches, patchCodesChangeTheirField⟩

end Sys2Proof.Claims
end

section
/-! SUPPORT. What no step takes back (O55, O59, O60): the waiting commands, the canonical form of memory, the fuses and the life-cycle state. Most
functions of the model leave all of it as it was (`f_law`); the others take nothing of it back (`f_le`). One lemma per function, in the order of
the model, so that each proof cites the lemmas of what its function calls. -/

namespace Sys2Proof.Machine

/-! ### What leaves it as it was -/


/-- What the invariants of O55, O59 and O60 speak of: the waiting commands, the bytes of device memory, the fuses and the life-cycle state. -/
structure Law where
  pending     : List Instr
  bytes       : List Host.Cell
  transitions : Nat
  seedOff     : Bool
  fused       : List (BitVec 32)
  lc          : LifeCycle
  lcTarget    : Option LifeCycle

def State.law (s : State) : Law :=
  ⟨s.pending, s.mem.bytes, s.sec.transitions, s.sec.seedOff, s.fw.fused, s.sec.lc, s.sec.lcTarget⟩

@[simp ↓] theorem State.law_mk (p : List Instr) (hub : Hub) (cores : Sparse Core) (mem : Mem) (disp : Disp) (mq : Mq) (host : HostIf) (eth : Eth)
    (peal : Peal) (car : Carillon) (damper : Damper) (sec : Sec) (dict : Dict) (fw : Fw) (bist : Bist) :
    State.law ⟨p, hub, cores, mem, disp, mq, host, eth, peal, car, damper, sec, dict, fw, bist⟩ =
      ⟨p, mem.bytes, sec.transitions, sec.seedOff, fw.fused, sec.lc, sec.lcTarget⟩ := by rfl

@[simp ↓] theorem State.law_eta (t : State) :
    Law.mk t.pending t.mem.bytes t.sec.transitions t.sec.seedOff t.fw.fused t.sec.lc t.sec.lcTarget = t.law := by rfl

/-- The law of the state that an outcome answers. -/
def outLaw : Host.Outcome State Fault Refusal → Option Law
  | .next t => some t.law
  | _ => none

@[simp] theorem outLaw_next (t : State) : outLaw (.next t) = some t.law := rfl

@[simp] theorem State.law_ite (c : Prop) [Decidable c] (a b : State) : (if c then a else b).law = if c then a.law else b.law := apply_ite _ _ _ _
@[simp] theorem outLaw_ite (c : Prop) [Decidable c] (a b : Host.Outcome State Fault Refusal) :
    outLaw (if c then a else b) = if c then outLaw a else outLaw b := apply_ite _ _ _ _

@[simp] theorem foldl_law {α : Type} (f : State → α → State) (h : ∀ t a, (f t a).law = t.law) (l : List α) :
    ∀ s : State, (l.foldl f s).law = s.law := by
  induction l with
  | nil => exact fun _ => rfl
  | cons a r ih => exact fun s => (ih _).trans (h s a)

@[simp] theorem snd_ite_law {α : Type} (c : Prop) [Decidable c] (a b : α × State) :
    (if c then a else b).2.law = if c then a.2.law else b.2.law := by split <;> rfl

@[simp] theorem State.emit_law (s : State) (e : Emit) : (s.emit e).law = s.law := by rfl
@[simp] theorem State.answer_law (s : State) (r : BitVec 8) : (s.answer r).law = s.law := by rfl
@[simp] theorem State.abortMeasures_law (s : State) (c : Nat) : (s.abortMeasures c).law = s.law := by simp [State.abortMeasures]
@[simp] theorem State.abortPkgs_law (s : State) (p : PkgJob → Bool) : (s.abortPkgs p).law = s.law := by
  unfold State.abortPkgs
  split <;> simp

@[simp] theorem State.unmap_law (s : State) (p : Nat) : (s.unmap p).law = s.law := by
  unfold State.unmap
  split <;> simp

@[simp] theorem State.setCore_law (s : State) (p : Nat) (c : Core) : (s.setCore p c).law = s.law := by rfl
@[simp] theorem State.modCore_law (s : State) (p : Nat) (f : Core → Core) : (s.modCore p f).law = s.law := by rfl
@[simp] theorem State.abortTests_law (s : State) (l : List Nat) : (s.abortTests l).law = s.law := by simp [State.abortTests]
@[simp] theorem State.setPort_law (s : State) (k : Nat) (p : Port) : (s.setPort k p).law = s.law := by rfl
@[simp] theorem State.queueFrame_law (s : State) (k : Nat) (f : TxFrame) : (s.queueFrame k f).law = s.law := by simp [State.queueFrame]
@[simp] theorem State.gcount_law (s : State) (sub : Nat) : (s.gcount sub).law = s.law := by simp [State.gcount]
@[simp] theorem State.sendGeril_law (s : State) (k tc : Nat) (p : GPkt) : (s.sendGeril k tc p).law = s.law := by simp [State.sendGeril]
@[simp] theorem State.modRx_law (s : State) (rank stream : Nat) (f : RxStream → RxStream) : (s.modRx rank stream f).law = s.law := by
  simp [State.modRx]
@[simp] theorem State.ackStream_law (s : State) (rank stream : Nat) : (s.ackStream rank stream).law = s.law := by
  unfold State.ackStream
  dsimp only
  (repeat' split) <;> simp

@[simp] theorem State.addResumed_law (s : State) (k : GPkt) : (s.addResumed k).law = s.law := by simp [State.addResumed]
@[simp] theorem State.addRetire_law (s : State) (row : Nat) : (s.addRetire row).law = s.law := by simp [State.addRetire]
@[simp] theorem State.setQueue_law (s : State) (qid : Nat) (m : MsgQueue) : (s.setQueue qid m).law = s.law := by rfl
@[simp] theorem State.settlePorts_law (s : State) (qid : Nat) : (s.settlePorts qid).law = s.law := by simp [State.settlePorts]
@[simp] theorem State.draw_law (s : State) : s.draw.2.law = s.law := by simp [State.draw]
@[simp] theorem State.notePoisoned_law (s : State) (qid : Nat) (bad : Bool) : (s.notePoisoned qid bad).law = s.law := by simp [State.notePoisoned]
@[simp] theorem State.cutWord_law (s : State) (qid : Nat) : (s.cutWord qid).law = s.law := by simp [State.cutWord]
@[simp] theorem State.resetPorts_law (s : State) (qid : Nat) : (s.resetPorts qid).law = s.law := by simp [State.resetPorts]
@[simp] theorem State.setFn_law (s : State) (f : Nat) (x : Fn) : (s.setFn f x).law = s.law := by rfl
@[simp] theorem State.msix_law (s : State) (f v : Nat) : (s.msix f v).law = s.law := by simp [State.msix]
@[simp] theorem State.resetFaultQueue_law (s : State) : s.resetFaultQueue.law = s.law := by simp [State.resetFaultQueue]
@[simp] theorem State.putPacket_law (s : State) (qid : Nat) (words : List W64) (unit : Nat) : (s.putPacket qid words unit).law = s.law := by rfl
@[simp] theorem State.resetQueue_law (s : State) (qid : Nat) : (s.resetQueue qid).law = s.law := by simp [State.resetQueue]
@[simp] theorem State.loseBegun_law (s : State) (qid : Nat) : (s.loseBegun qid).law = s.law := by simp [State.loseBegun]
@[simp] theorem State.post_law (s : State) (qid : Nat) (words : List W64) (unit : Nat) : (s.post qid words unit).law = s.law := by simp [State.post]
@[simp] theorem State.dropWait_law (s : State) (ch : Channel) : (s.dropWait ch).law = s.law := by simp [State.dropWait]
@[simp] theorem State.passThrough_law (s : State) (n : Nat) : (s.passThrough n).law = s.law := by simp [State.passThrough]
@[simp] theorem State.setChan_law (s : State) (c : Chan) : (s.setChan c).law = s.law := by rfl
@[simp] theorem State.mailboxAnswer_law (s : State) (fn : Nat) (b : List Byte) : (s.mailboxAnswer fn b).law = s.law := by simp [State.mailboxAnswer]
@[simp] theorem State.sendLowest_law (s : State) (f : TxFrame) : (s.sendLowest f).law = s.law := by
  unfold State.sendLowest
  split <;> simp

@[simp] theorem State.respond_law (s : State) (w : VWait) (h : HeldResp) : (s.respond w h).law = s.law := by
  unfold State.respond
  split <;> simp

@[simp] theorem State.vcount_law (s : State) (kind sub : Nat) : (s.vcount kind sub).law = s.law := by simp [State.vcount]
@[simp] theorem State.complete_law (s : State) (w : VWait) (r : Reply) : (s.complete w r).law = s.law := by simp [State.complete]
@[simp] theorem State.counted_law (s : State) (pr : Principal) (r : BitVec 8) : (s.counted pr r).law = s.law := by simp [State.counted]

@[simp] theorem State.dictWriteAt_law {s : State} {pr : Principal} {k : Nat} {a n : Bool} {f : State → BitVec 8 × State}
    (h : (f s).2.law = s.law) : (s.dictWriteAt pr k a n f).law = s.law := by
  obtain ⟨-, e⟩ | ⟨r, -, -, e⟩ | ⟨-, -, e⟩ := s.dictWriteAt_cases pr k a n f <;> simp [e, h]

@[simp] theorem State.dictWrite_law {s : State} {pr : Principal} {a n : Bool} {f : State → BitVec 8 × State}
    (h : (f s).2.law = s.law) : (s.dictWrite pr a n f).law = s.law := State.dictWriteAt_law h

@[simp] theorem execAttRequest_law (pr : Principal) (data : List Byte) (s : State) : outLaw (execAttRequest pr data s) = some s.law := by
  unfold execAttRequest
  split <;> simp

@[simp] theorem State.setKeeps_law (s : State) (n : Nat) (l : List Keep) : (s.setKeeps n l).law = s.law := by rfl
@[simp] theorem State.setSlab_law (s : State) (n : Nat) (e : SlabEntry) : (s.setSlab n e).law = s.law := by rfl
@[simp] theorem State.statusEvent_law (s : State) (qid kind : Nat) (status : BitVec 16) (part : Option Nat) (cq : Option (Nat × Nat))
    (w2 unit : Nat) : (s.statusEvent qid kind status part cq w2 unit).law = s.law := by
  simp [State.statusEvent]
@[simp] theorem State.eccEvent_law (s : State) (pa : Nat) : (s.eccEvent pa).law = s.law := by simp [State.eccEvent]
@[simp] theorem State.checkRetire_law (s : State) (n : Nat) : (s.checkRetire n).law = s.law := by simp [State.checkRetire]
@[simp] theorem State.uncorrectedError_law (s : State) (pa : Nat) : (s.uncorrectedError pa).law = s.law := by simp [State.uncorrectedError]
@[simp] theorem State.correctedError_law (s : State) (pa : Nat) (scrub : Bool) : (s.correctedError pa scrub).law = s.law := by
  simp [State.correctedError]
@[simp] theorem State.meetErr_law (s : State) (h : EccHit) (scrub : Bool) : (s.meetErr h scrub).law = s.law := by simp [State.meetErr]

@[simp] theorem State.memErrs_law (s : State) (segs : List (Nat × Nat)) (hits : List EccHit) : (s.memErrs segs hits).law = s.law := by
  rw [State.memErrs, foldl_law _ fun t h => t.meetErr_law h false]
  rfl

@[simp] theorem State.meetShard_law (s : State) (n layer : Nat) : (s.meetShard n layer).law = s.law := by simp [State.meetShard]
@[simp] theorem State.sendCtl_law (s : State) (retx : Bool) (rank op : Nat) (opid gen : BitVec 32) (stream : Nat) (payload : List Byte) :
    (s.sendCtl retx rank op opid gen stream payload).law = s.law := by
  unfold State.sendCtl
  split <;> simp

@[simp] theorem State.sendControl_law (s : State) (rank op : Nat) (opid gen : BitVec 32) (stream : Nat) (payload : List Byte) :
    (s.sendControl rank op opid gen stream payload).law = s.law := by
  simp [State.sendControl]
@[simp] theorem State.closeStreams_law (s : State) (opid : BitVec 32) : (s.closeStreams opid).law = s.law := by simp [State.closeStreams]
@[simp] theorem State.damperEvent_law (s : State) (kind : Nat) : (s.damperEvent kind).law = s.law := by simp [State.damperEvent]
@[simp] theorem State.endBorrow_law (s : State) (p : Borrow → Bool) : (s.endBorrow p).law = s.law := by simp [State.endBorrow]
@[simp] theorem State.sendLend_law (s : State) (typ rank : Nat) (loan : BitVec 32) (amount : Nat) :
    (s.sendLend typ rank loan amount).law = s.law := by
  simp [State.sendLend]
@[simp] theorem State.settleLoans_law (s : State) : s.settleLoans.law = s.law := by simp [State.settleLoans]
@[simp] theorem State.endLoans_law (s : State) : s.endLoans.law = s.law := by simp [State.endLoans]
@[simp] theorem State.discardGang_law (s : State) (uid : Nat) (gang : List Nat) : (s.discardGang uid gang).law = s.law := by simp [State.discardGang]
@[simp] theorem State.dropWaiters_law (s : State) (uid : Nat) : (s.dropWaiters uid).law = s.law := by simp [State.dropWaiters]
@[simp] theorem State.modCmd_law (s : State) (uid : Nat) (f : Issued → Issued) : (s.modCmd uid f).law = s.law := by simp [State.modCmd]
@[simp] theorem State.killCmd_law (s : State) (uid : Nat) : (s.killCmd uid).law = s.law := by
  unfold State.killCmd
  (repeat' split) <;> simp

@[simp] theorem State.checkPointers_law (s : State) (qid : Nat) : (s.checkPointers qid).law = s.law := by simp [State.checkPointers]
@[simp] theorem State.settleQueue_law (s : State) (qid : Nat) : (s.settleQueue qid).law = s.law := by simp [State.settleQueue]
@[simp] theorem State.stopProducer_law (s : State) (qid src : Nat) : (s.stopProducer qid src).law = s.law := by simp [State.stopProducer]
@[simp] theorem State.setCtx_law (s : State) (c : Nat) (x : Ctx) : (s.setCtx c x).law = s.law := by rfl
@[simp] theorem State.faultCmd_law (s : State) (uid : Nat) (st : BitVec 16) : (s.faultCmd uid st).law = s.law := by
  unfold State.faultCmd
  dsimp only
  (repeat' split) <;> simp

@[simp] theorem State.choke_law (s : State) (p cause time drops : Nat) : (s.choke p cause time drops).law = s.law := by
  unfold State.choke
  dsimp only
  (repeat' split) <;> simp

@[simp] theorem State.dropIdle_law (s : State) : s.dropIdle.law = s.law := by simp [State.dropIdle]

@[simp] theorem execCoreChoke_law (pr : Principal) (v : BitVec 8) (s : State) (drops : Nat) : outLaw (execCoreChoke pr v s drops) = some s.law := by
  refine congrArg some (State.dictWrite_law ?_)
  split
  · rfl
  · split <;> simp

@[simp] theorem State.modPort_law (s : State) (k : Nat) (f : Port → Port) : (s.modPort k f).law = s.law := by simp [State.modPort]
@[simp] theorem State.portEvent_law (s : State) (k kind tc : Nat) : (s.portEvent k kind tc).law = s.law := by simp [State.portEvent]
@[simp] theorem State.setLink_law (s : State) (k : Nat) (st : PortState) : (s.setLink k st).law = s.law := by simp [State.setLink]
@[simp] theorem State.retrain_law (s : State) (k : Nat) : (s.retrain k).law = s.law := by simp [State.retrain]
@[simp] theorem execPortLanes_law (pr : Principal) (port : Fin 8) (v : BitVec 8) (s : State) : outLaw (execPortLanes pr port v s) = some s.law := by
  simp [execPortLanes]
@[simp] theorem State.changeGates_law (s : State) (k : Nat) : (s.changeGates k).law = s.law := by
  unfold State.changeGates
  dsimp only
  split <;> simp

@[simp] theorem execGateCommit_law (pr : Principal) (port : Fin 8) (v : BitVec 8) (s : State) : outLaw (execGateCommit pr port v s) = some s.law := by
  simp [execGateCommit]
@[simp] theorem execHbmTest_law (pr : Principal) (st : Fin 32) (v : BitVec 8) (s : State) : outLaw (execHbmTest pr st v s) = some s.law := by
  simp [execHbmTest]
@[simp] theorem State.meetTable_law (s : State) (n pa len : Nat) : (s.meetTable n pa len).law = s.law := by simp [State.meetTable]
@[simp] theorem State.meetTables_law (s : State) (n base : Nat) : (s.meetTables n base).law = s.law := by simp [State.meetTables]
@[simp] theorem State.releaseGang_law (s : State) (uid : Nat) (gang : List Nat) : (s.releaseGang uid gang).law = s.law := by simp [State.releaseGang]
@[simp] theorem State.delCmd_law (s : State) (uid : Nat) : (s.delCmd uid).law = s.law := by simp [State.delCmd]
@[simp] theorem State.meetWalk_law (s : State) (c va : Nat) : (s.meetWalk c va).law = s.law := by simp [State.meetWalk]

@[simp] theorem State.meetPages_law (c : Nat) (write : Bool) (l : List Nat) : ∀ s : State, (s.meetPages c write l).law = s.law := by
  induction l with
  | nil => exact fun _ => rfl
  | cons va r ih =>
    intro s
    unfold State.meetPages
    dsimp only
    split <;> simp [ih]

@[simp] theorem State.meetWalks_law (s : State) (c va n : Nat) (write : Bool) : (s.meetWalks c va n write).law = s.law := by
  simp only [State.meetWalks, State.law_ite, State.meetPages_law, ite_self]

@[simp] theorem State.meetWrites_law (s : State) (l : List (Nat × Nat × Nat)) : (s.meetWrites l).law = s.law := by simp [State.meetWrites]
@[simp] theorem State.meetRecord_law (s : State) (c : Nat) (e : CmdEntry) : (s.meetRecord c e).law = s.law := by simp [State.meetRecord]
@[simp] theorem State.setPart_law (s : State) (n : Nat) (x : Part) : (s.setPart n x).law = s.law := by rfl
@[simp] theorem State.modQueue_law (s : State) (c q : Nat) (f : CmdQueue → CmdQueue) : (s.modQueue c q f).law = s.law := by simp [State.modQueue]
@[simp] theorem State.cancelCtx_law (s : State) (c : Nat) : (s.cancelCtx c).law = s.law := by simp [State.cancelCtx]
@[simp] theorem State.wipeCores_law (s : State) (l : List Nat) : (s.wipeCores l).law = s.law := by simp [State.wipeCores]
@[simp] theorem State.applyFlush_law (s : State) (qid : Nat) : (s.applyFlush qid).law = s.law := by simp [State.applyFlush]
@[simp] theorem State.flushQueue_law (s : State) (qid : Nat) : (s.flushQueue qid).law = s.law := by simp [State.flushQueue]
@[simp] theorem State.flushTraces_law (s : State) : s.flushTraces.law = s.law := by simp [State.flushTraces]
@[simp] theorem State.retap_law (s : State) : s.retap.law = s.law := by simp [State.retap]
@[simp] theorem State.finishPartReset_law (s : State) (n : Nat) : (s.finishPartReset n).law = s.law := by simp [State.finishPartReset]
@[simp] theorem execCkeyClear_law (pr : Principal) (v : BitVec 8) (s : State) : outLaw (execCkeyClear pr v s) = some s.law := by simp [execCkeyClear]

@[simp] theorem Mem.upset_bytes (m : Mem) (hits : List EccHit) : (m.upset hits).bytes = m.bytes := rfl

@[simp] theorem State.vaReadErrs_law (s : State) (c va n : Nat) (hits : List EccHit) : (s.vaReadErrs c va n hits).2.law = s.law := by
  unfold State.vaReadErrs
  dsimp only
  split
  · exact State.meetWalks_law _ c va n false
  · rfl
  · exact (State.memErrs_law _ _ _).trans (State.meetWalks_law _ c va n false)

theorem State.vaReadErrs_snd_law {s t : State} {c va n : Nat} {hits : List EccHit} {g : Got (List Byte)}
    (h : s.vaReadErrs c va n hits = (g, t)) : t.law = s.law := by
  rw [← s.vaReadErrs_law c va n hits, h]

@[simp] theorem State.meetRanges_law (s : State) (c : Nat) (l : List (Nat × Nat)) : (s.meetRanges c l).law = s.law := by simp [State.meetRanges]
@[simp] theorem State.startPkg_law (s : State) : s.startPkg.law = s.law := by
  unfold State.startPkg
  split <;> simp

@[simp] theorem execPkgLoad_law (pr : Principal) (n : Fin 16) (data : List Byte) (s : State) : outLaw (execPkgLoad pr n data s) = some s.law := by
  unfold execPkgLoad
  split <;> simp

@[simp] theorem State.remap_law (s : State) (p : Nat) : (s.remap p).law = s.law := by
  unfold State.remap
  dsimp only
  split <;> simp

@[simp] theorem execCoreReadmit_law (pr : Principal) (v : BitVec 8) (s : State) : outLaw (execCoreReadmit pr v s) = some s.law := by
  simp [execCoreReadmit]
@[simp] theorem execCapSet_law (pr : Principal) (v : BitVec 16) (s : State) : outLaw (execCapSet pr v s) = some s.law := by simp [execCapSet]
@[simp] theorem execMqFlush_law (pr : Principal) (qid : Fin 32) (v : BitVec 8) (s : State) : outLaw (execMqFlush pr qid v s) = some s.law := by
  simp [execMqFlush]
@[simp] theorem State.appendLog_law (s : State) (n kind : Nat) (sealed : Bool) (c va len : Nat) (digest : List Byte) :
    (s.appendLog n kind sealed c va len digest).law = s.law := by
  simp [State.appendLog]

@[simp] theorem State.tryMeasure_law (s : State) (j : MeasureJob) : (s.tryMeasure j).law = s.law := by
  unfold State.tryMeasure
  dsimp only
  split
  · rfl
  · split
    · rfl
    · split
      · rfl
      · next h => exact (State.answer_law _ _).trans (State.vaReadErrs_snd_law h)
      · next h =>
        rw [State.answer_law]
        split <;> simp [State.vaReadErrs_snd_law h]

@[simp] theorem execMeasure_law (pr : Principal) (n : Fin 16) (data : List Byte) (s : State) : outLaw (execMeasure pr n data s) = some s.law := by
  unfold execMeasure
  (repeat' split) <;> simp

theorem State.ctxOp_law {s : State} {pr : Principal} {destroy : Bool} {f : State → Nat → Option State}
    (h : ∀ c t, f s c = some t → t.law = s.law) : (s.ctxOp pr destroy f).law = s.law := by
  refine State.dictWrite_law ?_
  split
  · next t e => exact h _ _ e
  · rfl

@[simp] theorem execCtxReset_law (pr : Principal) (s : State) : outLaw (execCtxReset pr s) = some s.law := by
  refine congrArg some (State.ctxOp_law fun c t h => ?_)
  dsimp only at h
  split at h <;> cases h
  simp

@[simp] theorem execCtxResume_law (pr : Principal) (s : State) : outLaw (execCtxResume pr s) = some s.law := by
  refine congrArg some (State.ctxOp_law fun c t h => ?_)
  dsimp only at h
  split at h <;> cases h
  simp

@[simp] theorem State.settle_law (s : State) (c : Nat) : (s.settle c).law = s.law := by simp [State.settle]
@[simp] theorem execStop_law (pr : Principal) (s : State) : outLaw (execStop pr s) = some s.law := by
  refine congrArg some (State.ctxOp_law fun c t h => ?_)
  dsimp only at h
  split at h <;> cases h
  simp

@[simp] theorem execCreate_law (pr : Principal) (s : State) : outLaw (execCreate pr s) = some s.law := by
  refine congrArg some (State.ctxOp_law fun c t h => ?_)
  dsimp only at h
  split at h <;> cases h
  simp

@[simp] theorem execPortMedia_law (pr : Principal) (port : Fin 8) (v : BitVec 8) (s : State) : outLaw (execPortMedia pr port v s) = some s.law := by
  simp [execPortMedia]

@[simp] theorem execCkeyInstall_law (pr : Principal) (data : List Byte) (s : State) : outLaw (execCkeyInstall pr data s) = some s.law := by
  refine congrArg some (State.dictWrite_law ?_)
  dsimp only
  split
  · rfl
  · split
    · rfl
    · split <;> rfl

@[simp] theorem execDebugEn_law (pr : Principal) (v : BitVec 8) (s : State) : outLaw (execDebugEn pr v s) = some s.law := by simp [execDebugEn]
@[simp] theorem execPortTimer_law (pr : Principal) (port : Fin 8) (v : W64) (s : State) : outLaw (execPortTimer pr port v s) = some s.law := by
  simp [execPortTimer]
@[simp] theorem execCarillonRejoin_law (pr : Principal) (r : BitVec 16) (s : State) : outLaw (execCarillonRejoin pr r s) = some s.law := by
  simp [execCarillonRejoin]
@[simp] theorem State.carEvent_law (s : State) (kind : Nat) (status : BitVec 16) (rank : Nat) : (s.carEvent kind status rank).law = s.law := by
  simp [State.carEvent]
@[simp] theorem State.setRank_law (s : State) (r : Nat) (e : RankEntry) : (s.setRank r e).law = s.law := by rfl
@[simp] theorem State.takeOver_law (s : State) (r : Nat) : (s.takeOver r).law = s.law := by simp [State.takeOver]
@[simp] theorem execTakeover_law (pr : Principal) (r : BitVec 16) (s : State) : outLaw (execTakeover pr r s) = some s.law := by simp [execTakeover]
@[simp] theorem State.setRing_law (s : State) (r : Nat) (x : Ring) : (s.setRing r x).law = s.law := by rfl
@[simp] theorem execRingRestart_law (pr : Principal) (ring : Fin 17) (setBase : Bool) (v : W64) (s : State) :
    outLaw (execRingRestart pr ring setBase v s) = some s.law := by
  simp [execRingRestart]
@[simp] theorem State.bistStart_law (s : State) (pr : Principal) (v : BitVec 16) (scope : Nat) : (s.bistStart pr v scope).law = s.law := by
  unfold State.bistStart
  split <;> simp

@[simp] theorem execBistDevice_law (pr : Principal) (v : BitVec 16) (s : State) : outLaw (execBistDevice pr v s) = some s.law := by
  simp [execBistDevice]
@[simp] theorem execBistHub_law (pr : Principal) (v : BitVec 16) (s : State) : outLaw (execBistHub pr v s) = some s.law := by simp [execBistHub]
@[simp] theorem execBistCore_law (pr : Principal) (v : BitVec 16) (s : State) : outLaw (execBistCore pr v s) = some s.law := by simp [execBistCore]
@[simp] theorem execBistQuadrant_law (pr : Principal) (v : BitVec 16) (s : State) : outLaw (execBistQuadrant pr v s) = some s.law := by
  simp [execBistQuadrant]
@[simp] theorem State.bistWrite_law (s : State) (pr : Principal) (v : BitVec 16) : outLaw (s.bistWrite pr v) = some s.law := by simp [State.bistWrite]
@[simp] theorem execPortAn_law (pr : Principal) (port : Fin 8) (v : BitVec 8) (s : State) : outLaw (execPortAn pr port v s) = some s.law := by
  simp [execPortAn]
@[simp] theorem State.unstallHost_law (s : State) : s.unstallHost.law = s.law := by simp [State.unstallHost]
@[simp] theorem State.faultStalled_law (s : State) (n : Nat) : (s.faultStalled n).law = s.law := by simp [State.faultStalled]

@[simp] theorem State.reattach_law {s : State} {pr : Principal} {target : BitVec 8} {cred : BitVec 128} {f : State → Nat → State}
    (h : ∀ n, (f s n).law = s.law) : (s.reattach pr target cred f).law = s.law := by
  refine State.dictWrite_law ?_
  dsimp only
  split <;> simp [h]

@[simp] theorem State.stopPart_law (s : State) (n : Nat) : (s.stopPart n).law = s.law := by simp [State.stopPart]
@[simp] theorem State.divertCmds_law (s : State) (n : Nat) : (s.divertCmds n).law = s.law := by simp [State.divertCmds]
@[simp] theorem State.stopRings_law (s : State) (fn : Nat) : (s.stopRings fn).law = s.law := by simp [State.stopRings]
@[simp] theorem execReattachDivert_law (pr : Principal) (target : BitVec 8) (cred : BitVec 128) (s : State) :
    outLaw (execReattachDivert pr target cred s) = some s.law := by
  simp [execReattachDivert]
@[simp] theorem State.emits_law (s : State) (l : List Emit) : (s.emits l).law = s.law := by simp [State.emits]
@[simp] theorem State.drainBacklog_law (s : State) (n : Nat) : (s.drainBacklog n).law = s.law := by simp [State.drainBacklog]
@[simp] theorem State.finishKeep_law (s : State) (fn : Nat) : (s.finishKeep fn).law = s.law := by simp [State.finishKeep]
@[simp] theorem execReattachKeep_law (pr : Principal) (target : BitVec 8) (cred : BitVec 128) (s : State) :
    outLaw (execReattachKeep pr target cred s) = some s.law := by
  simp [execReattachKeep]
@[simp] theorem State.reattachWrite_law (s : State) (pr : Principal) (b : List Byte) : outLaw (s.reattachWrite pr b) = some s.law := by
  unfold State.reattachWrite
  (repeat' split) <;> simp

@[simp] theorem State.noteRetired_law (s : State) (n : Nat) : (s.noteRetired n).law = s.law := by simp [State.noteRetired]
@[simp] theorem State.setOpState_law (s : State) (v : BitVec 16) : (s.setOpState v).law = s.law := by rfl
@[simp] theorem State.slabOp_law (s : State) (pr : Principal) (v : W64) (reserved : Bool) (reason : State → Nat → Nat)
    (effect : SlabEntry → SlabEntry) (wipes : Bool) : (s.slabOp pr v reserved reason effect wipes).law = s.law := by
  simp [State.slabOp]
@[simp] theorem execSetWbias_law (pr : Principal) (v : W64) (s : State) : outLaw (execSetWbias pr v s) = some s.law := by simp [execSetWbias]
@[simp] theorem execAssign_law (pr : Principal) (v : W64) (s : State) : outLaw (execAssign pr v s) = some s.law := by simp [execAssign]
@[simp] theorem execSetChx_law (pr : Principal) (v : W64) (s : State) : outLaw (execSetChx pr v s) = some s.law := by simp [execSetChx]
@[simp] theorem execRelease_law (pr : Principal) (v : W64) (s : State) : outLaw (execRelease pr v s) = some s.law := by simp [execRelease]
@[simp] theorem State.slabWrite_law (s : State) (pr : Principal) (v : W64) : outLaw (s.slabWrite pr v) = some s.law := by
  unfold State.slabWrite
  split <;> simp

@[simp] theorem rowResult_law (s t : State) : (rowResult s (.next t)).2.law = t.law := by
  unfold rowResult
  dsimp only
  split <;> rfl

@[simp] theorem State.putRetire_law (s : State) (b : List Byte) : (s.putRetire b).2.law = s.law := by simp [State.putRetire]
@[simp] theorem State.putMemory_law (s : State) (pr : Principal) (index sub : Nat) (b : List Byte) : (s.putMemory pr index sub b).2.law = s.law := by
  unfold State.putMemory
  split <;> simp

@[simp] theorem inRange_law {s : State} {v lo hi : Nat} {f : State → State} (h : (f s).law = s.law) : (inRange s v lo hi f).2.law = s.law := by
  unfold inRange
  split
  · exact h
  · rfl

@[simp] theorem State.putCores_law (s : State) (pr : Principal) (index sub : Nat) (b : List Byte) :
    (s.putCores pr index sub b).2.law = s.law := by
  unfold State.putCores
  dsimp only
  split
  case h_4 | h_6 => exact inRange_law rfl
  case h_10 => exact inRange_law rfl
  all_goals (try split)
  all_goals simp

@[simp] theorem State.putIdentity_law (s : State) (index v : Nat) : (s.putIdentity index v).2.law = s.law := by
  unfold State.putIdentity
  split <;> refine inRange_law ?_
  · split <;> rfl
  · rfl

@[simp] theorem State.stallHost_law (s : State) : s.stallHost.law = s.law := by simp [State.stallHost]
@[simp] theorem State.sendPending_law (s : State) (fn : Nat) : (s.sendPending fn).law = s.law := by simp [State.sendPending]
@[simp] theorem State.busWake_law (s : State) (fn : Nat) : (s.busWake fn).law = s.law := by simp [State.busWake]
@[simp] theorem State.putSecurity_law (s : State) (index sub : Nat) (b : List Byte) : (s.putSecurity index sub b).2.law = s.law := by
  simp [State.putSecurity]

@[simp] theorem State.putPower_law (s : State) (sub v : Nat) : (s.putPower sub v).2.law = s.law := by
  unfold State.putPower
  dsimp only
  split <;> (try split) <;> first | rfl | exact inRange_law rfl

@[simp] theorem State.modInst_law (s : State) (opid : BitVec 32) (group : BitVec 8) (f : Inst → Inst) : (s.modInst opid group f).law = s.law := by
  simp [State.modInst]
@[simp] theorem State.failPeal_law (s : State) (opid : BitVec 32) (st : BitVec 16) (tell : Bool) : (s.failPeal opid st tell).law = s.law := by
  unfold State.failPeal
  split <;> simp

@[simp] theorem State.meetReads_law (s : State) (l : List (Nat × Nat × Nat)) : (s.meetReads l).law = s.law := by simp [State.meetReads]
@[simp] theorem State.setConn_law (s : State) (r : Nat) (c : Conn) : (s.setConn r c).law = s.law := by rfl
@[simp] theorem State.sayHello_law (s : State) (rank retx : Nat) : (s.sayHello rank retx).law = s.law := by simp [State.sayHello]
@[simp] theorem State.greet_law (s : State) (rank : Nat) : (s.greet rank).law = s.law := by simp [State.greet]
@[simp] theorem State.openStream_law (s : State) (rank k : Nat) (opid : BitVec 32) (op tc : Nat) (gen : BitVec 32) (source : Option (Nat × Nat))
    (chunks : List (Nat × Nat)) (total : Nat) : (s.openStream rank k opid op tc gen source chunks total).law = s.law := by
  simp [State.openStream]
@[simp] theorem State.closeDone_law (s : State) (rank stream : Nat) : (s.closeDone rank stream).law = s.law := by
  unfold State.closeDone
  split <;> simp

@[simp] theorem State.openTransfer_law (s : State) (rank : Nat) (opid : BitVec 32) (op tc : Nat) (gen : BitVec 32) (source : Option (Nat × Nat))
    (lens : List Nat) : (s.openTransfer rank opid op tc gen source lens).1.law = s.law := by
  unfold State.openTransfer
  dsimp only
  split
  · simp
  · split
    · rfl
    · exact foldl_law _ (fun t e => by split <;> simp) _ s

@[simp] theorem State.openInst_law (s : State) (i : Inst) : (s.openInst i).law = s.law := by
  unfold State.openInst
  split <;> simp

@[simp] theorem State.resolve_law (s : State) (i : Inst) : (s.resolve i).law = s.law := by
  unfold State.resolve
  dsimp only
  (repeat' split) <;> simp

@[simp] theorem State.readPayload_law (s : State) (t : TxStream) (off len : Nat) : (s.readPayload t off len).2.law = s.law := by
  unfold State.readPayload
  split <;> simp

@[simp] theorem State.noteFlags_law (s : State) (t : TxStream) (off len : Nat) : (s.noteFlags t off len).law = s.law := by
  unfold State.noteFlags
  split <;> simp

@[simp] theorem State.modStream_law (s : State) (rank stream : Nat) (f : TxStream → TxStream) : (s.modStream rank stream f).law = s.law := by
  simp [State.modStream]

@[simp] theorem State.sendChunks_law (t : TxStream) (l : List (Nat × Nat)) : ∀ (s : State) (seq : Nat), (s.sendChunks t l seq).law = s.law := by
  induction l with
  | nil => exact fun _ _ => rfl
  | cons g r ih =>
    intro s seq
    have law := s.readPayload_law t g.1 g.2
    unfold State.sendChunks
    dsimp only
    split
    · rfl
    · split
      · rfl
      · split <;> next h => rw [h] at law; simp at law; (try split) <;> simp [law, ih]

@[simp] theorem State.meetPuts_law (s : State) (l : List (Nat × Nat × List Byte)) : (s.meetPuts l).law = s.law := by simp [State.meetPuts]
@[simp] theorem State.becomeFenced_law (s : State) : s.becomeFenced.law = s.law := by simp [State.becomeFenced]
@[simp] theorem State.putPorts_law (s : State) (index sub : Nat) (b : List Byte) : (s.putPorts index sub b).2.law = s.law := by
  unfold State.putPorts
  (repeat' split) <;> simp

@[simp] theorem State.putDevice_law (s : State) (sub : Nat) (b : List Byte) : (s.putDevice sub b).2.law = s.law := by
  unfold State.putDevice
  split
  · exact inRange_law rfl
  · split <;> rfl

@[simp] theorem State.readDomain_law (s : State) (ch : Channel) (pr : Principal) (m : VMsg) (index sub : Nat) :
    (s.readDomain ch pr m index sub).2.law = s.law := by
  unfold State.readDomain
  dsimp only
  split <;> simp

@[simp] theorem State.voxRead_law (s : State) (ch : Channel) (pr : Principal) (m : VMsg) (e : Ent) (sub : Nat) :
    (s.voxRead ch pr m e sub).2.law = s.law := by
  unfold State.voxRead
  (repeat' split) <;> simp

@[simp] theorem State.answerStale_law (s : State) (rank k : Nat) (own src : BitVec 128) : (s.answerStale rank k own src).law = s.law := by
  simp [State.answerStale]
@[simp] theorem State.loseWait_law (s : State) (w : VWait) : (s.loseWait w).law = s.law := by
  unfold State.loseWait
  split <;> simp

@[simp] theorem State.barWrite_law (s : State) (fn : Nat) (ide : Bool) (f : Fn → Fn) : (s.barWrite fn ide f).law = s.law := by simp [State.barWrite]
@[simp] theorem State.setTap_law (s : State) (ok : Bool) (t : TapInstr) : (s.setTap ok t).law = s.law := by rfl
@[simp] theorem State.scanBoundary_law (s : State) (b : Boundary) (pins : Pins) : (s.scanBoundary b pins).law = s.law := by simp [State.scanBoundary]
@[simp] theorem State.boardTest_law (s : State) (t : TapInstr) (scan : Option (Boundary × Pins)) : (s.boardTest t scan).law = s.law := by
  unfold State.boardTest
  split <;> simp

@[simp] theorem State.keepShutdown_law (s : State) : s.keepShutdown.law = s.law := by simp [State.keepShutdown]
@[simp] theorem State.breakPause_law (s : State) (k t : Nat) : (s.breakPause k t).law = s.law := by simp [State.breakPause]
@[simp] theorem State.cacheLines_law (s : State) (fn addr : Nat) (data : List Byte) : (s.cacheLines fn addr data).law = s.law := by
  simp [State.cacheLines]
@[simp] theorem State.cacheWrite_law (s : State) (fn addr : Nat) (data : List Byte) : (s.cacheWrite fn addr data).law = s.law := by
  simp [State.cacheWrite]
@[simp] theorem State.dropAtPort_law (s : State) (p n : Nat) : (s.dropAtPort p n).law = s.law := by simp [State.dropAtPort]
@[simp] theorem State.missTolls_law (s : State) (p interval : Nat) : (s.missTolls p interval).law = s.law := by simp [State.missTolls]
@[simp] theorem State.countToll_law (s : State) (w : W64) (time : Nat) (poisoned : Bool) : (s.countToll w time poisoned).law = s.law := by
  unfold State.countToll
  dsimp only
  (repeat' split) <;> simp

theorem State.takeFrom_law {s t : State} {qid n : Nat} {phase : Bool} {u : List MqUpset} {k : Taken}
    (h : s.takeFrom qid n phase u = some (k, t)) : t.law = s.law := by
  unfold State.takeFrom at h
  dsimp only at h
  split at h
  · cases h
  · split at h
    · cases h
    · generalize Packet.take _ _ _ _ _ _ = taken at h
      split at h <;> obtain ⟨-, rfl⟩ := Prod.mk.inj (Option.some.inj h) <;> simp

@[simp] theorem State.checkToll_law (s : State) (q : Nat) (u : List MqUpset) : (s.checkToll q u).law = s.law := by
  unfold State.checkToll
  dsimp only
  split
  · rfl
  · next h =>
    rw [← State.takeFrom_law h]
    split
    · simp
    · split <;> simp

@[simp] theorem State.closeLeases_law (s : State) (p : Borrow → Bool) : (s.closeLeases p).law = s.law := by simp [State.closeLeases]
@[simp] theorem State.closeTakeover_law (s : State) : s.closeTakeover.law = s.law := by
  unfold State.closeTakeover
  dsimp only
  (repeat' split) <;> simp

@[simp] theorem State.commandEnds_law (s : State) (uid : Nat) : (s.commandEnds uid).law = s.law := by
  unfold State.commandEnds
  (repeat' split) <;> simp

@[simp] theorem State.semAdd_law (s : State) (n idx amount : Nat) : (s.semAdd n idx amount).law = s.law := by simp [State.semAdd]
@[simp] theorem State.commitNotice_law (s : State) (rank region : Nat) : (s.commitNotice rank region).law = s.law := by simp [State.commitNotice]
@[simp] theorem State.runMeasures_law (s : State) : s.runMeasures.law = s.law := by simp [State.runMeasures]

theorem State.hostSide_law {s t : State} {i : Inst} {hostData : List Byte} (h : s.hostSide i hostData = .ok t) : t.law = s.law := by
  unfold State.hostSide at h
  dsimp only at h
  split at h
  · split at h <;> cases h
    simp
  · split at h <;> cases h
    · simp
    · rfl

@[simp] theorem State.reportSlot_law (s : State) (uid : Nat) (flags : Flags) (w : Nat × Nat) : (s.reportSlot uid flags w).law = s.law := by
  simp [State.reportSlot]
@[simp] theorem State.reserveKeep_law (s : State) (i : Inst) : (s.reserveKeep i).1.law = s.law := by
  unfold State.reserveKeep
  dsimp only
  (repeat' split) <;> simp

@[simp] theorem State.quietWaits_law (s : State) (k : Nat) : (s.quietWaits k).law = s.law := by simp [State.quietWaits]
@[simp] theorem State.vfFlr_law (s : State) (k : Nat) : (s.vfFlr k).law = s.law := by simp [State.vfFlr]
@[simp] theorem State.configPf_law (s : State) (c : ConfigSet) : (s.configPf c).law = s.law := by
  unfold State.configPf
  split <;> simp

@[simp] theorem State.rehello_law (s : State) (rank : Nat) : (s.rehello rank).law = s.law := by
  unfold State.rehello
  split <;> simp

@[simp] theorem State.netEvent_law (s : State) (kind : Nat) (status : BitVec 16) (rank : Nat) : (s.netEvent kind status rank).law = s.law := by
  simp [State.netEvent]
@[simp] theorem State.connect_law (s : State) (rank : Nat) (caps : List Byte) : (s.connect rank caps).law = s.law := by simp [State.connect]

theorem State.serveGet_law {s t : State} {k : GPkt} (h : s.serveGet k = some t) : t.law = s.law := by
  unfold State.serveGet at h
  dsimp only at h
  split at h
  · cases h
  · cases h
    simp
  · split at h <;> cases h
    exact State.openTransfer_law ..

@[simp] theorem State.postCause_law (s : State) (qid cause : Nat) : (s.postCause qid cause).law = s.law := by simp [State.postCause]
@[simp] theorem State.deviceFault_law (s : State) (cause : Nat) : (s.deviceFault cause).law = s.law := by simp [State.deviceFault]
@[simp] theorem State.fenceRank_law (s : State) (rank : Nat) (sender : Option Nat) : (s.fenceRank rank sender).law = s.law := by
  unfold State.fenceRank
  (repeat' split) <;> simp

@[simp] theorem State.dropStale_law (s : State) (f : RxFrame) : (s.dropStale f).law = s.law := by simp [State.dropStale]
@[simp] theorem State.dropTrace_law (s : State) (qid : Nat) (a : MqWrite) : (s.dropTrace qid a).law = s.law := by
  unfold State.dropTrace
  split <;> simp

@[simp] theorem State.dueAck_law (s : State) (rank stream : Nat) : (s.dueAck rank stream).law = s.law := by
  unfold State.dueAck
  split <;> simp

@[simp] theorem State.endLoan_law (s : State) (p : Loan → Bool) : (s.endLoan p).law = s.law := by simp [State.endLoan]
@[simp] theorem State.endTorn_law (s : State) (rank : Nat) : (s.endTorn rank).law = s.law := by simp [State.endTorn]
@[simp] theorem State.noteUnreach_law (s : State) (rank n : Nat) : (s.noteUnreach rank n).law = s.law := by simp [State.noteUnreach]
@[simp] theorem State.resend_law (s : State) (t : TxStream) (u : Unacked) : (s.resend t u).law = s.law := by simp [State.resend]
@[simp] theorem State.expire_law (s : State) (rank stream : Nat) : (s.expire rank stream).law = s.law := by
  unfold State.expire
  split <;> simp

@[simp] theorem State.faultCore_law (s : State) (p : Nat) (st : BitVec 16) : (s.faultCore p st).law = s.law := by
  unfold State.faultCore
  split <;> simp

@[simp] theorem State.failLoad_law (s : State) (p : Nat) : (s.failLoad p).law = s.law := by simp [State.failLoad]
@[simp] theorem State.fetchFault_law (s : State) (c q : Nat) (st : BitVec 16) (e : Option CmdEntry) : (s.fetchFault c q st e).law = s.law := by
  simp [State.fetchFault]
@[simp] theorem State.staleEntry_law (s : State) (c q n : Nat) : (s.staleEntry c q n).law = s.law := by simp [State.staleEntry]

@[simp] theorem State.readEntry_law (s : State) (c q : Nat) (hostData : List Byte) (m : List EccHit) :
    (s.readEntry c q hostData m).2.law = s.law := by
  unfold State.readEntry
  dsimp only
  split
  · exact State.vaReadErrs_law ..
  · split <;> simp

@[simp] theorem State.fetchHead_law (s : State) (c q n : Nat) (hostData : List Byte) (m : List EccHit) :
    (s.fetchHead c q n hostData m).law = s.law := by
  have law := s.readEntry_law c q hostData m
  unfold State.fetchHead
  dsimp only
  split <;> next h => rw [h] at law; simp at law; simp [law]

@[simp] theorem State.goSilent_law (s : State) (r : Nat) : (s.goSilent r).law = s.law := by simp [State.goSilent]

@[simp] theorem State.headerOk_law {s : State} {k : GPkt} {typ : Nat} {op : Option Nat} {f : State → State} (h : ∀ t, (f t).law = t.law) :
    (s.headerOk k typ op f).law = s.law := by
  simp [State.headerOk, h]

@[simp] theorem State.invalidate_law (s : State) (fn : Nat) : (s.invalidate fn).law = s.law := by simp [State.invalidate]
@[simp] theorem State.issueHead_law (s : State) (c q : Nat) (f : Fetched) (gang : List Nat) (stage : Stage) (len : Nat) :
    (s.issueHead c q f gang stage len).law = s.law := by
  simp [State.issueHead]

theorem foldl_fst_law {α β : Type} (f : State × β → α → State × β) (h : ∀ x a, (f x a).1.law = x.1.law) (l : List α) :
    ∀ x : State × β, (l.foldl f x).1.law = x.1.law := by
  induction l with
  | nil => exact fun _ => rfl
  | cons a r ih => exact fun x => (ih _).trans (h x a)

@[simp] theorem State.killFor_law (s : State) (c : Nat) (e : CmdEntry) (restart : Bool) : (s.killFor c e restart).law = s.law := by
  refine foldl_fst_law _ (fun x i => ?_) _ _
  dsimp only
  split <;> simp

@[simp] theorem State.leaveQueues_law (s : State) : s.leaveQueues.law = s.law := by simp [State.leaveQueues]

@[simp] theorem State.lendMsg_law {s : State} {m : LendMsg} {f : State → State} (h : (f s).law = s.law) : (s.lendMsg m f).law = s.law := by
  simp [State.lendMsg, h]

theorem State.unlinkFns_law (l : List Nat) (s : State) :
    (l.foldl (fun s k => (s.setFn k (s.fn k).linkReset).quietWaits k) s).law = s.law :=
  foldl_law _ (fun t k => by simp) l s

@[simp] theorem State.linkReset_law (s : State) : s.linkReset.law = s.law := by
  have fns := State.unlinkFns_law (List.range 17) s
  unfold State.linkReset
  generalize (List.range 17).foldl (fun s k => (s.setFn k (s.fn k).linkReset).quietWaits k) s = t at fns
  simp [fns, Sec.linkEnd]

@[simp] theorem State.losePassed_law (s : State) : s.losePassed.law = s.law := by simp [State.losePassed]
@[simp] theorem State.mbIgnore_law (s : State) (n : Nat) : (s.mbIgnore n).law = s.law := by simp [State.mbIgnore]
@[simp] theorem State.markCut_law (s : State) (qid src : Nat) (stop : MqStop) : (s.markCut qid src stop).law = s.law := by simp [State.markCut]
@[simp] theorem State.mctpReply_law (s : State) (binding : Fin 2) (cmd : Nat) : (s.mctpReply binding cmd).law = s.law := by simp [State.mctpReply]
@[simp] theorem State.meetCoreWalk_law (s : State) (ctx va n : Nat) (write : Bool) (t : Tlb) : (s.meetCoreWalk ctx va n write t).law = s.law := by
  simp [State.meetCoreWalk]
@[simp] theorem State.meetPeal_law (s : State) (p : Nat) (w : W64) : (s.meetPeal p w).law = s.law := by
  unfold State.meetPeal
  dsimp only
  (repeat' split) <;> simp

@[simp] theorem State.meetResults_law (s : State) (i : Inst) (v : View) : (s.meetResults i v).law = s.law := by
  unfold State.meetResults
  dsimp only
  (repeat' split) <;> simp

@[simp] theorem State.neighbourReply_law (s : State) (k : Nat) (reply : Option (List Byte)) : (s.neighbourReply k reply).law = s.law := by
  unfold State.neighbourReply
  split <;> simp

@[simp] theorem State.noteData_law (s : State) (rank stream : Nat) : (s.noteData rank stream).law = s.law := by
  unfold State.noteData
  split <;> simp

@[simp] theorem State.noteUsed_law (s : State) (c : Nat) (gang : List Nat) : (s.noteUsed c gang).law = s.law := by simp [State.noteUsed]
@[simp] theorem State.openRx_law (s : State) (k : GPkt) : (s.openRx k).law = s.law := by simp [State.openRx]
@[simp] theorem State.pageWrite_law (s : State) (c off : Nat) (v : W64) : (s.pageWrite c off v).law = s.law := by simp [State.pageWrite]
@[simp] theorem State.pkgDone_law (s : State) (j : PkgJob) (reason : Nat) : (s.pkgDone j reason).law = s.law := by simp [State.pkgDone]
@[simp] theorem State.powerCycle_law (s : State) : s.powerCycle.law = s.law := by simp [State.powerCycle]

@[simp] theorem State.readPort_law (s : State) (qid n : Nat) (u : List MqUpset) : (s.readPort qid n u).law = s.law := by
  unfold State.readPort
  dsimp only
  split
  · rfl
  · split
    · rfl
    · next h =>
      rw [← State.takeFrom_law h]
      split <;> split <;> simp

@[simp] theorem State.reannounce_law (s : State) (rank : Nat) : (s.reannounce rank).law = s.law := by
  unfold State.reannounce
  (repeat' split) <;> simp

@[simp] theorem State.rearm_law (s : State) (k t : Nat) : (s.rearm k t).law = s.law := by simp [State.rearm]

@[simp] theorem State.receive_law {s : State} {k : GPkt} {typ : Nat} {op : Option Nat} {f : State → State} (h : ∀ t, (f t).law = t.law) :
    (s.receive k typ op f).law = s.law :=
  State.headerOk_law fun t => by simp [h]

@[simp] theorem State.setThrottle_law (s : State) (v : Nat) : (s.setThrottle v).law = s.law := by simp [State.setThrottle]
@[simp] theorem State.refreshFast_law (s : State) : s.refreshFast.law = s.law := by simp [State.refreshFast]
@[simp] theorem State.refuseMgmt_law (s : State) (k : Nat) : (s.refuseMgmt k).law = s.law := by simp [State.refuseMgmt]
@[simp] theorem State.resendAll_law (s : State) (rank : Nat) : (s.resendAll rank).law = s.law := by simp [State.resendAll]

@[simp] theorem Fw.setSlot_fused (f : Fw) (b : Bool) (v : SlotState) : (f.setSlot b v).fused = f.fused := by cases b <;> rfl

@[simp] theorem Fw.load_fused (f : Fw) : f.load.fused = f.fused := by
  unfold Fw.load
  split <;> rfl

@[simp] theorem Fw.record_fused (f : Fw) : f.record.fused = f.fused := by
  unfold Fw.record
  dsimp only
  split <;> rfl

@[simp] theorem Fw.trySlot_fused (f : Fw) (b : Bool) : (f.trySlot b).1.fused = f.fused := by
  unfold Fw.trySlot
  dsimp only
  split <;> (try split) <;> simp

@[simp] theorem Fw.tryCases_fused (l : List (Bool × Bool)) : ∀ f : Fw, (f.tryCases l).fused = f.fused := by
  induction l with
  | nil => exact fun _ => rfl
  | cons x r ih =>
    intro f
    have tried := f.trySlot_fused x.1
    unfold Fw.tryCases
    dsimp only
    generalize (if x.2 = true then _ else _ : Bool) = fresh
    cases fresh
    · exact ih f
    · rw [if_neg (by decide)]
      split <;> next h => rw [h] at tried; simp [ih, ← tried]

@[simp] theorem Fw.select_fused (f : Fw) : f.select.fused = f.fused := by simp [Fw.select]

@[simp] theorem State.restartCp_law (s : State) (cause : Nat) : (s.restartCp cause).law = s.law := by
  simp [State.restartCp]

@[simp] theorem State.sendPfc_law (s : State) (k t : Nat) (q : BitVec 16) : (s.sendPfc k t q).law = s.law := by simp [State.sendPfc]
@[simp] theorem State.sendResume_law (s : State) (rank : Nat) : (s.sendResume rank).law = s.law := by simp [State.sendResume]
@[simp] theorem State.takeCpq_law (s : State) (k : Nat) : (s.takeCpq k).law = s.law := by
  unfold State.takeCpq
  split <;> simp

@[simp] theorem State.serveCpqs_law (s : State) : s.serveCpqs.law = s.law := by simp [State.serveCpqs]
@[simp] theorem State.windowRefused_law (s : State) (a : HeldAccess) : (s.windowRefused a).law = s.law := by
  unfold State.windowRefused
  split <;> simp

@[simp] theorem State.windowDenied_law (s : State) (a : HeldAccess) : (s.windowDenied a).law = s.law := by simp [State.windowDenied]
@[simp] theorem State.shutDown_law (s : State) : s.shutDown.law = s.law := by simp [State.shutDown]
@[simp] theorem State.signalGang_law (s : State) (p sem amount : Nat) : (s.signalGang p sem amount).law = s.law := by
  unfold State.signalGang
  split <;> simp

@[simp] theorem State.skipSlice_law (s : State) (c : Nat) (x : Ctx) (til : Nat) : (s.skipSlice c x til).law = s.law := by simp [State.skipSlice]
@[simp] theorem State.toRing_law (s : State) (k tc bits : Nat) (frame : List Byte) : (s.toRing k tc bits frame).law = s.law := by simp [State.toRing]
@[simp] theorem State.toCp_law (s : State) (k : Nat) (frame : List Byte) (reply : Option (List Byte)) : (s.toCp k frame reply).law = s.law := by
  simp [State.toCp]
@[simp] theorem State.sortFrame_law (s : State) (k tc : Nat) (f : RxFrame) (reply : Option (List Byte)) : (s.sortFrame k tc f reply).law = s.law := by
  simp [State.sortFrame]
@[simp] theorem State.startGang_law (s : State) (uid : Nat) (gang : List Nat) (prog args : W64) : (s.startGang uid gang prog args).law = s.law := by
  simp [State.startGang]
@[simp] theorem State.startImage_law (s : State) : s.startImage.law = s.law := by simp [State.startImage]
@[simp] theorem State.takeGrant_law (s : State) (c q : Nat) (lc : Bool) : (s.takeGrant c q lc).law = s.law := by simp [State.takeGrant]
@[simp] theorem State.takeShare_law (s : State) (k tc len : Nat) : (s.takeShare k tc len).law = s.law := by simp [State.takeShare]
@[simp] theorem State.tickCores_law (s : State) : s.tickCores.law = s.law := by simp [State.tickCores]
@[simp] theorem State.tickCtxs_law (s : State) : s.tickCtxs.law = s.law := by simp [State.tickCtxs]
@[simp] theorem State.tickDamper_law (s : State) : s.tickDamper.law = s.law := by simp [State.tickDamper]
@[simp] theorem State.tickHub_law (s : State) : s.tickHub.law = s.law := by simp [State.tickHub]
@[simp] theorem State.tickPort_law (s : State) (k : Nat) : (s.tickPort k).law = s.law := by simp [State.tickPort]
@[simp] theorem State.tickPorts_law (s : State) : s.tickPorts.law = s.law := by simp [State.tickPorts]
@[simp] theorem execPauseLimit_law (port tc : Fin 8) (s : State) : outLaw (execPauseLimit port tc s) = some s.law := by simp [execPauseLimit]
@[simp] theorem execWaitEnd_law (p : Fin 68) (s : State) : outLaw (execWaitEnd p s) = some s.law := by
  unfold execWaitEnd
  dsimp only
  split <;> simp

@[simp] theorem execTrainingRetry_law (port : Fin 8) (s : State) : outLaw (execTrainingRetry port s) = some s.law := by simp [execTrainingRetry]
@[simp] theorem execClamp_law (s : State) : outLaw (execClamp s) = some s.law := by simp [execClamp]

@[simp] theorem State.coreAccess_law (s : State) (ctx va n : Nat) (write : Bool) (t : Tlb) : (s.coreAccess ctx va n write t).2.1.law = s.law := by
  unfold State.coreAccess
  dsimp only
  split
  · split <;> simp
  · simp

@[simp] theorem State.coreRead_law (s : State) (ctx va n : Nat) (t : Tlb) : (s.coreRead ctx va n t).2.1.law = s.law :=
  s.coreAccess_law ctx va n false t

@[simp] theorem execIcacheFill_law (p : Fin 68) (s : State) (m : List EccHit) : outLaw (execIcacheFill p s m) = some s.law := by
  unfold execIcacheFill
  dsimp only
  split
  · simp
  · split
    · rename_i l i _ _ _
      have law := State.coreRead_law { s with mem := s.mem.upset m } i.ctx (l * 256) 256 (s.core p).tlb
      split <;> simp [law]
    · rfl

@[simp] theorem execLinkFault_law (ring : Bool) (s : State) : outLaw (execLinkFault ring s) = some s.law := by simp [execLinkFault]
@[simp] theorem execDoorbell_law (fn : Fin 17) (c : Fin 4096) (off : BitVec 12) (v : W64) (s : State) (ide : Bool) :
    outLaw (execDoorbell fn c off v s ide) = some s.law := by
  simp [execDoorbell]
@[simp] theorem execCpRestartEnd_law (s : State) : outLaw (execCpRestartEnd s) = some s.law := by
  unfold execCpRestartEnd
  split <;> simp

@[simp] theorem execHostWaitLimit_law (uid : Nat) (s : State) : outLaw (execHostWaitLimit uid s) = some s.law := by simp [execHostWaitLimit]
@[simp] theorem execReturnLoan_law (m : LendMsg) (s : State) : outLaw (execReturnLoan m s) = some s.law := by simp [execReturnLoan]
@[simp] theorem execMissedTolls_law (p : Fin 68) (s : State) : outLaw (execMissedTolls p s) = some s.law := by simp [execMissedTolls]
@[simp] theorem execExtestTrain_law (s : State) (scan : Option (Boundary × Pins)) : outLaw (execExtestTrain s scan) = some s.law := by
  simp [execExtestTrain]
@[simp] theorem execPauseRecovery_law (port tc : Fin 8) (s : State) : outLaw (execPauseRecovery port tc s) = some s.law := by simp [execPauseRecovery]
@[simp] theorem execBypass_law (s : State) : outLaw (execBypass s) = some s.law := by simp [execBypass]
@[simp] theorem execTelemetryLost_law (imon : Option (Fin 4)) (s : State) : outLaw (execTelemetryLost imon s) = some s.law := by
  simp [execTelemetryLost]
@[simp] theorem execCommandFetch_law (c : Fin 4096) (q : Fin 4) (hostData : List Byte) (s : State) (m : List EccHit) :
    outLaw (execCommandFetch c q hostData s m) = some s.law := by
  simp [execCommandFetch]
@[simp] theorem execDebugInstruction_law (s : State) : outLaw (execDebugInstruction s) = some s.law := by simp [execDebugInstruction]
@[simp] theorem execHbm1500_law (st : Fin 32) (s : State) : outLaw (execHbm1500 st s) = some s.law := by simp [execHbm1500]
@[simp] theorem execWindowControlWrite_law (fn : Fin 17) (v : W64) (s : State) (ide : Bool) :
    outLaw (execWindowControlWrite fn v s ide) = some s.law := by
  simp [execWindowControlWrite]
@[simp] theorem execSamplePreload_law (s : State) (b : Boundary) (pins : Pins) : outLaw (execSamplePreload s b pins) = some s.law := by
  simp [execSamplePreload]
@[simp] theorem execPfcFrame_law (port : Fin 8) (classes : BitVec 8) (quanta : List (BitVec 16)) (s : State) :
    outLaw (execPfcFrame port classes quanta s) = some s.law := by
  simp [execPfcFrame]
@[simp] theorem execLoanLapse_law (loan : BitVec 32) (s : State) : outLaw (execLoanLapse loan s) = some s.law := by simp [execLoanLapse]
@[simp] theorem execCpRestart_law (cause : BitVec 8) (s : State) : outLaw (execCpRestart cause s) = some s.law := by simp [execCpRestart]

@[simp] theorem execRefclkHLoss_law (s : State) : outLaw (execRefclkHLoss s) = some s.law := by
  simp [execRefclkHLoss, Sec.linkEnd]

@[simp] theorem execLeaseClose_law (rank : BitVec 16) (loan : BitVec 32) (s : State) : outLaw (execLeaseClose rank loan s) = some s.law := by
  simp [execLeaseClose]
@[simp] theorem execPauseExpire_law (port tc : Fin 8) (s : State) : outLaw (execPauseExpire port tc s) = some s.law := by
  unfold execPauseExpire
  dsimp only
  split <;> simp

@[simp] theorem execMsixUnmask_law (fn : Fin 17) (w : MsixWrite) (s : State) (ide : Bool) : outLaw (execMsixUnmask fn w s ide) = some s.law := by
  simp [execMsixUnmask]
@[simp] theorem execIdeKm_law (stream : Fin 17) (o : IdeOp) (s : State) : outLaw (execIdeKm stream o s) = some s.law := by simp [execIdeKm]
@[simp] theorem execHpatRead_law (fn : Fin 17) (off : BitVec 25) (s : State) (ide : Bool) : outLaw (execHpatRead fn off s ide) = some s.law := by
  simp [execHpatRead]
@[simp] theorem execSlabWipeStart_law (q : Fin 4) (s : State) : outLaw (execSlabWipeStart q s) = some s.law := by simp [execSlabWipeStart]
@[simp] theorem execSpdmRequest_law (msg : List Byte) (s : State) : outLaw (execSpdmRequest msg s) = some s.law := by
  unfold execSpdmRequest
  dsimp only
  (repeat' split) <;> simp

@[simp] theorem execGetVendorMessageSupport_law (binding : Fin 2) (s : State) : outLaw (execGetVendorMessageSupport binding s) = some s.law := by
  simp [execGetVendorMessageSupport]
@[simp] theorem execFrameReceive_law (port : Fin 8) (f : RxFrame) (s : State) (fec : Nat × Nat) (reply : Option (List Byte)) :
    outLaw (execFrameReceive port f s fec reply) = some s.law := by
  simp [execFrameReceive]
@[simp] theorem execTelemetryRestored_law (s : State) : outLaw (execTelemetryRestored s) = some s.law := by simp [execTelemetryRestored]
@[simp] theorem execGetMessageTypeSupport_law (binding : Fin 2) (s : State) : outLaw (execGetMessageTypeSupport binding s) = some s.law := by
  simp [execGetMessageTypeSupport]
@[simp] theorem execRefclkELoss_law (s : State) : outLaw (execRefclkELoss s) = some s.law := by simp [execRefclkELoss]
@[simp] theorem execOverrun_law (uid : Nat) (s : State) : outLaw (execOverrun uid s) = some s.law := by
  unfold execOverrun
  (repeat' split) <;> simp

@[simp] theorem execSnapshotLapse_law (ch : Channel) (s : State) : outLaw (execSnapshotLapse ch s) = some s.law := by
  unfold execSnapshotLapse
  dsimp only
  split <;> simp

@[simp] theorem execGateEntry_law (port : Fin 8) (s : State) : outLaw (execGateEntry port s) = some s.law := by simp [execGateEntry]
@[simp] theorem execTapReset_law (s : State) : outLaw (execTapReset s) = some s.law := by simp [execTapReset]
@[simp] theorem execVectorStart_law (p : Fin 68) (s : State) (h : List EccHit) : outLaw (execVectorStart p s h) = some s.law := by
  unfold execVectorStart
  dsimp only
  split <;> simp

@[simp] theorem execSendArrive_law (p : Fin 68) (k : Nat) (s : State) (e g : List EccHit) : outLaw (execSendArrive p k s e g) = some s.law := by
  unfold execSendArrive
  dsimp only
  (repeat' split) <;> simp

@[simp] theorem execAtomicopRequest_law (fn : Fin 17) (_bar : Fin 6) (s : State) : outLaw (execAtomicopRequest fn _bar s) = some s.law := by
  simp [execAtomicopRequest]
@[simp] theorem execFenced_law (k : GPkt) (s : State) : outLaw (execFenced k s) = some s.law := by simp [execFenced]
@[simp] theorem execHighz_law (s : State) : outLaw (execHighz s) = some s.law := by simp [execHighz]
@[simp] theorem execDeviceToll_law (m : TollMsg) (s : State) : outLaw (execDeviceToll m s) = some s.law := by simp [execDeviceToll]
@[simp] theorem execDynamicAddressAssign_law (addr : BitVec 7) (s : State) : outLaw (execDynamicAddressAssign addr s) = some s.law := by
  simp [execDynamicAddressAssign]
@[simp] theorem execSlotEnd_law (p : Fin 68) (s : State) : outLaw (execSlotEnd p s) = some s.law := by
  unfold execSlotEnd
  split <;> simp

@[simp] theorem execVfFlr_law (n : Fin 16) (s : State) (ide : Bool) : outLaw (execVfFlr n s ide) = some s.law := by simp [execVfFlr]
@[simp] theorem execRtoExpiry_law (rank : BitVec 16) (stream : BitVec 14) (seq : BitVec 32) (s : State) :
    outLaw (execRtoExpiry rank stream seq s) = some s.law := by
  unfold execRtoExpiry
  dsimp only
  split <;> simp

@[simp] theorem execIdcode_law (s : State) : outLaw (execIdcode s) = some s.law := by simp [execIdcode]
@[simp] theorem execImageStart_law (s : State) : outLaw (execImageStart s) = some s.law := by simp [execImageStart]
@[simp] theorem execMqPacketWrite_law (qid : Fin 32) (words : List W64) (a : MqWrite) (s : State) :
    outLaw (execMqPacketWrite qid words a s) = some s.law := by
  unfold execMqPacketWrite
  (repeat' split) <;> simp

@[simp] theorem execExtestPulse_law (s : State) (scan : Option (Boundary × Pins)) : outLaw (execExtestPulse s scan) = some s.law := by
  simp [execExtestPulse]
@[simp] theorem execGetEndpointId_law (binding : Fin 2) (s : State) : outLaw (execGetEndpointId binding s) = some s.law := by simp [execGetEndpointId]
@[simp] theorem execRecall_law (m : LendMsg) (s : State) : outLaw (execRecall m s) = some s.law := by simp [execRecall]
@[simp] theorem execGateChange_law (port : Fin 8) (s : State) : outLaw (execGateChange port s) = some s.law := by simp [execGateChange]
@[simp] theorem execPfcRepeat_law (port tc : Fin 8) (s : State) : outLaw (execPfcRepeat port tc s) = some s.law := by
  unfold execPfcRepeat
  dsimp only
  split <;> simp

@[simp] theorem execHotReset_law (s : State) : outLaw (execHotReset s) = some s.law := by simp [execHotReset]
@[simp] theorem execAnswer_law (m : LendMsg) (s : State) : outLaw (execAnswer m s) = some s.law := by simp [execAnswer]
@[simp] theorem execRefetchTimer_law (c : Fin 4096) (q : Fin 4) (hostData : List Byte) (s : State) (m : List EccHit) :
    outLaw (execRefetchTimer c q hostData s m) = some s.law := by
  unfold execRefetchTimer
  dsimp only
  split <;> simp

@[simp] theorem execAbortPeer_law (k : GPkt) (s : State) : outLaw (execAbortPeer k s) = some s.law := by simp [execAbortPeer]
@[simp] theorem execMpassEntry_law (p : Fin 68) (s : State) (e : List EccHit) : outLaw (execMpassEntry p s e) = some s.law := by
  unfold execMpassEntry
  dsimp only
  split <;> simp

@[simp] theorem execCapLoop_law (m : CapSample) (s : State) : outLaw (execCapLoop m s) = some s.law := by simp [execCapLoop]
@[simp] theorem execFastLoop_law (q : Fin 4) (mA : Nat) (s : State) : outLaw (execFastLoop q mA s) = some s.law := by simp [execFastLoop]
@[simp] theorem execMark_law (c : Fin 4096) (q : Fin 4) (s : State) : outLaw (execMark c q s) = some s.law := by
  unfold execMark
  split <;> simp

@[simp] theorem execLendPeriod_law (s : State) : outLaw (execLendPeriod s) = some s.law := by
  unfold execLendPeriod
  dsimp only
  (repeat' split) <;> simp

@[simp] theorem execKillComplete_law (uid : Nat) (s : State) : outLaw (execKillComplete uid s) = some s.law := by
  unfold execKillComplete
  split <;> simp

@[simp] theorem execLastElementWritten_law (p : Fin 68) (s : State) (h : List EccHit) : outLaw (execLastElementWritten p s h) = some s.law := by
  unfold execLastElementWritten
  dsimp only
  split <;> simp

@[simp] theorem execThermalShutdown_law (s : State) : outLaw (execThermalShutdown s) = some s.law := by simp [execThermalShutdown]
@[simp] theorem execAckTimer_law (rank : BitVec 16) (stream : BitVec 14) (s : State) : outLaw (execAckTimer rank stream s) = some s.law := by
  simp [execAckTimer]
@[simp] theorem execTollPrompt_law (p : Fin 68) (s : State) : outLaw (execTollPrompt p s) = some s.law := by simp [execTollPrompt]
@[simp] theorem execChoke_law (p : Fin 68) (cause : BitVec 8) (s : State) (drops : Nat) : outLaw (execChoke p cause s drops) = some s.law := by
  simp [execChoke]
@[simp] theorem execPeakHoldEnd_law (q : Fin 4) (s : State) : outLaw (execPeakHoldEnd q s) = some s.law := by
  unfold execPeakHoldEnd
  dsimp only
  split <;> simp

@[simp] theorem execDictReady_law (s : State) : outLaw (execDictReady s) = some s.law := by simp [execDictReady]
@[simp] theorem execTollCheck_law (q : Fin 4) (u : List MqUpset) (s : State) : outLaw (execTollCheck q u s) = some s.law := by simp [execTollCheck]
@[simp] theorem execCoreBistEnd_law (p : Fin 68) (x : BistResult) (s : State) : outLaw (execCoreBistEnd p x s) = some s.law := by
  unfold execCoreBistEnd
  (repeat' split) <;> simp

@[simp] theorem execHbmTrainingEnd_law (failed : List (Fin 32)) (rows : List Nat) (slabs : List (Fin 65536)) (s : State) :
    outLaw (execHbmTrainingEnd failed rows slabs s) = some s.law := by
  simp [execHbmTrainingEnd]
@[simp] theorem execCpWatchdog_law (s : State) : outLaw (execCpWatchdog s) = some s.law := by simp [execCpWatchdog]

@[simp] theorem execTrialWindowClose_law (s : State) : outLaw (execTrialWindowClose s) = some s.law := by
  unfold execTrialWindowClose
  split
  · rfl
  · split <;> simp

@[simp] theorem execPerstN_law (s : State) : outLaw (execPerstN s) = some s.law := by simp [execPerstN]
@[simp] theorem execDevTollSend_law (s : State) : outLaw (execDevTollSend s) = some s.law := by simp [execDevTollSend]
@[simp] theorem execGetMctpVersionSupport_law (binding : Fin 2) (s : State) : outLaw (execGetMctpVersionSupport binding s) = some s.law := by
  simp [execGetMctpVersionSupport]
@[simp] theorem execConfigurationRequest_law (fn : Fin 17) (c : ConfigSet) (s : State) (ide : Bool) :
    outLaw (execConfigurationRequest fn c s ide) = some s.law := by
  unfold execConfigurationRequest
  (repeat' split) <;> simp

@[simp] theorem execFrameTransmit_law (port tc : Fin 8) (s : State) : outLaw (execFrameTransmit port tc s) = some s.law := by
  unfold execFrameTransmit
  dsimp only
  split <;> simp

@[simp] theorem execRingConsumerWrite_law (fn ring : Fin 17) (v : W64) (s : State) (ide : Bool) :
    outLaw (execRingConsumerWrite fn ring v s ide) = some s.law := by
  simp [execRingConsumerWrite]
@[simp] theorem execLinkTraining_law (gen width : BitVec 8) (s : State) : outLaw (execLinkTraining gen width s) = some s.law := by
  simp [execLinkTraining]
@[simp] theorem execPageAttributeWrite_law (fn : Fin 17) (e : Fin 256) (v : BitVec 128) (s : State) (ide : Bool) :
    outLaw (execPageAttributeWrite fn e v s ide) = some s.law := by
  simp [execPageAttributeWrite]
@[simp] theorem execPatrolScrub_law (q : Fin 4) (e : EccFinding) (s : State) : outLaw (execPatrolScrub q e s) = some s.law := by
  unfold execPatrolScrub
  dsimp only
  (repeat' split) <;> simp

@[simp] theorem execDrainEnd_law (p : Fin 68) (upset : List (Nat × BitVec 32)) (s : State) (h : List EccHit) :
    outLaw (execDrainEnd p upset s h) = some s.law := by
  unfold execDrainEnd
  dsimp only
  (repeat' split) <;> simp

@[simp] theorem execRun_law (c : Fin 4096) (q : Fin 4) (s : State) : outLaw (execRun c q s) = some s.law := by
  rcases h : ((s.ctx c.val).queue q.val).fetched with _ | f
  · simp [execRun, h]
  · rcases cores : s.placement c.val f.entry f.restart with _ | gang
    · simp [execRun, h, cores]
    · rcases grant : s.runGrant c.val q.val (latencyCritical (s.ctx c.val) f.entry)
      · simp [execRun, h, cores, grant]
      · rcases slice : (s.ctx c.val).openSlice with ⟨x, _ | len⟩ <;> simp [execRun, h, cores, grant, slice]

@[simp] theorem execSemAdd_law (fn : Fin 17) (c : Fin 4096) (v : W64) (s : State) (ide : Bool) : outLaw (execSemAdd fn c v s ide) = some s.law := by
  simp [execSemAdd]

@[simp] theorem execResume_law (k : GPkt) (s : State) : outLaw (execResume k s) = some s.law := by
  refine congrArg some (State.receive_law fun t => ?_)
  dsimp only
  split <;> simp

@[simp] theorem execToll_law (p : Fin 68) (s : State) : outLaw (execToll p s) = some s.law := by simp [execToll]
@[simp] theorem execFlushEffect_law (qid : Fin 32) (s : State) : outLaw (execFlushEffect qid s) = some s.law := by simp [execFlushEffect]
@[simp] theorem execSliceClose_law (uid : Nat) (s : State) : outLaw (execSliceClose uid s) = some s.law := by
  unfold execSliceClose
  dsimp only
  (repeat' split) <;> simp

@[simp] theorem execRstdaa_law (s : State) : outLaw (execRstdaa s) = some s.law := by simp [execRstdaa]
@[simp] theorem execStallWatchdog_law (p : Fin 68) (since : Nat) (s : State) : outLaw (execStallWatchdog p since s) = some s.law := by
  simp [execStallWatchdog]

@[simp] theorem execRerun_law (uid : Nat) (s : State) : outLaw (execRerun uid s) = some s.law := by
  unfold execRerun
  split
  · rfl
  · next i h =>
    extract_lets x n lc
    generalize slice : x.openSlice = opened
    obtain ⟨x', _ | len⟩ := opened
    all_goals
      simp
      split <;> simp

@[simp] theorem execDrainStart_law (p : Fin 68) (s : State) : outLaw (execDrainStart p s) = some s.law := by
  unfold execDrainStart
  dsimp only
  split <;> simp

@[simp] theorem execTakeoverLimit_law (s : State) : outLaw (execTakeoverLimit s) = some s.law := by simp [execTakeoverLimit]
@[simp] theorem execPeerSilent_law (r : Fin 255) (s : State) : outLaw (execPeerSilent r s) = some s.law := by simp [execPeerSilent]
@[simp] theorem execCommitNotice_law (k : GPkt) (s : State) : outLaw (execCommitNotice k s) = some s.law := by simp [execCommitNotice]
@[simp] theorem execLastWavefrontLeft_law (p : Fin 68) (s : State) : outLaw (execLastWavefrontLeft p s) = some s.law := by
  simp [execLastWavefrontLeft]
@[simp] theorem execSetEndpointId_law (binding : Fin 2) (eid : BitVec 8) (s : State) : outLaw (execSetEndpointId binding eid s) = some s.law := by
  simp [execSetEndpointId]
@[simp] theorem execExtest_law (s : State) (scan : Option (Boundary × Pins)) : outLaw (execExtest s scan) = some s.law := by simp [execExtest]

@[simp] theorem execAnnounce_law (k : GPkt) (s : State) : outLaw (execAnnounce k s) = some s.law := by
  refine congrArg some (State.headerOk_law fun t => ?_)
  dsimp only
  split
  · simp
  · split
    · simp
    · split <;> simp

@[simp] theorem execGrant_law (m : LendMsg) (s : State) : outLaw (execGrant m s) = some s.law := by
  refine congrArg some (State.lendMsg_law ?_)
  dsimp only
  split
  · simp
  · split <;> simp


/-! ### What takes nothing back -/

/-- What no step takes back: the waiting commands stay, memory keeps its canonical form, no count of fuses falls, and SCRAPPED is final. -/
structure Law.Le (a b : Law) : Prop where
  pending     : b.pending = a.pending
  bytes       : swf 0 a.bytes = true → swf 0 b.bytes = true
  transitions : a.transitions ≤ b.transitions
  seedOff     : a.seedOff = true → b.seedOff = true
  fused       : (a.fused.headD 0).toNat ≤ (b.fused.headD 0).toNat
  scrapped    : a.lc = .scrapped → a.lcTarget = none → b.lc = .scrapped ∧ b.lcTarget = none

@[simp] theorem Law.Le.refl (a : Law) : a.Le a := ⟨rfl, id, le_rfl, id, le_rfl, fun h k => ⟨h, k⟩⟩

theorem Law.Le.trans {a b c : Law} (h : a.Le b) (k : b.Le c) : a.Le c where
  pending := k.pending.trans h.pending
  bytes := k.bytes ∘ h.bytes
  transitions := h.transitions.trans k.transitions
  seedOff := k.seedOff ∘ h.seedOff
  fused := h.fused.trans k.fused
  scrapped := fun x y => (h.scrapped x y).elim k.scrapped

@[simp] theorem Law.le_ite (a : Law) (c : Prop) [Decidable c] (x y : Law) : a.Le (if c then x else y) ↔ (c → a.Le x) ∧ (¬ c → a.Le y) := by
  split <;> simp [*]

theorem State.MemStep.le {a : Law} {s t : State} (m : s.MemStep t) (h : a.Le s.law) : a.Le t.law := by
  have e : t.law = ⟨s.pending, t.mem.bytes, s.sec.transitions, s.sec.seedOff, s.fw.fused, s.sec.lc, s.sec.lcTarget⟩ := by
    unfold State.law
    rw [m.pending, m.sec, m.fw]
  exact h.trans (e ▸ ⟨rfl, m.wf, le_rfl, id, le_rfl, fun x y => ⟨x, y⟩⟩)

/-- An outcome is a next state that takes nothing of a law back. -/
def outLe (a : Law) : Host.Outcome State Fault Refusal → Prop
  | .next t => a.Le t.law
  | _ => False

@[simp] theorem outLe_next (a : Law) (t : State) : outLe a (.next t) ↔ a.Le t.law := Iff.rfl

@[simp] theorem outLe_ite (a : Law) (c : Prop) [Decidable c] (x y : Host.Outcome State Fault Refusal) :
    outLe a (if c then x else y) ↔ (c → outLe a x) ∧ (¬ c → outLe a y) := by
  split <;> simp [*]

theorem outLe_of_outLaw {a : Law} {s : State} {o : Host.Outcome State Fault Refusal} (h : outLaw o = some s.law) (k : a.Le s.law) : outLe a o := by
  cases o with
  | next t =>
    have e : t.law = s.law := Option.some.inj h
    rwa [outLe_next, e]
  | fault | refused => cases h

@[simp] theorem foldl_le {α : Type} {f : State → α → State} (h : ∀ b t x, Law.Le b t.law → Law.Le b (f t x).law) {a : Law} (l : List α) :
    ∀ {s : State}, a.Le s.law → a.Le (l.foldl f s).law := by
  induction l with
  | nil => exact id
  | cons x r ih => exact fun k => ih (h _ _ x k)

/-! #### What an instruction does at its issue -/

/-- What an instruction does beyond its core takes nothing back. -/
def Issue.Calm : Issue → Prop
  | .act _ g => ∀ (a : Law) (t : State), a.Le t.law → a.Le (g t).law
  | _ => True

/-- The instruction does nothing beyond its core. -/
def Issue.Plain : Issue → Prop
  | .act _ _ => False
  | _ => True

@[simp] theorem Issue.calm_stall : Issue.stall.Calm := trivial
@[simp] theorem Issue.calm_bad : Issue.bad.Calm := trivial
@[simp] theorem Issue.calm_go (c : Core) : (Issue.go c).Calm := trivial
@[simp] theorem Issue.calm_act (c : Core) (g : State → State) :
    (Issue.act c g).Calm ↔ ∀ (a : Law) (t : State), a.Le t.law → a.Le (g t).law := Iff.rfl
@[simp] theorem Issue.plain_stall : Issue.stall.Plain := trivial
@[simp] theorem Issue.plain_bad : Issue.bad.Plain := trivial
@[simp] theorem Issue.plain_go (c : Core) : (Issue.go c).Plain := trivial
@[simp] theorem Issue.plain_goto (c : Core) (pc : W64) : (Issue.goto c pc).Plain := trivial

@[simp] theorem Issue.calm_of_plain {i : Issue} (h : i.Plain) : i.Calm := by
  cases i <;> trivial

@[simp] theorem Issue.calm_ite (c : Prop) [Decidable c] (x y : Issue) : (if c then x else y).Calm ↔ (c → x.Calm) ∧ (¬ c → y.Calm) := by
  split <;> simp [*]

@[simp] theorem Issue.plain_ite (c : Prop) [Decidable c] (x y : Issue) : (if c then x else y).Plain ↔ (c → x.Plain) ∧ (¬ c → y.Plain) := by
  split <;> simp [*]

@[simp] theorem issue_le {a : Law} {s : State} (p n : Nat) {f : Core → Issue} (calm : (f (s.core p)).Calm) (h : a.Le s.law) :
    a.Le (issue s p n f).law := by
  unfold issue
  dsimp only
  split
  · exact h
  · split
    · simpa using h
    · split <;> next e => first | simpa using h | exact (e ▸ calm : Issue.Calm (.act _ _)) _ _ (by simpa using h)

@[simp] theorem issueRequest_le {a : Law} {s : State} (p n : Nat) {f : Core → Issue} (calm : (f (s.core p)).Calm) (h : a.Le s.law) :
    a.Le (issueRequest s p n f).law := by
  unfold issueRequest
  split
  · simpa using h
  · exact issue_le p 1 calm h

@[simp] theorem State.dictWriteAt_le {a : Law} {s : State} {pr : Principal} {k : Nat} {c n : Bool} {f : State → BitVec 8 × State} (h : a.Le s.law)
    (g : s.sec.lc ≠ .scrapped → a.Le (f s).2.law) : a.Le (s.dictWriteAt pr k c n f).law := by
  obtain ⟨-, e⟩ | ⟨r, -, -, e⟩ | ⟨-, w, e⟩ := s.dictWriteAt_cases pr k c n f
  · rwa [e]
  · simpa [e] using h
  · simpa [e] using g (State.writeGate_none w).1

@[simp] theorem State.dictWrite_le {a : Law} {s : State} {pr : Principal} {c n : Bool} {f : State → BitVec 8 × State} (h : a.Le s.law)
    (g : s.sec.lc ≠ .scrapped → a.Le (f s).2.law) : a.Le (s.dictWrite pr c n f).law := State.dictWriteAt_le h g

theorem State.headerOk_le {a : Law} {s : State} {k : GPkt} {typ : Nat} {op : Option Nat} {f : State → State} (h : a.Le s.law)
    (g : ∀ t : State, a.Le t.law → a.Le (f t).law) : a.Le (s.headerOk k typ op f).law := by
  simp [State.headerOk, h, g]

theorem State.receive_le {a : Law} {s : State} {k : GPkt} {typ : Nat} {op : Option Nat} {f : State → State} (h : a.Le s.law)
    (g : ∀ t : State, a.Le t.law → a.Le (f t).law) : a.Le (s.receive k typ op f).law :=
  State.headerOk_le h fun t w => by simp [w, g]

theorem inRange_le {a : Law} {s : State} {v lo hi : Nat} {f : State → State} (h : a.Le s.law) (g : a.Le (f s).law) :
    a.Le (inRange s v lo hi f).2.law := by
  unfold inRange
  split
  · exact g
  · exact h

theorem rowResult_le {a : Law} {s : State} {o : Host.Outcome State Fault Refusal} (h : outLe a o) : a.Le (rowResult s o).2.law := by
  cases o with
  | next t => rwa [rowResult_law]
  | fault | refused => exact h.elim

/-! #### The instructions of a core -/

@[simp] theorem Core.toVector_plain (c : Core) (op : VecOp) (ins outs : List Strm) (f64 : Bool) (alpha : BitVec 32) (sd : Option (BitVec 5)) :
    (Core.toVector c op ins outs f64 alpha sd).Plain := by simp [Core.toVector]

@[simp] theorem Core.addMove_plain (c : Core) (k : MoveKind) (w : W64) (write : Bool) : (Core.addMove c k w write).Plain := by simp [Core.addMove]

@[simp] theorem issueTransfer_plain (k : MoveKind) (c : Core) (w : W64) : (issueTransfer k c w).Plain := by simp [issueTransfer]

@[simp] theorem issueSend_plain (gang : Nat) (c : Core) (w : W64) : (issueSend gang c w).Plain := by simp [issueSend]

@[simp] theorem issueOpen_plain (c : Core) (w : W64) : (issueOpen c w).Plain := by simp [issueOpen]

@[simp] theorem issueMpass_plain (c : Core) (w x : W64) : (issueMpass c w x).Plain := by
  unfold issueMpass
  dsimp only
  (repeat' split) <;> simp

@[simp] theorem issueMdrain_plain (c : Core) (w x : W64) : (issueMdrain c w x).Plain := by
  unfold issueMdrain
  extract_lets
  simp only [Issue.plain_ite, Issue.plain_bad, implies_true, true_and]
  intros
  split
  · trivial
  · exact Core.toVector_plain ..

@[simp] theorem issueDesc_plain (now : Nat) (e : List EccHit) (c : Core) (w : W64) : (issueDesc now e c w).Plain := by
  unfold issueDesc
  dsimp only
  (repeat' split) <;> simp

@[simp] theorem issueLoop_plain (c : Core) (w : W64) : (issueLoop c w).Plain := by simp [issueLoop]

@[simp] theorem issueBr_plain (c : Core) (w : W64) : (issueBr c w).Plain := by simp [issueBr]

@[simp] theorem issueCall_plain (c : Core) (w : W64) : (issueCall c w).Plain := by simp [issueCall]

@[simp] theorem issueRet_plain (c : Core) (w : W64) : (issueRet c w).Plain := by
  unfold issueRet
  dsimp only
  (repeat' split) <;> simp

@[simp] theorem issueAlu_plain (k : AluOp) (c : Core) (w : W64) : (issueAlu k c w).Plain := by simp [issueAlu]

@[simp] theorem issueSliValue_plain (x : Bool) (v : W64) (c : Core) (w : W64) : (issueSliValue x v c w).Plain := by simp [issueSliValue]

@[simp] theorem issueSliMem_plain (store : Bool) (now : Nat) (h : List EccHit) (c : Core) (w : W64) :
    (issueSliMem store now h c w).Plain := by simp [issueSliMem]

@[simp] theorem issueWait_plain (cond : WaitFor) (regs : List (BitVec 5)) (ok : Bool) (c : Core) (w : W64) :
    (issueWait cond regs ok c w).Plain := by simp [issueWait]

@[simp] theorem issueSignal_calm (p : Nat) (c : Core) (w : W64) : (issueSignal p c w).Calm := by simp [issueSignal]

@[simp] theorem issueVop_plain (k : VopKind) (c : Core) (w x : W64) : (issueVop k c w x).Plain := by simp [issueVop]

@[simp] theorem issueVred_plain (k : RedKind) (c : Core) (w : W64) : (issueVred k c w).Plain := by simp [issueVred]

@[simp] theorem issueVcomp_plain (c : Core) (w : W64) : (issueVcomp c w).Plain := by simp [issueVcomp]

@[simp] theorem issueVexpd_plain (c : Core) (w : W64) : (issueVexpd c w).Plain := by simp [issueVexpd]

@[simp] theorem issueVperm_plain (mode : Nat) (c : Core) (w : W64) : (issueVperm mode c w).Plain := by simp [issueVperm]

@[simp] theorem issueCopy_plain (pack : Bool) (c : Core) (w : W64) : (issueCopy pack c w).Plain := by simp [issueCopy]

/-! #### The operations of the state and the commands, in the order of their definitions -/

@[simp] theorem State.putWord_le {ℓ : Law} {s : State} (pa : Nat) (data : List Byte) (h : ℓ.Le s.law) : ℓ.Le (s.putWord pa data).law :=
  (s.putWord_memStep pa data).le h

@[simp] theorem State.putWords_le {ℓ : Law} {s : State} (pa : Nat) (data : List Byte) (k : Nat) (h : ℓ.Le s.law) : ℓ.Le (s.putWords pa data k).law :=
  (State.putWords_memStep k s pa data).le h

@[simp] theorem State.memWrite_le {ℓ : Law} {s : State} (pa : Nat) (data : List Byte) (h : ℓ.Le s.law) : ℓ.Le (s.memWrite pa data).law := by
  simp [State.memWrite, h]

@[simp] theorem State.unmark_le {ℓ : Law} {s : State} (i : Inst) (h : ℓ.Le s.law) : ℓ.Le (s.unmark i).law := by
  unfold State.unmark
  dsimp only
  (repeat' split) <;> simp [h]

@[simp] theorem State.cancelInst_le {ℓ : Law} {s : State} (i : Inst) (h : ℓ.Le s.law) : ℓ.Le (s.cancelInst i).law := by simp [State.cancelInst, h]

@[simp] theorem State.cancelUid_le {ℓ : Law} {s : State} (uid : Nat) (h : ℓ.Le s.law) : ℓ.Le (s.cancelUid uid).law := by
  simpa [State.cancelUid] using foldl_le (fun b t i k => State.cancelInst_le i k) _ h

@[simp] theorem execCarillonEn_le {ℓ : Law} {s : State} (pr : Principal) (v : BitVec 8) (h : ℓ.Le s.law) : outLe ℓ (execCarillonEn pr v s) := by
  refine State.dictWrite_le h fun _ => ?_
  split
  · exact h
  · split
    · exact h
    · split
      · exact h
      · simpa using foldl_le (fun b t u k => by simp [k]) _ h

@[simp] theorem State.putSegs_le {ℓ : Law} {s : State} (l : List (Nat × Nat)) (data : List Byte) (h : ℓ.Le s.law) : ℓ.Le (s.putSegs l data).law :=
  (State.putSegs_memStep l s data).le h

theorem State.vaWrite_le {ℓ : Law} {s t : State} {c va : Nat} {data : List Byte} (h : ℓ.Le s.law) (e : s.vaWrite c va data = .ok t) : ℓ.Le t.law :=
  (State.vaWrite_memStep e).le h

@[simp] theorem State.putRecord_le {ℓ : Law} {s : State} (c : Nat) (e : CmdEntry) (bytes : List Byte) (h : ℓ.Le s.law) :
    ℓ.Le (s.putRecord c e bytes).law := by
  unfold State.putRecord
  dsimp only
  split
  · exact h
  · split
    · split
      · next t w => exact State.vaWrite_le h w
      · exact h
    · simp [h]

@[simp] theorem State.postRecord_le {ℓ : Law} {s : State} (c : Nat) (e : CmdEntry) (bytes : List Byte) (h : ℓ.Le s.law) :
    ℓ.Le (s.postRecord c e bytes).law := by simp [State.postRecord, h]

@[simp] theorem State.completeEntry_le {ℓ : Law} {s : State} (c q idx : Nat) (e : CmdEntry) (status : BitVec 16) (flags : BitVec 6) (secondary : Bool) (reruns : Nat) (h : ℓ.Le s.law) :
    ℓ.Le (s.completeEntry c q idx e status flags secondary reruns).law := by simp [State.completeEntry, h]

@[simp] theorem State.dropCommands_le {ℓ : Law} {s : State} (c : Nat) (status : Option (BitVec 16)) (uid : Option Nat) (h : ℓ.Le s.law) :
    ℓ.Le (s.dropCommands c status uid).law := by
  unfold State.dropCommands
  refine foldl_le (fun b t i k => ?_) _ (by simpa using h)
  cases status <;> simp [k]

@[simp] theorem State.teardown_le {ℓ : Law} {s : State} (c : Nat) (toFree : Bool) (status : Option (BitVec 16)) (uid : Option Nat) (h : ℓ.Le s.law) :
    ℓ.Le (s.teardown c toFree status uid).law := by simp [State.teardown, h]

@[simp] theorem State.destroy_le {ℓ : Law} {s : State} (c : Nat) (h : ℓ.Le s.law) : ℓ.Le (s.destroy c).law := by
  unfold State.destroy
  dsimp only
  split <;> simp [h]

@[simp] theorem State.cancelPart_le {ℓ : Law} {s : State} (n : Nat) (h : ℓ.Le s.law) : ℓ.Le (s.cancelPart n).law := by
  simpa [State.cancelPart] using foldl_le (fun b t i k => State.cancelInst_le i k) _ h

@[simp] theorem State.resetPart_le {ℓ : Law} {s : State} (n : Nat) (h : ℓ.Le s.law) : ℓ.Le (s.resetPart n).law := by
  have m : ∀ l : List Nat, ℓ.Le (l.foldl (fun s c => (s.abortMeasures c).setCtx c { s.ctx c with seals := [] }) (l.foldl State.destroy s)).law := fun l => by
    rw [foldl_law _ (fun t c => by simp)]
    exact foldl_le (fun b t c k => State.destroy_le c k) l h
  unfold State.resetPart
  extract_lets cs s₁ s₂ s₃ s₄ p s₅ sec s₆ s₇ owned jobs s₈ mem s₉ s₁₀
  have k : ℓ.Le s₃.law := State.cancelPart_le n (m cs)
  simpa [s₁₀, s₉, mem, s₈, s₇, s₆, sec, s₅, s₄] using k

@[simp] theorem execPartReset_le {ℓ : Law} {s : State} (pr : Principal) (n : Fin 16) (v : BitVec 8) (h : ℓ.Le s.law) :
    outLe ℓ (execPartReset pr n v s) := by
  refine State.dictWrite_le h fun _ => ?_
  (repeat' split) <;> simp [h]

theorem State.lcAccept_le {ℓ : Law} {s : State} (t : LifeCycle) (live : s.sec.lc ≠ .scrapped) (h : ℓ.Le s.law) : ℓ.Le (s.lcAccept t).law := by
  have k : ∀ l : List Nat, ℓ.Le ((((List.range 16).foldl State.resetPart s).endLoans).abortTests l).law := fun l => by
    rw [State.abortTests_law, State.endLoans_law]
    exact foldl_le (fun b u n k => State.resetPart_le n k) _ h
  unfold State.lcAccept
  extract_lets s₁ s₂ s₃
  have k : ℓ.Le s₃.law := k _
  clear_value s₃
  exact ⟨k.pending, k.bytes, k.transitions, k.seedOff, k.fused, fun x y => absurd (h.scrapped x y).1 live⟩

@[simp] theorem State.lcRequest_le {ℓ : Law} {s : State} (pr : Principal) (who : Bool) (start : LifeCycle → Bool) (t : LifeCycle)
    (token : State → Bool) (uses : Bool) (h : ℓ.Le s.law) : ℓ.Le (s.lcRequest pr who start t token uses).law := by
  refine State.dictWrite_le h fun live => ?_
  split
  · exact h
  · refine State.lcAccept_le t ?_ ?_ <;> split <;> assumption

@[simp] theorem execLcToReturned_le {ℓ : Law} (pr : Principal) (_token : List Byte) {s : State} (h : ℓ.Le s.law) :
    outLe ℓ (execLcToReturned pr _token s) := by simp [execLcToReturned, h]

@[simp] theorem execLcToOperational_le {ℓ : Law} (pr : Principal) (_token : List Byte) {s : State} (h : ℓ.Le s.law) :
    outLe ℓ (execLcToOperational pr _token s) := by simp [execLcToOperational, h]

@[simp] theorem execLcToProvisioned_le {ℓ : Law} (pr : Principal) (token : List Byte) {s : State} (h : ℓ.Le s.law) :
    outLe ℓ (execLcToProvisioned pr token s) := by simp [execLcToProvisioned, h]

@[simp] theorem execLcToScrapped_le {ℓ : Law} (pr : Principal) (_token : List Byte) {s : State} (h : ℓ.Le s.law) :
    outLe ℓ (execLcToScrapped pr _token s) := by simp [execLcToScrapped, h]

@[simp] theorem State.lcWrite_le {ℓ : Law} {s : State} (pr : Principal) (b : List Byte) (h : ℓ.Le s.law) : outLe ℓ (s.lcWrite pr b) := by
  unfold State.lcWrite
  (repeat' split) <;> simp [h]

@[simp] theorem execDestroy_le {ℓ : Law} {s : State} (pr : Principal) (h : ℓ.Le s.law) : outLe ℓ (execDestroy pr s) := by
  refine State.dictWrite_le h fun _ => ?_
  dsimp only
  split
  · next e =>
    split at e
    · cases e
    · cases e
      exact State.destroy_le _ h
  · exact h

@[simp] theorem State.ctxOpWrite_le {ℓ : Law} {s : State} (pr : Principal) (v : Nat) (h : ℓ.Le s.law) : outLe ℓ (s.ctxOpWrite pr v) := by
  unfold State.ctxOpWrite
  split <;> simp [h, outLe_of_outLaw (s := s)]

@[simp] theorem execPartConf_le {ℓ : Law} {s : State} (pr : Principal) (n : Fin 16) (v : BitVec 8) (h : ℓ.Le s.law) :
    outLe ℓ (execPartConf pr n v s) := by
  refine State.dictWrite_le h fun _ => ?_
  dsimp only
  (repeat' split) <;> simp [h]

theorem leNat_lt : ∀ l : List Byte, leNat l < 256 ^ l.length
  | [] => by simp [leNat]
  | b :: r => by
    have h := leNat_lt r
    have k : b.toNat < 256 := b.isLt
    simp only [leNat, List.length_cons, pow_succ]
    omega

theorem natAt_lt (l : List Byte) (o n : Nat) : natAt l o n < 256 ^ n := by
  simpa [natAt, bytesAt] using leNat_lt (bytesAt l o n)

theorem Fw.fusedNow_congr {f g : Fw} (h : f.fused = g.fused) : f.fusedNow = g.fusedNow := by simp [Fw.fusedNow, h]

theorem Fw.confirm_fusedNow (f : Fw) (b : Bool) : f.fusedNow ≤ (f.confirm b).fusedNow := by
  unfold Fw.confirm
  extract_lets f₁ f₂ n f₃
  have e : f₂.fusedNow = f.fusedNow := Fw.fusedNow_congr (by simp [f₂, f₁])
  have r : f₃.fusedNow = n := Nat.mod_eq_of_lt (natAt_lt _ 8 4)
  split
  · next h =>
    have k : f.fusedNow ≤ f₃.fusedNow := by omega
    split
    · exact k.trans_eq (Fw.fusedNow_congr (by simp))
    · exact k
  · exact e.ge

@[simp] theorem execFwConfirm_le {ℓ : Law} {s : State} (pr : Principal) (v : BitVec 8) (h : ℓ.Le s.law) : outLe ℓ (execFwConfirm pr v s) := by
  refine State.dictWriteAt_le h fun _ => ?_
  split
  · exact h
  · split
    · exact h
    · split
      · exact h
      · split
        · exact ⟨h.pending, h.bytes, h.transitions, h.seedOff, h.fused.trans (s.fw.confirm_fusedNow _), h.scrapped⟩
        · exact h

theorem State.rowWrite_le {ℓ : Law} {s : State} {pr : Principal} {index sub : Nat} {b : List Byte} {o : Out} (h : ℓ.Le s.law)
    (e : s.rowWrite pr index sub b = some o) : outLe ℓ o := by
  unfold State.rowWrite at e
  dsimp only at e
  split at e <;> (try split at e) <;> cases e <;> simp [h, outLe_of_outLaw (s := s)]

@[simp] theorem State.permCopy_le {ℓ : Law} {s : State} (i : Inst) (v : View) (e : PermEntry) (idx page : Nat) (h : ℓ.Le s.law) :
    ℓ.Le (s.permCopy i v e idx page).law := by
  unfold State.permCopy
  extract_lets full s₁
  have k : ℓ.Le s₁.law := by simpa [s₁] using h
  split
  · exact h
  · split
    · exact k
    · simpa using k
    · split
      · exact k
      · simpa using k
      · next w => simpa using State.vaWrite_le k w

@[simp] theorem State.permStage_le {ℓ : Law} {s : State} (i : Inst) (v : View) (e : PermEntry) (idx page : Nat) (h : ℓ.Le s.law) :
    ℓ.Le (s.permStage i v e idx page).law := by
  unfold State.permStage
  dsimp only
  split
  · exact h
  · split
    · simpa using h
    · simpa using h
    · split
      · simpa using h
      · simpa using h
      · next w => simpa using State.vaWrite_le (by simpa using h) w

@[simp] theorem State.permSteps_le {ℓ : Law} {s : State} (i : Inst) (h : ℓ.Le s.law) : ℓ.Le (s.permSteps i).law := by
  unfold State.permSteps
  split
  · exact h
  · split
    · refine foldl_le (fun b t x k => ?_) _ (foldl_le (fun b t x k => ?_) _ h)
      · split <;> simp [k]
      · split <;> simp [k]
    · exact h

theorem State.putAll_le {ℓ : Law} {t : State} (l : List (Nat × Nat × List Byte)) : ∀ {s : State}, ℓ.Le s.law → s.putAll l = .ok t → ℓ.Le t.law := by
  induction l with
  | nil => exact fun h e => Got.ok.inj e ▸ h
  | cons x r ih =>
    intro s h e
    unfold State.putAll at e
    split at e
    · next w => exact ih (State.vaWrite_le h w) e
    · cases e
    · cases e

theorem State.landChunk_le {ℓ : Law} {s t : State} {i : Inst} {rank off : Nat} {data : List Byte} (h : ℓ.Le s.law)
    (e : s.landChunk i rank off data = .ok t) : ℓ.Le t.law := by
  unfold State.landChunk at e
  split at e
  · cases e
  · cases e
  · next l _ =>
    cases w : s.putAll l with
    | ok u => rw [w] at e; cases e; simpa using State.putAll_le l h w
    | fault _ => rw [w] at e; cases e
    | held => rw [w] at e; cases e

theorem State.takeChunk_le {ℓ : Law} {s t : State} {i : Inst} {rank off : Nat} {data : List Byte} (h : ℓ.Le s.law)
    (e : s.takeChunk i rank off data = some t) : ℓ.Le t.law := by
  unfold State.takeChunk at e
  split at e
  · next w => exact Option.some.inj e ▸ State.landChunk_le h w
  · cases e
  · cases e
    split <;> simpa using h

@[simp] theorem State.takeEarly_le {ℓ : Law} {s : State} (opid : BitVec 32) (group : BitVec 8) (h : ℓ.Le s.law) :
    ℓ.Le (s.takeEarly opid group).law := by
  refine foldl_le (fun b t k w => ?_) _ h
  split
  · exact w
  · split
    · exact w
    · dsimp only
      split
      · simpa using w
      · split
        · next e => simpa using State.takeChunk_le w e
        · exact w

@[simp] theorem State.pump_le {ℓ : Law} {s : State} (h : ℓ.Le s.law) : ℓ.Le s.pump.law := by
  refine foldl_le (fun b t x k => ?_) _ ?_
  · split <;> simp [k]
  refine foldl_le (fun b t x k => by simp [k]) _ (foldl_le (fun b t x k => by simp [k]) _ (foldl_le (fun b t x k => by simp [k]) _ ?_))
  exact foldl_le (fun b t x k => by simp [k]) _ h

@[simp] theorem State.releaseGen_le {ℓ : Law} {s : State} (n layer e : Nat) (h : ℓ.Le s.law) : ℓ.Le (s.releaseGen n layer e).law := by
  unfold State.releaseGen
  split <;> simp [h]

@[simp] theorem State.releaseGens_le {ℓ : Law} {s : State} (h : ℓ.Le s.law) : ℓ.Le s.releaseGens.law := by
  refine foldl_le (fun b t n k => ?_) _ h
  split
  · exact k
  · exact foldl_le (fun b t l k => by simp [k]) _ k

@[simp] theorem State.putCarillon_le {ℓ : Law} {s : State} (pr : Principal) (index sub : Nat) (b : List Byte) (h : ℓ.Le s.law) :
    ℓ.Le (s.putCarillon pr index sub b).2.law := by
  unfold State.putCarillon
  dsimp only
  (repeat' split) <;> first | exact h | (refine inRange_le h ?_; simp [h])

@[simp] theorem State.dictPut_le {ℓ : Law} {s : State} (pr : Principal) (index sub : Nat) (b : List Byte) (h : ℓ.Le s.law) :
    ℓ.Le (s.dictPut pr index sub b).2.law := by
  unfold State.dictPut
  split <;> simp [h]

@[simp] theorem State.applyWrite_le {ℓ : Law} {s : State} (pr : Principal) (index sub : Nat) (b : List Byte) (h : ℓ.Le s.law) :
    ℓ.Le (s.applyWrite pr index sub b).2.law := by
  unfold State.applyWrite
  split
  · next e => exact rowResult_le (State.rowWrite_le h e)
  · simp [h]

@[simp] theorem Fw.setImage_fused (f : Fw) (b : Bool) (v : List Byte) : (f.setImage b v).fused = f.fused := by
  unfold Fw.setImage
  split <;> rfl

@[simp] theorem Fw.imageSegment_fused (f : Fw) (value : List Byte) (first last : Bool) : (f.imageSegment value first last).fused = f.fused := by
  unfold Fw.imageSegment
  dsimp only
  split <;> split <;> simp

@[simp] theorem State.writeSegment_le {ℓ : Law} {s : State} (ch : Channel) (pr : Principal) (m : VMsg) (index sub : Nat) (h : ℓ.Le s.law) :
    ℓ.Le (s.writeSegment ch pr m index sub).2.law := by
  unfold State.writeSegment
  dsimp only
  split
  · simpa using h
  · split
    · simp [h]
    · split <;> split <;> (try split) <;> simp [h]

@[simp] theorem State.voxWrite_le {ℓ : Law} {s : State} (ch : Channel) (pr : Principal) (m : VMsg) (e : Ent) (sub : Nat) (h : ℓ.Le s.law) :
    ℓ.Le (s.voxWrite ch pr m e sub).2.law := by
  unfold State.voxWrite
  dsimp only
  (repeat' split) <;> simp [h]

@[simp] theorem State.voxOp_le {ℓ : Law} {s : State} (ch : Channel) (pr : Principal) (op : Nat) (m : VMsg) (h : ℓ.Le s.law) :
    ℓ.Le (s.voxOp ch pr op m).2.law := by
  unfold State.voxOp
  dsimp only
  (repeat' split) <;> simp [h]

@[simp] theorem State.execute_le {ℓ : Law} {s : State} (w : VWait) (h : ℓ.Le s.law) : ℓ.Le (s.execute w).law := by simp [State.execute, h]

@[simp] theorem State.serve_le {ℓ : Law} {s : State} (w : VWait) (h : ℓ.Le s.law) : ℓ.Le (s.serve w).law := by
  unfold State.serve
  split <;> simp [h]

@[simp] theorem State.advance_le {ℓ : Law} (n : Nat) : ∀ {s : State}, ℓ.Le s.law → ℓ.Le (State.advance n s).law := by
  induction n with
  | zero => exact id
  | succ n ih =>
    intro s h
    unfold State.advance
    split
    · exact h
    · exact ih (State.serve_le _ h)

@[simp] theorem State.settleWaits_le {ℓ : Law} {s : State} (h : ℓ.Le s.law) : ℓ.Le s.settleWaits.law := by simp [State.settleWaits, h]

@[simp] theorem State.arrive_le {ℓ : Law} {s : State} (ch : Channel) (op : BitVec 8) (m : VMsg) (h : ℓ.Le s.law) :
    ℓ.Le (s.arrive ch op m).law := by simp [State.arrive, h]

theorem swf_memAfterReset (f : Fw) : swf 0 (memAfterReset f).bytes = true := rfl

@[simp] theorem State.resetKeep_le {ℓ : Law} {s : State} (h : ℓ.Le s.law) : ℓ.Le s.resetKeep.law := by
  have e : s.resetKeep.law = ⟨s.pending, [], s.sec.transitions, s.sec.seedOff, s.fw.fused, s.sec.lc, none⟩ := by
    simp [State.resetKeep, memAfterReset, Mem.reset, Sec.afterReset, Sec.reset, Fw.afterReset]
  rw [e]
  exact ⟨h.pending, fun _ => rfl, h.transitions, h.seedOff, h.fused, fun x y => ⟨(h.scrapped x y).1, rfl⟩⟩

@[simp] theorem State.boot_le {ℓ : Law} {s : State} (h : ℓ.Le s.law) : ℓ.Le s.boot.law := by simp [State.boot, h]

@[simp] theorem State.publishNow_le {ℓ : Law} {s : State} (i : Inst) (h : ℓ.Le s.law) : ℓ.Le (s.publishNow i).law := by
  unfold State.publishNow
  dsimp only
  split <;> simp [h]

@[simp] theorem State.commitInst_le {ℓ : Law} {s : State} (i : Inst) (h : ℓ.Le s.law) : ℓ.Le (s.commitInst i).law := by
  unfold State.commitInst
  split <;> simp [h]

@[simp] theorem State.commitPeals_le {ℓ : Law} {s : State} (uid : Nat) (h : ℓ.Le s.law) : ℓ.Le (s.commitPeals uid).law := by
  have c := foldl_le (fun b t i k => State.commitInst_le i k) (s.peal.insts.filter fun i => i.uid == uid) h
  unfold State.commitPeals
  extract_lets mine s₁ s₂ notes s₃ p s₄
  have k : ℓ.Le s₄.law := by simpa [s₄, p, s₃, s₂] using c
  split
  · simp [k]
  · exact k

@[simp] theorem State.commitCmd_le {ℓ : Law} {s : State} (i : Issued) (h : ℓ.Le s.law) : ℓ.Le (s.commitCmd i).law := by
  unfold State.commitCmd
  split <;> simp [h]

theorem State.finishPeal_le {ℓ : Law} {s t : State} {i : Inst} {r : PealResult} {hostData : List Byte} (h : ℓ.Le s.law)
    (e : s.finishPeal i r hostData = .ok t) : ℓ.Le t.law := by
  unfold State.finishPeal at e
  split at e
  · cases e
  · cases e
  · next u hu =>
    have ku : ℓ.Le u.law := State.putAll_le _ h hu
    split at e
    · cases e
    · cases e
    · next v hv =>
      have kv : ℓ.Le v.law := State.hostSide_law hv ▸ ku
      dsimp only at e
      split at e
      · cases e
      · cases e
      · next x hx =>
        cases e
        have kx : ℓ.Le x.law := State.vaWrite_le (by simpa using kv) hx
        simp [kx]

theorem State.completeInst_le {ℓ : Law} {s t : State} {i : Inst} {v : View} {hostData : List Byte} (h : ℓ.Le s.law)
    (e : s.completeInst i v hostData = .ok t) : ℓ.Le t.law := by
  unfold State.completeInst at e
  split at e
  · cases e
  · split at e
    · cases e
    · cases e
    · exact State.finishPeal_le h e

@[simp] theorem State.cpServes_le {ℓ : Law} {s : State} (words : List W64) (h : ℓ.Le s.law) : ℓ.Le (s.cpServes words).law := by
  unfold State.cpServes
  split <;> simp [h]

@[simp] theorem State.deliver_le {ℓ : Law} {s : State} (qid ringNo fn vec : Nat) (u : List MqUpset) (h : ℓ.Le s.law) :
    ℓ.Le (s.deliver qid ringNo fn vec u).law := by
  have w : ∀ (t : State) (l : List (Nat × List Byte)) (base : Nat), ℓ.Le t.law → ℓ.Le (l.foldl (fun s e => s.memWrite (base + e.1) e.2) t).law :=
    fun t l base => foldl_le (fun b t e k => by simp [k]) l
  unfold State.deliver
  dsimp only
  split
  · exact h
  · split
    · exact h
    · generalize (bitN (s.ring ringNo).base 0 && decide (ringNo < 16)) = dev
      cases dev <;> simp only [if_true, if_false, Bool.false_eq_true, false_and, true_and]
      · split
        · exact h
        · next t s' e =>
          have k : ℓ.Le s'.law := (State.takeFrom_law e).symm ▸ h
          split <;> simp [k]
      · split
        · exact h
        · split
          · exact h
          · next t s' e =>
            have k : ℓ.Le s'.law := (State.takeFrom_law e).symm ▸ h
            split <;> split <;> simp [k, h, w]

theorem State.landPut_le {ℓ : Law} {s t : State} {k : GPkt} {e : BitVec 256} (h : ℓ.Le s.law) (w : s.landPut k e = some t) : ℓ.Le t.law := by
  unfold State.landPut at w
  dsimp only at w
  split at w
  · cases w
  · cases w
    simpa using h
  · split at w
    · cases w
    · cases w
      simpa using h
    · next v =>
      cases w
      simpa using State.vaWrite_le h v

theorem State.deliverData_le {ℓ : Law} {s t : State} {k : HeldPkt} (h : ℓ.Le s.law) (e : s.deliverData k = some t) : ℓ.Le t.law := by
  unfold State.deliverData at e
  dsimp only at e
  split at e
  · cases e
    exact h
  · split at e
    · exact State.landPut_le h e
    · split at e
      · rwa [State.serveGet_law e]
      · split at e
        · exact State.takeChunk_le h e
        · split at e
          · cases e
          · cases e
            simpa using h

@[simp] theorem State.deliverQueue_le {ℓ : Law} {s : State} (qid : Nat) (u : List MqUpset) (h : ℓ.Le s.law) :
    ℓ.Le (s.deliverQueue qid u).law := by simp [State.deliverQueue, h]

@[simp] theorem State.drainHeld_le {ℓ : Law} (rank stream : Nat) (n : Nat) : ∀ {s : State}, ℓ.Le s.law → ℓ.Le (s.drainHeld rank stream n).law := by
  induction n with
  | zero => exact id
  | succ n ih =>
    intro s h
    unfold State.drainHeld
    split
    · exact h
    · split
      · exact h
      · split
        · exact h
        · next w => exact ih (by simpa using State.deliverData_le (by simpa using h) w)

theorem State.endWipe_law (s : State) (j : WipeJob) :
    (s.endWipe j).law = ⟨s.pending, bzero s.mem.bytes j.base j.len, s.sec.transitions, s.sec.seedOff, s.fw.fused, s.sec.lc, s.sec.lcTarget⟩ := by
  unfold State.endWipe
  dsimp only
  split <;> split <;> (try split) <;> simp

@[simp] theorem State.endWipe_le {ℓ : Law} {s : State} (j : WipeJob) (h : ℓ.Le s.law) : ℓ.Le (s.endWipe j).law := by
  rw [State.endWipe_law]
  exact ⟨h.pending, fun k => swf_bzero _ _ (h.bytes k), h.transitions, h.seedOff, h.fused, h.scrapped⟩

@[simp] theorem State.fetchRecord_le {ℓ : Law} {s : State} (c : Nat) (f : CtxFault) (h : ℓ.Le s.law) : ℓ.Le (s.fetchRecord c f).law := by
  unfold State.fetchRecord
  (repeat' split) <;> simp [h]

@[simp] theorem State.mailboxSubmit_le {ℓ : Law} {s : State} (fn : Fin 17) (op : BitVec 8) (m : VMsg) (h : ℓ.Le s.law) :
    ℓ.Le (s.mailboxSubmit fn op m).law := by simp [State.mailboxSubmit, h]

@[simp] theorem State.payRecords_le {ℓ : Law} (c : Nat) (l : List OwedRecord) : ∀ {s : State}, ℓ.Le s.law → ℓ.Le (s.payRecords c l).law := by
  induction l with
  | nil => exact fun h => by simpa [State.payRecords] using h
  | cons r l ih =>
    intro s h
    unfold State.payRecords
    dsimp only
    split
    · simpa using h
    · exact ih (by simp [h])

@[simp] theorem State.payOwed_le {ℓ : Law} {s : State} (c : Nat) (h : ℓ.Le s.law) : ℓ.Le (s.payOwed c).law := by simp [State.payOwed, h]

@[simp] theorem State.payTeardowns_le {ℓ : Law} {s : State} (h : ℓ.Le s.law) : ℓ.Le s.payTeardowns.law :=
  foldl_le (fun b t c k => by simp [k]) _ h

@[simp] theorem State.startOp_le {ℓ : Law} {s : State} (p part : Nat) (d : PealDesc) (h : ℓ.Le s.law) : ℓ.Le (s.startOp p part d).law := by
  unfold State.startOp
  (repeat' split) <;> simp [h]

@[simp] theorem State.startPeal_le {ℓ : Law} {s : State} (p slot : Nat) (i : Issued) (d : PealDesc) (h : ℓ.Le s.law) :
    ℓ.Le (s.startPeal p slot i d).law := by simp [State.startPeal, h]

@[simp] theorem joinPeal_calm (s : State) (p slot : Nat) (i : Issued) (d : PealDesc) (c : Core) : (joinPeal s p slot i d c).Calm := by
  unfold joinPeal
  dsimp only
  split
  · simp
  · simp only [Issue.calm_ite, Issue.calm_stall, Issue.calm_act, implies_true, true_and]
    exact fun _ _ a t k => State.startPeal_le p slot i d k

@[simp] theorem checkPeal_calm (s : State) (p slot : Nat) (i : Issued) (d : PealDesc) (c : Core) : (checkPeal s p slot i d c).Calm := by
  unfold checkPeal
  (repeat' split) <;> simp

@[simp] theorem pealIssue_calm (s : State) (p : Nat) (w : W64) (c : Core) : (pealIssue s p w c).Calm := by
  unfold pealIssue
  dsimp only
  (repeat' split) <;> simp

@[simp] theorem State.peal1_le {ℓ : Law} {s : State} (code p : Nat) (w : W64) (h : ℓ.Le s.law) : ℓ.Le (s.peal1 code p w).law := by
  unfold State.peal1
  dsimp only
  split
  · split
    · simpa using h
    · exact issueRequest_le _ _ (pealIssue_calm ..) (by simpa using h)
  · exact issueRequest_le _ _ (pealIssue_calm ..) (by simpa using h)

theorem State.pkgSegs_le {ℓ : Law} {j : PkgJob} {key b : List Byte} (n : Nat) :
    ∀ {s t : State} {i : Nat} {r : Option Nat}, ℓ.Le s.law → s.pkgSegs j key b i n = .ok (r, t) → ℓ.Le t.law := by
  induction n with
  | zero =>
    intro s t i r h e
    cases e
    exact h
  | succ n ih =>
    intro s t i r h e
    unfold State.pkgSegs at e
    dsimp only at e
    split at e
    · cases e
    · cases e
      exact h
    · split at e
      · cases e
        exact h
      · split at e
        · cases e
        · cases e
          simpa using h
        · next w => exact ih (State.vaWrite_le h w) e

@[simp] theorem State.request_le {ℓ : Law} {s : State} (ch : Channel) (op : BitVec 8) (m : VMsg) (env : MctpEnv) (h : ℓ.Le s.law) :
    ℓ.Le (s.request ch op m env).law := by
  unfold State.request
  (repeat' split) <;> simp [h]

theorem State.runPkg_le {ℓ : Law} {s t : State} {j : PkgJob} (h : ℓ.Le s.law) (e : s.runPkg j = some t) : ℓ.Le t.law := by
  unfold State.runPkg at e
  dsimp only at e
  split at e
  · cases e
    simpa using h
  · split at e
    · cases e
    · cases e
      simpa using h
    · split at e
      · cases e
        simpa using h
      · split at e
        · cases e
          simpa using h
        · split at e
          · cases e
            simpa using h
          · split at e
            · cases e
            · cases e
            · cases e
              simpa using h
            · next r u hu _ =>
              have k : ℓ.Le u.law := State.pkgSegs_le _ (by simpa using h) hu
              have undo : ∀ (n w : Nat), ℓ.Le (match u.vaWrite j.ctx j.dst (List.replicate n 0) with
                | .ok v => v.pkgDone j w
                | _ => (u.meetWrites [(j.ctx, j.dst, n)]).pkgDone j w).law := fun n w => by
                split
                · next g => simpa using State.vaWrite_le k g
                · simpa using k
              split at e
              · cases e
                exact undo _ _
              · split at e
                · cases e
                  exact undo _ _
                · cases e
                  simpa using k
              · cases e
                exact undo _ _

@[simp] theorem State.windowServe_le {ℓ : Law} {s : State} (a : HeldAccess) (h : ℓ.Le s.law) : ℓ.Le (s.windowServe a).law := by
  unfold State.windowServe
  split <;> simp [h]

theorem State.windowStep_le {ℓ : Law} {s t : State} {a : HeldAccess} (h : ℓ.Le s.law) (e : s.windowStep a = some t) : ℓ.Le t.law := by
  unfold State.windowStep at e
  split at e
  case h_4 => cases e
  all_goals
    cases e
    simp [h]

@[simp] theorem State.serveEach_le {ℓ : Law} (l : List HeldAccess) :
    ∀ {s : State} (kept : List HeldAccess), ℓ.Le s.law → ℓ.Le (s.serveEach kept l).law := by
  induction l with
  | nil => exact fun kept h => by simpa [State.serveEach] using h
  | cons a r ih =>
    intro s kept h
    unfold State.serveEach
    split
    · exact ih _ h
    · split
      · exact ih _ h
      · next w => exact ih _ (State.windowStep_le h w)

@[simp] theorem State.serveHeld_le {ℓ : Law} {s : State} (h : ℓ.Le s.law) : ℓ.Le s.serveHeld.law := by simp [State.serveHeld, h]

@[simp] theorem State.takeAck_le {ℓ : Law} {s : State} (k : GPkt) (h : ℓ.Le s.law) : ℓ.Le (s.takeAck k).law := by
  unfold State.takeAck
  dsimp only
  split <;> simp [h]

@[simp] theorem State.takeData_le {ℓ : Law} {s : State} (k : GPkt) (h : ℓ.Le s.law) : ℓ.Le (s.takeData k).law := by
  unfold State.takeData
  dsimp only
  split
  · simpa using h
  · split
    · split
      · simp [h]
      · next w =>
        have d := State.deliverData_le (by simpa using h) w
        simp [d]
    · simp [h]

@[simp] theorem State.windowAccess_le {ℓ : Law} {s : State} (fn off len : Nat) (write : Option (List Byte)) (errs : List EccHit) (ide : Bool)
    (h : ℓ.Le s.law) : ℓ.Le (s.windowAccess fn off len write errs ide).law := by
  unfold State.windowAccess
  dsimp only
  split
  · simp [h]
  · split
    · simpa using h
    · split
      · next w => exact State.windowStep_le h w
      · simpa using h

@[simp] theorem alu_le {ℓ : Law} (k : AluOp) (p : Fin 68) (w : W64) {s : State} (h : ℓ.Le s.law) : outLe ℓ (alu k p w s) := by simp [alu, h]

@[simp] theorem vop_le {ℓ : Law} (k : VopKind) (p : Fin 68) (w x : W64) {s : State} (h : ℓ.Le s.law) : outLe ℓ (vop k p w x s) := by simp [vop, h]

@[simp] theorem execCmpLt_le {ℓ : Law} (p : Fin 68) (w x : W64) {s : State} (h : ℓ.Le s.law) : outLe ℓ (execCmpLt p w x s) := by
  simp [execCmpLt, h]

@[simp] theorem execCvt_le {ℓ : Law} (p : Fin 68) (w x : W64) {s : State} (h : ℓ.Le s.law) : outLe ℓ (execCvt p w x s) := by simp [execCvt, h]

@[simp] theorem execSsub_le {ℓ : Law} (p : Fin 68) (w : W64) {s : State} (h : ℓ.Le s.law) : outLe ℓ (execSsub p w s) := by simp [execSsub, h]

@[simp] theorem vred_le {ℓ : Law} (k : RedKind) (p : Fin 68) (w : W64) {s : State} (h : ℓ.Le s.law) : outLe ℓ (vred k p w s) := by simp [vred, h]

@[simp] theorem execVredAmax_le {ℓ : Law} (p : Fin 68) (w : W64) {s : State} (h : ℓ.Le s.law) : outLe ℓ (execVredAmax p w s) := by
  simp [execVredAmax, h]

@[simp] theorem execStepEnd_le {ℓ : Law} (p : Fin 68) (w : W64) {s : State} (h : ℓ.Le s.law) : outLe ℓ (execStepEnd p w s) := by
  simp [execStepEnd, h]

@[simp] theorem execMdrain_le {ℓ : Law} (p : Fin 68) (w x : W64) {s : State} (h : ℓ.Le s.law) : outLe ℓ (execMdrain p w x s) := by
  simp [execMdrain, h]

@[simp] theorem execClaim_le {ℓ : Law} (p : Fin 68) (w : W64) {s : State} (h : ℓ.Le s.law) : outLe ℓ (execClaim p w s) := by simp [execClaim, h]

theorem storePieces_le {ℓ : Law} {c : Nat} {writes : List (Nat × Nat)} {mv : MoveInstr} {sp : Scratch} (l : List ((Int × Nat) × (Int × Nat))) :
    ∀ {s : State} (t : Tlb), ℓ.Le s.law → ℓ.Le (storePieces c writes mv sp l s t).2.1.law := by
  induction l with
  | nil => exact fun t h => h
  | cons x r ih =>
    intro s t h
    unfold storePieces
    dsimp only
    split
    · exact h
    · split
      · exact h
      · split
        · exact ih _ (by simp [h])
        · simpa using h
        · simpa using h

theorem loadPieces_law {c : Nat} {mv : MoveInstr} (l : List ((Int × Nat) × (Int × Nat))) :
    ∀ (m : Scratch) (s : State) (t : Tlb), (loadPieces c mv l m s t).2.1.law = s.law := by
  induction l with
  | nil => exact fun _ _ _ => rfl
  | cons x r ih =>
    intro m s t
    unfold loadPieces
    dsimp only
    split
    · rfl
    · split
      · rw [ih]
        exact State.coreRead_law ..
      · exact State.coreRead_law ..
      · exact State.coreRead_law ..

@[simp] theorem execMoveComplete_le {ℓ : Law} {s : State} (p : Fin 68) (k : Nat) (e m : List EccHit) (h : ℓ.Le s.law) :
    outLe ℓ (execMoveComplete p k s e m) := by
  unfold execMoveComplete
  dsimp only
  split
  · exact h
  · split
    · next mv i _ _ _ =>
      have u : ℓ.Le (State.law { s with mem := s.mem.upset m }) := h
      split
      · have w := loadPieces_law (c := i.ctx) (mv := mv) mv.pairs (s.core p).sp { s with mem := s.mem.upset m } (s.core p).tlb
        have w : ℓ.Le _ := w.symm ▸ u
        split
        · simpa using w
        · simpa using w
        · exact h
      · have w := storePieces_le (c := i.ctx) (writes := i.entry.writes) (mv := mv) (sp := (s.core p).sp) mv.pairs (s.core p).tlb u
        split
        · simpa using h
        · split
          · simpa using w
          · simpa using w
          · exact h
      · split <;> simp [h]
      · split <;> simp [h]
    · exact h

@[simp] theorem execWaitPeal_le {ℓ : Law} (p : Fin 68) (w : W64) {s : State} (h : ℓ.Le s.law) : outLe ℓ (execWaitPeal p w s) := by
  simp [execWaitPeal, h]

@[simp] theorem execSignal_le {ℓ : Law} (p : Fin 68) (w : W64) {s : State} (h : ℓ.Le s.law) : outLe ℓ (execSignal p w s) := by simp [execSignal, h]

@[simp] theorem execMqPacketRead_le {ℓ : Law} (qid : Fin 32) (n : Nat) (u : List MqUpset) {s : State} (h : ℓ.Le s.law) :
    outLe ℓ (execMqPacketRead qid n u s) := by
  unfold execMqPacketRead
  (repeat' split) <;> simp [h]

@[simp] theorem execLoop_le {ℓ : Law} (p : Fin 68) (w : W64) {s : State} (h : ℓ.Le s.law) : outLe ℓ (execLoop p w s) := by simp [execLoop, h]

@[simp] theorem execAllToAll_le {ℓ : Law} (p : Fin 68) (w : W64) {s : State} (h : ℓ.Le s.law) : outLe ℓ (execAllToAll p w s) := by
  simp [execAllToAll, h]

@[simp] theorem execBroadcast_le {ℓ : Law} (p : Fin 68) (w : W64) {s : State} (h : ℓ.Le s.law) : outLe ℓ (execBroadcast p w s) := by
  simp [execBroadcast, h]

@[simp] theorem execAbsV_le {ℓ : Law} (p : Fin 68) (w x : W64) {s : State} (h : ℓ.Le s.law) : outLe ℓ (execAbsV p w x s) := by simp [execAbsV, h]

@[simp] theorem execGerilData_le {ℓ : Law} {s : State} (k : GPkt) (h : ℓ.Le s.law) : outLe ℓ (execGerilData k s) :=
  State.receive_le h fun t w => by simp [w]

@[simp] theorem execLcWipeEnd_le {ℓ : Law} {s : State} (h : ℓ.Le s.law) : outLe ℓ (execLcWipeEnd s) := by
  unfold execLcWipeEnd
  split
  · exact h
  · next t e =>
    split
    · exact h
    · have k : ℓ.Le { s.law with lc := t, transitions := s.sec.transitions + 1, seedOff := s.sec.seedOff || t == LifeCycle.scrapped } :=
        ⟨h.pending, h.bytes, h.transitions.trans (Nat.le_succ _), fun x => by simp [show s.sec.seedOff = true from h.seedOff x], h.fused,
          fun x y => absurd (e.symm.trans (h.scrapped x y).2) (by simp)⟩
      refine State.boot_le ?_
      split <;> exact k

@[simp] theorem execDact_le {ℓ : Law} (p : Fin 68) (w x : W64) {s : State} (h : ℓ.Le s.law) : outLe ℓ (execDact p w x s) := by simp [execDact, h]

@[simp] theorem execSliLoad_le {ℓ : Law} (p : Fin 68) (w : W64) {s : State} (e : List EccHit) (h : ℓ.Le s.law) :
    outLe ℓ (execSliLoad p w s e) := by simp [execSliLoad, h]

@[simp] theorem execDesc_le {ℓ : Law} (p : Fin 68) (w : W64) {s : State} (e : List EccHit) (h : ℓ.Le s.law) : outLe ℓ (execDesc p w s e) := by
  simp [execDesc, h]

@[simp] theorem execVredMin_le {ℓ : Law} (p : Fin 68) (w : W64) {s : State} (h : ℓ.Le s.law) : outLe ℓ (execVredMin p w s) := by
  simp [execVredMin, h]

@[simp] theorem execWaitGang_le {ℓ : Law} (p : Fin 68) (w : W64) {s : State} (h : ℓ.Le s.law) : outLe ℓ (execWaitGang p w s) := by
  simp [execWaitGang, h]

@[simp] theorem execVoxyxRead_le {ℓ : Law} (ch : Channel) (m : VMsg) {s : State} (env : MctpEnv) (h : ℓ.Le s.law) :
    outLe ℓ (execVoxyxRead ch m s env) := by simp [execVoxyxRead, h]

@[simp] theorem execMaxV_le {ℓ : Law} (p : Fin 68) (w x : W64) {s : State} (h : ℓ.Le s.law) : outLe ℓ (execMaxV p w x s) := by simp [execMaxV, h]

@[simp] theorem execCall_le {ℓ : Law} (p : Fin 68) (w : W64) {s : State} (h : ℓ.Le s.law) : outLe ℓ (execCall p w s) := by simp [execCall, h]

@[simp] theorem execSor_le {ℓ : Law} (p : Fin 68) (w : W64) {s : State} (h : ℓ.Le s.law) : outLe ℓ (execSor p w s) := by simp [execSor, h]

@[simp] theorem execVcomp_le {ℓ : Law} (p : Fin 68) (w : W64) {s : State} (h : ℓ.Le s.law) : outLe ℓ (execVcomp p w s) := by simp [execVcomp, h]

@[simp] theorem execMinV_le {ℓ : Law} (p : Fin 68) (w x : W64) {s : State} (h : ℓ.Le s.law) : outLe ℓ (execMinV p w x s) := by simp [execMinV, h]

@[simp] theorem execHostRead_le {ℓ : Law} (p : Fin 68) (w : W64) {s : State} (h : ℓ.Le s.law) : outLe ℓ (execHostRead p w s) := by
  simp [execHostRead, h]

@[simp] theorem execMirrorPut_le {ℓ : Law} (p : Fin 68) (w : W64) {s : State} (h : ℓ.Le s.law) : outLe ℓ (execMirrorPut p w s) := by
  simp [execMirrorPut, h]

@[simp] theorem execAdd_le {ℓ : Law} (p : Fin 68) (w x : W64) {s : State} (h : ℓ.Le s.law) : outLe ℓ (execAdd p w x s) := by simp [execAdd, h]

@[simp] theorem execSshr_le {ℓ : Law} (p : Fin 68) (w : W64) {s : State} (h : ℓ.Le s.law) : outLe ℓ (execSshr p w s) := by simp [execSshr, h]

@[simp] theorem execMailboxGo_le {ℓ : Law} {s : State} (fn : Fin 17) (off : BitVec 16) (a : MbxAccess) (ide : Bool) (h : ℓ.Le s.law) :
    outLe ℓ (execMailboxGo fn off a s ide) := by
  unfold execMailboxGo
  cases a <;> simp [h]

@[simp] theorem execSadd_le {ℓ : Law} (p : Fin 68) (w : W64) {s : State} (h : ℓ.Le s.law) : outLe ℓ (execSadd p w s) := by simp [execSadd, h]

@[simp] theorem execSel_le {ℓ : Law} (p : Fin 68) (w x : W64) {s : State} (h : ℓ.Le s.law) : outLe ℓ (execSel p w x s) := by simp [execSel, h]

@[simp] theorem execFwImage_le {ℓ : Law} (ch : Channel) (m : VMsg) {s : State} (env : MctpEnv) (h : ℓ.Le s.law) :
    outLe ℓ (execFwImage ch m s env) := by simp [execFwImage, h]

@[simp] theorem execHbmTestEnd_le {ℓ : Law} {s : State} (st : Fin 32) (rows : List Nat) (h : ℓ.Le s.law) : outLe ℓ (execHbmTestEnd st rows s) := by
  unfold execHbmTestEnd
  split
  · exact h
  · have k : ℓ.Le (rows.foldl State.addRetire s).law := foldl_le (fun b t x k => by simp [k]) _ h
    exact ⟨k.pending, fun w => swf_filter 0 _ (k.bytes w), k.transitions, k.seedOff, k.fused, k.scrapped⟩

@[simp] theorem execHostWrite_le {ℓ : Law} (p : Fin 68) (w : W64) {s : State} (h : ℓ.Le s.law) : outLe ℓ (execHostWrite p w s) := by
  simp [execHostWrite, h]

@[simp] theorem execWaitTag_le {ℓ : Law} (p : Fin 68) (w : W64) {s : State} (h : ℓ.Le s.law) : outLe ℓ (execWaitTag p w s) := by
  simp [execWaitTag, h]

@[simp] theorem execGerilAck_le {ℓ : Law} {s : State} (k : GPkt) (h : ℓ.Le s.law) : outLe ℓ (execGerilAck k s) :=
  State.receive_le h fun t w => by simp [w]

@[simp] theorem execVoxyxWrite_le {ℓ : Law} (ch : Channel) (m : VMsg) {s : State} (env : MctpEnv) (h : ℓ.Le s.law) :
    outLe ℓ (execVoxyxWrite ch m s env) := by simp [execVoxyxWrite, h]

@[simp] theorem execLinkChange_le {ℓ : Law} (port : Fin 8) (st : PortState) (fast : Bool) {s : State} (h : ℓ.Le s.law) :
    outLe ℓ (execLinkChange port st fast s) := by simp [execLinkChange, h]

@[simp] theorem execAct_le {ℓ : Law} (p : Fin 68) (w x : W64) {s : State} (h : ℓ.Le s.law) : outLe ℓ (execAct p w x s) := by simp [execAct, h]

@[simp] theorem execPermute_le {ℓ : Law} (p : Fin 68) (w : W64) {s : State} (h : ℓ.Le s.law) : outLe ℓ (execPermute p w s) := by
  simp [execPermute, h]

@[simp] theorem execContextTeardown_le {ℓ : Law} {s : State} (c : Fin 4096) (h : ℓ.Le s.law) : outLe ℓ (execContextTeardown c s) := by
  have k : ∀ f : CtxFault, ℓ.Le ((s.dropCommands c.val (some f.status) f.uid).fetchRecord c.val f).law := fun f => by simp [h]
  unfold execContextTeardown
  dsimp only
  split
  · exact h
  · split
    case h_4 => exact h
    all_goals exact State.teardown_le _ _ _ _ (k _)

@[simp] theorem execLog2_le {ℓ : Law} (p : Fin 68) (w x : W64) {s : State} (h : ℓ.Le s.law) : outLe ℓ (execLog2 p w x s) := by simp [execLog2, h]

@[simp] theorem execDeviceReset_le {ℓ : Law} {s : State} (power : Bool) (maddr : BitVec 2) (h : ℓ.Le s.law) :
    outLe ℓ (execDeviceReset s power maddr) := by simp [execDeviceReset, h]

@[simp] theorem execStore_le {ℓ : Law} (p : Fin 68) (w : W64) {s : State} (h : ℓ.Le s.law) : outLe ℓ (execStore p w s) := by simp [execStore, h]

@[simp] theorem execLoad_le {ℓ : Law} (p : Fin 68) (w : W64) {s : State} (h : ℓ.Le s.law) : outLe ℓ (execLoad p w s) := by simp [execLoad, h]

@[simp] theorem execSliExt_le {ℓ : Law} (p : Fin 68) (w x : W64) {s : State} (h : ℓ.Le s.law) : outLe ℓ (execSliExt p w x s) := by
  simp [execSliExt, h]

@[simp] theorem execVoxyxInfo_le {ℓ : Law} (ch : Channel) (m : VMsg) {s : State} (env : MctpEnv) (h : ℓ.Le s.law) :
    outLe ℓ (execVoxyxInfo ch m s env) := by simp [execVoxyxInfo, h]

@[simp] theorem execCmpLe_le {ℓ : Law} (p : Fin 68) (w x : W64) {s : State} (h : ℓ.Le s.law) : outLe ℓ (execCmpLe p w x s) := by
  simp [execCmpLe, h]

@[simp] theorem execNegV_le {ℓ : Law} (p : Fin 68) (w x : W64) {s : State} (h : ℓ.Le s.law) : outLe ℓ (execNegV p w x s) := by simp [execNegV, h]

@[simp] theorem execSmul_le {ℓ : Law} (p : Fin 68) (w : W64) {s : State} (h : ℓ.Le s.law) : outLe ℓ (execSmul p w s) := by simp [execSmul, h]

@[simp] theorem execVoxyxCancel_le {ℓ : Law} (ch : Channel) (m : VMsg) {s : State} (env : MctpEnv) (h : ℓ.Le s.law) :
    outLe ℓ (execVoxyxCancel ch m s env) := by simp [execVoxyxCancel, h]

@[simp] theorem execWindowRead_le {ℓ : Law} (fn : Fin 17) (off : BitVec 28) (len : Nat) {s : State} (m : List EccHit) (ide : Bool) (h : ℓ.Le s.law) :
    outLe ℓ (execWindowRead fn off len s m ide) := by simp [execWindowRead, h]

@[simp] theorem execSand_le {ℓ : Law} (p : Fin 68) (w : W64) {s : State} (h : ℓ.Le s.law) : outLe ℓ (execSand p w s) := by simp [execSand, h]

@[simp] theorem execStepEndReceive_le {ℓ : Law} {s : State} (k : GPkt) (h : ℓ.Le s.law) : outLe ℓ (execStepEndReceive k s) :=
  State.receive_le h fun t w => by simp [w]

@[simp] theorem execVredSum_le {ℓ : Law} (p : Fin 68) (w : W64) {s : State} (h : ℓ.Le s.law) : outLe ℓ (execVredSum p w s) := by
  simp [execVredSum, h]

@[simp] theorem execPealComplete_le {ℓ : Law} {s : State} (opid : BitVec 32) (group : BitVec 8) (hostData : List Byte) (h : ℓ.Le s.law) :
    outLe ℓ (execPealComplete opid group hostData s) := by
  unfold execPealComplete
  dsimp only
  split
  · exact h
  · split
    · exact h
    · split
      · simpa using h
      · split
        · exact h
        · simpa using h
        · split
          · exact h
          · split
            · simpa using h
            · simp [h]
            · next e => exact State.completeInst_le (by simpa using h) e

@[simp] theorem execMul_le {ℓ : Law} (p : Fin 68) (w x : W64) {s : State} (h : ℓ.Le s.law) : outLe ℓ (execMul p w x s) := by simp [execMul, h]

@[simp] theorem execWaitEngines_le {ℓ : Law} (p : Fin 68) (w : W64) {s : State} (h : ℓ.Le s.law) : outLe ℓ (execWaitEngines p w s) := by
  simp [execWaitEngines, h]

@[simp] theorem execAllReduce_le {ℓ : Law} (p : Fin 68) (w : W64) {s : State} (h : ℓ.Le s.law) : outLe ℓ (execAllReduce p w s) := by
  simp [execAllReduce, h]

@[simp] theorem execVexpd_le {ℓ : Law} (p : Fin 68) (w : W64) {s : State} (h : ℓ.Le s.law) : outLe ℓ (execVexpd p w s) := by simp [execVexpd, h]

@[simp] theorem execVredMax_le {ℓ : Law} (p : Fin 68) (w : W64) {s : State} (h : ℓ.Le s.law) : outLe ℓ (execVredMax p w s) := by
  simp [execVredMax, h]

@[simp] theorem execReduceScatter_le {ℓ : Law} (p : Fin 68) (w : W64) {s : State} (h : ℓ.Le s.law) : outLe ℓ (execReduceScatter p w s) := by
  simp [execReduceScatter, h]

@[simp] theorem execFwRecovery_le {ℓ : Law} (ch : Channel) (m : VMsg) {s : State} (env : MctpEnv) (h : ℓ.Le s.law) :
    outLe ℓ (execFwRecovery ch m s env) := by simp [execFwRecovery, h]

@[simp] theorem vperm_le {ℓ : Law} (mode : Nat) (p : Fin 68) (w : W64) {s : State} (h : ℓ.Le s.law) : outLe ℓ (vperm mode p w s) := by
  simp [vperm, h]

@[simp] theorem execVpermGather_le {ℓ : Law} (p : Fin 68) (w : W64) {s : State} (h : ℓ.Le s.law) : outLe ℓ (execVpermGather p w s) := by
  simp [execVpermGather, h]

@[simp] theorem execSliImm_le {ℓ : Law} (p : Fin 68) (w : W64) {s : State} (h : ℓ.Le s.law) : outLe ℓ (execSliImm p w s) := by simp [execSliImm, h]

@[simp] theorem execFma_le {ℓ : Law} (p : Fin 68) (w x : W64) {s : State} (h : ℓ.Le s.law) : outLe ℓ (execFma p w x s) := by simp [execFma, h]

@[simp] theorem execVpermScatter_le {ℓ : Law} (p : Fin 68) (w : W64) {s : State} (h : ℓ.Le s.law) : outLe ℓ (execVpermScatter p w s) := by
  simp [execVpermScatter, h]

@[simp] theorem execBr_le {ℓ : Law} (p : Fin 68) (w : W64) {s : State} (h : ℓ.Le s.law) : outLe ℓ (execBr p w s) := by simp [execBr, h]

@[simp] theorem execVunpk_le {ℓ : Law} (p : Fin 68) (w : W64) {s : State} (h : ℓ.Le s.law) : outLe ℓ (execVunpk p w s) := by simp [execVunpk, h]

@[simp] theorem execRsqrt_le {ℓ : Law} (p : Fin 68) (w x : W64) {s : State} (h : ℓ.Le s.law) : outLe ℓ (execRsqrt p w x s) := by
  simp [execRsqrt, h]

@[simp] theorem execSend_le {ℓ : Law} (p : Fin 68) (w : W64) {s : State} (h : ℓ.Le s.law) : outLe ℓ (execSend p w s) := by simp [execSend, h]

@[simp] theorem execVpack_le {ℓ : Law} (p : Fin 68) (w : W64) {s : State} (h : ℓ.Le s.law) : outLe ℓ (execVpack p w s) := by simp [execVpack, h]

@[simp] theorem execPublish_le {ℓ : Law} (p : Fin 68) (w : W64) {s : State} (h : ℓ.Le s.law) : outLe ℓ (execPublish p w s) := by
  simp [execPublish, h]

@[simp] theorem execPut_le {ℓ : Law} (p : Fin 68) (w : W64) {s : State} (h : ℓ.Le s.law) : outLe ℓ (execPut p w s) := by simp [execPut, h]

@[simp] theorem execVpermBlock_le {ℓ : Law} (p : Fin 68) (w : W64) {s : State} (h : ℓ.Le s.law) : outLe ℓ (execVpermBlock p w s) := by
  simp [execVpermBlock, h]

@[simp] theorem execDevrstNLow_le {ℓ : Law} {s : State} (h : ℓ.Le s.law) : outLe ℓ (execDevrstNLow s) := by simp [execDevrstNLow, h]

@[simp] theorem execAllGather_le {ℓ : Law} (p : Fin 68) (w : W64) {s : State} (h : ℓ.Le s.law) : outLe ℓ (execAllGather p w s) := by
  simp [execAllGather, h]

@[simp] theorem Fw.cut_fused (f : Fw) : f.cut.fused = f.fused := by
  unfold Fw.cut
  split
  · rfl
  · split <;> rfl

@[simp] theorem execPwrgdLow_le {ℓ : Law} {s : State} (cut : Bool) (h : ℓ.Le s.law) : outLe ℓ (execPwrgdLow s cut) := by
  unfold execPwrgdLow
  dsimp only
  split <;> exact State.resetKeep_le (by simpa using h)

@[simp] theorem execHelloAck_le {ℓ : Law} {s : State} (k : GPkt) (h : ℓ.Le s.law) : outLe ℓ (execHelloAck k s) :=
  State.receive_le h fun t w => by simp [w]

@[simp] theorem execClose_le {ℓ : Law} {s : State} (k : GPkt) (h : ℓ.Le s.law) : outLe ℓ (execClose k s) :=
  State.receive_le h fun t w => by simp [w]

@[simp] theorem execGet_le {ℓ : Law} (p : Fin 68) (w : W64) {s : State} (h : ℓ.Le s.law) : outLe ℓ (execGet p w s) := by simp [execGet, h]

@[simp] theorem execCommit_le {ℓ : Law} (c : Fin 4096) (q : Fin 4) {s : State} (h : ℓ.Le s.law) : outLe ℓ (execCommit c q s) := by
  unfold execCommit
  dsimp only
  (repeat' split) <;> simp [h]

@[simp] theorem execSliStore_le {ℓ : Law} (p : Fin 68) (w : W64) {s : State} (h : ℓ.Le s.law) : outLe ℓ (execSliStore p w s) := by
  simp [execSliStore, h]

@[simp] theorem execSin_le {ℓ : Law} (p : Fin 68) (w x : W64) {s : State} (h : ℓ.Le s.law) : outLe ℓ (execSin p w x s) := by simp [execSin, h]

@[simp] theorem execVredSumsq_le {ℓ : Law} (p : Fin 68) (w : W64) {s : State} (h : ℓ.Le s.law) : outLe ℓ (execVredSumsq p w s) := by
  simp [execVredSumsq, h]

@[simp] theorem execTeardownEnd_le {ℓ : Law} (c : Fin 4096) {s : State} (h : ℓ.Le s.law) : outLe ℓ (execTeardownEnd c s) := by
  unfold execTeardownEnd
  dsimp only
  (repeat' split) <;> simp [h]

@[simp] theorem execSshl_le {ℓ : Law} (p : Fin 68) (w : W64) {s : State} (h : ℓ.Le s.law) : outLe ℓ (execSshl p w s) := by simp [execSshl, h]

@[simp] theorem execCmpNe_le {ℓ : Law} (p : Fin 68) (w x : W64) {s : State} (h : ℓ.Le s.law) : outLe ℓ (execCmpNe p w x s) := by
  simp [execCmpNe, h]

@[simp] theorem execCos_le {ℓ : Law} (p : Fin 68) (w x : W64) {s : State} (h : ℓ.Le s.law) : outLe ℓ (execCos p w x s) := by simp [execCos, h]

@[simp] theorem execSlabWipeEnd_le {ℓ : Law} (q : Fin 4) {s : State} (h : ℓ.Le s.law) : outLe ℓ (execSlabWipeEnd q s) := by
  unfold execSlabWipeEnd
  (repeat' split) <;> simp [h]

@[simp] theorem execSub_le {ℓ : Law} (p : Fin 68) (w x : W64) {s : State} (h : ℓ.Le s.law) : outLe ℓ (execSub p w x s) := by simp [execSub, h]

@[simp] theorem execOpenWin_le {ℓ : Law} (p : Fin 68) (w : W64) {s : State} (h : ℓ.Le s.law) : outLe ℓ (execOpenWin p w s) := by
  simp [execOpenWin, h]

@[simp] theorem execWindowWrite_le {ℓ : Law} (fn : Fin 17) (off : BitVec 28) (data : List Byte) {s : State} (m : List EccHit) (ide : Bool) (h : ℓ.Le s.law) :
    outLe ℓ (execWindowWrite fn off data s m ide) := by simp [execWindowWrite, h]

@[simp] theorem execVredSumprod_le {ℓ : Law} (p : Fin 68) (w : W64) {s : State} (h : ℓ.Le s.law) : outLe ℓ (execVredSumprod p w s) := by
  simp [execVredSumprod, h]

@[simp] theorem execDeliverPacket_le {ℓ : Law} (qid : Fin 32) {s : State} (u : List MqUpset) (h : ℓ.Le s.law) :
    outLe ℓ (execDeliverPacket qid s u) := by simp [execDeliverPacket, h]

@[simp] theorem execMpass_le {ℓ : Law} (p : Fin 68) (w x : W64) {s : State} (h : ℓ.Le s.law) : outLe ℓ (execMpass p w x s) := by
  simp [execMpass, h]

@[simp] theorem execRet_le {ℓ : Law} (p : Fin 68) (w : W64) {s : State} (h : ℓ.Le s.law) : outLe ℓ (execRet p w s) := by simp [execRet, h]

@[simp] theorem execSmbwd_le {ℓ : Law} (p : Fin 68) (w x : W64) {s : State} (h : ℓ.Le s.law) : outLe ℓ (execSmbwd p w x s) := by
  simp [execSmbwd, h]

@[simp] theorem execCmpEq_le {ℓ : Law} (p : Fin 68) (w x : W64) {s : State} (h : ℓ.Le s.law) : outLe ℓ (execCmpEq p w x s) := by
  simp [execCmpEq, h]

@[simp] theorem execMaintBistEnd_le {ℓ : Law} (x : BistResult) (rows : List Nat) {s : State} (h : ℓ.Le s.law) :
    outLe ℓ (execMaintBistEnd x rows s) := by
  unfold execMaintBistEnd
  (repeat' split) <;> simp [h]

@[simp] theorem execExp2_le {ℓ : Law} (p : Fin 68) (w x : W64) {s : State} (h : ℓ.Le s.law) : outLe ℓ (execExp2 p w x s) := by simp [execExp2, h]

@[simp] theorem execRecip_le {ℓ : Law} (p : Fin 68) (w x : W64) {s : State} (h : ℓ.Le s.law) : outLe ℓ (execRecip p w x s) := by
  simp [execRecip, h]

@[simp] theorem execPkgLoadEnd_le {ℓ : Law} {s : State} (h : ℓ.Le s.law) : outLe ℓ (execPkgLoadEnd s) := by
  unfold execPkgLoadEnd
  split
  · exact h
  · next j _ _ =>
    cases e : s.runPkg j with
    | none => exact h
    | some t => exact State.runPkg_le h e

@[simp] theorem execHello_le {ℓ : Law} {s : State} (k : GPkt) (h : ℓ.Le s.law) : outLe ℓ (execHello k s) :=
  State.receive_le h fun t w => by simp [w]

/-! #### Every step -/

theorem exec_le (c : Instr) (s : State) : outLe s.law (exec c s) := by
  cases c <;> simp [exec, outLe_of_outLaw (s := s)]

theorem tick_le (s : State) : s.law.Le (tick s).law := by
  have k : ∀ t : State, t.law = s.law → s.law.Le (t.serveCpqs.payTeardowns.pump.runMeasures.settleWaits.dropIdle).law := fun t e => by
    have w : s.law.Le t.serveCpqs.payTeardowns.law := by simp [e]
    simpa using State.settleWaits_le (by simpa using State.pump_le w)
  unfold tick
  split
  · exact Law.Le.refl _
  · exact k _ (by simp)

/-- Every command answers a next state, and what no step takes back stands in it. -/
theorem exec_next (c : Instr) (s : State) : ∃ t, exec c s = .next t ∧ s.law.Le t.law := by
  have h := exec_le c s
  cases e : exec c s with
  | next t => exact ⟨t, rfl, by simpa [e] using h⟩
  | fault | refused => simp [e, outLe] at h

theorem step_le {s t : State} (h : step s = .next t) : { s.law with pending := t.pending }.Le t.law := by
  unfold step at h
  split at h
  · cases h
    exact { tick_le s with pending := rfl }
  · next c r _ =>
    obtain ⟨u, e, k⟩ := exec_next c { s with pending := r }
    cases e.symm.trans h
    exact { k with pending := rfl }

end Sys2Proof.Machine

namespace Sys2Proof.Claims
open Sys2Proof.Machine

/-- Settles O55, by what no step takes back: each command answers a next state whose queue is that of the command's. -/
theorem everyCommandCompletesAndLeavesTheQueue : Obligations.EveryCommandCompletesAndLeavesTheQueue := by
  intro c s
  obtain ⟨t, e, k⟩ := exec_next c s
  exact ⟨t, e, k.pending⟩

/-- Settles O59, by what no step takes back: the bytes of memory keep their canonical form under every command and under a tick. -/
theorem everyStepKeepsMemoryCanonical : Obligations.EveryStepKeepsMemoryCanonical :=
  fun _ _ w h => (step_le h).bytes w

/-- Settles O60, by what no step takes back: no command lowers a count of fuses, and the only writes of the life-cycle state are those of an open
gate, which SCRAPPED closes. -/
theorem fusesOnlyBlow : Obligations.FusesOnlyBlow := by
  intro s t h
  obtain ⟨-, -, transitions, seed, fused, scrapped⟩ := step_le h
  exact ⟨transitions, seed, fused, scrapped⟩

end Sys2Proof.Claims

end

section
/-! PROOFS. The other scalar instructions at issue: SLI (R194), control flow (R191, R192), WAIT and SIGNAL (R185 to R187). -/

namespace Sys2Proof.Machine

open Sys2Proof.Claims

/-! ### Issue of an instruction whose lines are held -/

theorem issue_eq_stalls {s : State} {p : Fin 68} {n : Nat} {f : Core → Issue} (ready : Ready s p n) (h : f (s.core p) = .stall) :
    issue s p n f = stalls s p := by
  rw [issue_own s p n f ready.1 ready.2, h]; rfl

theorem issue_eq_jumped {s : State} {p : Fin 68} {f : Core → Issue} {c : Core} {pc : W64} (ready : Ready s p 1) (h : f (s.core p) = .goto c pc) :
    issue s p 1 f = jumped s p c pc := by
  rw [issue_own s p 1 f ready.1 ready.2, h]; rfl

theorem issue_eq_acted {s : State} {p : Fin 68} {n : Nat} {f : Core → Issue} {c : Core} {g : State → State} (ready : Ready s p n)
    (h : f (s.core p) = .act c g) : issue s p n f = g (issued s p n c) := by
  rw [issue_own s p n f ready.1 ready.2, h]; rfl

/-- A core that can issue is not choked, so that its requests meet no closed port. -/
theorem issueRequest_of_canIssue {s : State} {p : Nat} (n : Nat) (f : Core → Issue) (h : s.canIssue p = true) : issueRequest s p n f = issue s p 1 f := by
  have l : (s.core p).life ≠ .choked := fun e => by simp [State.canIssue, Core.issuing, e] at h
  simp [issueRequest, l]

/-! ### SLI (R194) -/

theorem issueSliValue_of_form {x : Bool} {v : W64} {c : Core} {w : W64} (op : opOk 0x1F w x = true) (form : fld w 46 45 = b2n x)
    (zero : zeroBits w 44 32 = true) (free : c.seq.anyBusy [reg5 w 52] = false) :
    issueSliValue x v c w = .go { c with seq := c.seq.setReg (reg5 w 52) v } := by
  simp [issueSliValue, op, form, zero, free]

/-- R194: a well-formed word of FORM 2 or 3 whose registers no unfinished instruction writes. -/
structure SliMemIssues (store : Bool) (q : Seq) (w : W64) : Prop where
  op : opOk 0x1F w false = true
  form : fld w 46 45 = if store then 3 else 2
  zero : zeroBits w 44 32 = true
  free : q.anyBusy [reg5 w 52, reg5 w 47] = false

/-- R88, R194: the eight bytes of FORMs 2 and 3 are aligned and inside the scratchpad. -/
abbrev SliInside (q : Seq) (w : W64) : Prop := sliAddr q w % 8 = 0 ∧ sliAddr q w + 8 ≤ 33554432

/-- R78: what FORMs 2 and 3 put before the scoreboard. -/
def sliEntry (store : Bool) (q : Seq) (w : W64) : SbEntry := { owner := q.nextId, lo := sliAddr q w, hi := sliAddr q w + 8, write := store }

/-- What is left of the issue of an SLI of FORM 2 or 3 that is well formed and does not wait for a register. -/
theorem issueSliMem_of_issues (now : Nat) (h : List EccHit) {store : Bool} {c : Core} {w : W64} (ok : SliMemIssues store c.seq w) :
    issueSliMem store now h c w =
      if sliAddr c.seq w % 8 != 0 || decide (33554432 < sliAddr c.seq w + 8) then .bad
      else if sbStalls c.eng.score [sliEntry store c.seq w] then .stall
      else if store then .go { c with sp := c.sp.write (sliAddr c.seq w) (leBytes 8 (c.seq.reg (reg5 w 52)).toNat) }
      else .go { c.scratchErrs now [(sliAddr c.seq w, sliAddr c.seq w + 8)] h with
        seq := c.seq.setReg (reg5 w 52) (w64 (leNat (c.sp.read (sliAddr c.seq w) 8))) } := by
  obtain ⟨op, form, zero, free⟩ := ok
  have wellFormed : (!opOk 0x1F w false || fld w 46 45 != (if store then 3 else 2) || !zeroBits w 44 32) = false := by simp [op, form, zero]
  simp only [issueSliMem, wellFormed, free, Bool.false_eq_true, if_false, scratchSize, sliAddr, sliEntry, immOf, Core.scratchErrs_seq, Core.scratchErrs_sp]
  rfl

theorem issueSliMem_of_outside (now : Nat) (h : List EccHit) {store : Bool} {c : Core} {w : W64} (ok : SliMemIssues store c.seq w)
    (out : sliAddr c.seq w % 8 ≠ 0 ∨ 33554432 < sliAddr c.seq w + 8) : issueSliMem store now h c w = .bad := by
  rw [issueSliMem_of_issues now h ok, if_pos (by simpa using out)]

theorem issueSliMem_of_inside (now : Nat) (h : List EccHit) {store : Bool} {c : Core} {w : W64} (ok : SliMemIssues store c.seq w)
    (inside : SliInside c.seq w) :
    issueSliMem store now h c w =
      if sbStalls c.eng.score [sliEntry store c.seq w] then .stall
      else if store then .go { c with sp := c.sp.write (sliAddr c.seq w) (leBytes 8 (c.seq.reg (reg5 w 52)).toNat) }
      else .go { c.scratchErrs now [(sliAddr c.seq w, sliAddr c.seq w + 8)] h with
        seq := c.seq.setReg (reg5 w 52) (w64 (leNat (c.sp.read (sliAddr c.seq w) 8))) } := by
  obtain ⟨aligned, inside⟩ := inside
  rw [issueSliMem_of_issues now h ok, if_neg (by simp [aligned, inside])]

/-- R194: what each FORM of SLI moves, its stall and its bad addresses. -/
theorem sliMovesWhatItsFormSays : SliMovesWhatItsFormSays := by
  intro s p w x e c q a entry zero
  refine ⟨?imm, ?ext, ?load, ?store, ?stall, ?bad⟩
  case imm =>
    exact fun ready op form free => congrArg Host.Outcome.next
      (issue_eq_issued (f := fun c => issueSliValue false (immOf w) c w) ready (issueSliValue_of_form op form zero free))
  case ext =>
    exact fun ready op form free => congrArg Host.Outcome.next
      (issue_eq_issued (f := fun c => issueSliValue true x c w) ready (issueSliValue_of_form op form zero free))
  case load =>
    intro ready op form free aligned inside clear
    have ok : SliMemIssues false q w := ⟨op, form, zero, free⟩
    refine congrArg Host.Outcome.next (issue_eq_issued (f := fun c => issueSliMem false s.now e c w) ready ?_)
    exact (issueSliMem_of_inside _ _ ok ⟨aligned, inside⟩).trans (if_neg (by simpa [sliEntry] using clear))
  case store =>
    intro ready op form free aligned inside clear
    have ok : SliMemIssues true q w := ⟨op, form, zero, free⟩
    refine congrArg Host.Outcome.next (issue_eq_issued (f := fun c => issueSliMem true s.now [] c w) ready ?_)
    exact (issueSliMem_of_inside _ _ ok ⟨aligned, inside⟩).trans (if_neg (by simpa [sliEntry] using clear))
  case stall =>
    intro ready op free aligned inside
    refine ⟨fun form full => congrArg Host.Outcome.next (issue_eq_stalls (f := fun c => issueSliMem false s.now e c w) ready ?_),
      fun form full => congrArg Host.Outcome.next (issue_eq_stalls (f := fun c => issueSliMem true s.now [] c w) ready ?_)⟩
    · exact (issueSliMem_of_inside _ _ (store := false) ⟨op, form, zero, free⟩ ⟨aligned, inside⟩).trans (if_pos full)
    · exact (issueSliMem_of_inside _ _ (store := true) ⟨op, form, zero, free⟩ ⟨aligned, inside⟩).trans (if_pos full)
  case bad =>
    intro ready op free out
    refine ⟨fun form => congrArg Host.Outcome.next (issue_eq_rejected (f := fun c => issueSliMem false s.now e c w) ready ?_),
      fun form => congrArg Host.Outcome.next (issue_eq_rejected (f := fun c => issueSliMem true s.now [] c w) ready ?_)⟩
    · exact issueSliMem_of_outside _ _ (store := false) ⟨op, form, zero, free⟩ out
    · exact issueSliMem_of_outside _ _ (store := true) ⟨op, form, zero, free⟩ out

/-- R189: a sum SA + 32 × OFF that reaches 2^64 lies outside the scratchpad. -/
theorem descSumsDoNotWrap : DescSumsDoNotWrap := by
  intro s p w h ready q op zero code1 code2 src free big
  have regs : descRegs w = [reg5 w 46] ++ (if fld w 40 37 = 0 then [] else [reg5 w 32]) ++ (if fld w 31 28 = 0 then [] else [reg5 w 23]) := by
    simp [descRegs, src]
  have ok : DescIssues q w := ⟨op, zero, code1, code2, (Seq.anyBusy_eq_false_iff _ _).mpr (regs ▸ free)⟩
  have out : 33554432 < descAddr q w + 32 := by unfold descAddr; omega
  exact execDesc_eq_rejected ready (issueDesc_of_bad_address _ _ ok src (.inr out))

/-! ### Control flow (R191, R192) -/

theorem brTaken_iff {w a b : W64} (h : fld w 56 54 ≠ 7) : brTaken (fld w 56 54) a b = true ↔ Claims.Taken w a b := by
  have lt : fld w 56 54 < 8 := Nat.mod_lt _ (by norm_num)
  unfold Claims.Taken
  generalize fld w 56 54 = k at h lt ⊢
  interval_cases k <;> simp [brTaken] at h ⊢

theorem execLoop_of_shape {s : State} {p : Fin 68} {w : W64} (ready : Ready s p 1) (op : opOk 0x14 w false = true) (zero : zeroBits w 51 24 = true)
    (free : (s.core p).seq.anyBusy [reg5 w 52] = false) :
    let q := (s.core p).seq
    let c := { s.core p with seq := q.setReg (reg5 w 52) (q.reg (reg5 w 52) - 1) }
    exec (.loop p w) s = .next (if q.reg (reg5 w 52) - 1 ≠ 0 then jumped s p c (target q w) else issued s p 1 c) := by
  refine congrArg Host.Outcome.next ?_
  have own : issueLoop (s.core p) w = if (s.core p).seq.reg (reg5 w 52) - 1 ≠ 0
      then .goto { s.core p with seq := (s.core p).seq.setReg (reg5 w 52) ((s.core p).seq.reg (reg5 w 52) - 1) } (target (s.core p).seq w)
      else .go { s.core p with seq := (s.core p).seq.setReg (reg5 w 52) ((s.core p).seq.reg (reg5 w 52) - 1) } := by
    simp only [issueLoop, op, zero, free, Bool.not_true, Bool.or_self, Bool.false_eq_true, if_false]
    rfl
  split
  · next h => exact issue_eq_jumped (f := fun c => issueLoop c w) ready (own.trans (if_pos h))
  · next h => exact issue_eq_issued (f := fun c => issueLoop c w) ready (own.trans (if_neg h))

theorem execBr_of_shape {s : State} {p : Fin 68} {w : W64} (ready : Ready s p 1) (op : opOk 0x15 w false = true) (zero : zeroBits w 43 24 = true)
    (cond : fld w 56 54 ≠ 7) (free : (s.core p).seq.anyBusy [reg5 w 49, reg5 w 44] = false) :
    let q := (s.core p).seq
    (Claims.Taken w (q.reg (reg5 w 49)) (q.reg (reg5 w 44)) → exec (.br p w) s = .next (jumped s p (s.core p) (target q w))) ∧
    (¬ Claims.Taken w (q.reg (reg5 w 49)) (q.reg (reg5 w 44)) → exec (.br p w) s = .next (issued s p 1 (s.core p))) := by
  intro q
  have own : issueBr (s.core p) w = if brTaken (fld w 56 54) (q.reg (reg5 w 49)) (q.reg (reg5 w 44))
      then .goto (s.core p) (target q w) else .go (s.core p) := by
    simp only [issueBr, op, zero, free, Bool.not_true, Bool.or_self, Bool.and_false, beq_eq_false_iff_ne.mpr cond, Bool.false_eq_true, if_false]
    rfl
  refine ⟨fun h => congrArg Host.Outcome.next ?_, fun h => congrArg Host.Outcome.next ?_⟩
  · exact issue_eq_jumped (f := fun c => issueBr c w) ready (own.trans (if_pos ((brTaken_iff cond).mpr h)))
  · exact issue_eq_issued (f := fun c => issueBr c w) ready (own.trans (if_neg fun t => h ((brTaken_iff cond).mp t)))

theorem issueCall_of_shape {c : Core} {w : W64} (op : opOk 0x16 w false = true) (zero : zeroBits w 50 24 = true) (free : c.seq.anyBusy [reg5 w 51] = false) :
    issueCall c w =
      let dest := if bitN w 56 then c.seq.reg (reg5 w 51) else target c.seq w
      if dest.toNat % 8 ≠ 0 ∨ 16 ≤ c.seq.ret.length then .bad else .goto { c with seq := { c.seq with ret := (c.seq.pc + 8) :: c.seq.ret } } dest := by
  simp only [issueCall, op, zero, free, Bool.not_true, Bool.or_self, Bool.and_false, Bool.false_eq_true, if_false, Bool.or_eq_true, bne_iff_ne,
    decide_eq_true_eq]
  rfl

theorem issueRet_of_pushed {c : Core} {w a : W64} {r : List W64} (op : opOk 0x17 w false = true) (zero : zeroBits w 56 0 = true)
    (h : c.seq.ret = a :: r) : issueRet c w = .goto { c with seq := { c.seq with ret := r } } a := by
  simp [issueRet, op, zero, h]

theorem issueRet_of_empty {c : Core} {w : W64} (op : opOk 0x17 w false = true) (zero : zeroBits w 56 0 = true) (h : c.seq.ret = []) :
    issueRet c w = .go { c with seq := { c.seq with ending := true } } := by
  simp [issueRet, op, zero, h]

/-! ### WAIT and SIGNAL (R185 to R187) -/

theorem issueWait_of_shape {k : WaitFor} {regs : List (BitVec 5)} {ok : Bool} {c : Core} {w : W64} (op : opOk 0x10 w false = true)
    (zero : zeroBits w 34 0 = true) (kind : fld w 56 54 = waitCode k) (free : c.seq.anyBusy regs = false) (fields : ok = true) :
    issueWait k regs ok c w = .go { c with seq := { c.seq with wait := some k } } := by
  simp [issueWait, op, zero, kind, free, fields]

theorem execWaitEnd_of_wait {s : State} {p : Fin 68} {k : WaitFor} (h : (s.core p).seq.wait = some k) :
    exec (.waitEnd p) s = .next (if s.waitHolds p k = true ∧ s.damper.shutdown = false
      then s.setCore p { s.core p with seq := { (s.core p).seq with wait := none } } else s) := by
  show execWaitEnd p s = _
  simp only [execWaitEnd, h, Bool.and_eq_true, Bool.not_eq_true', apply_ite Host.Outcome.next]

theorem execSignal_of_shape {s : State} {p : Fin 68} {w : W64} (ready : Ready s p 1) (op : opOk 0x11 w false = true) (zero : zeroBits w 46 0 = true)
    (free : (s.core p).seq.anyBusy [reg5 w 48] = false) (fence : bitN w 47 = true → ∀ m ∈ (s.core p).eng.moves, m.kind = .openWin) :
    exec (.signal p w) s =
      .next ((issued s p 1 (s.core p)).signalGang p (fld w 56 53) (((s.core p).seq.reg (reg5 w 48)).toNat % 2 ^ 32)) := by
  have moved : (bitN w 47 && (s.core p).eng.moves.any fun m => m.kind != .openWin) = false := by
    cases f : bitN w 47 with
    | false => rfl
    | true => simpa using fence f
  refine congrArg Host.Outcome.next ((issueRequest_of_canIssue _ _ ready.1).trans ?_)
  refine issue_eq_acted (f := fun c => issueSignal p c w) (c := s.core p)
    (g := fun t => t.signalGang p (fld w 56 53) (((s.core p).seq.reg (reg5 w 48)).toNat % 2 ^ 32)) ready ?_
  simp only [issueSignal, op, zero, free, moved, Bool.not_true, Bool.or_self, Bool.false_eq_true, if_false]

end Sys2Proof.Machine

namespace Sys2Proof.Claims

open Sys2Proof.Machine

/-- Settles O2, by what each FORM of SLI leaves and by the bound of a DESC's sum. -/
theorem sliMovesByItsForm : Obligations.SliMovesByItsForm := ⟨sliMovesWhatItsFormSays, descSumsDoNotWrap⟩

/-- Settles O3, by what a well-formed LOOP, BR, CALL and RET answer at issue. -/
theorem controlFlowGoesToItsTarget : Obligations.ControlFlowGoesToItsTarget := by
  intro s p w ready c q
  refine ⟨fun op zero free => ⟨fun v => ?_, fun v => ?_⟩, fun op zero cond free => execBr_of_shape ready op zero cond free, fun op zero free => ?_,
    fun op zero => ⟨fun a r h => ?_, fun h => ?_⟩⟩
  · exact (execLoop_of_shape ready op zero free).trans (congrArg Host.Outcome.next (if_pos v))
  · exact (execLoop_of_shape ready op zero free).trans (congrArg Host.Outcome.next (if_neg (not_not.mpr v)))
  · intro dest
    have own := issueCall_of_shape op zero free
    refine ⟨fun aligned room => congrArg Host.Outcome.next ?_, fun bad => congrArg Host.Outcome.next ?_⟩
    · exact issue_eq_jumped (f := fun c => issueCall c w) ready (own.trans (if_neg (by simp only [not_or, not_not, not_le]; exact ⟨aligned, room⟩)))
    · exact issue_eq_rejected (f := fun c => issueCall c w) ready (own.trans (if_pos bad))
  · exact congrArg Host.Outcome.next (issue_eq_jumped (f := fun c => issueRet c w) ready (issueRet_of_pushed op zero h))
  · exact congrArg Host.Outcome.next (issue_eq_issued (f := fun c => issueRet c w) ready (issueRet_of_empty op zero h))

/-- Settles O4, by what a well-formed WAIT and SIGNAL answer at issue, and by the end of a WAIT. -/
theorem waitHoldsAndSignalAdds : Obligations.WaitHoldsAndSignalAdds := by
  intro s p w c q waiting
  have idle : q.anyBusy [] = false := rfl
  refine ⟨fun ready op zero => ⟨fun kind => ?_, fun kind => ?_, fun kind free => ?_, fun kind fields => ?_⟩, fun k h => ⟨fun holds on => ?_, fun holds => ?_⟩,
    fun ready op zero free fence i slot cmd => ?_⟩
  · exact congrArg Host.Outcome.next (issue_eq_issued (f := fun c => issueWait _ [] true c w) ready (issueWait_of_shape op zero kind idle rfl))
  · exact congrArg Host.Outcome.next (issue_eq_issued (f := fun c => issueWait _ [] true c w) ready (issueWait_of_shape op zero kind idle rfl))
  · exact congrArg Host.Outcome.next (issue_eq_issued (f := fun c => issueWait (.gang _ ((c.seq.reg (reg5 w 38)).toNat % 2 ^ 32)) _ true c w) ready
      (issueWait_of_shape op zero kind free rfl))
  · exact congrArg Host.Outcome.next (issue_eq_issued (f := fun c => issueWait _ [] _ c w) ready
      (issueWait_of_shape op zero kind idle (bne_iff_ne.mpr fields)))
  · rw [execWaitEnd_of_wait h, if_pos ⟨holds, on⟩]
  · rw [execWaitEnd_of_wait h, if_neg (by simp [holds])]
  · intro v
    have sum : (issued s p 1 c).signalGang p (fld w 56 53) ((q.reg (reg5 w 48)).toNat % 2 ^ 32) =
        if 2 ^ 32 ≤ v then (issued s p 1 c).faultCore p stBAD_COMMAND
        else (issued s p 1 c).modCmd i.uid fun i => { i with gsems := sset 0 i.gsems (fld w 56 53) v } := by
      simp only [State.signalGang, cmd]
      rfl
    rw [execSignal_of_shape ready op zero free fence, sum]
    exact ⟨fun small => by rw [if_neg (Nat.not_le.mpr small)], fun big => by rw [if_pos big]⟩

/-- Settles O54, by the definition of a step. -/
theorem stepRunsTheFrontCommand : Obligations.StepRunsTheFrontCommand := by
  intro s c r h
  unfold step
  rw [h]

end Sys2Proof.Claims
end

section
/-! PROOFS. The engine instructions at issue (R171 to R181): a legal one joins its queue, any other ends the command. -/

namespace Sys2Proof.Machine

open Sys2Proof.Claims

/-! ### Checks and the vector queue -/

/-- Two checks, each of which ends the command. -/
theorem Issue.bad_or (a b : Bool) (t : Issue) :
    (if a = true then Issue.bad else if b = true then Issue.bad else t) = if (a || b) = true then Issue.bad else t := by
  cases a <;> cases b <;> rfl

theorem Issue.bad_or_ne {α : Type} [DecidableEq α] (a b : α) (c : Bool) (t : Issue) :
    (if a ≠ b then Issue.bad else if c = true then Issue.bad else t) = if (decide (a ≠ b) || c) = true then Issue.bad else t := by
  by_cases h : a = b <;> simp [h]

theorem Core.toVector_of_room {c : Core} {op : VecOp} {ins outs : List Strm} {f64 : Bool} {alpha : BitVec 32} {sd : Option (BitVec 5)}
    (room : VecRoom c ins outs sd.toList) : c.toVector op ins outs f64 alpha sd = .go (vecQueued c op ins outs f64 alpha sd) := by
  obtain ⟨places, free, regs⟩ := room
  have go : (decide (4 ≤ c.eng.vecQ.length) || sbStalls c.eng.score (sbEntries c.seq.nextId ins outs) || c.seq.anyBusy sd.toList) = false := by
    simp [places, free, regs]
  unfold Core.toVector
  simp only [Bool.or_eq_false_iff, decide_eq_false_iff_not] at go
  simp only [go, Bool.or_false, decide_false, Bool.false_eq_true, if_false]
  rfl

theorem fld_lt (w : W64) (hi lo : Nat) : fld w hi lo < 2 ^ (hi - lo + 1) := Nat.mod_lt _ (Nat.two_pow_pos _)

/-! ### VOP and VRED (R173 to R178) -/

/-- R173 to R177: what a VOP's issue rejects, check by check. -/
def vopBad (k : VopKind) (c : Core) (w x : W64) : Bool :=
  (!opOk 0x04 w (vopElu k w) || fld w 56 51 != vopCode k || !zeroBits w 12 0 || fld w 25 24 == 3 || decide (5 ≤ fld w 23 21) ||
    decide (5 ≤ fld w 20 18) || decide (9 ≤ fld w 17 14)) || ((bitN w 13 && !vopF64 k) || ((vopElu k w && !alphaOk x) ||
  (!(named c w 31).ok (if vopCmp k then (· == 8) else isNum) ||
    !((vopIns k c w).zipIdx.all fun t => t.1.ok (if vopBitIn k t.2 then (· == 8) else isNum) && dExts t.1.d == dExts (named c w 31).d) ||
    !(match fld w 25 24 with
      | 0 => true
      | 1 => !vopCmp k && !bitN w 13 && (named c w 26).ok isNum && dExts (named c w 26).d == redExts (named c w 31).d (fld w 20 18)
      | _ => k == .act && (fld w 17 14 == 7 || fld w 17 14 == 8) && (named c w 26).ok (· == 8) && dExts (named c w 26).d == dExts (named c w 31).d) ||
    !overlapOk (vopIns k c w) (vopOuts c w))))

theorem issueVop_eq (k : VopKind) (c : Core) (w x : W64) :
    issueVop k c w x = if vopBad k c w x then .bad else
      c.toVector (.vop k (BitVec.ofNat 4 (fld w 17 14)) (BitVec.ofNat 2 (fld w 25 24)) (roopKind (fld w 23 21)) (fld w 20 18)) (vopIns k c w)
        (vopOuts c w) (bitN w 13) (BitVec.ofNat 32 x.toNat) none := by
  unfold issueVop
  simp only [Issue.bad_or]
  rfl

theorem vopSecond_iff (k : VopKind) (c : Core) (w : W64) (h : fld w 25 24 ≠ 3) :
    (match fld w 25 24 with
      | 0 => true
      | 1 => !vopCmp k && !bitN w 13 && (named c w 26).ok isNum && dExts (named c w 26).d == redExts (named c w 31).d (fld w 20 18)
      | _ => k == .act && (fld w 17 14 == 7 || fld w 17 14 == 8) && (named c w 26).ok (· == 8) && dExts (named c w 26).d == dExts (named c w 31).d) = true ↔
    VopSecond k c w := by
  have lt : fld w 25 24 < 4 := fld_lt w 25 24
  unfold VopSecond
  generalize fld w 25 24 = o at h lt
  interval_cases o
  · simp
  · simp [and_assoc]
  · simp [and_assoc]
  · exact absurd rfl h

theorem vopLegal_iff (k : VopKind) (c : Core) (w x : W64) : VopLegal k c w x ↔ vopBad k c w x = false := by
  by_cases h : fld w 25 24 = 3
  · simp [VopLegal, VopFields, vopBad, h]
  · have second := vopSecond_iff k c w h
    unfold VopLegal VopFields VopStreams vopBad
    rw [← second]
    simp only [Bool.or_eq_false_iff, Bool.not_eq_false', bne_eq_false_iff_eq, beq_eq_false_iff_ne, decide_eq_false_iff_not, not_le,
      Bool.and_eq_false_imp, List.all_eq_true, Bool.and_eq_true, beq_iff_eq]
    tauto

theorem vop_queues_or_faults {s : State} {p : Fin 68} {w x : W64} (k : VopKind) (ready : Ready s p (wordsOf (vopElu k w))) :
    let c := s.core p
    (VopLegal k c w x → VecRoom c (vopIns k c w) (vopOuts c w) [] →
      vop k p w x s = .next (issued s p (wordsOf (vopElu k w))
        (vecQueued c (.vop k (BitVec.ofNat 4 (fld w 17 14)) (BitVec.ofNat 2 (fld w 25 24)) (roopKind (fld w 23 21)) (fld w 20 18))
          (vopIns k c w) (vopOuts c w) (bitN w 13) (BitVec.ofNat 32 x.toNat) none))) ∧
    (¬ VopLegal k c w x → vop k p w x s = .next (rejected s p)) := by
  refine ⟨fun legal room => congrArg Host.Outcome.next (issue_eq_issued (f := fun c => issueVop k c w x) ready ?_),
    fun legal => congrArg Host.Outcome.next (issue_eq_rejected (f := fun c => issueVop k c w x) ready ?_)⟩
  · rw [vopLegal_iff] at legal
    rw [issueVop_eq, legal, if_neg Bool.false_ne_true, Core.toVector_of_room room]
  · rw [vopLegal_iff, Bool.not_eq_false] at legal
    rw [issueVop_eq, if_pos legal]

/-- R137, R178: what a VRED's issue rejects, check by check. -/
def vredBad (k : RedKind) (c : Core) (w : W64) : Bool :=
  (!opOk 0x05 w false || fld w 56 54 != vredCode k || !zeroBits w 27 0 || decide (5 ≤ fld w 38 36) || (bitN w 35 && fld w 38 36 != 4)) ||
  ((!(named c w 49).ok isNum || (k == .sumprod && !((named c w 44).ok isNum && dExts (named c w 44).d == dExts (named c w 49).d))) ||
  ((!bitN w 35 && !((named c w 39).ok isNum && dExts (named c w 39).d == redExts (named c w 49).d (fld w 38 36))) ||
  !overlapOk (vredIns k c w) (vredOuts c w)))

theorem issueVred_eq (k : RedKind) (c : Core) (w : W64) :
    issueVred k c w = if vredBad k c w then .bad else
      c.toVector (.vred k (fld w 38 36) (bitN w 28)) (vredIns k c w) (vredOuts c w) (bitN w 29) 0 (if bitN w 35 then some (reg5 w 30) else none) := by
  unfold issueVred
  simp only [Issue.bad_or]
  rfl

theorem vredLegal_iff (k : RedKind) (c : Core) (w : W64) : VredLegal k c w ↔ vredBad k c w = false := by
  unfold VredLegal vredBad
  simp only [Bool.or_eq_false_iff, Bool.not_eq_false', bne_eq_false_iff_eq, decide_eq_false_iff_not, not_le, Bool.and_eq_false_imp, beq_iff_eq,
    Bool.and_eq_true, Bool.not_eq_true']
  tauto

theorem vred_queues_or_faults {s : State} {p : Fin 68} {w : W64} (k : RedKind) (ready : Ready s p 1) :
    let c := s.core p
    (VredLegal k c w → VecRoom c (vredIns k c w) (vredOuts c w) (if bitN w 35 then [reg5 w 30] else []) →
      vred k p w s = .next (issued s p 1 (vecQueued c (.vred k (fld w 38 36) (bitN w 28)) (vredIns k c w) (vredOuts c w) (bitN w 29) 0
        (if bitN w 35 then some (reg5 w 30) else none)))) ∧
    (¬ VredLegal k c w → vred k p w s = .next (rejected s p)) := by
  refine ⟨fun legal room => congrArg Host.Outcome.next (issue_eq_issued (f := fun c => issueVred k c w) ready ?_),
    fun legal => congrArg Host.Outcome.next (issue_eq_rejected (f := fun c => issueVred k c w) ready ?_)⟩
  · rw [vredLegal_iff] at legal
    have regs : (if bitN w 35 then some (reg5 w 30) else none).toList = if bitN w 35 then [reg5 w 30] else [] := by split <;> rfl
    rw [issueVred_eq, legal, if_neg Bool.false_ne_true, Core.toVector_of_room (regs ▸ room)]
  · rw [vredLegal_iff, Bool.not_eq_false] at legal
    rw [issueVred_eq, if_pos legal]

/-! ### MPASS (R111, R171) -/

/-- R171: what an MPASS's issue rejects before its geometry. -/
def mpassBad (c : Core) (w : W64) : Bool :=
  (!opOk 0x01 w (bitN w 43) || !zeroBits w 42 0 || fld w 46 45 == 0) ||
  (!(named c w 52).ok (arrayFmtOk (fld w 46 45) false) || !(named c w 47).ok (arrayFmtOk (fld w 46 45) true))

theorem mpassLegal_iff (c : Core) (w : W64) : MpassLegal c w ↔ mpassBad c w = false := by
  unfold MpassLegal mpassBad
  simp only [Bool.or_eq_false_iff, Bool.not_eq_false', beq_eq_false_iff_ne]
  tauto

theorem issueMpass_of_illegal {c : Core} {w : W64} (x : W64) (h : ¬ MpassLegal c w) : issueMpass c w x = .bad := by
  rw [mpassLegal_iff, Bool.not_eq_false] at h
  unfold issueMpass
  simp only [Issue.bad_or]
  exact if_pos h

theorem issueMpass_of_legal {c : Core} {w : W64} (x : W64) (h : MpassLegal c w) :
    issueMpass c w x = match passGeometry (named c w 52) (named c w 47) (bitN w 43) x with
      | none => .bad
      | some (m, n, k) =>
        match passBank c.eng (bitN w 44) m n (scaleProduct (named c w 52).d (named c w 47).d) with
        | none => .bad
        | some b =>
          if 4 ≤ c.eng.arrayQ.length || sbStalls c.eng.score (sbEntries c.seq.nextId [named c w 52, named c w 47] []) then .stall
          else .go (passQueued c (passOf c w x b m n k)) := by
  rw [mpassLegal_iff] at h
  unfold issueMpass
  simp only [Issue.bad_or]
  exact if_neg (Bool.not_eq_true _ ▸ h)

theorem mpassTakesItsBank : MpassTakesItsBank := by
  intro s p w x ready c scale
  refine ⟨fun legal m n k b geometry bank places clear => ?_, fun legal m n k geometry bank => ?_, fun h => ?_⟩
  · refine congrArg Host.Outcome.next (issue_eq_issued (f := fun c => issueMpass c w x) ready ?_)
    have room : (decide (4 ≤ c.eng.arrayQ.length) || sbStalls c.eng.score (sbEntries c.seq.nextId [named c w 52, named c w 47] [])) = false := by
      simp [places, clear]
    change passBank c.eng (bitN w 44) m n (scaleProduct (named c w 52).d (named c w 47).d) = _ at bank
    refine (issueMpass_of_legal x legal).trans ?_
    simp only [geometry, bank]
    exact if_neg (Bool.not_eq_true _ ▸ room)
  · refine congrArg Host.Outcome.next (issue_eq_rejected (f := fun c => issueMpass c w x) ready ?_)
    change passBank c.eng (bitN w 44) m n (scaleProduct (named c w 52).d (named c w 47).d) = _ at bank
    refine (issueMpass_of_legal x legal).trans ?_
    simp only [geometry, bank]
  · refine congrArg Host.Outcome.next (issue_eq_rejected (f := fun c => issueMpass c w x) ready ?_)
    by_cases legal : MpassLegal c w
    · have geometry := h.resolve_left (not_not.mpr legal)
      refine (issueMpass_of_legal x legal).trans ?_
      simp only [geometry]
    · exact issueMpass_of_illegal x legal

theorem bankFollowsParityAndHold : BankFollowsParityAndHold := by
  intro e m n scale b
  constructor
  · have other : ∀ x : Bool, (if (e.bank x).st = .accumulating then none else some x) = some b ↔ (e.bank b).st ≠ .accumulating ∧ b = x := by
      intro x
      split <;> simp only [reduceCtorEq, Option.some.injEq, false_iff, not_and]
      · rintro h rfl
        contradiction
      · constructor
        · rintro rfl
          exact ⟨‹_›, rfl⟩
        · exact fun h => h.2.symm
    unfold passBank
    rw [if_neg Bool.false_ne_true]
    cases l : e.lastBank with
    | none => simp [other]
    | some x => cases x <;> cases b <;> simp [other]
  · unfold passBank
    rw [if_pos rfl]
    cases l : e.lastPass with
    | none => simp
    | some q =>
      simp only [Option.some.injEq, exists_eq_left']
      split
      · next h =>
        obtain ⟨st, hm, hn, hs⟩ := h
        simp only [Option.some.injEq]
        constructor
        · rintro rfl
          exact ⟨rfl, st, hm, hn, hs⟩
        · exact And.left
      · next h =>
        simp only [reduceCtorEq, false_iff]
        rintro ⟨rfl, st, hm, hn, hs⟩
        exact h ⟨st, hm, hn, hs⟩

/-! ### MDRAIN (R112, R172) -/

/-- R172: what an MDRAIN's issue rejects, check by check. -/
def mdrainBad (c : Core) (w x : W64) : Bool :=
  let bk := c.eng.bank (bitN w 18)
  (!opOk 0x02 w (drainElu w) || !zeroBits w 17 0 || fld w 44 43 == 3 || fld w 37 36 == 3 || decide (9 ≤ fld w 28 25)) ||
  ((bitN w 19 && !(bitN w 29 && (fld w 28 25 == 7 || fld w 28 25 == 8))) ||
  ((drainElu w && !alphaOk x) ||
  (decide (bk.st ≠ .accumulating) ||
  ((!((named c w 52).ok isNum && extsAre (named c w 52) bk.n bk.m) || !(match fld w 46 45 with
    | 0 => true
    | 1 => (named c w 47).ok isNum && extsAre (named c w 47) bk.m bk.n
    | 2 => (named c w 47).ok isNum && extsAre (named c w 47) bk.n bk.m
    | _ => (named c w 47).ok isNum && extsAre (named c w 47) 1 bk.m)) ||
  ((fld w 37 36 != 0 && !((named c w 38).ok (· == 2) && extsAre (named c w 38) (if fld w 37 36 = 1 then bk.n else bk.m) 1)) ||
  ((bitN w 30 && !((named c w 31).ok isNum && extsAre (named c w 31) bk.n bk.m)) ||
  ((bitN w 19 && !((named c w 20).ok (· == 8) && extsAre (named c w 20) bk.n bk.m)) ||
  !overlapOk (drainIns c w) (drainOuts c w))))))))

theorem issueMdrain_eq (c : Core) (w x : W64) :
    issueMdrain c w x = if mdrainBad c w x then .bad else
      match c.toVector (drainOp w) (drainIns c w) (drainOuts c w) false (BitVec.ofNat 32 x.toNat) none with
      | .go c' => .go { c' with eng := c'.eng.setBank (bitN w 18) { c'.eng.bank (bitN w 18) with st := .drainPending } }
      | r => r := by
  unfold issueMdrain
  simp only [Issue.bad_or, Issue.bad_or_ne]
  rfl

theorem drainSecond_iff (c : Core) (w : W64) (m n : Nat) :
    (match fld w 46 45 with
    | 0 => true
    | 1 => (named c w 47).ok isNum && extsAre (named c w 47) m n
    | 2 => (named c w 47).ok isNum && extsAre (named c w 47) n m
    | _ => (named c w 47).ok isNum && extsAre (named c w 47) 1 m) = true ↔
    (fld w 46 45 ≠ 0 → (named c w 47).ok isNum = true) ∧ (fld w 46 45 = 1 → extsAre (named c w 47) m n = true) ∧
    (fld w 46 45 = 2 → extsAre (named c w 47) n m = true) ∧ (fld w 46 45 = 3 → extsAre (named c w 47) 1 m = true) := by
  have lt : fld w 46 45 < 4 := fld_lt w 46 45
  generalize fld w 46 45 = o at lt
  interval_cases o <;> simp

theorem mdrainLegal_iff (c : Core) (w x : W64) : MdrainLegal c w x ↔ mdrainBad c w x = false := by
  have second := drainSecond_iff c w (c.eng.bank (bitN w 18)).m (c.eng.bank (bitN w 18)).n
  unfold MdrainLegal mdrainBad
  simp only [Bool.or_eq_false_iff, Bool.not_eq_false', beq_eq_false_iff_ne, decide_eq_false_iff_not, not_le,
    Bool.and_eq_false_imp, Bool.and_eq_true, beq_iff_eq, second, Bool.or_eq_true, bne_iff_ne, ne_eq, not_not]
  tauto

/-! ### VCOMP with a masked mask stream (R179) -/

/-- A descriptor of one dimension: BASE, FMT, EXT0, STRIDE0. -/
def rowDesc (base fmt ext stride : Nat) : BitVec 256 := BitVec.ofNat 256 (base + fmt * 2 ^ 25 + (ext - 1) * 2 ^ 32 + stride * 2 ^ 96)

/-- Core 0 runs command 7 with its line held; d1 and d3 are streams of four binary32 elements, d6 and d9 four bits; d6 has a mask of its own, d9. -/
def maskedMask : Core :=
  { Core.reset with
    run := some { uid := 7, slot := 0 }
    seq := { Seq.reset with
      icache := [0]
      descs := [(1, rowDesc 0 2 4 4), (3, rowDesc 128 2 4 4), (6, rowDesc 320 8 4 0 ||| BitVec.ofNat 256 (2 ^ 237 + 9 * 2 ^ 232)), (9, rowDesc 320 8 4 0)] } }

/-- VCOMP of d1 by the mask stream d6 to d3. -/
def maskedVcomp : W64 := BitVec.ofNat 64 (6 * 2 ^ 58 + 1 * 2 ^ 52 + 6 * 2 ^ 47 + 3 * 2 ^ 42)

/-- The masks of the input streams that wait on a core's vector queue. -/
def queuedMasks (o : Host.Outcome State Fault Refusal) : List (Option (BitVec 256)) :=
  match o with
  | .next t => (t.core 0).eng.vecQ.flatMap fun v => v.ins.map Strm.mask
  | _ => []

theorem maskedVcomp_legal : VcompLegal maskedMask maskedVcomp := by
  unfold VcompLegal
  and_intros <;> decide

theorem maskedVcomp_room :
    VecRoom maskedMask [named maskedMask maskedVcomp 52, named maskedMask maskedVcomp 47] ([named maskedMask maskedVcomp 42] ++
      if bitN maskedVcomp 36 then [named maskedMask maskedVcomp 37] else []) [reg5 maskedVcomp 28] := by
  and_intros <;> decide

/-- R83: the model reads the mask stream d6 plainly. -/
theorem maskedVcomp_queues_plain :
    queuedMasks (exec (.vcomp 0 maskedVcomp) { State.reset with cores := [(0, maskedMask)] }) = [none, none] := by decide

end Sys2Proof.Machine

namespace Sys2Proof.Claims

open Sys2Proof.Machine

/-- Settles O6, by one lemma over the operations of VOP and one over those of VRED. -/
theorem vectorArithmeticQueuesOrFaults : Obligations.VectorArithmeticQueuesOrFaults := by
  intro s p w x c vop vred
  have vops : ∀ k, vop (Machine.vop k p w x s) k := fun k ready => vop_queues_or_faults k ready
  have vreds : ∀ k, vred (Machine.vred k p w s) k := fun k ready => vred_queues_or_faults k ready
  exact ⟨vops _, vops _, vops _, vops _, vops _, vops _, vops _, vops _, vops _, vops _, vops _, vops _, vops _, vops _, vops _, vops _, vops _, vops _,
    vops _, vops _, vops _, vops _, vops _, vreds _, vreds _, vreds _, vreds _, vreds _, vreds _⟩

/-- Refutes O7: the mask stream that a VCOMP names is read plainly, so that one whose descriptor has a mask of its own joins the queue without it;
the statement queues it with its mask. -/
theorem not_vectorMovementQueuesOrFaults : ¬ Obligations.VectorMovementQueuesOrFaults := by
  intro h
  obtain ⟨queues, -⟩ := h { State.reset with cores := [(0, maskedMask)] } 0 maskedVcomp (by decide)
  have masks := congrArg queuedMasks (queues maskedVcomp_legal maskedVcomp_room)
  rw [maskedVcomp_queues_plain] at masks
  exact absurd masks (by decide)

/-- Settles O8, by what a legal MPASS answers at issue and by the bank that parity and HOLD give. -/
theorem mpassTakesTheBankOfItsTurn : Obligations.MpassTakesTheBankOfItsTurn := ⟨mpassTakesItsBank, bankFollowsParityAndHold⟩

/-- Settles O9, by what a legal MDRAIN answers at issue. -/
theorem mdrainQueuesOrFaults : Obligations.MdrainQueuesOrFaults := by
  intro s p w x ready c c'
  refine ⟨fun legal room => congrArg Host.Outcome.next (issue_eq_issued (f := fun c => issueMdrain c w x) ready ?_),
    fun legal => congrArg Host.Outcome.next (issue_eq_rejected (f := fun c => issueMdrain c w x) ready ?_)⟩
  · rw [mdrainLegal_iff] at legal
    rw [issueMdrain_eq, legal, if_neg Bool.false_ne_true, Core.toVector_of_room room]
    rfl
  · rw [mdrainLegal_iff, Bool.not_eq_false] at legal
    rw [issueMdrain_eq, if_pos legal]

end Sys2Proof.Claims
end

section
/-! PROOFS. The frame of issue (R75 to R79, R96, R101, R197): what an instruction can change at its issue. -/

namespace Sys2Proof.Machine

open Sys2Proof.Claims

/-! ### Changes of the cores and the dispatch unit -/

theorem SameOutside.trans {s t u : State} (h : SameOutside s t) (k : SameOutside t u) : SameOutside s u := by
  obtain ⟨h1, h2, h3, h4, h5, h6, h7, h8, h9, h10, h11, h12, h13⟩ := h
  obtain ⟨k1, k2, k3, k4, k5, k6, k7, k8, k9, k10, k11, k12, k13⟩ := k
  exact ⟨k1.trans h1, k2.trans h2, k3.trans h3, k4.trans h4, k5.trans h5, k6.trans h6, k7.trans h7, k8.trans h8, k9.trans h9, k10.trans h10,
    k11.trans h11, k12.trans h12, k13.trans h13⟩

/-- Outside the cores and the dispatch unit nothing has changed, and of the cores only those that P names can have. -/
structure CoresChange (P : Nat → Prop) (s t : State) : Prop where
  outside : SameOutside s t
  others : ∀ k, ¬ P k → t.core k = s.core k

theorem CoresChange.refl (P : Nat → Prop) (s : State) : CoresChange P s s := ⟨⟨rfl, rfl, rfl, rfl, rfl, rfl, rfl, rfl, rfl, rfl, rfl, rfl, rfl⟩, fun _ _ => rfl⟩

theorem CoresChange.trans {P : Nat → Prop} {s t u : State} (h : CoresChange P s t) (k : CoresChange P t u) : CoresChange P s u :=
  ⟨SameOutside.trans h.outside k.outside, fun n hn => (k.others n hn).trans (h.others n hn)⟩

theorem CoresChange.mono {P Q : Nat → Prop} {s t : State} (h : CoresChange P s t) (sub : ∀ k, P k → Q k) : CoresChange Q s t :=
  ⟨h.outside, fun k hk => h.others k fun p => hk (sub k p)⟩

theorem State.setCore_change (s : State) (p : Nat) (c : Core) : CoresChange (· = p) s (s.setCore p c) :=
  ⟨⟨rfl, rfl, rfl, rfl, rfl, rfl, rfl, rfl, rfl, rfl, rfl, rfl, rfl⟩, fun k hk => (s.core_setCore p k c).trans (if_neg hk)⟩

theorem State.modCmd_change (s : State) (P : Nat → Prop) (uid : Nat) (f : Issued → Issued) : CoresChange P s (s.modCmd uid f) :=
  ⟨⟨rfl, rfl, rfl, rfl, rfl, rfl, rfl, rfl, rfl, rfl, rfl, rfl, rfl⟩, fun _ _ => rfl⟩

theorem State.setCtx_change (s : State) (P : Nat → Prop) (c : Nat) (x : Ctx) : CoresChange P s (s.setCtx c x) :=
  ⟨⟨rfl, rfl, rfl, rfl, rfl, rfl, rfl, rfl, rfl, rfl, rfl, rfl, rfl⟩, fun _ _ => rfl⟩

theorem Core.runs_iff (c : Core) (uid : Nat) : c.runs uid = true ↔ c.run.map RunRef.uid = some uid := by
  unfold Core.runs
  cases c.run <;> simp

/-- R98: of the gang only the cores that run the command are discarded. -/
theorem State.discardGang_change (uid : Nat) (gang : List Nat) : ∀ s : State, CoresChange (fun k => runsNow s k = some uid) s (s.discardGang uid gang) := by
  induction gang with
  | nil => exact fun s => .refl _ s
  | cons p r ih =>
    intro s
    let c := if (s.core p).runs uid then (s.core p).discard else s.core p
    have run : c.run = (s.core p).run := by unfold c; split <;> rfl
    have first : CoresChange (fun k => runsNow s k = some uid) s (s.setCore p c) := by
      refine ⟨(s.setCore_change p c).outside, fun k hk => ?_⟩
      rw [State.core_setCore]
      split
      · next e =>
        subst e
        exact if_neg fun h => hk ((Core.runs_iff _ _).mp h)
      · rfl
    have same : ∀ k, runsNow (s.setCore p c) k = runsNow s k := fun k => by
      unfold runsNow
      rw [State.core_setCore]
      split
      · next e => rw [run, e]
      · rfl
    exact first.trans ((ih (s.setCore p c)).mono fun k h => (same k).symm.trans h)

theorem State.faultCmd_change (s : State) (uid : Nat) (st : BitVec 16) : CoresChange (fun k => runsNow s k = some uid) s (s.faultCmd uid st) := by
  unfold State.faultCmd
  split
  · exact .refl _ s
  · next i _ =>
    have gang := (s.discardGang_change uid i.gang).trans (State.modCmd_change _ _ uid fun i => match i.stage with
      | .faulted _ => i
      | _ => { i with stage := .faulted st })
    dsimp only
    split
    · exact gang
    · exact gang.trans (State.setCtx_change _ _ _ _)

/-- R197: a fault of a core changes no core but those of its command. -/
theorem State.faultCore_change (s : State) (p : Nat) (st : BitVec 16) : CoresChange (fun k => runsNow s k = runsNow s p) s (s.faultCore p st) := by
  cases h : (s.core p).run with
  | none =>
    rw [State.faultCore_none s p st h]
    exact .refl _ s
  | some r =>
    have e : runsNow s p = some r.uid := by rw [runsNow, h]; rfl
    rw [State.faultCore_some s p st h, e]
    exact s.faultCmd_change r.uid st

/-! ### Issue -/

/-- R101, R197: an issue on core p can change the core, the dispatch unit and the cores of its command. -/
abbrev IssueChange (s : State) (p : Nat) (t : State) : Prop := CoresChange (fun k => k = p ∨ runsNow s k = runsNow s p) s t

theorem State.dropAtPort_change (s : State) (p n : Nat) : IssueChange s p (s.dropAtPort p n) := (s.setCore_change p _).mono fun _ => .inl

theorem issue_change {s : State} {p n : Nat} {f : Core → Issue} (h : (f (s.core p)).Plain) : IssueChange s p (issue s p n f) := by
  have own := fun c : Core => (s.setCore_change p c).mono (Q := fun k => k = p ∨ runsNow s k = runsNow s p) fun _ => .inl
  unfold issue
  dsimp only
  split
  · exact .refl _ s
  · split
    · exact own _
    · split
      · exact own _
      · exact (s.faultCore_change p _).mono fun _ => .inr
      · exact own _
      · exact own _
      · next e => exact (e ▸ h : Issue.Plain (.act _ _)).elim

theorem State.signalGang_change (s : State) (p sem amount : Nat) : CoresChange (fun k => runsNow s k = runsNow s p) s (s.signalGang p sem amount) := by
  unfold State.signalGang
  split
  · exact .refl _ s
  · dsimp only
    split
    · exact s.faultCore_change p _
    · exact State.modCmd_change _ _ _ _

theorem issueSignal_change (s : State) (p n : Nat) (w : W64) : IssueChange s p (issue s p n fun c => issueSignal p c w) := by
  by_cases h : (issueSignal p (s.core p) w).Plain
  · exact issue_change h
  · unfold issue
    dsimp only
    have own := fun c : Core => (s.setCore_change p c).mono (Q := fun k => k = p ∨ runsNow s k = runsNow s p) fun _ => .inl
    split
    · exact .refl _ s
    · split
      · exact own _
      · have act : issueSignal p (s.core p) w =
            .act (s.core p) fun t => t.signalGang p (fld w 56 53) (((s.core p).seq.reg (reg5 w 48)).toNat % 2 ^ 32) := by
          unfold issueSignal at h ⊢
          dsimp only at h ⊢
          split at h <;> [exact absurd trivial h; skip]
          split at h <;> [exact absurd trivial h; skip]
          split at h <;> [exact absurd trivial h; skip]
          simp_all
        rw [act]
        dsimp only
        have same : ∀ c : Core, c.run = (s.core p).run → ∀ k, runsNow (s.setCore p c) k = runsNow s k := fun c e k => by
          unfold runsNow
          rw [State.core_setCore]
          split
          · next h => rw [e, h]
          · rfl
        refine (own _).trans ((State.signalGang_change _ p _ _).mono fun k hk => .inr ?_)
        have same := same ((s.core p).retire n ((s.core p).seq.pc + w64 (8 * n))) rfl
        rwa [same, same] at hk

/-- What O58 says of one command that issues n words on core p. -/
structure IssueFramed (s : State) (p : Fin 68) (e : Instr × Nat) : Prop where
  idle : s.canIssue p = false → exec e.1 s = .next (match portRequests (s.core p) e.1 with
    | some n => if (s.core p).life = .choked then s.dropAtPort p n else s
    | none => s)
  missing : ∀ l, s.canIssue p = true → (s.core p).seq.missing e.2 = some l →
    exec e.1 s = .next (s.setCore p { s.core p with seq := { (s.core p).seq with miss := some l } })
  frame : ∃ t, exec e.1 s = .next t ∧ SameOutside s t ∧ ∀ k, k ≠ p.val → runsNow s k ≠ runsNow s p → t.core k = s.core k

theorem issueFramed_of_issue {s : State} {p : Fin 68} {c : Instr} {n : Nat} {f : Core → Issue} (h : exec c s = .next (issue s p n f))
    (port : portRequests (s.core p) c = none) (change : IssueChange s p (issue s p n f)) : IssueFramed s p (c, n) := by
  refine ⟨fun idle => ?_, fun l can miss => ?_, _, h, change.outside, fun k hk hr => change.others k (not_or.mpr ⟨hk, hr⟩)⟩
  · rw [h, port, issue_idle s p n f idle]
  · rw [h, issue_miss s p n f can miss]

theorem issueFramed_of_plain {s : State} {p : Fin 68} {c : Instr} {n : Nat} {f : Core → Issue} (h : exec c s = .next (issue s p n f))
    (port : portRequests (s.core p) c = none) (plain : (f (s.core p)).Plain) : IssueFramed s p (c, n) :=
  issueFramed_of_issue h port (issue_change plain)

theorem issueFramed_of_request {s : State} {p : Fin 68} {c : Instr} {m : Nat} {f : Core → Issue} (h : exec c s = .next (issueRequest s p m f))
    (port : portRequests (s.core p) c = some m) (change : IssueChange s p (issue s p 1 f)) : IssueFramed s p (c, 1) := by
  by_cases choked : (s.core p).life = .choked
  · have drop : issueRequest s p m f = s.dropAtPort p m := by simp [issueRequest, choked]
    have idle : s.canIssue p = false := by simp [State.canIssue, Core.issuing, choked]
    refine ⟨fun _ => ?_, fun l can => absurd can (by simp [idle]), _, h, ?_⟩
    · rw [h, port, drop]
      exact congrArg Host.Outcome.next (if_pos choked).symm
    · rw [drop]
      exact ⟨(s.dropAtPort_change p m).outside, fun k hk hr => (s.dropAtPort_change p m).others k (not_or.mpr ⟨hk, hr⟩)⟩
  · have go : issueRequest s p m f = issue s p 1 f := by simp [issueRequest, choked]
    rw [go] at h
    refine ⟨fun idle => ?_, fun l can miss => ?_, _, h, change.outside, fun k hk hr => change.others k (not_or.mpr ⟨hk, hr⟩)⟩
    · rw [h, port, issue_idle s p 1 f idle]
      exact congrArg Host.Outcome.next (if_neg choked).symm
    · rw [h, issue_miss s p 1 f can miss]

theorem issueFramed_vop {s : State} {p : Fin 68} {w x : W64} {c : Instr} (k : VopKind) (h : exec c s = vop k p w x s)
    (port : portRequests (s.core p) c = none) : IssueFramed s p (c, wordsOf (vopElu k w)) :=
  issueFramed_of_plain (f := fun c => issueVop k c w x) h port (issueVop_plain ..)

theorem issueFramed_vred {s : State} {p : Fin 68} {w : W64} {c : Instr} (k : RedKind) (h : exec c s = vred k p w s)
    (port : portRequests (s.core p) c = none) : IssueFramed s p (c, 1) :=
  issueFramed_of_plain (f := fun c => issueVred k c w) h port (issueVred_plain ..)

theorem issueFramed_alu {s : State} {p : Fin 68} {w : W64} {c : Instr} (k : AluOp) (h : exec c s = alu k p w s)
    (port : portRequests (s.core p) c = none) : IssueFramed s p (c, 1) :=
  issueFramed_of_plain (f := fun c => issueAlu k c w) h port (issueAlu_plain ..)

theorem issueFramed_vperm {s : State} {p : Fin 68} {w : W64} {c : Instr} (mode : Nat) (h : exec c s = vperm mode p w s)
    (port : portRequests (s.core p) c = none) : IssueFramed s p (c, 1) :=
  issueFramed_of_plain (f := fun c => issueVperm mode c w) h port (issueVperm_plain ..)

theorem issues_framed (s : State) (p : Fin 68) (w x : W64) (h : List EccHit) : ∀ e ∈ issues p w x h, IssueFramed s p e := by
  simp only [issues, List.forall_mem_append, List.forall_mem_cons, List.not_mem_nil, false_implies, implies_true, and_true]
  exact ⟨⟨issueFramed_vop .add rfl rfl, issueFramed_vop .sub rfl rfl, issueFramed_vop .mul rfl rfl, issueFramed_vop .fma rfl rfl,
    issueFramed_vop .min rfl rfl, issueFramed_vop .max rfl rfl, issueFramed_vop .abs rfl rfl, issueFramed_vop .neg rfl rfl,
    issueFramed_vop .cmpEq rfl rfl, issueFramed_vop .cmpNe rfl rfl, issueFramed_vop .cmpLt rfl rfl, issueFramed_vop .cmpLe rfl rfl,
    issueFramed_vop .sel rfl rfl, issueFramed_vop .cvt rfl rfl, issueFramed_vop .recip rfl rfl, issueFramed_vop .rsqrt rfl rfl,
    issueFramed_vop .exp2 rfl rfl, issueFramed_vop .log2 rfl rfl, issueFramed_vop .sin rfl rfl, issueFramed_vop .cos rfl rfl,
    issueFramed_vop .act rfl rfl, issueFramed_vop .dact rfl rfl, issueFramed_vop .smbwd rfl rfl, issueFramed_vred .sum rfl rfl,
    issueFramed_vred .sumsq rfl rfl, issueFramed_vred .sumprod rfl rfl, issueFramed_vred .max rfl rfl, issueFramed_vred .min rfl rfl,
    issueFramed_vred .amax rfl rfl⟩,
    issueFramed_of_plain (f := fun c => issueMpass c w x) rfl rfl (issueMpass_plain ..),
    issueFramed_of_plain (f := fun c => issueMdrain c w x) rfl rfl (issueMdrain_plain ..),
    issueFramed_of_plain (f := fun c => issueVcomp c w) rfl rfl (issueVcomp_plain ..),
    issueFramed_of_plain (f := fun c => issueVexpd c w) rfl rfl (issueVexpd_plain ..), issueFramed_vperm 0 rfl rfl, issueFramed_vperm 1 rfl rfl,
    issueFramed_vperm 2 rfl rfl, issueFramed_of_plain (f := fun c => issueCopy true c w) rfl rfl (issueCopy_plain ..),
    issueFramed_of_plain (f := fun c => issueCopy false c w) rfl rfl (issueCopy_plain ..),
    issueFramed_of_request rfl rfl (issue_change (issueTransfer_plain ..)),
    issueFramed_of_request rfl rfl (issue_change (issueTransfer_plain ..)), issueFramed_of_request rfl rfl (issue_change (issueSend_plain ..)),
    issueFramed_of_plain (f := fun c => issueOpen c w) rfl rfl (issueOpen_plain ..),
    issueFramed_of_plain (f := fun c => issueWait _ [] true c w) rfl rfl (issueWait_plain ..),
    issueFramed_of_plain (f := fun c => issueWait _ [] true c w) rfl rfl (issueWait_plain ..),
    issueFramed_of_plain (f := fun c => issueWait _ _ true c w) rfl rfl (issueWait_plain ..),
    issueFramed_of_plain (f := fun c => issueWait _ [] _ c w) rfl rfl (issueWait_plain ..),
    issueFramed_of_request rfl rfl (issueSignal_change ..),
    issueFramed_of_plain (f := fun c => issueDesc s.now h c w) rfl rfl (issueDesc_plain ..),
    issueFramed_of_plain (f := fun c => issueLoop c w) rfl rfl (issueLoop_plain ..),
    issueFramed_of_plain (f := fun c => issueBr c w) rfl rfl (issueBr_plain ..),
    issueFramed_of_plain (f := fun c => issueCall c w) rfl rfl (issueCall_plain ..),
    issueFramed_of_plain (f := fun c => issueRet c w) rfl rfl (issueRet_plain ..), issueFramed_alu .add rfl rfl, issueFramed_alu .sub rfl rfl,
    issueFramed_alu .mul rfl rfl, issueFramed_alu .and rfl rfl, issueFramed_alu .or rfl rfl, issueFramed_alu .shl rfl rfl,
    issueFramed_alu .shr rfl rfl, issueFramed_of_plain (f := fun c => issueSliValue false (immOf w) c w) rfl rfl (issueSliValue_plain ..),
    issueFramed_of_plain (f := fun c => issueSliValue true x c w) rfl rfl (issueSliValue_plain ..),
    issueFramed_of_plain (f := fun c => issueSliMem false s.now h c w) rfl rfl (issueSliMem_plain ..),
    issueFramed_of_plain (f := fun c => issueSliMem true s.now [] c w) rfl rfl (issueSliMem_plain ..)⟩

end Sys2Proof.Machine

namespace Sys2Proof.Claims

open Sys2Proof.Machine

/-- Settles O58, by the frame of one issue, of a fault and of a SIGNAL, command by command. -/
theorem issueTouchesOnlyItsCommand : Obligations.IssueTouchesOnlyItsCommand := by
  refine ⟨fun s p w x h e he => ?_, fun q v => ⟨q.reg_zero, q.setReg_zero v, fun r hr => ⟨q.reg_setReg_same v hr, fun k hk => q.reg_setReg_ne v hk⟩⟩⟩
  obtain ⟨idle, missing, frame⟩ := issues_framed s p w x h e he
  exact ⟨idle, missing, frame⟩

end Sys2Proof.Claims
end

section
/-! PROOFS. The defaults of a device reset, and the tick on an empty queue. -/

namespace Sys2Proof.Machine

/-- A served device on which the host's WRITE of 5 to PORT_TIMER of port 0 waits in its channel. -/
def waitingTimerWrite : State :=
  { State.reset with
    hub := { Hub.reset with trained := true, started := true, ready := true }
    fw := { Fw.reset with run := some .slotA }
    dict := { Dict.reset with
      waiting := [{ ch := .mailbox 0, op := 2, passed := false, quiet := false,
                    msg := { ver := 1, token := 0, index := 0x5030, sub := 1, flags := 0, offset := 0, len := 8, result := 0, rsv := 0,
                             data := [5, 0, 0, 0, 0, 0, 0, 0] } }] } }

/-- R442: the tick executes the request that waits, which loads the timer. -/
theorem tick_waitingTimerWrite : ((tick waitingTimerWrite).port 0).timer = 5 := by decide +kernel

/-- What one port holds after a reset. -/
theorem port_reset (k : Nat) (h : k < 8) : State.reset.port k = Port.reset k := by
  interval_cases k <;> rfl

end Sys2Proof.Machine

namespace Sys2Proof.Claims

open Sys2Proof.Machine

/-- Refutes O56: a request that waits in its channel is executed in the tick, and a WRITE of PORT_TIMER loads the timer that the statement has run on
by 10 ns: with 5 waiting for the timer of port 0 at 0, the tick leaves 5. -/
theorem not_timePassesOnAnEmptyQueue : ¬ Obligations.TimePassesOnAnEmptyQueue := by
  intro h
  obtain ⟨t, step_eq, -, -, timers⟩ := (h waitingTimerWrite rfl).2 rfl
  have at_ : tick waitingTimerWrite = t := Host.Outcome.next.inj step_eq
  have run : (t.port 0).timer = 10 := timers rfl 0 (by norm_num)
  rw [← at_, tick_waitingTimerWrite] at run
  exact absurd run (by norm_num)

/-- Settles O57, field by field from the definition of the reset state. -/
theorem resetHoldsTheDefaults : Obligations.ResetHoldsTheDefaults := by
  unfold Obligations.ResetHoldsTheDefaults
  intro s
  have port : ∀ k < 8, (s.port k).lanes = (if k % 2 = 0 then 4 else 0) ∧ (s.port k).maxFrame = 9216 ∧ (s.port k).pcpToTc = 0x00FAC688 ∧
      (s.port k).gates = 0xFF ∧ (s.port k).pauseLimit = 20 ∧ (s.port k).pauseRecovery = 100 := by
    intro k hk
    rw [port_reset k hk]
    exact ⟨rfl, rfl, rfl, rfl, rfl, rfl⟩
  exact ⟨rfl, rfl, rfl, rfl, rfl, fun p => ⟨rfl, rfl, rfl⟩, fun n hn => ⟨rfl, rfl⟩, fun n _ => ⟨rfl, rfl, rfl⟩, fun c _ => rfl, rfl, rfl, rfl, rfl,
    fun q _ => rfl, rfl, port, rfl, rfl, rfl, rfl, rfl, rfl, rfl, rfl, rfl, rfl, rfl, rfl, rfl, rfl, rfl, rfl, rfl⟩

end Sys2Proof.Claims
end

section
/-! PROOFS. Arbitration (R262, R263): the credit of the inputs that ask, the input that is granted, and the share of each over many grants. -/

namespace Sys2Proof.Machine

open Sys2Proof.Claims

/-! ### Credit -/

theorem Arbiter.sget_drop (a : Arbiter) (asks : List (Nat × Nat)) (j : Nat) :
    sget 0 (a.drop asks).credit j = if ∃ x ∈ asks, x.1 = j then sget 0 a.credit j else 0 := by
  unfold Arbiter.drop
  rw [sget_filter 0 a.credit (fun k => asks.any fun x => x.1 == k) j]
  exact if_congr (by simp) rfl rfl

/-- The credit that a new round gives: to each asking input its population. -/
theorem sget_refill (asks : List (Nat × Nat)) (rising : asks.Pairwise fun x y => x.1 < y.1) (j : Nat) : ∀ c : Sparse Nat,
    ((∀ x ∈ asks, x.1 ≠ j) → sget 0 (asks.foldl (fun c x => sset 0 c x.1 x.2) c) j = sget 0 c j) ∧
    ∀ x ∈ asks, x.1 = j → sget 0 (asks.foldl (fun c x => sset 0 c x.1 x.2) c) j = x.2 := by
  induction asks with
  | nil => exact fun c => ⟨fun _ => rfl, fun x h => by cases h⟩
  | cons y r ih =>
    intro c
    obtain ⟨first, rest⟩ := List.pairwise_cons.mp rising
    obtain ⟨other, own⟩ := ih rest (sset 0 c y.1 y.2)
    rw [List.foldl_cons]
    constructor
    · intro h
      obtain ⟨hy, hr⟩ := List.forall_mem_cons.mp h
      rw [other hr, sget_sset_ne 0 c y.2 (Ne.symm hy)]
    · intro x hx e
      rcases List.mem_cons.mp hx with rfl | hx
      · rw [other fun z hz => by have := first z hz; omega, e.symm, sget_sset_same]
      · exact own x hx e

theorem Arbiter.sget_fill (a : Arbiter) {asks : List (Nat × Nat)} (rising : asks.Pairwise fun x y => x.1 < y.1) :
    (∀ x ∈ asks, sget 0 (a.fill asks) x.1 = if ∀ y ∈ asks, sget 0 a.credit y.1 = 0 then x.2 else sget 0 a.credit x.1) ∧
    ∀ j, (∀ x ∈ asks, x.1 ≠ j) → sget 0 (a.fill asks) j = 0 := by
  have kept : ∀ x ∈ asks, sget 0 (a.drop asks).credit x.1 = sget 0 a.credit x.1 := fun x hx => by
    rw [Arbiter.sget_drop, if_pos ⟨x, hx, rfl⟩]
  have gone : ∀ j, (∀ x ∈ asks, x.1 ≠ j) → sget 0 (a.drop asks).credit j = 0 := fun j h => by
    rw [Arbiter.sget_drop, if_neg fun ⟨x, hx, e⟩ => h x hx e]
  have empty : (asks.all fun x => sget 0 (a.drop asks).credit x.1 == 0) = true ↔ ∀ y ∈ asks, sget 0 a.credit y.1 = 0 := by
    simp only [List.all_eq_true, beq_iff_eq]
    exact forall₂_congr fun x hx => by rw [kept x hx]
  unfold Arbiter.fill
  by_cases h : ∀ y ∈ asks, sget 0 a.credit y.1 = 0
  · rw [if_pos (empty.mpr h)]
    refine ⟨fun x hx => ?_, fun j hj => ?_⟩
    · rw [if_pos h, (sget_refill asks rising x.1 _).2 x hx rfl]
    · rw [(sget_refill asks rising j _).1 hj, gone j hj]
  · rw [if_neg fun e => h (empty.mp e)]
    refine ⟨fun x hx => ?_, gone⟩
    rw [if_neg h, kept x hx]

/-- With inputs that ask, one of them has credit. -/
theorem Arbiter.exists_credit (a : Arbiter) {asks : List (Nat × Nat)} (asking : Asking asks) : ∃ x ∈ asks, 0 < sget 0 (a.fill asks) x.1 := by
  obtain ⟨some_, rising, pops⟩ := asking
  have fill := (a.sget_fill rising).1
  by_cases h : ∀ y ∈ asks, sget 0 a.credit y.1 = 0
  · obtain ⟨x, hx⟩ := List.exists_mem_of_ne_nil asks some_
    exact ⟨x, hx, by rw [fill x hx, if_pos h]; exact pops x hx⟩
  · push Not at h
    obtain ⟨y, hy, e⟩ := h
    exact ⟨y, hy, by rw [fill y hy, if_neg fun all => e (all y hy)]; omega⟩

/-! ### The input that is granted -/

/-- The first number behind l in a rising list, or else its first number, is the first one in the round that begins behind l. -/
theorem first_behind (live : List Nat) (rising : live.Pairwise (· < ·)) (last : Option Nat) (some_ : live ≠ []) :
    ∃ i ∈ live, (match live.find? fun i => last.any fun l => decide (l < i) with
      | some i => some i
      | none => live.head?) = some i ∧
      ∀ y ∈ live, ∀ l, last = some l → (l < y → l < i ∧ i ≤ y) ∧ (i ≤ l → i ≤ y) := by
  cases e : live.find? fun i => last.any fun l => decide (l < i) with
  | some i =>
    have behind := List.find?_some e
    refine ⟨i, List.mem_of_find?_eq_some e, rfl, ?_⟩
    rintro y hy l rfl
    have li : l < i := by simpa using behind
    refine ⟨fun ly => ⟨li, ?_⟩, fun il => absurd li (by omega)⟩
    by_contra yi
    obtain ⟨as, bs, split, none_before⟩ := List.find?_eq_some_iff_append.mp e |>.2
    rw [split] at hy rising
    rcases List.mem_append.mp hy with hy | hy
    · exact absurd ly (by simpa using none_before y hy)
    · rcases List.mem_cons.mp hy with rfl | hy
      · omega
      · have := (List.pairwise_cons.mp (List.pairwise_append.mp rising).2.1).1 y hy
        omega
  | none =>
    cases live with
    | nil => exact absurd rfl some_
    | cons i r =>
      refine ⟨i, List.mem_cons_self, rfl, ?_⟩
      rintro y hy l rfl
      have none_behind : ¬ l < y := by simpa using List.find?_eq_none.mp e y hy
      refine ⟨fun ly => absurd ly none_behind, fun _ => ?_⟩
      rcases List.mem_cons.mp hy with rfl | hy
      · exact le_rfl
      · exact (List.pairwise_cons.mp rising).1 y hy |>.le

theorem Arbiter.pick_spec (a : Arbiter) {asks : List (Nat × Nat)} (asking : Asking asks) :
    ∃ x ∈ asks, a.pick asks = some x.1 ∧ 0 < sget 0 (a.fill asks) x.1 ∧
      ∀ y ∈ asks, 0 < sget 0 (a.fill asks) y.1 → ∀ l, a.last = some l → (l < y.1 → l < x.1 ∧ x.1 ≤ y.1) ∧ (x.1 ≤ l → x.1 ≤ y.1) := by
  have mem : ∀ i, i ∈ (asks.filter fun x => decide (0 < sget 0 (a.fill asks) x.1)).map Prod.fst ↔ ∃ x ∈ asks, 0 < sget 0 (a.fill asks) x.1 ∧ x.1 = i := by
    intro i
    simp only [List.mem_map, List.mem_filter, decide_eq_true_eq, and_assoc]
  obtain ⟨x, hx, credit⟩ := a.exists_credit asking
  have rising : ((asks.filter fun x => decide (0 < sget 0 (a.fill asks) x.1)).map Prod.fst).Pairwise (· < ·) :=
    List.pairwise_map.mpr (asking.2.1.filter _)
  obtain ⟨i, hi, pick, first⟩ := first_behind _ rising a.last (List.ne_nil_of_mem ((mem x.1).mpr ⟨x, hx, credit, rfl⟩))
  obtain ⟨z, hz, hcredit, rfl⟩ := (mem i).mp hi
  exact ⟨z, hz, pick, hcredit, fun y hy hc => first y.1 ((mem y.1).mpr ⟨y, hy, hc, rfl⟩)⟩

theorem Arbiter.sget_grant (a : Arbiter) (asks : List (Nat × Nat)) (i j : Nat) :
    sget 0 (a.grant asks i).credit j = sget 0 (a.fill asks) j - if j = i then 1 else 0 := by
  unfold Arbiter.grant smod
  rw [sget_sset]
  split
  · next h => rw [h]
  · rfl

theorem grants_length (asks : List (Nat × Nat)) (asking : Asking asks) (n : Nat) : ∀ a : Arbiter, (grants asks n a).length = n := by
  induction n with
  | zero => exact fun _ => rfl
  | succ n ih =>
    intro a
    obtain ⟨x, -, pick, -⟩ := a.pick_spec asking
    simp only [grants, pick, List.length_cons, ih]

/-! ### The share of an input (R263) -/

/-- The credit of all inputs that ask. -/
def creditSum (c : Sparse Nat) (asks : List (Nat × Nat)) : Nat := (asks.map fun x => sget 0 c x.1).sum

theorem sum_map_sub_one (asks : List (Nat × Nat)) (rising : asks.Pairwise fun x y => x.1 < y.1) (f : Nat → Nat) {x : Nat × Nat} (hx : x ∈ asks)
    (pos : 0 < f x.1) : (asks.map fun y => f y.1 - if y.1 = x.1 then 1 else 0).sum + 1 = (asks.map fun y => f y.1).sum := by
  induction asks with
  | nil => cases hx
  | cons z r ih =>
    obtain ⟨first, rest⟩ := List.pairwise_cons.mp rising
    simp only [List.map_cons, List.sum_cons]
    rcases List.mem_cons.mp hx with rfl | hr
    · have others : (r.map fun y => f y.1 - if y.1 = x.1 then 1 else 0) = r.map fun y => f y.1 :=
        List.map_congr_left fun y hy => by rw [if_neg (first y hy).ne', Nat.sub_zero]
      rw [others, if_pos rfl]
      omega
    · rw [if_neg (first x hr).ne, Nat.sub_zero, add_assoc, ih rest hr]

/-- R262: a grant takes one credit, of the input that it grants, and begins a new round (R = 1) where none had credit left. -/
theorem Arbiter.grant_credit (a : Arbiter) {asks : List (Nat × Nat)} (rising : asks.Pairwise fun x y => x.1 < y.1) {g : Nat × Nat} (hg : g ∈ asks)
    (pos : 0 < sget 0 (a.fill asks) g.1) :
    ∃ R, creditSum (a.grant asks g.1).credit asks + 1 = creditSum a.credit asks + R * (asks.map Prod.snd).sum ∧
      ∀ x ∈ asks, (sget 0 (a.grant asks g.1).credit x.1 + if x.1 = g.1 then 1 else 0) = sget 0 a.credit x.1 + R * x.2 := by
  have fill := (a.sget_fill rising).1
  have sum : creditSum (a.grant asks g.1).credit asks + 1 = creditSum (a.fill asks) asks := by
    unfold creditSum
    simp only [Arbiter.sget_grant]
    exact sum_map_sub_one asks rising (sget 0 (a.fill asks)) hg pos
  have own : ∀ x ∈ asks, (sget 0 (a.grant asks g.1).credit x.1 + if x.1 = g.1 then 1 else 0) = sget 0 (a.fill asks) x.1 := by
    intro x hx
    rw [Arbiter.sget_grant]
    split
    · next e => rw [e]; omega
    · rfl
  by_cases h : ∀ y ∈ asks, sget 0 a.credit y.1 = 0
  · refine ⟨1, ?_, fun x hx => ?_⟩
    · have none_left : creditSum a.credit asks = 0 := List.sum_eq_zero fun n hn => by
        obtain ⟨x, hx, rfl⟩ := List.mem_map.mp hn
        exact h x hx
      have full : creditSum (a.fill asks) asks = (asks.map Prod.snd).sum :=
        congrArg List.sum (List.map_congr_left fun x hx => by rw [fill x hx, if_pos h])
      rw [sum, full, none_left, Nat.zero_add, Nat.one_mul]
    · rw [own x hx, fill x hx, if_pos h, h x hx, Nat.zero_add, Nat.one_mul]
  · refine ⟨0, ?_, fun x hx => ?_⟩
    · have same : creditSum (a.fill asks) asks = creditSum a.credit asks :=
        congrArg List.sum (List.map_congr_left fun x hx => by rw [fill x hx, if_neg h])
      rw [sum, same, Nat.zero_mul, Nat.add_zero]
    · rw [own x hx, fill x hx, if_neg h, Nat.zero_mul, Nat.add_zero]

theorem Arbiter.fill_le (a : Arbiter) {asks : List (Nat × Nat)} (rising : asks.Pairwise fun x y => x.1 < y.1)
    (small : ∀ x ∈ asks, sget 0 a.credit x.1 ≤ x.2) : ∀ x ∈ asks, sget 0 (a.fill asks) x.1 ≤ x.2 := by
  intro x hx
  rw [(a.sget_fill rising).1 x hx]
  split
  · exact le_rfl
  · exact small x hx

theorem creditSum_le {c : Sparse Nat} {asks : List (Nat × Nat)} (small : ∀ x ∈ asks, sget 0 c x.1 ≤ x.2) :
    creditSum c asks ≤ (asks.map Prod.snd).sum := List.sum_le_sum small

/-- R263: after n grants, R rounds of which began, an input has had its credit, R times its population, and has c of it left. -/
theorem grants_balance {asks : List (Nat × Nat)} (asking : Asking asks) {x : Nat × Nat} (hx : x ∈ asks) (n : Nat) :
    ∀ a : Arbiter, (∀ y ∈ asks, sget 0 a.credit y.1 ≤ y.2) →
      ∃ R S c, S ≤ (asks.map Prod.snd).sum ∧ c ≤ x.2 ∧ S + n = creditSum a.credit asks + R * (asks.map Prod.snd).sum ∧
        c + (grants asks n a).count x.1 = sget 0 a.credit x.1 + R * x.2 := by
  induction n with
  | zero => exact fun a small => ⟨0, creditSum a.credit asks, sget 0 a.credit x.1, creditSum_le small, small x hx, by simp, by simp [grants]⟩
  | succ n ih =>
    intro a small
    obtain ⟨g, hg, pick, pos, -⟩ := a.pick_spec asking
    obtain ⟨R, sum, own⟩ := a.grant_credit asking.2.1 hg pos
    have small' : ∀ y ∈ asks, sget 0 (a.grant asks g.1).credit y.1 ≤ y.2 := fun y hy => by
      rw [Arbiter.sget_grant]
      exact (Nat.sub_le _ _).trans (a.fill_le asking.2.1 small y hy)
    obtain ⟨R', S, c, hS, hc, hsum, hcount⟩ := ih (a.grant asks g.1) small'
    have step : (grants asks (n + 1) a).count x.1 = (grants asks n (a.grant asks g.1)).count x.1 + if x.1 = g.1 then 1 else 0 := by
      simp only [grants, pick, List.count_cons, beq_iff_eq, eq_comm (a := g.1)]
    have ownx := own x hx
    refine ⟨R' + R, S, c, hS, hc, ?_, ?_⟩
    · rw [Nat.add_mul]
      omega
    · rw [step, Nat.add_mul]
      omega

/-- R263: what the balance of rounds says of a share: `count` grants of n for an input of population p of `total`. -/
theorem share_of_balance {p total n count R S S' c c' : Nat} (hS : S ≤ total) (hS' : S' ≤ total) (hc : c ≤ p) (hc' : c' ≤ p)
    (sum : S' + n = S + R * total) (own : c' + count = c + R * p) :
    count * total ≤ n * p + 2 * p * total ∧ n * p ≤ count * total + 2 * p * total := by
  have own_total : c' * total + count * total = c * total + R * p * total := by rw [← Nat.add_mul, own, Nat.add_mul]
  have sum_p : S' * p + n * p = S * p + R * total * p := by rw [← Nat.add_mul, sum, Nat.add_mul]
  have turn : R * total * p = R * p * total := by ring
  have bounds : c * total ≤ p * total ∧ c' * total ≤ p * total ∧ S * p ≤ p * total ∧ S' * p ≤ p * total :=
    ⟨Nat.mul_le_mul_right _ hc, Nat.mul_le_mul_right _ hc', by rw [Nat.mul_comm p]; exact Nat.mul_le_mul_right _ hS,
      by rw [Nat.mul_comm p]; exact Nat.mul_le_mul_right _ hS'⟩
  obtain ⟨b1, b2, b3, b4⟩ := bounds
  have double : 2 * p * total = p * total + p * total := by ring
  omega

end Sys2Proof.Machine

namespace Sys2Proof.Claims

open Sys2Proof.Machine

/-- Settles O22, by the credit of each input, the first one behind the last granted, and the balance of the rounds over n grants. -/
theorem arbitersShareByPopulation : Obligations.ArbitersShareByPopulation := by
  intro a asks asking total
  obtain ⟨credit, noCredit⟩ := a.sget_fill asking.2.1
  obtain ⟨x, hx, pick, pos, first⟩ := a.pick_spec asking
  refine ⟨credit, noCredit, ⟨x, hx, pick, pos, first, rfl, fun j => a.sget_grant asks x.1 j⟩, fun n => grants_length asks asking n a,
    fun small n y hy => ?_⟩
  obtain ⟨R, S, c, hS, hc, sum, own⟩ := grants_balance asking hy n a small
  exact share_of_balance (creditSum_le small) hS (small y hy) hc sum own

end Sys2Proof.Claims
end

section
/-! PROOFS. The engines, moves and program ends of a core (R88 to R97, R108 to R129, R182, R183): what each of their events leaves. -/

namespace Sys2Proof.Machine

open Sys2Proof.Claims

/-! ### Parts of a core that errors and raised flags leave -/

@[simp] theorem Core.raise_eng (c : Core) (g : Flags) : (c.raise g).eng = c.eng := rfl
@[simp] theorem Core.raise_sp (c : Core) (g : Flags) : (c.raise g).sp = c.sp := rfl
@[simp] theorem Core.raise_fault (c : Core) (g : Flags) : (c.raise g).fault = c.fault := rfl
@[simp] theorem Core.raise_flags (c : Core) (g : Flags) : (c.raise g).seq.flags = c.seq.flags ||| g := rfl
@[simp] theorem Core.unmerge_eng (c d : Core) (h : List EccHit) : (c.unmerge d h).eng = d.eng := rfl
@[simp] theorem Core.unmerge_seq (c d : Core) (h : List EccHit) : (c.unmerge d h).seq = d.seq := rfl
@[simp] theorem Core.unmerge_fault (c d : Core) (h : List EccHit) : (c.unmerge d h).fault = d.fault := rfl

/-- R88: what an undone merge leaves in the scratchpad depends on the scratchpads alone. -/
theorem Core.unmerge_sp_congr {c c' d d' : Core} (hc : c.sp = c'.sp) (hd : d.sp = d'.sp) (h : List EccHit) : (c.unmerge d h).sp = (c'.unmerge d' h).sp := by
  simp only [Core.unmerge, hc, hd]

@[simp] theorem Engines.bank_setBank_same (e : Engines) (b : Bool) (k : Bank) : (e.setBank b k).bank b = k := by cases b <;> rfl
@[simp] theorem Engines.setBank_vecRun (e : Engines) (b : Bool) (k : Bank) : (e.setBank b k).vecRun = e.vecRun := by cases b <;> rfl
@[simp] theorem Engines.setBank_score (e : Engines) (b : Bool) (k : Bank) : (e.setBank b k).score = e.score := by cases b <;> rfl
@[simp] theorem Engines.release_vecRun (e : Engines) (id : Nat) : (e.release id).vecRun = e.vecRun := rfl

theorem Engines.release_score_owner (e : Engines) (id : Nat) : ∀ x ∈ (e.release id).score, x.owner ≠ id := by
  intro x hx
  simpa using (List.mem_filter.mp hx).2

/-! ### The drain (R112, R116) -/

/-- R116: the core that a drain leaves at its end. -/
def drainedCore (s : State) (c : Core) (v : VecInstr) (r : List VecInstr) (bank : Bool) (bk : Bank) (o : VecResult) (h : List EccHit) : Core :=
  let e := ({ c.eng with vecRun := r }).release v.id
  let more := (e.vecQ ++ e.vecRun).any fun u => u.drains bank
  let st := (e.bank bank).st
  let hm := v.mergeHits c.sp h
  let hr := readHits v.ins v.outs h
  let c1 := (c.scratchErrs s.now (readSpans v.ins v.outs) hr).scratchErrs s.now (writeSpans v.outs) (hm.filter fun x => !hr.contains x)
  (c1.unmerge { c1 with
    eng := e.setBank bank { e.bank bank with st := if st = .drainPending && !more then .free else st }, sp := o.1
    fault := if abftBad bk then some (c.fault.getD { cause := 1, time := s.now }) else c1.fault } hm).raise o.2.1

theorem execDrainEnd_of_head {s : State} {p : Fin 68} {upset : List (Nat × BitVec 32)} {h : List EccHit} {v : VecInstr} {r : List VecInstr}
    {bank : Bool} {sec : BitVec 2} {rrop : RedKind} {bias : BitVec 2} {res acten : Bool} {fn : BitVec 4} {bm : Bool}
    (head : (s.core p).eng.vecRun = v :: r) (op : v.op = .mdrain bank sec rrop bias res acten fn bm) (on : s.damper.shutdown = false) :
    let bk := upsetCells ((s.core p).eng.bank bank) upset
    exec (.drainEnd p upset h) s = .next (s.setCore p (drainedCore s (s.core p) v r bank bk
      (runDrain (s.core p).sp v (s.srKey p v.n) bk sec rrop bias res acten fn bm) h)) := by
  show execDrainEnd p upset s h = _
  unfold execDrainEnd
  rw [if_neg (by simp [on])]
  simp only [head, op]
  rfl

/-- What a drain's end leaves of its core, part by part. -/
theorem drainedCore_spec (s : State) (c : Core) (v : VecInstr) (r : List VecInstr) (bank : Bool) (bk : Bank) (o : VecResult) (h : List EccHit) :
    let d := drainedCore s c v r bank bk o h
    d.sp = (c.unmerge { c with sp := o.1 } (v.mergeHits c.sp h)).sp ∧ d.eng.vecRun = r ∧ (∀ e ∈ d.eng.score, e.owner ≠ v.id) ∧
    d.seq.flags = c.seq.flags ||| o.2.1 ∧
    ((c.eng.bank bank).st = .drainPending → (∀ u ∈ c.eng.vecQ ++ r, u.drains bank = false) → (d.eng.bank bank).st = .free) ∧
    (abftBad bk = true → d.fault = some (c.fault.getD { cause := 1, time := s.now })) ∧
    (abftBad bk = false →
      let read := readHits v.ins v.outs h
      let merged := (v.mergeHits c.sp h).filter fun x => !read.contains x
      d.fault = ((c.scratchErrs s.now (readSpans v.ins v.outs) read).scratchErrs s.now (writeSpans v.outs) merged).fault) := by
  unfold drainedCore
  refine ⟨Core.unmerge_sp_congr (by simp) rfl _, by simp, ?owner, by simp, ?bank, fun bad => by simp [bad], fun good => by simp [good]⟩
  case owner =>
    simpa using Engines.release_score_owner { c.eng with vecRun := r } v.id
  case bank =>
    intro pending none_left
    have more : (c.eng.vecQ ++ r).any (fun u => u.drains bank) = false := by
      simpa only [List.any_eq_false, Bool.not_eq_true] using none_left
    have st : ((({ c.eng with vecRun := r }).release v.id).bank bank).st = .drainPending := by cases bank <;> exact pending
    rw [Core.raise_eng, Core.unmerge_eng, Engines.bank_setBank_same]
    refine if_pos ?_
    rw [Bool.and_eq_true, decide_eq_true_eq, Bool.not_eq_true']
    exact ⟨st, more⟩

/-! ### Moves at issue (R182, R183) -/

theorem Core.addMove_eq (c : Core) (k : MoveKind) (w : W64) (write : Bool) :
    c.addMove k w write = if 16 ≤ c.eng.movePlaces ∨ sbStalls c.eng.score [moveEntry c w write] = true then .stall else .go (moveJoined c k w write) := by
  unfold Core.addMove
  simp only [Bool.or_eq_true, decide_eq_true_eq]
  rfl

theorem Core.addMove_of_room {c : Core} {k : MoveKind} {w : W64} {write : Bool} (room : MoveRoom c w write) : c.addMove k w write = .go (moveJoined c k w write) := by
  rw [Core.addMove_eq, if_neg (by simp [room.1, room.2])]

theorem Core.addMove_of_full {c : Core} (k : MoveKind) (w : W64) (write : Bool) (full : 16 ≤ c.eng.movePlaces) : c.addMove k w write = .stall := by
  rw [Core.addMove_eq, if_pos (.inl full)]

theorem issueTransfer_of_shape {k : MoveKind} {c : Core} {w : W64} (ok : moveOk k w = true) (free : c.seq.anyBusy [reg5 w 36] = false) :
    issueTransfer k c w = if 2 ^ 52 ≤ (c.seq.reg (reg5 w 36)).toNat ∨ ¬ SidesOk c w then .bad else c.addMove k w (k == .load) := by
  have sides : (!plainOk isAnyFmt (moveDl c w) || dFmt (moveDm c w) != dFmt (moveDl c w) || dExts (moveDm c w) != dExts (moveDl c w) ||
      !stridesOk (moveDm c w)) = true ↔ ¬ SidesOk c w := by
    simp only [SidesOk, Bool.or_eq_true, Bool.not_eq_true', bne_iff_ne, not_and_or, Bool.not_eq_true, or_assoc, ne_eq]
  simp only [issueTransfer, ok, free, Bool.not_true, Bool.false_eq_true, if_false]
  by_cases far : 2 ^ 52 ≤ (c.seq.reg (reg5 w 36)).toNat
  · rw [if_pos far, if_pos (.inl far)]
  · rw [if_neg far]
    by_cases s : SidesOk c w
    · exact (if_neg fun h => sides.mp h s).trans (if_neg (by tauto)).symm
    · exact (if_pos (sides.mpr s)).trans (if_pos (.inr s)).symm

theorem transfer_joins_or_faults {s : State} {p : Fin 68} {w : W64} {o : Out} {k : MoveKind} (ready : Ready s p 1)
    (run : o = .next (issueRequest s p ((s.core p).moveRequests k w) fun c => issueTransfer k c w)) (ok : moveOk k w = true)
    (free : (s.core p).seq.anyBusy [reg5 w 36] = false) :
    (((s.core p).seq.reg (reg5 w 36)).toNat < 2 ^ 52 → SidesOk (s.core p) w →
      (MoveRoom (s.core p) w (k == .load) → o = .next (issued s p 1 (moveJoined (s.core p) k w (k == .load)))) ∧
      (16 ≤ (s.core p).eng.movePlaces → o = .next (stalls s p))) ∧
    (2 ^ 52 ≤ ((s.core p).seq.reg (reg5 w 36)).toNat ∨ ¬ SidesOk (s.core p) w → o = .next (rejected s p)) := by
  have own := issueTransfer_of_shape ok free
  rw [run, issueRequest_of_canIssue _ _ ready.1]
  refine ⟨fun near sides => ?_, fun bad => congrArg Host.Outcome.next ?_⟩
  · have legal : ¬ (2 ^ 52 ≤ ((s.core p).seq.reg (reg5 w 36)).toNat ∨ ¬ SidesOk (s.core p) w) := by
      rintro (far | bad)
      · omega
      · exact bad sides
    have own := own.trans (if_neg legal)
    exact ⟨fun room => congrArg Host.Outcome.next (issue_eq_issued (f := fun c => issueTransfer k c w) ready (own.trans (Core.addMove_of_room room))),
      fun full => congrArg Host.Outcome.next (issue_eq_stalls (f := fun c => issueTransfer k c w) ready (own.trans (Core.addMove_of_full _ _ _ full)))⟩
  · exact issue_eq_rejected (f := fun c => issueTransfer k c w) ready (own.trans (if_pos bad))

theorem issueSend_of_shape {gang : Nat} {c : Core} {w : W64} (ok : moveOk .send w = true) (free : c.seq.anyBusy [reg5 w 36, reg5 w 31] = false)
    (plain : plainOk isAnyFmt (moveDl c w) = true) :
    issueSend gang c w = if gang ≤ (c.seq.reg (reg5 w 36)).toNat then .bad else c.addMove .send w false := by
  have plain' : plainOk isAnyFmt (sget 0 c.seq.descs (fld w 50 46)) = true := plain
  simp only [issueSend, ok, free, plain', Bool.not_true, Bool.false_or, Bool.false_eq_true, if_false, decide_eq_true_eq]

theorem issueOpen_of_shape {c : Core} {w : W64} (ok : moveOk .openWin w = true) (whole : (named c w 46).ok isAnyFmt = true) :
    issueOpen c w = if 8 ≤ c.eng.windows.length ∨ ∃ v ∈ c.eng.windows, v.tag = fld w 54 51 then .bad else c.addMove .openWin w true := by
  have whole' : (strmOf c.seq.descs (fld w 50 46)).ok isAnyFmt = true := whole
  simp only [issueOpen, ok, whole', Bool.not_true, Bool.or_self, Bool.false_eq_true, if_false, Bool.or_eq_true, decide_eq_true_eq, List.any_eq_true,
    beq_iff_eq]

theorem movesJoinTheirTag : MovesJoinTheirTag := by
  intro s p w ready c q transfer
  refine ⟨fun ok free => transfer_joins_or_faults ready rfl ok free, fun ok free => transfer_joins_or_faults ready rfl ok free,
    fun i slot cmd ok free plain => ?send, fun bad => ?badOpen, fun ok whole => ?openWin⟩
  case send =>
    have run : exec (.send p w) s = .next (issue s p 1 fun c => issueSend i.gang.length c w) := by
      show execSend p w s = _
      simp only [execSend, cmd, issueRequest_of_canIssue _ _ ready.1]
    have own := issueSend_of_shape (gang := i.gang.length) ok free plain
    rw [run]
    refine ⟨fun inside => ?_, fun outside => ?_⟩
    · have own := own.trans (if_neg (Nat.not_le.mpr inside))
      exact ⟨fun room => congrArg Host.Outcome.next (issue_eq_issued (f := fun c => issueSend i.gang.length c w) ready (own.trans (Core.addMove_of_room room))),
        fun full => congrArg Host.Outcome.next (issue_eq_stalls (f := fun c => issueSend i.gang.length c w) ready
          (own.trans (Core.addMove_of_full _ _ _ full)))⟩
    · exact congrArg Host.Outcome.next (issue_eq_rejected (f := fun c => issueSend i.gang.length c w) ready (own.trans (if_pos outside)))
  case badOpen =>
    refine congrArg Host.Outcome.next (issue_eq_rejected (f := fun c => issueOpen c w) ready (if_pos ?_))
    rcases bad with bad | bad
    · simp [bad]
    · have bad' : (strmOf (s.core p).seq.descs (fld w 50 46)).ok isAnyFmt = false := bad
      simp [bad']
  case openWin =>
    have own := issueOpen_of_shape ok whole
    refine ⟨fun few fresh => ?_, fun bad => congrArg Host.Outcome.next (issue_eq_rejected (f := fun c => issueOpen c w) ready (own.trans (if_pos bad)))⟩
    have legal : ¬ (8 ≤ c.eng.windows.length ∨ ∃ v ∈ c.eng.windows, v.tag = fld w 54 51) := by
      rintro (many | ⟨v, hv, tag⟩)
      · omega
      · exact fresh v hv tag
    have own := own.trans (if_neg legal)
    exact ⟨fun room => congrArg Host.Outcome.next (issue_eq_issued (f := fun c => issueOpen c w) ready (own.trans (Core.addMove_of_room room))),
      fun full => congrArg Host.Outcome.next (issue_eq_stalls (f := fun c => issueOpen c w) ready (own.trans (Core.addMove_of_full _ _ _ full)))⟩

/-! ### Moves at their end (R92 to R94, R183) -/

section MoveEnd

variable {s : State} {p : Fin 68} {k : Nat} {e m : List EccHit} {mv : MoveInstr} {i : Issued} {slot : Nat}
  (move : (s.core p).eng.moves[k]? = some mv) (cmd : s.cmdOf p = some (i, slot)) (on : s.damper.shutdown = false)
include move cmd on

theorem execMoveComplete_load (kind : mv.kind = .load) :
    exec (.moveComplete p k e m) s =
      (let o := loadPieces i.ctx mv mv.pairs (s.core p).sp { s with mem := s.mem.upset m } (s.core p).tlb
      let e := e.filter (mergesWord (pieceBytes mv.dl).1 (pieceBytes mv.dl).2)
      let c1 := (s.core p).scratchErrs s.now (pieceSpans mv.dl) e
      match o.1 with
      | .ok sp => .next (o.2.1.setCore p ((c1.unmerge { c1 with sp := sp, tlb := o.2.2 } e).endMove mv))
      | .fault st => .next (o.2.1.faultCore p st)
      | .held => .next s) := by
  show execMoveComplete p k s e m = _
  simp only [execMoveComplete, on, move, cmd, kind, Bool.false_eq_true, if_false] <;> rfl

theorem execMoveComplete_store (kind : mv.kind = .store) :
    exec (.moveComplete p k e m) s =
      (let o := storePieces i.ctx i.entry.writes mv (s.core p).sp mv.pairs { s with mem := s.mem.upset m } (s.core p).tlb
      let c1 := (s.core p).scratchErrs s.now (pieceSpans mv.dl) e
      if c1.fault.isSome && (s.core p).fault.isNone then .next (s.setCore p c1)
      else match o.1 with
        | .ok _ => .next (o.2.1.setCore p ({ c1 with tlb := o.2.2 }.endMove mv))
        | .fault st => .next (o.2.1.faultCore p st)
        | .held => .next s) := by
  show execMoveComplete p k s e m = _
  simp only [execMoveComplete, on, move, cmd, kind, Bool.false_eq_true, if_false] <;> rfl

theorem execMoveComplete_send (kind : mv.kind = .send) (arrived : mv.arrived = true) :
    exec (.moveComplete p k e m) s = .next (s.setCore p ((s.core p).endMove mv)) := by
  show execMoveComplete p k s e m = _
  simp only [execMoveComplete, on, move, cmd, kind, arrived, Bool.false_eq_true, if_false, if_true]
  rfl

theorem execMoveComplete_open (kind : mv.kind = .openWin) (closed : ∀ v ∈ (s.core p).eng.windows, v.id ≠ mv.id) :
    exec (.moveComplete p k e m) s = .next (s.setCore p ((s.core p).endMove mv)) := by
  have gone : ((s.core p).eng.windows.any fun w => w.id == mv.id) = false := by simpa [List.any_eq_false] using closed
  show execMoveComplete p k s e m = _
  simp only [execMoveComplete, on, move, cmd, kind, gone, Bool.false_eq_true, if_false]
  rfl

/-- R94: what the arrival of a SEND does, by the state of its peer. -/
theorem execSendArrive_of_send (kind : mv.kind = .send) (underway : mv.arrived = false) :
    exec (.sendArrive p k e m) s =
      (let peer := i.gang.getD mv.sa.toNat 68
      let data := packStream (s.core p).sp mv.dl
      let c1 := (s.core p).scratchErrs s.now (pieceSpans mv.dl) e
      if (sget none i.ended mv.sa.toNat).isSome || ((s.core peer).runs i.uid && (s.core peer).seq.ending) then .next (s.faultCore p stBAD_COMMAND)
      else if (s.core peer).life ≠ .opened ∨ !(s.core peer).runs i.uid then .next (s.dropAtPort peer (requests (packBytes mv.dl)))
      else match (s.core peer).eng.windows.find? fun v => v.tag == mv.tag with
        | none => .next s
        | some v =>
          if v.len < mv.sb.toNat + data.length then .next (s.faultCore p stBAD_COMMAND)
          else if c1.fault.isSome && (s.core p).fault.isNone then .next (s.setCore p c1)
          else
            let s1 := s.setCore p { c1 with eng := (c1.eng.modMove mv.id fun m => { m with arrived := true }).release mv.id }
            let t := s1.core peer
            let span := (v.lo + mv.sb.toNat, v.lo + mv.sb.toNat + data.length)
            let mp := m.filter (mergesWord [span] [])
            let t1 := t.scratchErrs s1.now [span] mp
            .next (s1.setCore peer (t1.unmerge (t1.receive v mv.sb.toNat data) mp))) := by
  have go : ¬ (mv.kind ≠ .send ∨ mv.arrived = true ∨ s.damper.shutdown = true) := by simp [kind, underway, on]
  show execSendArrive p k s e m = _
  simp only [execSendArrive, move, cmd]
  exact if_neg go

end MoveEnd

theorem move_held_by_shutdown {s : State} (p : Fin 68) (k : Nat) (e m : List EccHit) (off : s.damper.shutdown = true) :
    exec (.moveComplete p k e m) s = .next s ∧ exec (.sendArrive p k e m) s = .next s := by
  constructor
  · show execMoveComplete p k s e m = _
    simp only [execMoveComplete, off, if_true]
  · show execSendArrive p k s e m = _
    unfold execSendArrive
    dsimp only
    split
    · exact if_pos (.inr (.inr off))
    · rfl

/-- R88: an error that is a core fault and the core had none before. -/
theorem lost_iff (c c1 : Core) : (c1.fault.isSome && c.fault.isNone) = true ↔ c1.fault.isSome = true ∧ c.fault = none := by
  simp

theorem movesCompleteWithTheirBytes : MovesCompleteWithTheirBytes := by
  intro s p k e m mv i slot c c1 lost read move cmd
  refine ⟨fun off => move_held_by_shutdown p k e m off, fun on => ⟨fun kind => ⟨fun sp h => ?_, fun st h => ?_⟩,
    fun kind => ⟨fun l => ?_, fun l h => ?_, fun st l h => ?_⟩, fun kind arrived => execMoveComplete_send move cmd on kind arrived,
    fun kind closed => execMoveComplete_open move cmd on kind closed, fun kind underway => ⟨fun gone => ?_, fun here shut stopped => ?_,
    fun here opened runs going v window => ⟨fun fits l => ?_, fun beyond => ?_⟩⟩⟩⟩
  · rw [execMoveComplete_load move cmd on kind]
    dsimp only
    rw [show (loadPieces i.ctx mv mv.pairs (s.core p).sp { s with mem := s.mem.upset m } (s.core p).tlb).1 = .ok sp from h]
  · rw [execMoveComplete_load move cmd on kind]
    dsimp only
    rw [show (loadPieces i.ctx mv mv.pairs (s.core p).sp { s with mem := s.mem.upset m } (s.core p).tlb).1 = .fault st from h]
  · rw [execMoveComplete_store move cmd on kind]
    exact if_pos ((lost_iff _ _).mpr l)
  · rw [execMoveComplete_store move cmd on kind]
    dsimp only
    rw [if_neg fun x => l ((lost_iff _ _).mp x)]
    rw [show (storePieces i.ctx i.entry.writes mv (s.core p).sp mv.pairs { s with mem := s.mem.upset m } (s.core p).tlb).1 = .ok () from h]
  · rw [execMoveComplete_store move cmd on kind]
    dsimp only
    rw [if_neg fun x => l ((lost_iff _ _).mp x)]
    rw [show (storePieces i.ctx i.entry.writes mv (s.core p).sp mv.pairs { s with mem := s.mem.upset m } (s.core p).tlb).1 = .fault st from h]
  · rw [execSendArrive_of_send move cmd on kind underway]
    exact if_pos (by simpa only [Bool.or_eq_true, Bool.and_eq_true] using gone)
  · rw [execSendArrive_of_send move cmd on kind underway]
    exact (if_neg (by simp only [here, stopped, Option.isSome_none, Bool.false_and, Bool.or_self, Bool.false_eq_true, not_false_eq_true])).trans
      (if_pos (.inl shut))
  · rw [execSendArrive_of_send move cmd on kind underway]
    refine (if_neg (by simp only [here, going, Option.isSome_none, Bool.and_false, Bool.or_self, Bool.false_eq_true, not_false_eq_true])).trans
      ((if_neg (by simp only [opened, runs, ne_eq, not_true_eq_false, Bool.not_true, Bool.false_eq_true, or_self, not_false_eq_true])).trans ?_)
    simp only [window]
    exact (if_neg (Nat.not_lt.mpr fits)).trans (if_neg fun x => l ((lost_iff _ _).mp x))
  · rw [execSendArrive_of_send move cmd on kind underway]
    refine (if_neg (by simp only [here, going, Option.isSome_none, Bool.and_false, Bool.or_self, Bool.false_eq_true, not_false_eq_true])).trans
      ((if_neg (by simp only [opened, runs, ne_eq, not_true_eq_false, Bool.not_true, Bool.false_eq_true, or_self, not_false_eq_true])).trans ?_)
    simp only [window]
    exact if_pos beyond

/-! ### The engines (R108, R113, R119, R121) -/

theorem engines_held_by_shutdown {s : State} (p : Fin 68) (h : List EccHit) (off : s.damper.shutdown = true) :
    ∀ e ∈ [Instr.mpassEntry p h, .lastWavefrontLeft p, .vectorStart p h, .drainStart p, .lastElementWritten p h], exec e s = .next s := by
  have entry : exec (.mpassEntry p h) s = .next s := by
    show execMpassEntry p s h = _
    unfold execMpassEntry
    dsimp only
    split
    · rfl
    · exact if_pos (by simp [off])
  have left : exec (.lastWavefrontLeft p) s = .next s := by
    show execLastWavefrontLeft p s = _
    simp [execLastWavefrontLeft, off]
  have start : exec (.vectorStart p h) s = .next s := by
    show execVectorStart p s h = _
    unfold execVectorStart
    dsimp only
    split
    · rfl
    · exact if_pos (by simp [off])
  have drain : exec (.drainStart p) s = .next s := by
    show execDrainStart p s = _
    unfold execDrainStart
    dsimp only
    split
    · rfl
    · exact if_pos (by simp [off])
  have written : exec (.lastElementWritten p h) s = .next s := by
    show execLastElementWritten p s h = _
    unfold execLastElementWritten
    dsimp only
    split
    · rfl
    · exact if_pos (by simp [off])
  simp [entry, left, start, drain, written]

theorem Engines.leave_spec {e : Engines} {q : PassInstr} {r : List PassInstr} (h : e.inArray = q :: r) :
    e.leave.inArray = r ∧ (∀ x ∈ e.leave.score, x.owner ≠ q.id) ∧ e.leave.idle = if r = [] then 256 else e.idle := by
  have owner := ({ e with inArray := r } : Engines).release_score_owner q.id
  unfold Engines.leave
  simp only [h]
  cases r with
  | nil => exact ⟨rfl, owner, rfl⟩
  | cons x r => exact ⟨rfl, owner, rfl⟩

theorem engineEventsMoveTheirHead : EngineEventsMoveTheirHead := by
  intro s p h c
  refine ⟨fun off => engines_held_by_shutdown p h off, fun on => ⟨fun q r head ready going => ?entry, fun q r head => ?left,
    fun v r head going noDrain => ⟨fun vector => ?start, fun drain order => ?drain⟩, fun v r head vector => ?written⟩⟩
  case entry =>
    show execMpassEntry p s h = _
    have go : (!entryReady (s.core p).eng q || (s.core p).seq.halted || s.damper.shutdown) = false := by
      simp [on, show entryReady (s.core p).eng q = true from ready, show (s.core p).seq.halted = false from going]
    simp only [execMpassEntry, show (s.core p).eng.arrayQ = q :: r from head, go, Bool.false_eq_true, if_false]
    rfl
  case left =>
    obtain ⟨inArray, owner, idle⟩ := Engines.leave_spec (show (s.core p).eng.inArray = q :: r from head)
    refine ⟨s.modCore p fun c => { c with eng := c.eng.leave }, ?_, ?_, ?_, ?_, fun k hk => ?_⟩
    · show execLastWavefrontLeft p s = _
      simp [execLastWavefrontLeft, on]
    · simpa [State.modCore] using inArray
    · simpa [State.modCore] using owner
    · simpa [State.modCore] using idle
    · exact (s.core_setCore p k _).trans (if_neg hk)
  case start =>
    show execVectorStart p s h = _
    have go : (v.isDrainOp || (s.core p).seq.halted || s.damper.shutdown || (s.core p).eng.vecRun.any VecInstr.isDrainOp) = false := by
      simp only [on, vector, show (s.core p).seq.halted = false from going, show (s.core p).eng.vecRun.any VecInstr.isDrainOp = false from noDrain,
        Bool.or_self]
    simp only [execVectorStart, show (s.core p).eng.vecQ = v :: r from head, go, Bool.false_eq_true, if_false]
    rfl
  case drain =>
    show execDrainStart p s = _
    have passes : ((s.core p).eng.arrayQ.any fun q => v.drains q.bank && decide (q.id < v.id)) = false := by
      rw [List.any_eq_false]
      intro q hq
      simp only [Bool.and_eq_true, decide_eq_true_eq, not_and, not_lt]
      exact order q hq
    have go : (!v.isDrainOp || (s.core p).seq.halted || s.damper.shutdown || (s.core p).eng.vecRun.any VecInstr.isDrainOp ||
        (s.core p).eng.arrayQ.any fun q => v.drains q.bank && decide (q.id < v.id)) = false := by
      simp only [on, drain, passes, show (s.core p).seq.halted = false from going,
        show (s.core p).eng.vecRun.any VecInstr.isDrainOp = false from noDrain, Bool.not_true, Bool.or_self]
    simp only [execDrainStart, show (s.core p).eng.vecQ = v :: r from head, go, Bool.false_eq_true, if_false]
    rfl
  case written =>
    show execLastElementWritten p s h = _
    simp only [execLastElementWritten, show (s.core p).eng.vecRun = v :: r from head, vector, on, Bool.or_self, Bool.false_eq_true, if_false]
    rfl

/-! ### Lines and ends of programs (R96, R97, R169) -/

theorem linesArriveAndSlotsEnd : LinesArriveAndSlotsEnd := by
  intro s p m i slot cmd c
  refine ⟨fun choked => ?choked, fun l live miss => ⟨fun b got => ?line, fun st got => ?fault⟩, fun done on => ?slot⟩
  case choked =>
    exact if_pos (by simp [show (s.core p).life = .choked from choked])
  case line =>
    show execIcacheFill p s m = _
    unfold execIcacheFill
    dsimp only
    rw [if_neg (by simpa using live), show (s.core p).seq.miss = some l from miss, cmd]
    dsimp only
    rw [show (State.coreRead { s with mem := s.mem.upset m } i.ctx (l * 256) 256 (s.core p).tlb).1 = .ok b from got]
  case fault =>
    show execIcacheFill p s m = _
    unfold execIcacheFill
    dsimp only
    rw [if_neg (by simpa using live), show (s.core p).seq.miss = some l from miss, cmd]
    dsimp only
    rw [show (State.coreRead { s with mem := s.mem.upset m } i.ctx (l * 256) 256 (s.core p).tlb).1 = .fault st from got]
  case slot =>
    have go : (!(s.core p).slotDone || s.damper.shutdown) = false := by simp [on, show (s.core p).slotDone = true from done]
    show execSlotEnd p s = _
    simp only [execSlotEnd, cmd, go, Bool.false_eq_true, if_false]
    rfl

end Sys2Proof.Machine

namespace Sys2Proof.Claims

open Sys2Proof.Machine

/-- Settles O10, by the core that a drain leaves at its end, part by part. -/
theorem drainEndFreesItsBank : Obligations.DrainEndFreesItsBank := by
  intro s p upset h v r bank sec rrop bias res acten fn bm c head op
  refine ⟨fun off => if_pos off, fun on => ?_⟩
  intro bk o
  obtain ⟨sp, run, owner, flags, free, bad, good⟩ := drainedCore_spec s c v r bank bk o h
  refine ⟨_, execDrainEnd_of_head head op on, ?_⟩
  simp only [State.core_setCore_same]
  exact ⟨sp, run, owner, flags, free, bad, good, fun q hq => (s.core_setCore p q _).trans (if_neg hq)⟩

/-- Settles O11, by what a MOVE answers at issue, kind by kind, and by what its completion and its arrival leave. -/
theorem movesJoinTheirTagAndComplete : Obligations.MovesJoinTheirTagAndComplete := ⟨movesJoinTheirTag, movesCompleteWithTheirBytes⟩

/-- Settles O12, event by event. -/
theorem enginesWorkInTheirOrder : Obligations.EnginesWorkInTheirOrder := ⟨engineEventsMoveTheirHead, linesArriveAndSlotsEnd⟩

end Sys2Proof.Claims
end

section
/-! PROOFS. PEAL at issue (R184, R328, R329): which check answers, and what a PEAL starts or joins. -/

namespace Sys2Proof.Machine

open Sys2Proof.Claims

section PealIssue

variable {s : State} {p : Fin 68} {w : W64} {i : Issued} {cslot : Nat} (ready : Ready s p 1) (cmd : s.cmdOf p = some (i, cslot))
  (op : opOk 0x0D w false = true) (zero : zeroBits w 48 0 = true) (free : (s.core p).seq.anyBusy [reg5 w 52] = false)
  (open_ : fld w 51 49 ∉ (s.core p).eng.slots)

include cmd op zero free open_ in
/-- What is left of the issue of a well-formed PEAL whose slot is free. -/
theorem pealIssue_of_shape : pealIssue s p w (s.core p) =
    if ((s.core p).seq.reg (reg5 w 52)).toNat % 64 ≠ 0 then .bad
    else match s.vaRead i.ctx ((s.core p).seq.reg (reg5 w 52)).toNat 128 with
      | .held => .stall
      | .fault st => .act (s.core p) fun s => s.faultCore p st
      | .ok b => checkPeal s p (fld w 51 49) i (decodePeal b) (s.core p) := by
  have idle : (s.core p).eng.slots.contains (fld w 51 49) = false := by simpa using open_
  simp only [pealIssue, op, zero, free, idle, cmd, Bool.not_true, Bool.or_self, Bool.false_eq_true, if_false] <;> rfl

include ready

theorem issueRequest_of_bad (h : pealIssue s p w (s.core p) = .bad) : issueRequest s p 1 (pealIssue s p w) = rejected s p :=
  (issueRequest_of_canIssue _ _ ready.1).trans (issue_eq_rejected ready h)

theorem issueRequest_of_act {c : Core} {g : State → State} (h : pealIssue s p w (s.core p) = .act c g) :
    issueRequest s p 1 (pealIssue s p w) = g (issued s p 1 c) :=
  (issueRequest_of_canIssue _ _ ready.1).trans (issue_eq_acted ready h)

theorem issueRequest_of_go {c : Core} (h : pealIssue s p w (s.core p) = .go c) : issueRequest s p 1 (pealIssue s p w) = issued s p 1 c :=
  (issueRequest_of_canIssue _ _ ready.1).trans (issue_eq_issued ready h)

end PealIssue

section Check

variable {s : State} {p slot : Nat} {i : Issued} {d : PealDesc} {c : Core}

theorem checkPeal_of_bad (h : s.pealOk i d (s.groupView d) = false) : checkPeal s p slot i d c = .bad := by
  simp [checkPeal, h]

theorem checkPeal_of_view_fault {st : BitVec 16} (h : s.pealOk i d (s.groupView d) = true) (view : s.view i.ctx d = .fault st) :
    checkPeal s p slot i d c = .act c fun s => s.faultCore p st := by
  simp [checkPeal, h, view]

section Viewed

variable {v : View} (h : s.pealOk i d (s.groupView d) = true) (view : s.view i.ctx d = .ok v)

include h view

theorem checkPeal_of_viewed_bad (bad : s.pealOk i d v = false) : checkPeal s p slot i d c = .bad := by
  simp [checkPeal, h, view, bad]

theorem checkPeal_of_load_fault {st : BitVec 16} (ok : s.pealOk i d v = true) (load : s.loadCheck i d = .fault st) :
    checkPeal s p slot i d c = .act c fun s => s.faultCore p st := by
  simp [checkPeal, h, view, ok, load]

theorem checkPeal_of_poisoned_load (ok : s.pealOk i d v = true) (load : s.loadCheck i d = .ok true) :
    checkPeal s p slot i d c = .act c fun s => s.failLoad p := by
  simp [checkPeal, h, view, ok, load]

theorem checkPeal_of_ok (ok : s.pealOk i d v = true) (load : s.loadCheck i d = .ok false) :
    checkPeal s p slot i d c = joinPeal s p slot i d c := by
  simp [checkPeal, h, view, ok, load]

end Viewed

theorem joinPeal_of_found {k : Inst} (found : (s.peal.insts.find? fun k => k.desc.opid == d.opid && k.desc.group == d.group) = some k) :
    joinPeal s p slot i d c = if k.done then .go { c with seq := { c.seq with record := c.seq.record ||| k.flags } }
      else .act { c with eng := { c.eng with slots := setIns c.eng.slots slot } } fun s =>
        s.modInst d.opid d.group fun k => { k with waiters := k.waiters ++ [(p, slot)] } := by
  simp only [joinPeal, found]

theorem joinPeal_of_new (new : (s.peal.insts.find? fun k => k.desc.opid == d.opid && k.desc.group == d.group) = none)
    (room : s.peal.insts.length < 1024) (mark : d.op = 12 → s.publishCheck (s.ctx i.ctx).part.toNat d ≠ .held) :
    joinPeal s p slot i d c = .act { c with eng := { c.eng with slots := setIns c.eng.slots slot } } fun s => s.startPeal p slot i d := by
  simp only [joinPeal, new, Nat.not_le.mpr room, if_false]
  exact if_neg fun h => mark h.1 h.2

end Check

/-- A PEAL whose descriptor names its own operation, read where the errors that stand there have been met. -/
theorem State.peal1_of_code {s0 : State} {code p : Nat} {w : W64} (h : (s0.meetPeal p w).pealOp p w = some code) :
    s0.peal1 code p w = issueRequest (s0.meetPeal p w) p 1 (pealIssue (s0.meetPeal p w) p w) := by
  simp only [State.peal1, h]
  exact if_neg fun k => k.2.2 rfl

end Sys2Proof.Machine

namespace Sys2Proof.Claims

open Sys2Proof.Machine

/-- Settles O13: every PEAL issues by one lemma, whose answer is that of the first check that fails, or what it starts or joins. -/
theorem pealStartsOrJoinsItsInstance : Obligations.PealStartsOrJoinsItsInstance := by
  intro s0 p w s i cslot ready cmd c a slot busy fails op word zero free open_
  have shape := pealIssue_of_shape cmd word zero free open_
  have acted : ∀ {c : Core} {g : State → State}, pealIssue s p w (s.core p) = .act c g →
      Host.Outcome.next (issueRequest s p 1 (pealIssue s p w)) = (.next (g (issued s p 1 c)) : Out) :=
    fun h => congrArg Host.Outcome.next (issueRequest_of_act ready h)
  have turned : pealIssue s p w (s.core p) = .bad →
      Host.Outcome.next (issueRequest s p 1 (pealIssue s p w)) = (.next (rejected s p) : Out) :=
    fun h => congrArg Host.Outcome.next (issueRequest_of_bad ready h)
  have ops : ∀ code, op (.next (s0.peal1 code p w)) code := by
    intro code named
    rw [State.peal1_of_code named]
    refine ⟨fun far => ?misaligned, fun st aligned read => ?unread, fun b aligned read => ?read⟩
    case misaligned =>
      exact turned (shape.trans (if_pos far))
    case unread =>
      have shape : pealIssue s p w (s.core p) = .act c fun s => s.faultCore p st := by
        refine shape.trans ((if_neg (not_not.mpr aligned)).trans ?_)
        rw [show s.vaRead i.ctx ((s.core p).seq.reg (reg5 w 52)).toNat 128 = .fault st from read]
      exact acted shape
    case read =>
      have shape : pealIssue s p w (s.core p) = checkPeal s p slot i (decodePeal b) c := by
        refine shape.trans ((if_neg (not_not.mpr aligned)).trans ?_)
        rw [show s.vaRead i.ctx ((s.core p).seq.reg (reg5 w 52)).toNat 128 = .ok b from read]
      refine ⟨fun bad => turned (shape.trans (checkPeal_of_bad bad)), fun st ok view => acted (shape.trans (checkPeal_of_view_fault ok view)),
        fun v ok view => ⟨fun bad => turned (shape.trans (checkPeal_of_viewed_bad ok view bad)),
          fun st good load => acted (shape.trans (checkPeal_of_load_fault ok view good load)),
          fun good load => acted (shape.trans (checkPeal_of_poisoned_load ok view good load)), fun good load => ?_⟩⟩
      have shape := shape.trans (checkPeal_of_ok ok view good load)
      refine ⟨fun k found => ?_, fun new room mark => acted (shape.trans (joinPeal_of_new new room mark))⟩
      have shape := shape.trans (joinPeal_of_found found)
      exact ⟨fun running => acted (shape.trans (if_neg (by simp [running]))),
        fun done => congrArg Host.Outcome.next (issueRequest_of_go ready (shape.trans (if_pos done)))⟩
  exact ⟨ops 1, ops 2, ops 3, ops 4, ops 5, ops 6, ops 7, ops 8, ops 9, ops 10, ops 11, ops 12, ops 13, ops 14⟩

end Sys2Proof.Claims
end

section
/-! PROOFS. Doorbells and fetch (R244 to R246), issue and placement (R249 to R251), and commit (R252, R13). -/

namespace Sys2Proof.Machine

open Sys2Proof.Claims

/-! ### Doorbell pages (R244) -/

section Page

variable {s : State} {fn : Fin 17} {c : Fin 4096} {ide : Bool}

theorem ownsPage_iff : s.ownsPage fn.val c.val ide = true ↔ PageOf s fn c ide := by
  simp [State.ownsPage, PageOf, and_assoc]

theorem execDoorbell_of_page (off : BitVec 12) (v : W64) (h : PageOf s fn c ide) :
    execDoorbell fn c off v s ide = .next (s.pageWrite c off.toNat v) := if_pos (ownsPage_iff.mpr h)

theorem execSemAdd_of_page (v : W64) (h : PageOf s fn c ide) : execSemAdd fn c v s ide = .next (s.pageWrite c 0x100 v) :=
  if_pos (ownsPage_iff.mpr h)

theorem State.pageWrite_tail (q : Fin 4) (v : W64) : s.pageWrite c (8 * q.val) v = s.modQueue c q fun k =>
    { k with tail := fld v 15 0 % (s.ctx c).qSize q, parked := false, refetch := none, stale := 0 } := by
  have row : 8 * q.val < 0x20 ∧ 8 * q.val % 8 = 0 := by omega
  have index : 8 * q.val / 8 = q.val := by omega
  rw [State.pageWrite, if_neg (by omega), if_neg (by omega), if_pos row, index]

theorem State.pageWrite_semsel (v : W64) : s.pageWrite c 0x108 v = s.setCtx c { s.ctx c with semsel := BitVec.ofNat 12 v.toNat } := rfl

theorem State.pageWrite_add (v : W64) : s.pageWrite c 0x100 v = (s.semAdd (s.ctx c).part.toNat (fld v 43 32) (fld v 31 0)).dropIdle := rfl

/-- An offset of the page at which nothing stands keeps nothing. -/
theorem State.pageWrite_elsewhere {off : Nat} (v : W64) (tail : ∀ q : Fin 4, off ≠ 8 * q.val) (add : off ≠ 0x100) (sel : off ≠ 0x108) :
    s.pageWrite c off v = s := by
  have row : ¬ (off < 0x20 ∧ off % 8 = 0) := fun h => tail ⟨off / 8, by omega⟩ (by simp only; omega)
  rw [State.pageWrite, if_neg add, if_neg sel, if_neg row]

end Page

/-! ### Fetch (R245, R246) -/

section Fetch

variable {s : State} {c : Fin 4096} {q : Fin 4} {d : List Byte} {m : List EccHit} {n : Nat}

theorem mayFetch_of_fetches (h : Fetches s c q) : s.mayFetch c q = true := by
  obtain ⟨life, pending, run, on, fetched, parked, head⟩ := h
  simp [State.mayFetch, life, pending, run, on, fetched, parked, head]

theorem State.fetchHead_of_fault {st : BitVec 16} (h : (s.readEntry c q d m).1 = .fault st) :
    s.fetchHead c q n d m = (s.readEntry c q d m).2.fetchFault c q st none := by
  unfold State.fetchHead
  generalize s.readEntry c q d m = o at h
  obtain ⟨r, t⟩ := o
  cases h
  rfl

theorem State.fetchHead_of_read {b : List Byte} (h : (s.readEntry c q d m).1 = .ok b) :
    FetchEffect s (s.readEntry c q d m).2 c q n (.next (s.fetchHead c q n d m)) b := by
  unfold State.fetchHead
  generalize s.readEntry c q d m = o at h
  obtain ⟨r, t⟩ := o
  cases h
  have same : entryPhase b = ((s.ctx c).queue q).phase → ¬ (entryPhase b != ((s.ctx c).queue q).phase) = true := by simp
  refine ⟨fun stale => congrArg Host.Outcome.next (if_pos (by simpa using stale)),
    fun phase good => congrArg Host.Outcome.next ((if_neg (same phase)).trans (if_neg (by simpa using good))),
    fun phase bad => congrArg Host.Outcome.next ((if_neg (same phase)).trans (if_pos bad))⟩

theorem execCommandFetch_of_fetches (h : Fetches s c q) (first : ((s.ctx c).queue q).refetch = none) :
    execCommandFetch c q d s m = .next (s.fetchHead c q 0 d m) := if_pos (by simp [mayFetch_of_fetches h, first])

theorem execRefetchTimer_of_fetches {t : Nat} (h : Fetches s c q) (again : ((s.ctx c).queue q).refetch = some t) (due : t ≤ s.now) :
    execRefetchTimer c q d s m = .next (s.fetchHead c q (((s.ctx c).queue q).stale + 1) d m) := by
  simp [execRefetchTimer, again, mayFetch_of_fetches h, due]

theorem CmdQueue.advance_inside {k : CmdQueue} {size : Nat} (h : k.head + 1 < size) :
    (k.advance size).head = k.head + 1 ∧ (k.advance size).phase = k.phase := by
  simp [CmdQueue.advance, h.ne]

theorem CmdQueue.advance_end (k : CmdQueue) : (k.advance (k.head + 1)).head = 0 ∧ (k.advance (k.head + 1)).phase = !k.phase := by
  simp [CmdQueue.advance]

end Fetch

/-! ### Issue and placement (R249 to R251) -/

theorem hazard_eq_false_iff {a b : CmdEntry} : hazard a b = false ↔
    (∀ x ∈ a.reads ++ a.writes, ∀ y ∈ b.writes, rangesMeet x y = false) ∧ (∀ x ∈ a.writes, ∀ y ∈ b.reads, rangesMeet x y = false) := by
  simp only [hazard, Bool.or_eq_false_iff, List.any_eq_false, Bool.not_eq_true]

theorem issuable_iff {s : State} {c q : Nat} : s.issuable c q = true ↔ ∃ f, ((s.ctx c).queue q).fetched = some f ∧
    (s.ctx c).life = .active ∧ (s.ctx c).pending = none ∧ s.commandsRun = true ∧ (s.ctx c).skipTil ≤ s.now ∧
    (∀ i ∈ s.disp.issued, i.ctx = c → hazard f.entry i.entry = false) ∧
    (∀ w ∈ f.entry.waits, w.2 ≤ (sget 0 (s.part (s.ctx c).part.toNat).sems w.1).toNat) ∧
    (s.disp.issued.filter fun i => i.ctx == c && i.queue == q).length < 8 := by
  simp only [State.issuable]
  split
  · next none => simp [none]
  · next f head => simp [head, and_assoc]

section Run

variable {s : State} {c : Fin 4096} {q : Fin 4} {f : Fetched} (head : ((s.ctx c).queue q).fetched = some f) (may : s.issuable c q = true)

include head may

theorem execMark_of_issuable (mark : f.entry.opc = 2) : execMark c q s = .next (s.issueHead c q f [] .ended 0).dropIdle := by
  simp only [execMark, head]
  exact if_pos ⟨mark, may⟩

section Grant

variable (run : f.entry.opc = 1) (first : s.rerunWaits (s.ctx c).part.toNat (latencyCritical (s.ctx c) f.entry) = false)
  (place : s.mayPlace c f.entry = true) {gang : List Nat} (cores : s.placement c f.entry f.restart = some gang)
  (grant : s.runGrant c q (latencyCritical (s.ctx c) f.entry) = true)

include run first place cores grant

/-- What a RUN does that has its cores and its grant: its slice is open, or skipped (R257). -/
theorem execRun_of_skip (skip : (s.ctx c).openSlice.2 = none) :
    execRun c q s = .next (s.skipSlice c (s.ctx c).openSlice.1 (s.now + (s.ctx c).sliceNs)) := by
  generalize k : (s.ctx c).openSlice = o at skip
  obtain ⟨x, r⟩ := o
  cases skip
  simp [execRun, head, run, may, first, place, cores, grant, k]

theorem execRun_of_slice {len : Nat} (slice : (s.ctx c).openSlice.2 = some len) : execRun c q s =
    .next (((((s.takeGrant c q (latencyCritical (s.ctx c) f.entry)).setCtx c (s.ctx c).openSlice.1).issueHead c q f gang .running len).noteUsed c
      gang).startGang s.disp.nextUid gang f.entry.prog f.entry.args).dropIdle := by
  generalize k : (s.ctx c).openSlice = o at slice
  obtain ⟨x, r⟩ := o
  cases slice
  simp [execRun, head, run, may, first, place, cores, grant, k]

end Grant

end Run

theorem Ctx.openSlice_of_debt {x : Ctx} (h : x.sliceNs ≤ x.debt) : x.openSlice = ({ x with debt := x.debt - x.sliceNs }, none) := if_pos h

theorem Ctx.openSlice_of_lt {x : Ctx} (h : x.debt < x.sliceNs) : x.openSlice = ({ x with debt := 0 }, some (x.sliceNs - x.debt)) :=
  if_neg (Nat.not_le.mpr h)

theorem filterMap_sublist_filterMap {α β : Type} {f g : α → Option β} (h : ∀ a, f a = none ∨ f a = g a) :
    ∀ l : List α, (l.filterMap f).Sublist (l.filterMap g)
  | [] => .slnil
  | a :: l => by
    have ih := filterMap_sublist_filterMap h l
    rcases h a with none | same
    · rw [List.filterMap_cons_none none]
      exact ih.trans ((List.sublist_cons_self a l).filterMap g)
    · rw [List.filterMap_cons, List.filterMap_cons, same]
      cases g a with
      | none => exact ih
      | some b => exact ih.cons_cons b

theorem State.mappedCores_sublist (s : State) (n : Nat) (qmask : BitVec 4) : (s.mappedCores n qmask).Sublist (s.mappedCores n 0) := by
  refine filterMap_sublist_filterMap (fun k => ?_) _
  by_cases h : ((s.part n).cores.getLsbD k && (qmask == 0 || qmask.getLsbD (k / 16)) && s.mapAt k != 0xFF) = true
  · have inside := h
    simp only [Bool.and_eq_true] at inside
    obtain ⟨⟨mine, -⟩, mapped⟩ := inside
    exact .inr ((if_pos h).trans (if_pos (by rw [mine, mapped]; rfl)).symm)
  · exact .inl (if_neg h)

theorem State.length_freeCores_le (s : State) (n : Nat) (qmask : BitVec 4) : (s.freeCores n qmask).length ≤ (s.freeCores n 0).length :=
  (((s.mappedCores_sublist n qmask).map Prod.snd).filter _).length_le

/-- A free core of the partition stands in the map of a quadrant that the mask allows (R251). -/
theorem of_mem_freeCores {s : State} {n p : Nat} {qmask : BitVec 4} (h : p ∈ s.freeCores n qmask) : (s.core p).run = none ∧
    (s.core p).life = .opened ∧ ∃ k < 64, (s.part n).cores.getLsbD k = true ∧ (s.mapAt k).toNat = p ∧
      (qmask = 0 ∨ qmask.getLsbD (k / 16) = true) := by
  simp only [State.freeCores, State.mappedCores, List.mem_filter, List.mem_map, List.mem_filterMap, List.mem_range, Bool.and_eq_true,
    Option.isNone_iff_eq_none, beq_iff_eq, Bool.or_eq_true, Option.ite_none_right_eq_some, Option.some.injEq] at h
  obtain ⟨⟨x, ⟨k, lt, ⟨⟨mine, mask⟩, -⟩, rfl⟩, rfl⟩, run, life⟩ := h
  exact ⟨run, life, k, lt, mine, rfl, mask⟩

theorem placement_eq_some {s : State} {c : Nat} {e : CmdEntry} {restart : Bool} {gang : List Nat} (h : s.placement c e restart = some gang) :
    gang = (s.freeCores (s.ctx c).part.toNat e.qmask).take e.gang ∧ e.gang ≤ (s.freeCores (s.ctx c).part.toNat e.qmask).length ∧
      s.reserved c e restart ≤ (s.freeCores (s.ctx c).part.toNat 0).length - e.gang := by
  simp only [State.placement] at h
  split at h
  · cases h
  · next room =>
    split at h
    · cases h
    · next rest =>
      cases h
      exact ⟨rfl, Nat.not_lt.mp room, Nat.not_lt.mp rest⟩

/-! ### Commit (R252, R253) -/

theorem execCommit_of_ended {s : State} {c : Fin 4096} {q : Fin 4} {i : Issued} (head : s.oldest c q = some i) (ended : i.stage = .ended)
    (calm : (s.ctx c).pending = none) (on : s.damper.shutdown = false) : execCommit c q s =
      match (s.meetRecord c i.entry).recordReady c i.entry with
      | .held => .next (s.meetRecord c i.entry)
      | .fault st => .next ((s.meetRecord c i.entry).faultCmd i.uid st)
      | .ok _ => .next ((s.meetRecord c i.entry).commitCmd i) := by
  simp only [execCommit, head]
  exact if_neg (by simp [ended, calm, on])

end Sys2Proof.Machine

namespace Sys2Proof.Claims

open Sys2Proof.Machine

/-- Settles O14: the page's offsets one by one, and one lemma about the head of a queue that both fetches use. -/
theorem doorbellsReachFetch : Obligations.DoorbellsReachFetch := by
  refine ⟨fun s fn c off v ide => ⟨fun own => ⟨fun q tail => ?_, fun sel => ?_, fun add => ?_, fun tail add sel => ?_, execSemAdd_of_page v own⟩,
    fun other => ?_⟩, fun s c q d m may => ⟨fun first => ?_, fun t again due => ?_⟩, fun s c q n => ⟨fun h => if_pos h, fun h => if_neg (Nat.not_lt.mpr h)⟩,
    fun k n => CmdQueue.advance_inside, CmdQueue.advance_end⟩
  · exact (execDoorbell_of_page off v own).trans (congrArg Host.Outcome.next (tail ▸ State.pageWrite_tail q v))
  · exact sel ▸ execDoorbell_of_page _ v own
  · exact add ▸ execDoorbell_of_page _ v own
  · refine (execDoorbell_of_page off v own).trans (congrArg Host.Outcome.next (State.pageWrite_elsewhere v tail ?_ ?_))
    · exact fun h => add (BitVec.eq_of_toNat_eq h)
    · exact fun h => sel (BitVec.eq_of_toNat_eq h)
  · have shut := fun h => other (ownsPage_iff.mp h)
    exact ⟨if_neg shut, if_neg shut⟩
  · have own : exec (.commandFetch c q d m) s = _ := execCommandFetch_of_fetches may first
    exact ⟨fun b read => own ▸ State.fetchHead_of_read read, fun st fault => own.trans (congrArg Host.Outcome.next (State.fetchHead_of_fault fault))⟩
  · have own : exec (.refetchTimer c q d m) s = _ := execRefetchTimer_of_fetches may again due
    exact ⟨fun b read => own ▸ State.fetchHead_of_read read, fun st fault => own.trans (congrArg Host.Outcome.next (State.fetchHead_of_fault fault))⟩

/-- Settles O15: what may issue condition by condition, the slice of the debt, and the free cores as the map has them. -/
theorem runStartsWhereItMayIssue : Obligations.RunStartsWhereItMayIssue := by
  refine ⟨fun s c q => ?_, fun s c q f head may => ⟨fun run first place gang cores grant => ⟨fun skip => ?_, fun slice => ?_⟩, ?_⟩,
    fun s c e restart gang h => ?_⟩
  · simp only [issuable_iff, hazard_eq_false_iff]
  · have slice := Ctx.openSlice_of_debt skip
    exact (execRun_of_skip head may run first place cores grant (by rw [slice])).trans (by simp only [slice, State.skipSlice])
  · have slice := Ctx.openSlice_of_lt slice
    exact (execRun_of_slice head may run first place cores grant (by rw [slice])).trans (by simp only [slice])
  · exact execMark_of_issuable head may
  · obtain ⟨taken, fits, spare⟩ := placement_eq_some h
    have free : ∀ p ∈ gang, p ∈ s.freeCores (s.ctx c).part.toNat e.qmask := fun p h => List.mem_of_mem_take (taken ▸ h)
    refine ⟨taken, by simp [taken, fits], fun p h => of_mem_freeCores (free p h), ?_⟩
    have wider := s.length_freeCores_le (s.ctx c).part.toNat e.qmask
    omega

/-- Settles O16: the record's place decides, and the status by its cases. -/
theorem commitActsInOrderWithItsStatus : Obligations.CommitActsInOrderWithItsStatus := by
  refine ⟨fun s c q i head ended calm on => ⟨fun ready => ?_, fun st fault => ?_, fun held => ?_⟩, fun i => ⟨fun h => if_pos h, fun h restart => ?_,
    fun h restart again => ?_, fun h restart once => ?_⟩⟩
  · exact (execCommit_of_ended head ended calm on).trans (by rw [ready]; rfl)
  · exact (execCommit_of_ended head ended calm on).trans (by rw [fault])
  · exact (execCommit_of_ended head ended calm on).trans (by rw [held])
  all_goals rw [Issued.status, if_neg (h ▸ Bool.false_ne_true)]
  · simp [restart, stWRITESET_OVERLAP]
  · simp [restart, again, stKILLED_RERUN]
  · simp [restart, once, stOK]

end Sys2Proof.Claims
end

section
/-! SUPPORT. A write of the dictionary that goes ahead (R434, R452). -/

namespace Sys2Proof.Machine

open Sys2Proof.Claims

/-- A write that goes ahead answers what its effect answers, on the state that it leaves. -/
theorem answers_of_open {s : State} {pr : Principal} {k : Nat} {a n : Bool} {f : State → BitVec 8 × State} (h : Open s k a n) {r : BitVec 8}
    {t : State} (e : f s = (r, t)) : Host.Outcome.next (s.dictWriteAt pr k a n f) = answers pr t r := by
  rw [s.dictWriteAt_goes pr k a n f h.1 h.2, e]
  rfl

end Sys2Proof.Machine
end

section
/-! PROOFS. Slices, kills and re-runs (R257 to R259, R367). -/

namespace Sys2Proof.Machine

@[simp] theorem State.setCtx_now (s : State) (c : Nat) (x : Ctx) : (s.setCtx c x).now = s.now := rfl

section Cmd

variable {s : State} {uid : Nat} {i : Issued} (cmd : s.cmd uid = some i)
include cmd

section Close

variable (running : i.stage = .running) (first : i.allow = none) (due : i.sliceAt + i.sliceLen ≤ s.now)
include running first due

theorem execSliceClose_of_uncontended {len : Nat} (alone : s.contended i = false) (slice : (s.ctx i.ctx).openSlice.2 = some len) :
    execSliceClose uid s = .next ((s.setCtx i.ctx (s.ctx i.ctx).openSlice.1).modCmd uid fun k =>
      { k with sliceAt := i.sliceAt + i.sliceLen, sliceLen := len }) := by
  generalize k : (s.ctx i.ctx).openSlice = o at slice
  obtain ⟨x, r⟩ := o
  cases slice
  simp [execSliceClose, cmd, running, first, due, alone, k]

theorem execSliceClose_of_contended (asked : s.contended i = true) : execSliceClose uid s =
    .next (if i.restart then s.killCmd uid else s.modCmd uid fun k => { k with allow := some (i.sliceAt + i.sliceLen) }) := by
  cases h : i.restart <;> simp [execSliceClose, cmd, running, first, due, asked, h]

end Close

theorem execKillComplete_of_killing (killing : i.stage = .killing) : execKillComplete uid s =
    .next ((s.releaseGang uid i.gang).modCmd uid fun i => { i with stage := .waitRerun, gang := [] }) := by
  simp [execKillComplete, cmd, killing]

theorem execOverrun_of_allowed {t : Nat} (running : i.stage = .running) (allowed : i.allow = some t) :
    execOverrun uid s = .next (if t + (s.ctx i.ctx).ovrNs ≤ s.now then s.faultCmd uid stOVERRUN else s) := by
  simp [execOverrun, cmd, running, allowed]

section Rerun

variable (waits : i.stage = .waitRerun) (calm : (s.ctx i.ctx).pending = none) (run : s.commandsRun = true) (open_ : (s.ctx i.ctx).skipTil ≤ s.now)
include waits calm run open_

theorem execRerun_of_small (choked : i.choked = true) (small : (s.mappedCores (s.ctx i.ctx).part.toNat i.entry.qmask).length < i.entry.gang) :
    execRerun uid s = .next (s.faultCmd uid stBAD_COMMAND) := by
  simp [execRerun, cmd, waits, calm, run, open_, choked, small]

theorem execRerun_of_placement {gang : List Nat} {len : Nat}
    (fits : i.entry.gang ≤ (s.mappedCores (s.ctx i.ctx).part.toNat i.entry.qmask).length)
    (first : s.rerunWaits (s.ctx i.ctx).part.toNat (latencyCritical (s.ctx i.ctx) i.entry) = false ∨ i.choked = true)
    (may : s.mayPlace i.ctx i.entry = true) (cores : s.placement i.ctx i.entry i.restart = some gang)
    (slice : (s.ctx i.ctx).openSlice.2 = some len) :
    execRerun uid s = .next (((((s.setCtx i.ctx { (s.ctx i.ctx).openSlice.1 with reruns := satAdd 64 (s.ctx i.ctx).openSlice.1.reruns 1 }).modCmd uid
      fun k => { k with gang := gang, ended := [], gsems := [], stage := .running, sliceAt := s.now, sliceLen := len, allow := none,
                        reruns := k.reruns + 1, choked := false }).noteUsed i.ctx gang).startGang uid gang i.entry.prog i.entry.args).dropIdle) := by
  generalize k : (s.ctx i.ctx).openSlice = o at slice
  obtain ⟨x, r⟩ := o
  cases slice
  have goes : ¬ (i.stage ≠ .waitRerun ∨ (s.ctx i.ctx).pending.isSome ∨ !s.commandsRun ∨ s.now < (s.ctx i.ctx).skipTil) := by
    simp [waits, calm, run, open_]
  have turn : ¬ ((s.rerunWaits (s.ctx i.ctx).part.toNat (latencyCritical (s.ctx i.ctx) i.entry) ∧ !i.choked) ∨ !s.mayPlace i.ctx i.entry) := by
    rcases first with first | choked
    · simp [first, may]
    · simp [choked, may]
  unfold execRerun
  rw [cmd]
  refine (if_neg goes).trans ((if_neg fun small => Nat.not_lt.mpr fits small.2).trans ((if_neg turn).trans ?_))
  rw [cores, k]
  rfl

end Rerun

end Cmd

end Sys2Proof.Machine

namespace Sys2Proof.Claims

open Sys2Proof.Machine

/-- Settles O17, by one equation per outcome of a slice's close, of an allowance and of a re-run. -/
theorem slicesCloseAndRerunsStart : Obligations.SlicesCloseAndRerunsStart := by
  refine ⟨fun s uid i cmd => ⟨fun running first due => ⟨fun alone debt => ?_, fun asked restart => ?_, fun asked restart => ?_⟩,
    execKillComplete_of_killing cmd, fun t running allowed => ⟨fun closed => ?_, fun early => ?_⟩⟩,
    fun s uid i cmd waits calm run open_ => ⟨execRerun_of_small cmd waits calm run open_, fun fits first may gang cores debt => ?_⟩⟩
  · have slice := Ctx.openSlice_of_lt debt
    exact (execSliceClose_of_uncontended cmd running first due alone (by rw [slice])).trans (by rw [slice])
  · exact (execSliceClose_of_contended cmd running first due asked).trans (by simp only [restart, if_true])
  · exact (execSliceClose_of_contended cmd running first due asked).trans (by simp only [restart, Bool.false_eq_true, if_false])
  · exact (execOverrun_of_allowed cmd running allowed).trans (congrArg Host.Outcome.next (if_pos closed))
  · exact (execOverrun_of_allowed cmd running allowed).trans (congrArg Host.Outcome.next (if_neg (Nat.not_le.mpr early)))
  · have slice := Ctx.openSlice_of_lt debt
    exact (execRerun_of_placement cmd waits calm run open_ fits first may cores (by rw [slice])).trans (by simp only [slice])

end Sys2Proof.Claims
end

section
/-! PROOFS. DESTROY takes an issued command away by the first of its uid (R241). -/

namespace Sys2Proof.Machine

/-- An entry without ranges, waits or a record. -/
def bareEntry : CmdEntry :=
  { opc := 1, demote := false, cplen := false, cplloc := false, qmask := 0, gang := 1, prog := 0, args := 0, seed := 0, waits := [], reads := [],
    writes := [], cpladdr := 0, cpltag := 0, rels := [], irq := none, irqWord := 0, reserved := false, divert := false }

/-- A command of context c with uid 0. -/
def firstCmd (c : Nat) : Issued :=
  { uid := 0, ctx := c, queue := 0, idx := 0, entry := bareEntry, restart := false, gang := [], ended := [], gsems := [], stage := .ended,
    sliceAt := 0, sliceLen := 0, allow := none, reruns := 0, choked := false }

/-- Context 0 is active and has issued a command with the uid of an older one of context 1. -/
def twins : State :=
  { State.reset with disp := { Disp.reset with ctxs := [(0, { Ctx.reset with life := .active })], issued := [firstCmd 1, firstCmd 0] } }

theorem twins_destroy_issued : (twins.destroy 0).disp.issued = [firstCmd 0] := by decide +kernel

end Sys2Proof.Machine

namespace Sys2Proof.Claims

open Sys2Proof.Machine

/-- Refutes O18: DESTROY of context 0 deletes the first issued command with the uid of its own command. Where an older command of context 1 has that
uid, the older one goes, and the command of context 0 is still issued. -/
theorem not_contextOperationsFollowTheirStates : ¬ Obligations.ContextOperationsFollowTheirStates := by
  intro h
  obtain ⟨-, -, -, -, destroyed⟩ := h twins .host
  obtain ⟨-, -, -, -, gone, -⟩ := destroyed (by decide) (by decide)
  exact gone (firstCmd 0) (twins_destroy_issued ▸ List.mem_singleton_self _) rfl

end Sys2Proof.Claims
end

section
/-! SUPPORT. A queue at which nobody writes, reads or waits stays so while whole packets are posted, to it or to others (R222, R227, R228). -/

namespace Sys2Proof.Machine

/-! ### The block of a queue -/

@[simp] theorem MsgQueue.takeFlush_of_boundary {m : MsgQueue} (flush : m.flush = true) (write : m.writing = none) (read : m.reading = none) :
    m.takeFlush = { m with pkts := [], flush := false, flushed := satAdd 64 m.flushed m.pkts.length, rd0 := m.wr0, rd1 := m.wr1,
                           waiting := m.waiting.map fun a => { a with late := false } } := by
  simp [MsgQueue.takeFlush, MsgQueue.atBoundary, flush, write, read]

theorem MsgQueue.mismatch_eq_false {m : MsgQueue} : m.mismatch = false ↔ m.wr0 = m.wr1 ∧ m.rd0 = m.rd1 := by simp [MsgQueue.mismatch]

/-- Both copies of a pointer move together. -/
theorem MsgQueue.makeRoom_mismatch (q n : Nat) (l : List Packet) (m : MsgQueue) (h : m.mismatch = false) :
    (m.makeRoom q n l).mismatch = false := by
  induction l generalizing m with
  | nil => exact h
  | cons k r ih =>
    unfold MsgQueue.makeRoom
    generalize (if m.reading.isSome then m.pkts.take 1 else []) = kept
    dsimp only
    split
    · exact h
    · refine ih _ ?_
      obtain ⟨wr, rd⟩ := MsgQueue.mismatch_eq_false.mp h
      exact MsgQueue.mismatch_eq_false.mpr ⟨wr, by simp [MsgQueue.moveRd, rd]⟩

/-- Nobody writes, reads or waits, and the pointers' copies agree. -/
structure MsgQueue.Clear (m : MsgQueue) : Prop where
  writing : m.writing = none
  reading : m.reading = none
  waiting : m.waiting = []
  sound   : m.mismatch = false

theorem MsgQueue.Clear.put {m : MsgQueue} (h : m.Clear) (now q : Nat) (a : Ask) (done : a.stop = .done) : (m.put now q a).Clear := by
  unfold MsgQueue.put
  split
  rename_i seq old need n e
  have kept : n.reading = none ∧ n.waiting = [] ∧ n.mismatch = false := by
    split at e <;> obtain ⟨-, -, -, rfl⟩ := by simpa only [Prod.mk.injEq] using e
    all_goals exact ⟨h.reading, h.waiting, h.sound⟩
  obtain ⟨reading, waiting, sound⟩ := kept
  obtain ⟨-, waits, -, reads⟩ := n.makeRoom_ports q need n.mayGo
  obtain ⟨wr, rd⟩ := MsgQueue.mismatch_eq_false.mp (MsgQueue.makeRoom_mismatch q need n.mayGo n sound)
  rw [done]
  exact ⟨rfl, reads.trans reading, waits.trans waiting, MsgQueue.mismatch_eq_false.mpr ⟨by simp [MsgQueue.moveWr, wr], rd⟩⟩

/-- The one producer that waits at a clear queue writes its whole packet. -/
theorem MsgQueue.Clear.settle {m : MsgQueue} (h : m.Clear) (now q k : Nat) (a : Ask) (flush : m.flush = false) (done : a.stop = .done)
    (pop : 0 < a.pop) : (({ m with waiting := [a] } : MsgQueue).settle now q (k + 1)).Clear := by
  have written := MsgQueue.Clear.put (m := { m with waiting := [], arb := (m.arb.grant [(a.src, a.pop)] a.src).drop [] })
    ⟨h.writing, h.reading, rfl, h.sound⟩ now q a done
  obtain ⟨free, alone, calm⟩ := MsgQueue.put_done { m with waiting := [], arb := (m.arb.grant [(a.src, a.pop)] a.src).drop [] } now q a done
  rw [MsgQueue.settle_one { m with waiting := [a] } now q k a h.writing rfl flush pop, MsgQueue.settle_idle _ now q k free alone (calm.trans flush)]
  exact written

/-- A whole packet that nobody stands in the way of is written, behind a pending flush. -/
theorem MsgQueue.Clear.ask {m : MsgQueue} (h : m.Clear) (now q : Nat) (a : Ask) (done : a.stop = .done) (pop : 0 < a.pop) : (m.ask now q a).Clear := by
  have alone : m.ask now q a = ({ m with waiting := [{ a with late := m.flush }] } : MsgQueue).settle now q 3 := by
    simp [MsgQueue.ask, h.waiting]
  rw [alone]
  rcases Bool.eq_false_or_eq_true m.flush with flush | flush
  · have wr := (MsgQueue.mismatch_eq_false.mp h.sound).1
    have flushed : ({ m with waiting := [{ a with late := m.flush }] } : MsgQueue).settle now q 3 =
        ({ ({ m with waiting := [{ a with late := m.flush }] } : MsgQueue).takeFlush with waiting := [{ a with late := false }] } : MsgQueue).settle
          now q 2 := by
      simp [MsgQueue.settle, MsgQueue.takeFlush, MsgQueue.atBoundary, h.writing, h.reading, flush]
    rw [flushed, MsgQueue.takeFlush_of_boundary (by exact flush) (by exact h.writing) (by exact h.reading)]
    exact MsgQueue.Clear.settle (m := { m with pkts := [], flush := false, flushed := satAdd 64 m.flushed m.pkts.length, rd0 := m.wr0, rd1 := m.wr1 })
      ⟨h.writing, h.reading, h.waiting, MsgQueue.mismatch_eq_false.mpr ⟨wr, wr⟩⟩ now q 1 { a with late := false } rfl done pop
  · exact h.settle now q 2 { a with late := m.flush } flush done pop

/-! ### The queues of the state -/

section Other

variable {q k : Nat} (other : q ≠ k)
include other

theorem State.mqueue_setQueue_ne (s : State) (m : MsgQueue) : (s.setQueue k m).mqueue q = s.mqueue q := by simp [State.mqueue_setQueue, other]

theorem State.mqueue_settlePorts_ne (s : State) : (s.settlePorts k).mqueue q = s.mqueue q := s.mqueue_setQueue_ne other _

theorem State.mqueue_putPacket_ne (s : State) (w : List W64) (u : Nat) : (s.putPacket k w u).mqueue q = s.mqueue q := s.mqueue_setQueue_ne other _

end Other

theorem State.mqueue_msix (s : State) (f v q : Nat) : (s.msix f v).mqueue q = s.mqueue q := by
  unfold State.msix
  dsimp only
  split_ifs <;> rfl

theorem State.mqueue_cutWord (s : State) (k q : Nat) : (s.cutWord k).mqueue q = s.mqueue q := by
  unfold State.cutWord State.notePoisoned
  dsimp only
  split_ifs <;> rfl

theorem State.mqueue_resetPorts_ne {q k : Nat} (other : q ≠ k) (s : State) : (s.resetPorts k).mqueue q = s.mqueue q := by
  unfold State.resetPorts
  dsimp only
  rw [State.mqueue_settlePorts_ne other, State.mqueue_setQueue_ne other]
  split
  · exact s.mqueue_cutWord k q
  · rfl

theorem State.mqueue_resetFaultQueue_ne {q : Nat} (other : q ≠ qidFault) (s : State) : s.resetFaultQueue.mqueue q = s.mqueue q :=
  (State.mqueue_msix _ 0 0 q).trans (s.mqueue_resetPorts_ne other)

section Event

variable {q k : Nat} (other : q ≠ k) (event : q ≠ qidFault)
include other event

/-- The reset of a queue posts to itself and to the fault queue. -/
theorem State.mqueue_resetQueue_ne (s : State) : (s.resetQueue k).mqueue q = s.mqueue q := by
  have sound : ∀ t : State, (if (t.mqueue qidFault).mismatch then t.resetFaultQueue else t).mqueue q = t.mqueue q := fun t => by
    split
    · exact t.mqueue_resetFaultQueue_ne event
    · rfl
  unfold State.resetQueue
  split
  · exact s.mqueue_resetFaultQueue_ne event
  · dsimp only
    split
    · rw [State.mqueue_putPacket_ne other, State.mqueue_putPacket_ne event, sound, State.mqueue_resetPorts_ne other]
    · rw [State.mqueue_putPacket_ne event, sound, State.mqueue_resetPorts_ne other]

theorem State.mqueue_post_ne (s : State) (w : List W64) (u : Nat) : (s.post k w u).mqueue q = s.mqueue q := by
  unfold State.post
  split
  · exact (State.mqueue_resetQueue_ne other event _).trans (s.mqueue_setQueue_ne other _)
  · exact s.mqueue_putPacket_ne other w u

theorem State.mqueue_settleQueue_ne (s : State) : (s.settleQueue k).mqueue q = s.mqueue q := by
  rw [State.settleQueue, State.mqueue_settlePorts_ne other, State.checkPointers]
  split
  · exact s.mqueue_resetQueue_ne other event
  · rfl

theorem State.mqueue_flushQueue_ne (s : State) : (s.flushQueue k).mqueue q = s.mqueue q := by
  unfold State.flushQueue State.applyFlush
  dsimp only
  split
  · exact (State.mqueue_settleQueue_ne other event _).trans (s.mqueue_setQueue_ne other _)
  · exact s.mqueue_setQueue_ne other _

end Event

/-- A posted packet leaves a queue clear that was, whichever queue it goes to. -/
theorem State.post_clear {q : Nat} (event : q ≠ qidFault) {s : State} (h : (s.mqueue q).Clear) (k : Nat) (w : List W64) (u : Nat) :
    ((s.post k w u).mqueue q).Clear := by
  by_cases other : q = k
  · subst other
    rw [s.post_sound q w u h.sound, State.mqueue_putPacket, if_pos rfl]
    exact h.ask _ _ _ rfl Nat.one_pos
  · rw [s.mqueue_post_ne other event]
    exact h

/-- A flush empties a clear queue. -/
theorem State.flushQueue_pkts {q : Nat} {s : State} (h : (s.mqueue q).Clear) : ((s.flushQueue q).mqueue q).pkts = [] := by
  have sound : ¬ ((s.setQueue q { s.mqueue q with flush := true }).mqueue q).mismatch = true := by
    rw [State.mqueue_setQueue_same]
    exact Bool.not_eq_true _ ▸ h.sound
  have due : (((s.setQueue q { s.mqueue q with flush := true }).mqueue q).flush && ((s.setQueue q { s.mqueue q with flush := true }).mqueue q).atBoundary)
      = true := by
    simp [MsgQueue.atBoundary, h.writing, h.reading]
  rw [State.flushQueue, State.applyFlush, if_pos due, State.settleQueue, State.checkPointers, if_neg sound, State.settlePorts, State.mqueue_setQueue_same,
    State.mqueue_setQueue_same]
  simp [MsgQueue.settle, MsgQueue.takeFlush, MsgQueue.atBoundary, h.writing, h.reading, h.waiting, MsgQueue.asks, MsgQueue.ready, Arbiter.pick]

end Sys2Proof.Machine
end

section
/-! PROOFS. Teardown ends (R260, R261) and the partition reset (R266): what a reset leaves of the partition's contexts, queue and slabs. -/

namespace Sys2Proof.Machine

open Sys2Proof.Claims

/-! ### What the teardown of a context leaves as it was -/

/-- Contexts, the states and owners of slabs are as they were, and the event queue q is clear if it was. -/
structure State.Quiet (q : Nat) (s t : State) : Prop where
  ctxs   : t.disp.ctxs = s.disp.ctxs
  failed : t.mem.failed = s.mem.failed
  life   : ∀ k, (t.slab k).life = (s.slab k).life
  owner  : ∀ k, (t.slab k).owner = (s.slab k).owner
  clear  : (s.mqueue q).Clear → (t.mqueue q).Clear

section Quiet

variable {q : Nat}

theorem State.Quiet.refl (s : State) : s.Quiet q s := ⟨rfl, rfl, fun _ => rfl, fun _ => rfl, id⟩

theorem State.Quiet.trans {s t u : State} (h : s.Quiet q t) (k : t.Quiet q u) : s.Quiet q u where
  ctxs := k.ctxs.trans h.ctxs
  failed := k.failed.trans h.failed
  life i := (k.life i).trans (h.life i)
  owner i := (k.owner i).trans (h.owner i)
  clear := k.clear ∘ h.clear

theorem State.Quiet.ctx {s t : State} (h : s.Quiet q t) (c : Nat) : t.ctx c = s.ctx c := by rw [State.ctx, h.ctxs]; rfl

theorem State.Quiet.slabLife {s t : State} (h : s.Quiet q t) (k : Nat) : t.slabLife k = s.slabLife k := by
  simp only [State.slabLife, State.slabGroup, h.failed, h.life k] <;> rfl

/-- A change of the state that leaves its contexts, slabs and queues. -/
theorem State.Quiet.of_eq {s t : State} (ctxs : t.disp.ctxs = s.disp.ctxs) (mem : t.mem = s.mem) (mq : t.mq = s.mq) : s.Quiet q t :=
  ⟨ctxs, by rw [mem], fun k => by rw [State.slab, mem]; rfl, fun k => by rw [State.slab, mem]; rfl,
    fun h => by rw [State.mqueue, mq]; exact h⟩

theorem State.Quiet.foldl {α : Type} {f : State → α → State} (h : ∀ t a, State.Quiet q t (f t a)) (l : List α) (s : State) :
    s.Quiet q (l.foldl f s) := by
  induction l generalizing s with
  | nil => exact .refl s
  | cons a r ih => exact (h s a).trans (ih _)

/-- A change of one slab that leaves its state and owner. -/
theorem State.setSlab_quiet (s : State) (n : Nat) (e : SlabEntry) (life : e.life = (s.slab n).life) (owner : e.owner = (s.slab n).owner) :
    s.Quiet q (s.setSlab n e) := by
  refine ⟨rfl, rfl, fun k => ?_, fun k => ?_, id⟩
  all_goals
    rw [State.slab_setSlab]
    split
  · next same => rw [same, life]
  · rfl
  · next same => rw [same, owner]
  · rfl

theorem State.mem_quiet (s : State) {m : Mem} (failed : m.failed = s.mem.failed) (slabs : m.slabs = s.mem.slabs) : s.Quiet q { s with mem := m } :=
  ⟨rfl, failed, fun k => by simp only [State.slab, slabs], fun k => by simp only [State.slab, slabs], id⟩

theorem State.addWipes_quiet (s : State) (jobs : List WipeJob) : s.Quiet q { s with mem := { s.mem with wipes := s.mem.wipes ++ jobs } } :=
  s.mem_quiet rfl rfl

theorem State.addRetire_quiet (s : State) (r : Nat) : s.Quiet q (s.addRetire r) :=
  ⟨rfl, rfl, fun _ => rfl, fun _ => rfl, id⟩

theorem State.checkRetire_quiet (s : State) (n : Nat) : s.Quiet q (s.checkRetire n) := by
  unfold State.checkRetire
  dsimp only
  split
  · exact s.setSlab_quiet n _ rfl rfl
  · exact .refl s

theorem State.noteRow_quiet (s : State) (b : Bool) (r : Nat) :
    s.Quiet q (if b then { s with mem := { s.mem with ceRows := setIns s.mem.ceRows r } } else s) := by
  split
  · exact s.mem_quiet rfl rfl
  · exact .refl s

theorem State.retireAgain_quiet (s : State) (b : Bool) (r : Nat) : s.Quiet q (if b then s.addRetire r else s) := by
  split
  · exact s.addRetire_quiet r
  · exact .refl s

theorem State.slabCe_quiet (s : State) (n : Nat) : s.Quiet q (s.setSlab n { s.slab n with ce := satAdd 12 (s.slab n).ce 1 }) :=
  s.setSlab_quiet n _ rfl rfl

theorem State.slabUe_quiet (s : State) (n : Nat) : s.Quiet q (s.setSlab n { s.slab n with ue := satAdd 2 (s.slab n).ue 1 }) :=
  s.setSlab_quiet n _ rfl rfl

theorem State.countCe_quiet (s : State) (k : Nat) : s.Quiet q { s with mem := { s.mem with stackCe := smod 0 s.mem.stackCe k (satAdd 64 · 1) } } :=
  s.mem_quiet rfl rfl

theorem State.poisonWord_quiet (s : State) (w k : Nat) :
    s.Quiet q { s with mem := { s.mem with poison := setIns s.mem.poison w, stackUe := smod 0 s.mem.stackUe k (satAdd 32 · 1) } } :=
  s.mem_quiet rfl rfl

theorem State.correctedError_quiet (s : State) (pa : Nat) (b : Bool) : s.Quiet q (s.correctedError pa b) :=
  ((((s.slabCe_quiet _).trans (State.countCe_quiet _ _)).trans (State.checkRetire_quiet _ _)).trans (State.noteRow_quiet _ b _)).trans
    (State.retireAgain_quiet _ _ _)

section Posts

variable (event : q ≠ qidFault)
include event

theorem State.post_quiet (s : State) (k : Nat) (w : List W64) (u : Nat) : s.Quiet q (s.post k w u) :=
  ⟨by simp, by simp, fun i => by rw [State.slab, State.post_mem]; rfl, fun i => by rw [State.slab, State.post_mem]; rfl,
    fun h => State.post_clear event h k w u⟩

theorem State.eccEvent_quiet (s : State) (pa : Nat) : s.Quiet q (s.eccEvent pa) := by
  unfold State.eccEvent
  dsimp only
  split <;> exact s.post_quiet event _ _ _

theorem State.uncorrectedError_quiet (s : State) (pa : Nat) : s.Quiet q (s.uncorrectedError pa) :=
  ((((s.slabUe_quiet _).trans (State.poisonWord_quiet _ _ _)).trans (State.checkRetire_quiet _ _)).trans
    (State.eccEvent_quiet event _ _)).trans (State.addRetire_quiet _ _)

theorem State.meetErr_quiet (s : State) (h : EccHit) (scrub : Bool) : s.Quiet q (s.meetErr h scrub) := by
  refine (s.mem_quiet (m := { s.mem with latent := s.mem.latent.filter fun k => k.word != h.word }) rfl rfl).trans ?_
  unfold State.meetErr
  dsimp only
  split_ifs
  · exact .refl _
  · exact State.uncorrectedError_quiet event _ _
  · exact State.correctedError_quiet _ _ _

theorem State.memErrs_quiet (s : State) (segs : List (Nat × Nat)) (hits : List EccHit) : s.Quiet q (s.memErrs segs hits) :=
  (s.mem_quiet (m := s.mem.upset hits) rfl rfl).trans (.foldl (fun t h => t.meetErr_quiet event h false) _ _)

theorem State.putWord_quiet (s : State) (pa : Nat) (data : List Byte) : s.Quiet q (s.putWord pa data) := by
  rw [State.putWord_eq]
  have cleared : s.Quiet q (s.clearWord pa data.length) := by
    unfold State.clearWord
    split
    · exact s.mem_quiet rfl rfl
    · exact .refl s
  refine cleared.trans ?_
  split
  · exact State.eccEvent_quiet event _ pa
  · exact State.mem_quiet _ rfl rfl

theorem State.putWords_quiet (k : Nat) : ∀ (s : State) (pa : Nat) (data : List Byte), s.Quiet q (s.putWords pa data k) := by
  induction k with
  | zero => exact fun s _ _ => .refl s
  | succ k ih =>
    intro s pa data
    unfold State.putWords
    split
    · exact .refl s
    · exact (s.putWord_quiet event _ _).trans (ih _ _ _)

theorem State.memWrite_quiet (s : State) (pa : Nat) (data : List Byte) : s.Quiet q (s.memWrite pa data) :=
  (s.memErrs_quiet event _ _).trans (State.putWords_quiet event _ _ _ _)

theorem State.meetShard_quiet (s : State) (n layer : Nat) : s.Quiet q (s.meetShard n layer) := by
  unfold State.meetShard
  dsimp only
  split
  · exact s.memErrs_quiet event _ _
  · exact .refl s

theorem State.unmark_quiet (s : State) (i : Inst) : s.Quiet q (s.unmark i) := by
  unfold State.unmark
  dsimp only
  split
  · exact .refl s
  · refine (s.meetShard_quiet event i.part i.desc.layer).trans ?_
    split
    · split
      · exact State.memWrite_quiet event _ _ _
      · exact .refl _
    · exact .refl _

theorem State.meetTable_quiet (s : State) (n pa len : Nat) : s.Quiet q (s.meetTable n pa len) :=
  .foldl (fun t h => t.meetErr_quiet event h false) _ _

theorem State.meetTables_quiet (s : State) (n base : Nat) : s.Quiet q (s.meetTables n base) := by
  unfold State.meetTables
  split
  · exact .refl s
  · exact (s.meetTable_quiet event _ _ _).trans ((State.Quiet.foldl (fun t e => t.meetTable_quiet event _ _ _) _ _).trans
      (State.Quiet.foldl (fun t e => t.meetTable_quiet event _ _ _) _ _))

end Posts

/-! #### The units that a teardown reaches -/

theorem State.sendGeril_quiet (s : State) (k tc : Nat) (p : GPkt) : s.Quiet q (s.sendGeril k tc p) := by
  unfold State.sendGeril State.queueFrame
  dsimp only
  split_ifs <;> exact .of_eq rfl rfl rfl

theorem State.sendControl_quiet (s : State) (rank op : Nat) (opid gen : BitVec 32) (stream : Nat) (payload : List Byte) :
    s.Quiet q (s.sendControl rank op opid gen stream payload) := by
  unfold State.sendControl State.sendCtl
  split
  · exact .refl s
  · exact State.sendGeril_quiet _ _ _ _

theorem State.closeStreams_quiet (s : State) (opid : BitVec 32) : s.Quiet q (s.closeStreams opid) :=
  (State.Quiet.foldl (fun t _ => t.sendControl_quiet _ _ _ _ _ _) _ _).trans (.of_eq rfl rfl rfl)

theorem State.peal_quiet (s : State) (p : Peal) : s.Quiet q { s with peal := p } := .of_eq rfl rfl rfl

theorem State.setKeeps_quiet (s : State) (n : Nat) (l : List Keep) : s.Quiet q (s.setKeeps n l) := .of_eq rfl rfl rfl

theorem State.modCore_quiet (s : State) (p : Nat) (f : Core → Core) : s.Quiet q (s.modCore p f) := .of_eq rfl rfl rfl

theorem State.releaseGang_quiet (s : State) (uid : Nat) (gang : List Nat) : s.Quiet q (s.releaseGang uid gang) :=
  .foldl (fun t p => t.modCore_quiet p _) _ _

theorem State.wipeCores_quiet (s : State) (l : List Nat) : s.Quiet q (s.wipeCores l) := .foldl (fun t p => t.modCore_quiet p _) _ _

theorem State.abortPkgs_quiet (s : State) (p : PkgJob → Bool) : s.Quiet q (s.abortPkgs p) := by
  unfold State.abortPkgs
  split
  · exact .refl s
  · exact .of_eq rfl rfl rfl

theorem State.answer_quiet (s : State) (r : BitVec 8) : s.Quiet q (s.answer r) := .of_eq rfl rfl rfl

theorem State.abortMeasures_quiet (s : State) (c : Nat) : s.Quiet q (s.abortMeasures c) :=
  State.Quiet.trans (t := { s with sec := { s.sec with measures := s.sec.measures.filter fun j => j.ctx != c } }) (.of_eq rfl rfl rfl)
    (.foldl (fun t _ => t.answer_quiet _) _ _)

theorem State.cancelCtx_quiet (s : State) (c : Nat) : s.Quiet q (s.cancelCtx c) := .foldl (fun t n => t.setKeeps_quiet n _) _ _

theorem State.delCmd_quiet (s : State) (uid : Nat) : s.Quiet q (s.delCmd uid) := .of_eq rfl rfl rfl

section Cancel

variable (event : q ≠ qidFault)
include event

theorem State.cancelInst_quiet (s : State) (i : Inst) : s.Quiet q (s.cancelInst i) :=
  (s.closeStreams_quiet _).trans ((State.unmark_quiet event _ i).trans (.of_eq rfl rfl rfl))

theorem State.cancelUid_quiet (s : State) (uid : Nat) : s.Quiet q (s.cancelUid uid) :=
  (State.Quiet.foldl (fun t i => t.cancelInst_quiet event i) _ _).trans (.foldl (fun t n => t.setKeeps_quiet n _) _ _)

theorem State.cancelPart_quiet (s : State) (n : Nat) : s.Quiet q (s.cancelPart n) :=
  (State.Quiet.foldl (fun t i => t.cancelInst_quiet event i) _ _).trans ((State.setKeeps_quiet _ n []).trans (State.peal_quiet _ _))

end Cancel

end Quiet

/-! ### DESTROY and its contexts (R241) -/

/-- A context that is gone, or on its way (R260). -/
def State.Torn (s : State) (c : Nat) : Prop := (s.ctx c).life = .free ∨ (s.ctx c).life = .teardown

/-- Like `State.Quiet`, but for context c. -/
structure State.Tears (q c : Nat) (s t : State) : Prop where
  others : ∀ k, k ≠ c → t.ctx k = s.ctx k
  failed : t.mem.failed = s.mem.failed
  life   : ∀ k, (t.slab k).life = (s.slab k).life
  owner  : ∀ k, (t.slab k).owner = (s.slab k).owner
  clear  : (s.mqueue q).Clear → (t.mqueue q).Clear

section Tears

variable {q c : Nat}

theorem State.Quiet.tears {s t : State} (h : s.Quiet q t) : s.Tears q c t := ⟨fun k _ => h.ctx k, h.failed, h.life, h.owner, h.clear⟩

theorem State.Tears.refl (s : State) : s.Tears q c s := (State.Quiet.refl s).tears

theorem State.Tears.trans {s t u : State} (h : s.Tears q c t) (k : t.Tears q c u) : s.Tears q c u where
  others i ne := (k.others i ne).trans (h.others i ne)
  failed := k.failed.trans h.failed
  life i := (k.life i).trans (h.life i)
  owner i := (k.owner i).trans (h.owner i)
  clear := k.clear ∘ h.clear

theorem State.setCtx_tears (s : State) (x : Ctx) : s.Tears q c (s.setCtx c x) :=
  ⟨fun k ne => by simp [State.ctx_setCtx, ne], rfl, fun _ => rfl, fun _ => rfl, id⟩

theorem State.dropIdle_quiet (s : State) : s.Quiet q s.dropIdle := .of_eq rfl rfl rfl

variable (event : q ≠ qidFault)
include event

theorem State.dropCommands_tears (s : State) (uid : Option Nat) : s.Tears q c (s.dropCommands c none uid) := by
  unfold State.dropCommands
  refine State.Tears.trans (t := if (s.disp.issued.filter fun i => i.ctx == c).isEmpty then s else s.setCtx c
    { s.ctx c with torn := (s.ctx c).torn ++ (s.disp.issued.filter fun i => i.ctx == c).flatMap fun i => i.entry.writes }) ?_
    (State.Quiet.tears (.foldl (fun t i => ?_) _ _))
  · split
    · exact .refl s
    · exact s.setCtx_tears _
  · exact (t.releaseGang_quiet _ _).trans ((State.cancelUid_quiet event _ _).trans (State.delCmd_quiet _ _))

theorem State.teardown_tears (s : State) (toFree : Bool) (uid : Option Nat) : s.Tears q c (s.teardown c toFree none uid) :=
  (((s.dropCommands_tears event uid).trans ((((((State.meetTables_quiet event _ _ _).trans (State.addWipes_quiet _ _)).trans
    (State.wipeCores_quiet _ _)).trans (State.abortPkgs_quiet _ _)).trans (State.abortMeasures_quiet _ _)).trans (State.cancelCtx_quiet _ _)).tears).trans
    (State.setCtx_tears _ _)).trans (State.dropIdle_quiet _).tears

theorem State.destroy_tears (s : State) : s.Tears q c (s.destroy c) := by
  unfold State.destroy
  dsimp only
  split
  · exact .refl s
  · exact s.setCtx_tears _
  · exact (s.setCtx_tears _).trans (State.teardown_tears event _ _ _)

end Tears

theorem State.teardown_life (s : State) (c : Nat) (toFree : Bool) (st : Option (BitVec 16)) (uid : Option Nat) :
    ((s.teardown c toFree st uid).ctx c).life = .teardown := by
  simp only [State.teardown, (State.dropIdle_quiet (q := 0) _).ctx, State.ctx_setCtx_same]

/-- DESTROY leaves its context gone or on its way. -/
theorem State.destroy_torn (s : State) (c : Nat) : (s.destroy c).Torn c := by
  unfold State.destroy
  dsimp only
  split
  · next gone => exact .inl gone
  · next going => exact .inr ((congrArg Ctx.life (State.ctx_setCtx_same ..)).trans going)
  · exact .inr (State.teardown_life ..)

theorem State.Torn.destroy {s : State} {c : Nat} (h : s.Torn c) (k : Nat) : (s.destroy k).Torn c := by
  by_cases e : c = k
  · exact e ▸ s.destroy_torn c
  · rw [State.Torn, (State.destroy_tears (q := 0) (by decide) s).others c e]
    exact h

/-! ### The partition reset (R266) -/

section Contexts

variable {n q : Nat} (event : q ≠ qidFault)

/-- The contexts of a partition. -/
def State.contextsOf (s : State) (n : Nat) : List Nat := (s.disp.ctxs.filter fun e => e.2.part.toNat == n).map Prod.fst

theorem exists_of_sget_ne {α : Type} {d : α} {m : Sparse α} {k : Nat} (h : sget d m k ≠ d) : (k, sget d m k) ∈ m := by
  induction m with
  | nil => exact absurd (sget_nil (d := d) k) h
  | cons e r ih =>
    obtain ⟨a, v⟩ := e
    by_cases same : a = k
    · simp [sget, same]
    · simp only [sget, same, if_false] at h ⊢
      exact List.mem_cons_of_mem _ (ih h)

theorem State.mem_contextsOf {s : State} {c : Nat} (mine : (s.ctx c).part.toNat = n) (lt : n < 16) : c ∈ s.contextsOf n := by
  have known : s.ctx c ≠ Ctx.reset := fun h => by simp [h, Ctx.reset] at mine; omega
  exact List.mem_map.mpr ⟨(c, s.ctx c), List.mem_filter.mpr ⟨exists_of_sget_ne known, by simpa using mine⟩, rfl⟩

theorem State.Torn.foldl_destroy {s : State} {c : Nat} (h : s.Torn c) (l : List Nat) : (l.foldl State.destroy s).Torn c := by
  induction l generalizing s with
  | nil => exact h
  | cons k r ih => exact ih (h.destroy k)

theorem State.foldl_destroy_torn {c : Nat} {l : List Nat} (h : c ∈ l) (s : State) : (l.foldl State.destroy s).Torn c := by
  induction l generalizing s with
  | nil => cases h
  | cons k r ih =>
    rcases List.mem_cons.mp h with rfl | h
    · exact (s.destroy_torn c).foldl_destroy r
    · exact ih h _

/-- What the slabs of a partition and its event queue keep while its contexts are destroyed. -/
structure State.Kept (q : Nat) (s t : State) : Prop where
  failed : t.mem.failed = s.mem.failed
  life   : ∀ k, (t.slab k).life = (s.slab k).life
  owner  : ∀ k, (t.slab k).owner = (s.slab k).owner
  clear  : (s.mqueue q).Clear → (t.mqueue q).Clear

theorem State.Kept.refl (s : State) : s.Kept q s := ⟨rfl, fun _ => rfl, fun _ => rfl, id⟩

theorem State.Kept.trans {s t u : State} (h : s.Kept q t) (k : t.Kept q u) : s.Kept q u :=
  ⟨k.failed.trans h.failed, fun i => (k.life i).trans (h.life i), fun i => (k.owner i).trans (h.owner i), k.clear ∘ h.clear⟩

theorem State.Kept.foldl {α : Type} {f : State → α → State} (h : ∀ t a, State.Kept q t (f t a)) (l : List α) (s : State) : s.Kept q (l.foldl f s) := by
  induction l generalizing s with
  | nil => exact .refl s
  | cons a r ih => exact (h s a).trans (ih _)

theorem State.Tears.kept {c : Nat} {s t : State} (h : s.Tears q c t) : s.Kept q t := ⟨h.failed, h.life, h.owner, h.clear⟩

theorem State.Quiet.kept {s t : State} (h : s.Quiet q t) : s.Kept q t := ⟨h.failed, h.life, h.owner, h.clear⟩

theorem State.Kept.slabLife {s t : State} (h : s.Kept q t) (k : Nat) : t.slabLife k = s.slabLife k := by
  simp only [State.slabLife, State.slabGroup, h.failed, h.life k] <;> rfl

/-- The measurements of the destroyed contexts go, and their seals. -/
def State.dropSeals (s : State) (cs : List Nat) : State := cs.foldl (fun s c => (s.abortMeasures c).setCtx c { s.ctx c with seals := [] }) s

theorem State.dropSeals_kept (s : State) (cs : List Nat) : s.Kept q (s.dropSeals cs) :=
  .foldl (fun t c => ((State.abortMeasures_quiet t c).tears.trans (State.setCtx_tears (c := c) _ _)).kept) cs s

theorem State.Torn.dropSeals {s : State} {c : Nat} (h : s.Torn c) (cs : List Nat) : (s.dropSeals cs).Torn c := by
  induction cs generalizing s with
  | nil => exact h
  | cons k r ih =>
    refine ih (?_ : ((s.abortMeasures k).setCtx k { s.ctx k with seals := [] }).Torn c)
    unfold State.Torn at h ⊢
    by_cases e : c = k
    · subst e
      simpa using h
    · rw [State.ctx_setCtx, if_neg e, (State.abortMeasures_quiet (q := 0) s k).ctx]
      exact h

end Contexts

/-! #### The stages of the reset -/

section Reset

variable (s : State) (n : Nat)

/-- The partition without its contexts, its peals and the packets of its event queue. -/
def State.emptied : State := ((((s.contextsOf n).foldl State.destroy s).dropSeals (s.contextsOf n)).cancelPart n).flushQueue n

/-- Its semaphores, backlog and log go. -/
def State.clearTables : State :=
  let p := s.part n
  let s := s.setPart n { p with sems := [], backlogCount := 0, resetState := 1 }
  { s with sec := { s.sec with logs := sset [] s.sec.logs n [], loghash := sset zeros64 s.sec.loghash n zeros64 } }

/-- Its packages go as well. -/
def State.cleared : State := (s.clearTables n).abortPkgs fun j => j.part == n

/-- The slabs that a partition owns. -/
def State.ownedBy : List Nat := (s.mem.slabs.filter fun e => s.slabLife e.1 == .assigned && e.2.owner.toNat == n).map Prod.fst

/-- The partition's slabs await their wipe, and its cores theirs. -/
def State.markWiped : State :=
  let owned := s.ownedBy n
  let jobs : List WipeJob := owned.map fun k => { base := k * 2 ^ 25, len := 2 ^ 25, why := .reset n, running := false }
  let s := owned.foldl (fun s k => s.setSlab k { s.slab k with wipe := true }) s
  let s := { s with mem := { s.mem with wipes := s.mem.wipes ++ jobs } }
  s.wipeCores ((s.mappedCores n 0).map Prod.snd)

theorem State.resetPart_eq : s.resetPart n = (((s.emptied n).cleared n).markWiped n).finishPartReset n := by
  unfold State.resetPart State.markWiped State.cleared State.clearTables State.emptied State.dropSeals State.ownedBy State.contextsOf
  with_reducible rfl

end Reset

theorem State.abortPkgs_frame (s : State) (p : PkgJob → Bool) : (s.abortPkgs p).disp = s.disp ∧ (s.abortPkgs p).mem = s.mem ∧
    (s.abortPkgs p).mq = s.mq ∧ (s.abortPkgs p).sec.logs = s.sec.logs ∧ (s.abortPkgs p).sec.loghash = s.sec.loghash := by
  unfold State.abortPkgs
  split <;> exact ⟨rfl, rfl, rfl, rfl, rfl⟩

theorem State.wipeCores_eq (l : List Nat) (s : State) : s.wipeCores l = { s with cores := (s.wipeCores l).cores } := by
  unfold State.wipeCores
  induction l generalizing s with
  | nil => rfl
  | cons p r ih => exact ih _

/-- WIPE is set for the slabs of a list. -/
def State.markSlabs (s : State) (l : List Nat) : State := l.foldl (fun s k => s.setSlab k { s.slab k with wipe := true }) s

theorem State.markSlabs_eq (l : List Nat) (s : State) : s.markSlabs l = { s with mem := { s.mem with slabs := (s.markSlabs l).mem.slabs } } := by
  unfold State.markSlabs
  induction l generalizing s with
  | nil => rfl
  | cons k r ih => exact ih _

theorem State.markSlabs_wipe (l : List Nat) (s : State) (k : Nat) (h : k ∈ l ∨ (s.slab k).wipe = true) : ((s.markSlabs l).slab k).wipe = true := by
  unfold State.markSlabs
  induction l generalizing s with
  | nil => simpa using h
  | cons j r ih =>
    refine ih _ ?_
    rw [State.slab_setSlab]
    by_cases same : k = j
    · exact .inr (by simp [same])
    · simpa [same] using h

section Stages

variable {s : State} {n : Nat} (lt : n < 16)

theorem State.emptied_torn {c : Nat} (mine : (s.ctx c).part.toNat = n) (lt : n < 16) : (s.emptied n).Torn c := by
  have torn := (State.foldl_destroy_torn (State.mem_contextsOf mine lt) s).dropSeals (s.contextsOf n)
  have event : n ≠ qidFault := by unfold qidFault; omega
  unfold State.emptied State.Torn
  rw [State.ctx, (State.flushQueue_queueStep _ _).disp]
  rw [show ∀ t : State, sget Ctx.reset t.disp.ctxs c = t.ctx c from fun _ => rfl, (State.cancelPart_quiet event _ n).ctx c]
  exact torn

theorem State.before_flush_kept (lt : n < 16) :
    s.Kept n (((((s.contextsOf n).foldl State.destroy s).dropSeals (s.contextsOf n)).cancelPart n)) := by
  have event : n ≠ qidFault := by unfold qidFault; omega
  exact ((State.Kept.foldl (fun t c => (t.destroy_tears (c := c) event).kept) _ s).trans (State.dropSeals_kept _ _)).trans
    (State.cancelPart_quiet event _ n).kept

theorem State.emptied_slab (lt : n < 16) (k : Nat) : (s.emptied n).slabLife k = s.slabLife k ∧ ((s.emptied n).slab k).owner = (s.slab k).owner := by
  have kept := State.before_flush_kept (s := s) lt
  have mem : (s.emptied n).mem = _ := (State.flushQueue_queueStep _ n).mem
  exact ⟨by rw [← kept.slabLife k]; simp only [State.slabLife, State.slabGroup, State.slab, mem] <;> rfl, by rw [← kept.owner k]; simp only [State.slab, mem]⟩

theorem State.emptied_pkts (lt : n < 16) (h : (s.mqueue n).Clear) : ((s.emptied n).mqueue n).pkts = [] :=
  State.flushQueue_pkts ((State.before_flush_kept lt).clear h)

/-- What the reset of a partition writes in the tables (R266). -/
structure State.ResetTables (n : Nat) (t : State) : Prop where
  sems    : (t.part n).sems = []
  backlog : (t.part n).backlogCount = 0
  log     : t.mlog n = []
  hash    : t.logHash n = zeros64

theorem State.cleared_tables (s : State) (n : Nat) : (s.cleared n).ResetTables n ∧ ((s.cleared n).part n).resetState = 1 := by
  obtain ⟨disp, -, -, logs, hash⟩ := (s.clearTables n).abortPkgs_frame fun j => j.part == n
  have part : (s.cleared n).part n = { s.part n with sems := [], backlogCount := 0, resetState := 1 } := by
    rw [State.cleared, State.part, disp]
    exact s.part_setPart_same n _
  refine ⟨⟨by rw [part], by rw [part], ?_, ?_⟩, by rw [part]⟩
  · rw [State.cleared, State.mlog, logs]
    exact sget_sset_same _ s.sec.logs n []
  · rw [State.cleared, State.logHash, hash]
    exact sget_sset_same _ s.sec.loghash n zeros64

theorem State.cleared_frame (s : State) (n : Nat) : (s.cleared n).disp.ctxs = s.disp.ctxs ∧ (s.cleared n).mem = s.mem ∧ (s.cleared n).mq = s.mq := by
  obtain ⟨disp, mem, mq, -, -⟩ := (s.clearTables n).abortPkgs_frame fun j => j.part == n
  exact ⟨(congrArg Disp.ctxs disp : _ = (s.clearTables n).disp.ctxs), mem, mq⟩

theorem State.markWiped_frame (s : State) (n : Nat) : (s.markWiped n).disp = s.disp ∧ (s.markWiped n).sec = s.sec ∧ (s.markWiped n).mq = s.mq ∧
    (s.markWiped n).mem.slabs = (s.markSlabs (s.ownedBy n)).mem.slabs := by
  unfold State.markWiped
  rw [State.wipeCores_eq]
  have marked := State.markSlabs_eq (s.ownedBy n) s
  unfold State.markSlabs at marked ⊢
  dsimp only
  rw [marked]
  exact ⟨rfl, rfl, rfl, rfl⟩

theorem State.mem_ownedBy {k : Nat} (life : s.slabLife k = .assigned) (owner : (s.slab k).owner.toNat = n) : k ∈ s.ownedBy n := by
  have known : s.slab k ≠ SlabEntry.reset := fun h => by
    unfold State.slabLife at life
    rw [h] at life
    split at life <;> cases life
  exact List.mem_map.mpr ⟨(k, s.slab k), List.mem_filter.mpr ⟨exists_of_sget_ne known, by simp [life, owner]⟩, rfl⟩

theorem State.flushTraces_frame (s : State) : s.QueueStep s.flushTraces ∧ ∀ q < 16, s.flushTraces.mqueue q = s.mqueue q := by
  unfold State.flushTraces
  generalize List.range 5 = l
  induction l generalizing s with
  | nil => exact ⟨.refl s, fun _ _ => rfl⟩
  | cons i r ih =>
    obtain ⟨step, same⟩ := ih ((s.setQueue (16 + i) _).flushQueue (16 + i))
    refine ⟨((State.setQueue_queueStep _ _ _).trans (State.flushQueue_queueStep _ _)).trans step, fun q lt => (same q lt).trans ?_⟩
    rw [State.mqueue_flushQueue_ne (by omega) (by unfold qidFault; omega), State.mqueue_setQueue_ne (by omega)]

/-- What the end of a reset leaves: contexts and partitions, slabs, the tables of the partitions and the event queues. -/
structure State.Settled (s t : State) : Prop where
  disp   : t.disp = s.disp
  slabs  : t.mem.slabs = s.mem.slabs
  queues : ∀ q < 16, t.mqueue q = s.mqueue q
  logs   : t.sec.logs = s.sec.logs
  hash   : t.sec.loghash = s.sec.loghash

theorem State.Settled.trans {s t u : State} (h : s.Settled t) (k : t.Settled u) : s.Settled u :=
  ⟨k.disp.trans h.disp, k.slabs.trans h.slabs, fun q lt => (k.queues q lt).trans (h.queues q lt), k.logs.trans h.logs, k.hash.trans h.hash⟩

theorem State.endDebug_settled (s : State) (b : Bool) : s.Settled (if b then { s with sec := { s.sec with debugEn := false } } else s) := by
  split <;> exact ⟨rfl, rfl, fun _ _ => rfl, rfl, rfl⟩

theorem State.endTraces_settled (s : State) (b : Bool) : s.Settled (if b then s.flushTraces else s) := by
  split
  · obtain ⟨step, same⟩ := s.flushTraces_frame
    exact ⟨step.disp, by rw [step.mem], same, by rw [step.sec], by rw [step.sec]⟩
  · exact ⟨rfl, rfl, fun _ _ => rfl, rfl, rfl⟩

/-- The end of a reset marks the partition as done, where nothing of it is under way, and leaves its contexts, slabs, tables and queues. -/
theorem State.finishPartReset_frame (s : State) (n : Nat) : (s.finishPartReset n).disp.ctxs = s.disp.ctxs ∧
    (s.finishPartReset n).mem.slabs = s.mem.slabs ∧ (∀ q < 16, (s.finishPartReset n).mqueue q = s.mqueue q) ∧
    (s.ResetTables n → (s.finishPartReset n).ResetTables n) ∧
    ((s.part n).resetState = 1 → ((s.finishPartReset n).part n).resetState = 1 ∨ ((s.finishPartReset n).part n).resetState = 2) := by
  unfold State.finishPartReset
  dsimp only
  split
  · have settled := (s.endDebug_settled ((s.part n).confNext.getD (s.part n).conf && !(s.part n).conf)).trans (State.endTraces_settled _
      ((s.part n).confNext.getD (s.part n).conf && !(if (s.part n).confNext.getD (s.part n).conf && !(s.part n).conf then
        { s with sec := { s.sec with debugEn := false } } else s).anyConfidential))
    generalize (if (s.part n).confNext.getD (s.part n).conf && !(if (s.part n).confNext.getD (s.part n).conf && !(s.part n).conf then
        { s with sec := { s.sec with debugEn := false } } else s).anyConfidential then _ else _ : State) = u at settled ⊢
    have ended := u.part_setPart_same n { s.part n with resetState := 2, conf := (s.part n).confNext.getD (s.part n).conf, confNext := none }
    refine ⟨(congrArg Disp.ctxs settled.disp : u.disp.ctxs = _), settled.slabs, settled.queues, fun h => ?_, fun _ => .inr ?_⟩
    · exact ⟨(congrArg Part.sems ended).trans h.sems, (congrArg Part.backlogCount ended).trans h.backlog,
        (congrArg (sget [] · n) settled.logs : _ = s.mlog n).trans h.log, (congrArg (sget zeros64 · n) settled.hash : _ = s.logHash n).trans h.hash⟩
    · exact congrArg Part.resetState ended
  · exact ⟨rfl, rfl, fun _ _ => rfl, id, .inl⟩

end Stages

/-- What a partition reset leaves (R266), by its stages. -/
theorem State.resetPart_tables (s : State) (n : Nat) : (s.resetPart n).ResetTables n ∧
    (((s.resetPart n).part n).resetState = 1 ∨ ((s.resetPart n).part n).resetState = 2) := by
  obtain ⟨tables, running⟩ := (s.emptied n).cleared_tables n
  obtain ⟨disp, sec, -, -⟩ := ((s.emptied n).cleared n).markWiped_frame n
  obtain ⟨-, -, -, kept, ended⟩ := (((s.emptied n).cleared n).markWiped n).finishPartReset_frame n
  have part : (((s.emptied n).cleared n).markWiped n).part n = ((s.emptied n).cleared n).part n := by simp only [State.part, disp]
  rw [State.resetPart_eq]
  refine ⟨kept ⟨part ▸ tables.sems, part ▸ tables.backlog, ?_, ?_⟩, ended (part ▸ running)⟩
  · exact (congrArg (fun x : Sec => sget [] x.logs n) sec).trans tables.log
  · exact (congrArg (fun x : Sec => sget zeros64 x.loghash n) sec).trans tables.hash

section Result

variable {s : State} {n : Nat} (lt : n < 16)
include lt

theorem State.resetPart_pkts (h : (s.mqueue n).Clear) : ((s.resetPart n).mqueue n).pkts = [] := by
  obtain ⟨-, -, mq, -⟩ := ((s.emptied n).cleared n).markWiped_frame n
  obtain ⟨-, -, queues, -, -⟩ := (((s.emptied n).cleared n).markWiped n).finishPartReset_frame n
  obtain ⟨-, -, clear⟩ := (s.emptied n).cleared_frame n
  rw [State.resetPart_eq, queues n lt, State.mqueue, mq, clear]
  exact State.emptied_pkts lt h

theorem State.resetPart_torn {c : Nat} (mine : (s.ctx c).part.toNat = n) : (s.resetPart n).Torn c := by
  obtain ⟨disp, -, -, -⟩ := ((s.emptied n).cleared n).markWiped_frame n
  obtain ⟨ctxs, -, -, -, -⟩ := (((s.emptied n).cleared n).markWiped n).finishPartReset_frame n
  obtain ⟨cleared, -, -⟩ := (s.emptied n).cleared_frame n
  rw [State.resetPart_eq, State.Torn, State.ctx, ctxs, disp, cleared]
  exact State.emptied_torn mine lt

theorem State.resetPart_wipe {k : Nat} (life : s.slabLife k = .assigned) (owner : (s.slab k).owner.toNat = n) :
    ((s.resetPart n).slab k).wipe = true := by
  obtain ⟨-, -, -, marked⟩ := ((s.emptied n).cleared n).markWiped_frame n
  obtain ⟨-, slabs, -, -, -⟩ := (((s.emptied n).cleared n).markWiped n).finishPartReset_frame n
  obtain ⟨-, mem, -⟩ := (s.emptied n).cleared_frame n
  obtain ⟨sameLife, sameOwner⟩ := State.emptied_slab (s := s) lt k
  have mine : k ∈ ((s.emptied n).cleared n).ownedBy n := by
    refine State.mem_ownedBy ?_ ?_
    · simp only [State.slabLife, State.slabGroup, State.slab, mem]
      exact sameLife.trans life
    · simp only [State.slab, mem]
      exact (congrArg BitVec.toNat sameOwner).trans owner
  rw [State.resetPart_eq, State.slab, slabs, marked]
  exact State.markSlabs_wipe _ _ k (.inl mine)

end Result

/-! ### The end of a teardown (R260, R261) -/

theorem State.payOwed_of_paid {s : State} {c : Nat} (h : (s.ctx c).owed = []) : s.payOwed c = s := by simp [State.payOwed, h]

section TeardownEnd

variable {s : State} {c : Fin 4096}

theorem execContextTeardown_of_fault {f : CtxFault} (fault : (s.ctx c).pending = some f)
    (live : (s.ctx c).life = .active ∨ (s.ctx c).life = .stopping ∨ (s.ctx c).life = .stopped) :
    execContextTeardown c s = .next (((s.dropCommands c (some f.status) f.uid).fetchRecord c f).teardown c false none none) := by
  rcases live with live | live | live <;> simp [execContextTeardown, fault, live]

variable (life : (s.ctx c).life = .teardown) (wipes : ∀ j ∈ s.mem.wipes, j.why ≠ .teardown c) (cores : ∀ p ∈ (s.ctx c).used, (s.core p).wipeDue = false)
  (paid : (s.ctx c).owed = [])
include life wipes cores paid

theorem execTeardownEnd_ready : (s.ctx c).life = .teardown ∧ s.payOwed c = s ∧ s.teardownWaits c = false := by
  refine ⟨life, State.payOwed_of_paid paid, ?_⟩
  simp only [State.teardownWaits, paid, List.isEmpty_nil, Bool.not_true, Bool.or_false, Bool.or_eq_false_iff, List.any_eq_false]
  exact ⟨fun j h => by simpa using wipes j h, fun p h => by simp [cores p h]⟩

theorem execTeardownEnd_of_fault {f : CtxFault} (toFree : (s.ctx c).toFree = false) (fault : (s.ctx c).pending = some f) :
    execTeardownEnd c s = .next ((s.setCtx c { s.ctx c with life := .faulted, fault := f.status, pending := none, used := [], torn := [] }).statusEvent
      (s.ctx c).part.toNat 5 f.status (some (s.ctx c).part.toNat) (some (c.val, f.queue)) (f.idx + b2n f.atFetch * 2 ^ 16)).runMeasures := by
  obtain ⟨-, same, open_⟩ := execTeardownEnd_ready life wipes cores paid
  simp [execTeardownEnd, life, same, open_, toFree, fault]

theorem execTeardownEnd_of_free (toFree : (s.ctx c).toFree = true) :
    execTeardownEnd c s = .next ((s.setCtx c { s.ctx c with
      life := .free, toFree := true, record := Ctx.recordReset, ptbase := 0, queues := [], pending := none, seals := [], used := [],
      torn := [] }).finishPartReset (s.ctx c).part.toNat).serveHeld.runMeasures := by
  obtain ⟨-, same, open_⟩ := execTeardownEnd_ready life wipes cores paid
  simp [execTeardownEnd, life, same, open_, toFree]

end TeardownEnd

end Sys2Proof.Machine

namespace Sys2Proof.Claims

open Sys2Proof.Machine

/-- Settles O19: the ends of a teardown by their conditions, and the partition reset by its stages, which leave a clear queue clear until it is
flushed. -/
theorem teardownsAndResetsClear : Obligations.TeardownsAndResetsClear := by
  refine ⟨fun s c => ⟨fun f => execContextTeardown_of_fault, fun _ => ?_⟩, fun s pr n goes idle => ⟨?_, ?_⟩⟩
  · exact fun life wipes cores paid => ⟨fun f toFree fault => execTeardownEnd_of_fault life wipes cores paid toFree fault,
      fun toFree => execTeardownEnd_of_free life wipes cores paid toFree⟩
  · exact answers_of_open goes ((if_neg (by decide)).trans (if_neg fun h => h.elim (by decide) idle))
  · obtain ⟨tables, state⟩ := s.resetPart_tables n
    exact ⟨tables.sems, tables.backlog, state, tables.log, tables.hash,
      fun writing reading waiting sound => State.resetPart_pkts n.isLt ⟨writing, reading, waiting, sound⟩,
      fun c mine => State.resetPart_torn n.isLt mine, fun k life owner => State.resetPart_wipe n.isLt life owner⟩

end Sys2Proof.Claims
end

section
/-! PROOFS. Prompts, tolls and watchdogs (R99, R100, R364, R371). -/

namespace Sys2Proof.Machine

open Sys2Proof.Claims

/-! ### A core's toll (R99, R101) -/

section Toll

variable {s : State} {p : Fin 68}

theorem execTollPrompt_of_busy (run : (s.core p).run.isSome = true) (life : (s.core p).life = .opened)
    (due : (s.core p).toll.promptAt < s.now / 64000) : execTollPrompt p s =
    .next (s.setCore p { s.core p with toll := { (s.core p).toll with prompted := true, promptAt := s.now / 64000 } }) :=
  (if_pos due).trans (if_pos (by simp [run, life]))

theorem execToll_of_busy (run : (s.core p).run.isSome = true) (life : (s.core p).life = .opened) (asked : (s.core p).toll.prompted = true)
    (going : (s.core p).seq.halted = false) : execToll p s =
    .next ((s.post (24 + p.val / 17) [tollWord p (s.core p)] (unitToll p)).setCore p
      { s.core p with toll := { (s.core p).toll with prompted := false, steps := 0, waitSteps := 0 } }) :=
  if_pos (by simp [run, life, asked, going])

theorem execToll_of_choked (life : (s.core p).life = .choked) (asked : (s.core p).toll.prompted = true) : execToll p s =
    .next ((s.setCore p { s.core p with toll := { (s.core p).toll with prompted := false } }).dropAtPort p 1) :=
  (if_neg (by simp [life])).trans (if_pos (by simp [life, asked]))

end Toll

/-! ### The hub's checker (R100, R371) -/

/-- The read of a sound packet of one word, whose pointers' copies agree, brings that word. -/
theorem Packet.take_one {k : Packet} {x : Slot} (words : k.words = [x]) (whole : x.torn = false) (len : ∀ y, k.len = some y → y.bad = false ∧ y.torn = false)
    (qid : Nat) : (k.take qid 1 false none []).words = [(x.data, x.bad)] ∧ (k.take qid 1 false none []).reset = false := by
  have sound : (k.len.any fun x => x.bad || x.torn) = false := by
    cases h : k.len with
    | none => rfl
    | some y => simp [len y h]
  simp [Packet.take, sound, ptrBad, words, takeSlots, whole]

theorem State.takeFrom_one {s : State} {qid : Nat} {k : Packet} {r : List Packet} {x : Slot} (pkts : (s.mqueue qid).pkts = k :: r)
    (flush : (s.mqueue qid).flush = false) (reading : (s.mqueue qid).reading = none) (sound : (s.mqueue qid).mismatch = false) (words : k.words = [x])
    (whole : x.torn = false) (len : ∀ y, k.len = some y → y.bad = false ∧ y.torn = false) :
    s.takeFrom qid 1 false [] = some (k.take qid 1 false none [], (s.setQueue qid ((s.mqueue qid).taken qid 1 k)).settleQueue qid) := by
  obtain ⟨one, kept⟩ := Packet.take_one words whole len qid
  simp [State.takeFrom, MsgQueue.mayRead, pkts, flush, reading, sound, Packet.strike, kept, one]

theorem State.checkToll_of_packet {s : State} {q : Nat} {k : Packet} {r : List Packet} {x : Slot} (pkts : (s.mqueue (24 + q)).pkts = k :: r)
    (flush : (s.mqueue (24 + q)).flush = false) (reading : (s.mqueue (24 + q)).reading = none) (sound : (s.mqueue (24 + q)).mismatch = false)
    (words : k.words = [x]) (whole : x.torn = false) (len : ∀ y, k.len = some y → y.bad = false ∧ y.torn = false) :
    s.checkToll q [] = ((s.setQueue (24 + q) ((s.mqueue (24 + q)).taken (24 + q) 1 k)).settleQueue (24 + q)).countToll x.data k.time x.bad := by
  simp only [State.checkToll, State.takeFrom_one pkts flush reading sound words whole len, (Packet.take_one words whole len (24 + q)).1, pkts,
    List.head?_cons, Option.map_some, Option.getD_some]

theorem State.checkToll_of_empty {s : State} {q : Nat} (pkts : (s.mqueue (24 + q)).pkts = []) (u : List MqUpset) : s.checkToll q u = s := by
  have none : s.takeFrom (24 + q) 1 false u = none := by
    unfold State.takeFrom
    simp only [pkts]
    split <;> rfl
  simp only [State.checkToll, none]

section Count

variable (s : State) (w : W64) (time : Nat) (bad : Bool)

theorem State.countToll_of_no_core (h : 68 ≤ fld w 6 0) : s.countToll w time bad = s := if_pos h

variable (h : fld w 6 0 < 68)
include h

theorem State.countToll_of_stale (stale : (s.core (fld w 6 0)).epoch.toNat ≠ fld w 31 24 ∨ (s.core (fld w 6 0)).life ≠ .opened) :
    s.countToll w time bad = s.dropAtPort (fld w 6 0) 1 :=
  (if_neg (Nat.not_le.mpr h)).trans (if_pos stale)

/-- A toll with the core's epoch counts for its interval; a sound one whose core runs a command hands over its slack. -/
theorem State.countToll_of_current (epoch : (s.core (fld w 6 0)).epoch.toNat = fld w 31 24) (life : (s.core (fld w 6 0)).life = .opened) :
    s.countToll w time bad =
      let t := (s.missTolls (fld w 6 0) (time / 64000)).modCore (fld w 6 0) fun c =>
        { c with toll := { c.toll with tollAt := max c.toll.tollAt (time / 64000) } }
      match t.cmdOf (fld w 6 0) with
      | none => t
      | some (i, _) => if t.peal.parts.getLsbD (t.ctx i.ctx).part.toNat && !bad then
          { t with
            car := { t.car with slackSum := t.car.slackSum + fld w 63 48, slackN := t.car.slackN + 1 }
            damper := { t.damper with slackSum := t.damper.slackSum + fld w 63 48, slackN := t.damper.slackN + 1 } }
        else t :=
  (if_neg (Nat.not_le.mpr h)).trans (if_neg (by simp [epoch, life]))

end Count

/-- Two silent intervals of a core that is open are found (R42, R100). -/
theorem State.missTolls_of_opened {s : State} {p : Nat} (life : (s.core p).life = .opened) (interval : Nat) : s.missTolls p interval =
    if (s.core p).run.isSome && (s.core p).fault.isNone && decide ((s.core p).toll.tollAt + 3 ≤ interval) then
      s.setCore p { s.core p with fault := some { cause := 6, time := s.now } } else s := by
  simp [State.missTolls, life]

end Sys2Proof.Machine

namespace Sys2Proof.Claims

open Sys2Proof.Machine

/-- The hub's checker takes a toll of one sound word as `State.countToll` says. -/
theorem tollsAnswerPrompts : TollsAnswerPrompts := by
  refine fun s p q => ⟨execTollPrompt_of_busy, execToll_of_busy, execToll_of_choked, ?_, fun empty u => congrArg Host.Outcome.next (State.checkToll_of_empty empty u)⟩
  intro k r x pkts flush reading sound words whole len
  have taken : exec (.tollCheck q []) s = .next _ := congrArg Host.Outcome.next (State.checkToll_of_packet pkts flush reading sound words whole len)
  intro s1 n d silent s1' d' s2 w
  refine ⟨fun far => taken.trans (congrArg Host.Outcome.next (State.countToll_of_no_core s1 x.data k.time x.bad far)),
    fun near stale => taken.trans (congrArg Host.Outcome.next (State.countToll_of_stale s1 x.data k.time x.bad near stale)),
    fun near epoch life => ?_⟩
  have missed : s1.missTolls n (k.time / 64000) = s1' := State.missTolls_of_opened life _
  have counted := taken.trans (congrArg Host.Outcome.next (State.countToll_of_current s1 x.data k.time x.bad near epoch life))
  have found : (s1.missTolls n (k.time / 64000)).modCore n (fun c => { c with toll := { c.toll with tollAt := max c.toll.tollAt (k.time / 64000) } }) = s2 := by
    rw [missed]
    rfl
  rw [show fld x.data 6 0 = n from rfl, found] at counted
  refine ⟨fun h => counted.trans (congrArg Host.Outcome.next ?_), fun good i slot cmd => counted.trans (congrArg Host.Outcome.next ?_)⟩
  · rcases h with bad | idle
    · dsimp only
      split
      · rfl
      · exact if_neg (by simp [bad])
    · simp only [idle]
  · simp only [cmd, good, Bool.not_false, Bool.and_true] <;> rfl

/-- Settles O20: each core's answer by its branch, and the checker by the one word that it reads. -/
theorem coresAreHeardOrFaulty : Obligations.CoresAreHeardOrFaulty := by
  refine ⟨tollsAnswerPrompts, fun s p since life calm => ⟨fun run => ⟨fun due => ?_, fun early => ?_⟩, fun due => ?_, fun early => ?_⟩⟩
  · exact congrArg Host.Outcome.next ((State.missTolls_of_opened life (s.now / 64000)).trans (if_pos (by simp [run, calm, due])))
  · exact congrArg Host.Outcome.next ((State.missTolls_of_opened life (s.now / 64000)).trans
      (if_neg (by simp only [decide_eq_false (Nat.not_le.mpr early), Bool.and_false]; decide)))
  · exact if_pos (by simp [life, calm, due])
  · exact if_neg (by simp only [decide_eq_false (Nat.not_le.mpr early), Bool.and_false]; decide)

end Sys2Proof.Claims
end

section
/-! PROOFS. A choke whose event finds the pointers of its partition's queue apart (R228, R366). -/

namespace Sys2Proof.Machine

/-- Core 0 stands in a slot of partition 0, whose event queue has write pointers that differ. -/
def tornQueue : State :=
  { State.reset with
    disp := { Disp.reset with parts := [(0, { Part.reset with cores := 1 })] }
    mq := { Mq.reset with queues := [(0, { MsgQueue.reset with wr0 := 1 })] } }

/-- The choke's record and the report of the queue's reset have both gone to the fault queue. -/
theorem tornQueue_choke_seq : ((tornQueue.choke 0 7 0 0).mqueue qidFault).seq = 2 := by decide +kernel

end Sys2Proof.Machine

namespace Sys2Proof.Claims

open Sys2Proof.Machine

/-- Refutes O21: the choke's event, the last packet that it posts, resets the event queue of the partition where the queue's write pointers differ.
The reset posts its own report to the fault queue behind the choke's record, which is then not the newest packet there. -/
theorem not_chokedCoresGiveTheirSlotUp : ¬ Obligations.ChokedCoresGiveTheirSlotUp := by
  rintro ⟨choked, -⟩
  obtain ⟨-, -, posted, -⟩ := choked tornQueue 0 7 0 .host 0
  obtain ⟨-, -, -, -, others⟩ := posted 7 0
  obtain ⟨fault, -⟩ := others (by decide)
  obtain ⟨-, seq⟩ := fault (by decide) (by decide)
  exact absurd (tornQueue_choke_seq.symm.trans seq) (by decide)

end Sys2Proof.Claims
end

section
/-! PROOFS. SLAB_OP (R205, R206): the reason of a refusal, and the entries that an operation changes. -/

namespace Sys2Proof.Machine

open Sys2Proof.Claims

/-! ### The reason of a refusal -/

/-- The reason for which slab k stops an operation, 0 if none (R206). -/
def slabFails (s : State) (reason : State → Nat → Nat) (k : Nat) : Nat := if 65536 ≤ k then 4 else reason s k

/-- The reason for which an operation is refused, 0 if none (R206). -/
def slabWhy (s : State) (v : W64) (reserved : Bool) (reason : State → Nat → Nat) : Nat :=
  if reserved then 5 else match (slabRangeOf v).find? fun k => slabFails s reason k != 0 with
    | some k => slabFails s reason k
    | none => 0

theorem slabFirst_lt (v : W64) : slabFirst v < 65536 := fld_lt v 15 0

theorem slabRangeOf_eq_cons (v : W64) : ∃ r, slabRangeOf v = slabFirst v :: r := by
  unfold slabRangeOf slabCount
  rw [List.range_succ_eq_map]
  exact ⟨_, rfl⟩

theorem mem_slabRangeOf {v : W64} {k : Nat} : k ∈ slabRangeOf v ↔ slabFirst v ≤ k ∧ k < slabFirst v + slabCount v := by
  simp only [slabRangeOf, List.mem_map, List.mem_range]
  exact ⟨fun ⟨i, lt, e⟩ => by omega, fun ⟨le, lt⟩ => ⟨k - slabFirst v, by omega, by omega⟩⟩

theorem slabRangeOf_nodup (v : W64) : (slabRangeOf v).Nodup := List.nodup_range.map fun _ _ h => Nat.add_left_cancel h

section Why

variable {s : State} {v : W64} {reason : State → Nat → Nat}

theorem slabWhy_of_first {r : Nat} (h : reason s (slabFirst v) = r) (fails : r ≠ 0) : slabWhy s v false reason = r := by
  obtain ⟨l, e⟩ := slabRangeOf_eq_cons v
  have first : slabFails s reason (slabFirst v) = r := (if_neg (Nat.not_le.mpr (slabFirst_lt v))).trans h
  simp [slabWhy, e, first, fails]

theorem slabWhy_of_ok (inside : slabFirst v + slabCount v ≤ 65536) (h : ∀ k ∈ slabRangeOf v, reason s k = 0) : slabWhy s v false reason = 0 := by
  have none : (slabRangeOf v).find? (fun k => slabFails s reason k != 0) = none := by
    refine List.find?_eq_none.mpr fun k mem => ?_
    have lt := (mem_slabRangeOf.mp mem).2
    simp [slabFails, Nat.not_le.mpr (show k < 65536 by omega), h k mem]
  simp [slabWhy, none]

/-- Where every slab of the device passes, the first one behind it does not exist. -/
theorem slabWhy_of_beyond (beyond : 65536 < slabFirst v + slabCount v) (h : ∀ k, slabFirst v ≤ k → k < 65536 → reason s k = 0) :
    slabWhy s v false reason = 4 := by
  have last : slabFails s reason 65536 = 4 := rfl
  have found : (slabRangeOf v).find? (fun k => slabFails s reason k != 0) ≠ none := fun e => by
    have fails := List.find?_eq_none.mp e 65536 (mem_slabRangeOf.mpr ⟨(slabFirst_lt v).le, beyond⟩)
    simp [last] at fails
  obtain ⟨k, e⟩ := Option.ne_none_iff_exists'.mp found
  have fails : slabFails s reason k ≠ 0 := by simpa using List.find?_some e
  have le : 65536 ≤ k := by
    by_contra lt
    have first := (mem_slabRangeOf.mp (List.mem_of_find?_eq_some e)).1
    exact fails ((if_neg lt).trans (h k first (by omega)))
  simp only [slabWhy, e, Bool.false_eq_true, if_false]
  exact if_pos le

end Why

/-! ### The operation -/

/-- The entries of the slabs in a list, each changed by an effect (R206). -/
def State.changeSlabs (s : State) (effect : SlabEntry → SlabEntry) (l : List Nat) : State :=
  l.foldl (fun s n => (s.setSlab n (effect (s.slab n))).noteRetired n) s

section SlabOp

variable {s : State} {pr : Principal} {v : W64} {reserved : Bool} {reason : State → Nat → Nat} {effect : SlabEntry → SlabEntry}
  (goes : Open s 0 (prHost pr) false)
include goes

theorem slabOp_of_busy {wipes : Bool} (busy : s.mem.opState = 1) :
    Host.Outcome.next (s.slabOp pr v reserved reason effect wipes) = answers pr s rBUSY := by
  unfold State.slabOp State.dictWrite
  exact answers_of_open goes (if_pos busy)

section Idle

variable (idle : s.mem.opState ≠ 1)
include idle

theorem slabOp_of_refused {wipes : Bool} {r : Nat} (why : slabWhy s v reserved reason = r) (fails : r ≠ 0) :
    Host.Outcome.next (s.slabOp pr v reserved reason effect wipes) = answers pr (s.setOpState (BitVec.ofNat 16 (r * 256 + 3))) rREFUSED := by
  subst why
  unfold State.slabOp State.dictWrite
  exact answers_of_open goes ((if_neg idle).trans (if_pos fails))

theorem slabOp_of_done (why : slabWhy s v reserved reason = 0) : Host.Outcome.next (s.slabOp pr v reserved reason effect false) =
    answers pr ((s.changeSlabs effect (slabRangeOf v)).setOpState 2) rOK := by
  unfold State.slabOp State.dictWrite
  exact answers_of_open goes ((if_neg idle).trans (if_neg (not_not.mpr why)))

/-- The state of an operation that wipes the slabs of a list, which has changed their entries (R206). -/
def State.beginWipes (t : State) (l : List Nat) : State :=
  { t with mem := { t.mem with wipes := t.mem.wipes ++ l.map fun n => { base := n * 2 ^ 25, len := 2 ^ 25, why := .release, running := false },
                               opState := 1, opSlabs := l } }

theorem slabOp_of_begun (why : slabWhy s v reserved reason = 0) : Host.Outcome.next (s.slabOp pr v reserved reason effect true) =
    answers pr ((s.changeSlabs effect (slabRangeOf v)).beginWipes (slabRangeOf v)) rOK := by
  unfold State.slabOp State.dictWrite
  exact answers_of_open goes ((if_neg idle).trans (if_neg (not_not.mpr why)))

end Idle

end SlabOp

theorem State.noteRetired_frame (s : State) (n : Nat) : (s.noteRetired n).mem.slabs = s.mem.slabs ∧ (s.noteRetired n).mem.bytes = s.mem.bytes ∧
    (s.noteRetired n).mem.poison = s.mem.poison ∧ (s.noteRetired n).mem.wipes = s.mem.wipes ∧ (s.noteRetired n).cores = s.cores ∧
    (s.noteRetired n).disp = s.disp := by
  unfold State.noteRetired
  split <;> exact ⟨rfl, rfl, rfl, rfl, rfl, rfl⟩

/-- A list without repetition changes each of its slabs once, and nothing else but the lists of retired slabs. -/
theorem State.changeSlabs_frame (effect : SlabEntry → SlabEntry) {l : List Nat} (once : l.Nodup) (s : State) :
    (∀ k ∈ l, (s.changeSlabs effect l).slab k = effect (s.slab k)) ∧ (∀ k, k ∉ l → (s.changeSlabs effect l).slab k = s.slab k) ∧
    (s.changeSlabs effect l).mem.bytes = s.mem.bytes ∧ (s.changeSlabs effect l).mem.poison = s.mem.poison ∧
    (s.changeSlabs effect l).mem.wipes = s.mem.wipes ∧ (s.changeSlabs effect l).cores = s.cores ∧ (s.changeSlabs effect l).disp = s.disp := by
  induction l generalizing s with
  | nil => exact ⟨fun k h => absurd h List.not_mem_nil, fun _ _ => rfl, rfl, rfl, rfl, rfl, rfl⟩
  | cons j r ih =>
    obtain ⟨fresh, once⟩ := List.nodup_cons.mp once
    obtain ⟨inside, outside, bytes, poison, wipes, cores, disp⟩ := ih once ((s.setSlab j (effect (s.slab j))).noteRetired j)
    obtain ⟨slabs', bytes', poison', wipes', cores', disp'⟩ := (s.setSlab j (effect (s.slab j))).noteRetired_frame j
    have slab : ∀ k, ((s.setSlab j (effect (s.slab j))).noteRetired j).slab k = if k = j then effect (s.slab j) else s.slab k := fun k => by
      rw [State.slab, slabs']
      exact s.slab_setSlab j k _
    refine ⟨fun k h => ?_, fun k h => ?_, bytes.trans bytes', poison.trans poison', wipes.trans wipes', cores.trans cores', disp.trans disp'⟩
    · rcases List.mem_cons.mp h with rfl | h
      · exact (outside k fresh).trans ((slab k).trans (if_pos rfl))
      · exact (inside k h).trans (congrArg effect ((slab k).trans (if_neg fun e : k = j => fresh (e ▸ h))))
    · obtain ⟨ne, h⟩ := not_or.mp (mt List.mem_cons.mpr h)
      exact (outside k h).trans ((slab k).trans (if_neg ne))

end Sys2Proof.Machine

namespace Sys2Proof.Claims

open Sys2Proof.Machine

theorem slabsChanged_done (s : State) (v : W64) (f : SlabEntry → SlabEntry) : SlabsChanged s ((s.changeSlabs f (slabRangeOf v)).setOpState 2) v f := by
  obtain ⟨inside, outside, bytes, poison, -, cores, disp⟩ := s.changeSlabs_frame f (slabRangeOf_nodup v)
  exact ⟨inside, outside, bytes, poison, cores, disp⟩

/-- The operations that are done at once, and RELEASE, by the reason 0. -/
theorem slabOperationsChangeTheirSlabs : SlabOperationsChangeTheirSlabs := by
  intro s pr v ⟨goes, idle⟩ inside n
  refine ⟨fun wbias free quota => ?_, fun assigned => ⟨?_, fun wbias => ?_⟩, fun free => ?_⟩
  · refine ⟨_, slabOp_of_done goes idle ?_, rfl, slabsChanged_done s v _⟩
    rw [beq_eq_false_iff_ne.mpr wbias]
    refine slabWhy_of_ok inside fun k mem => (if_neg ?_).trans (if_neg (Nat.not_lt.mpr quota))
    obtain ⟨life, tests⟩ := free k mem
    simpa [life] using tests
  · obtain ⟨changed, others, bytes, poison, wipes, cores, disp⟩ :=
      s.changeSlabs_frame (fun e => { e with wipe := true, life := if e.rp then .retired else .free }) (slabRangeOf_nodup v)
    refine ⟨_, slabOp_of_begun goes idle (slabWhy_of_ok inside fun k mem => if_neg (not_not.mpr (assigned k mem))), rfl, rfl,
      congrArg (· ++ _) wipes, changed, others, bytes, poison, cores, disp⟩
  · refine ⟨_, slabOp_of_done goes idle ?_, rfl, slabsChanged_done s v _⟩
    rw [beq_eq_false_iff_ne.mpr wbias]
    exact slabWhy_of_ok inside fun k mem => if_neg (not_not.mpr (assigned k mem))
  · refine ⟨_, slabOp_of_done goes idle (slabWhy_of_ok inside fun k mem => ?_), rfl, slabsChanged_done s v _⟩
    obtain ⟨life, wipe⟩ := free k mem
    exact (if_neg (not_not.mpr life)).trans (if_neg (by simp [wipe]))

/-- The refusals by the reason of the first slab that fails. -/
theorem slabOperationsRejectWithTheirReason : SlabOperationsRejectWithTheirReason := by
  intro s pr v goes first n tested
  refine ⟨fun busy c mem => ?_, fun idle => ?_⟩
  · simp only [List.mem_cons, List.not_mem_nil, or_false] at mem
    rcases mem with rfl | rfl | rfl | rfl <;> exact slabOp_of_busy goes busy
  have turned : ∀ {reserved : Bool} {reason : State → Nat → Nat} {effect : SlabEntry → SlabEntry} {wipes : Bool} {r : Nat},
      slabWhy s v reserved reason = r → r ≠ 0 → Host.Outcome.next (s.slabOp pr v reserved reason effect wipes) =
        answers pr (s.setOpState (BitVec.ofNat 16 (r * 256 + 3))) rREFUSED := slabOp_of_refused goes idle
  refine ⟨fun wbias => ?_, fun life => ?_, fun life => ?_, fun wbias life test quota => ?_, fun life wipe => ?_, fun beyond => ⟨fun assigned => ?_,
    fun free => ?_, fun free quota wbias => ?_⟩⟩
  · exact ⟨turned (if_pos (by simp [wbias])) (by decide), turned (if_pos (by simp [wbias])) (by decide)⟩
  · refine ⟨fun wbias => turned ?_ (by decide), turned (slabWhy_of_first (if_pos life) (by decide)) (by decide)⟩
    rw [beq_eq_false_iff_ne.mpr wbias]
    exact slabWhy_of_first (if_pos (.inl life)) (by decide)
  · refine ⟨turned (slabWhy_of_first (if_pos life) (by decide)) (by decide), fun wbias => turned ?_ (by decide)⟩
    rw [beq_eq_false_iff_ne.mpr wbias]
    exact slabWhy_of_first (if_pos life) (by decide)
  · refine turned ?_ (by decide)
    rw [beq_eq_false_iff_ne.mpr wbias]
    exact slabWhy_of_first ((if_neg (not_or.mpr ⟨not_not.mpr life, Bool.eq_false_iff.mp test⟩)).trans (if_pos quota)) (by decide)
  · exact turned (slabWhy_of_first ((if_neg (not_not.mpr life)).trans (if_pos wipe)) (by decide)) (by decide)
  · have why := slabWhy_of_beyond (s := s) (reason := fun s k => if s.slabLife k ≠ .assigned then 2 else 0) beyond fun k le lt =>
      if_neg (not_not.mpr (assigned k le lt))
    refine ⟨turned why (by decide), fun wbias => turned ?_ (by decide)⟩
    rw [beq_eq_false_iff_ne.mpr wbias]
    exact why
  · refine turned (slabWhy_of_beyond beyond fun k le lt => ?_) (by decide)
    obtain ⟨life, wipe⟩ := free k le lt
    exact (if_neg (not_not.mpr life)).trans (if_neg (by simp [wipe]))
  · refine turned ?_ (by decide)
    rw [beq_eq_false_iff_ne.mpr wbias]
    refine slabWhy_of_beyond beyond fun k le lt => ?_
    obtain ⟨life, test⟩ := free k le lt
    exact (if_neg (not_or.mpr ⟨not_not.mpr life, Bool.eq_false_iff.mp test⟩)).trans (if_neg (Nat.not_lt.mpr quota))

/-- Settles O23: the reason decides, and the slabs of a request are changed once each. -/
theorem slabOperationsMeetTheirConditions : Obligations.SlabOperationsMeetTheirConditions :=
  ⟨slabOperationsChangeTheirSlabs, slabOperationsRejectWithTheirReason⟩

end Sys2Proof.Claims
end

section
/-! PROOFS. Wipes (R216, R217), the patrol scrub and the counts of errors (R213 to R215). -/

namespace Sys2Proof.Machine

open Sys2Proof.Claims

/-! ### Wipes -/

section Wipe

variable (s : State) (j : WipeJob)

/-- The bytes of a wipe are zero, and its job is gone. -/
def State.zeroed : State :=
  { s with mem := { s.mem with
    wipes := delFirst (fun x => x == j) s.mem.wipes
    bytes := bzero s.mem.bytes j.base j.len
    poison := setDel s.mem.poison (j.base / 64) ((j.base + j.len) / 64)
    latent := s.mem.latent.filter fun h => !rangesMeet (h.word * 64, 64) (j.base, j.len) } }

/-- WIPE is cleared with the last wipe of the slab. -/
def State.unmarkedWipe : State :=
  let slab := j.base / 2 ^ 25
  if j.slabWide && !wipeLeft (delFirst (fun x => x == j) s.mem.wipes) slab then
    (s.zeroed j).setSlab slab { (s.zeroed j).slab slab with wipe := false } else s.zeroed j

theorem State.endWipe_eq : s.endWipe j = match j.why with
    | .release =>
      let left := s.mem.opSlabs.filter fun n => n != j.base / 2 ^ 25
      let t := { s.unmarkedWipe j with mem := { (s.unmarkedWipe j).mem with opSlabs := left } }
      if left.isEmpty && t.mem.opState = opBusy then t.setOpState opDone else t
    | _ => s.unmarkedWipe j := by
  have slabs : (s.unmarkedWipe j).mem.opSlabs = s.mem.opSlabs := by
    unfold State.unmarkedWipe
    dsimp only
    split <;> rfl
  rw [← slabs]
  rfl

/-- Behind its bytes and its slab, the end of a wipe changes the operation's state alone. -/
theorem State.endWipe_cases : ∃ slabs st, s.endWipe j =
    { s.unmarkedWipe j with mem := { (s.unmarkedWipe j).mem with opSlabs := slabs, opState := st } } := by
  rw [State.endWipe_eq]
  split
  · dsimp only
    split
    · exact ⟨_, _, rfl⟩
    · exact ⟨_, _, rfl⟩
  · exact ⟨_, _, rfl⟩

theorem State.unmarkedWipe_frame : (s.unmarkedWipe j).mem.bytes = bzero s.mem.bytes j.base j.len ∧
    (s.unmarkedWipe j).mem.poison = setDel s.mem.poison (j.base / 64) ((j.base + j.len) / 64) ∧
    (s.unmarkedWipe j).mem.wipes = delFirst (fun x => x == j) s.mem.wipes := by
  unfold State.unmarkedWipe
  dsimp only
  split <;> exact ⟨rfl, rfl, rfl⟩

theorem State.endWipe_frame : (s.endWipe j).mem.bytes = bzero s.mem.bytes j.base j.len ∧
    (s.endWipe j).mem.poison = setDel s.mem.poison (j.base / 64) ((j.base + j.len) / 64) ∧
    (s.endWipe j).mem.wipes = delFirst (fun x => x == j) s.mem.wipes ∧
    (j.slabWide = true → wipeLeft (delFirst (fun x => x == j) s.mem.wipes) (j.base / 2 ^ 25) = false →
      ((s.endWipe j).slab (j.base / 2 ^ 25)).wipe = false) := by
  obtain ⟨slabs, st, e⟩ := s.endWipe_cases j
  obtain ⟨bytes, poison, wipes⟩ := s.unmarkedWipe_frame j
  rw [e]
  refine ⟨bytes, poison, wipes, fun wide last => ?_⟩
  have off : (s.unmarkedWipe j).slab (j.base / 2 ^ 25) = { (s.zeroed j).slab (j.base / 2 ^ 25) with wipe := false } := by
    have h : (j.slabWide && !wipeLeft (delFirst (fun x => x == j) s.mem.wipes) (j.base / 2 ^ 25)) = true := by
      rw [wide, last]
      rfl
    exact (congrArg (State.slab · (j.base / 2 ^ 25)) (if_pos h)).trans (State.slab_setSlab_same _ _ _)
  exact congrArg SlabEntry.wipe off

end Wipe

/-! ### Sets and codes -/

theorem mem_setIns {k j : Nat} : ∀ {l : List Nat}, j ∈ setIns l k ↔ j = k ∨ j ∈ l
  | [] => by simp [setIns]
  | a :: r => by
    unfold setIns
    split
    · simp
    · split
      · next same => simp [same]
      · simp only [List.mem_cons, mem_setIns (l := r)]
        exact ⟨fun h => h.elim (.inr ∘ .inl) (Or.imp_right .inr), fun h => h.elim (.inr ∘ .inl) (Or.imp_right .inr)⟩

theorem sget_smod {α : Type} [DecidableEq α] (d : α) (m : Sparse α) (k j : Nat) (f : α → α) :
    sget d (smod d m k f) j = if j = k then f (sget d m j) else sget d m j := by
  by_cases h : j = k
  · rw [if_pos h, h, sget_smod_same]
  · rw [if_neg h, sget_smod_ne _ m f h]

/-! ### What an error counts (R214, R215) -/

section Stages

variable (s : State) (n : Nat)

/-- A slab whose counts reach the limits has its retirement pending; its counts stay. -/
theorem State.checkRetire_frame : s.checkRetire n = { s with mem := { s.mem with slabs := (s.checkRetire n).mem.slabs } } ∧
    ((s.checkRetire n).slab n).ce = (s.slab n).ce ∧ ((s.checkRetire n).slab n).ue = (s.slab n).ue ∧
    (∀ k, ((s.checkRetire n).slab k).life = (s.slab k).life ∧ ((s.checkRetire n).slab k).owner = (s.slab k).owner ∧
      ((s.checkRetire n).slab k).chx = (s.slab k).chx) ∧
    (s.mem.retireCeLimit ≤ (s.slab n).ce ∨ 2 ≤ (s.slab n).ue → ((s.checkRetire n).slab n).rp = true) := by
  by_cases h : s.mem.retireCeLimit ≤ (s.slab n).ce ∨ 2 ≤ (s.slab n).ue
  · rw [State.checkRetire, if_pos h]
    refine ⟨rfl, by rw [State.slab_setSlab_same], by rw [State.slab_setSlab_same], fun k => ?_, fun _ => by rw [State.slab_setSlab_same]⟩
    rw [State.slab_setSlab]
    split
    · next same => exact same ▸ ⟨rfl, rfl, rfl⟩
    · exact ⟨rfl, rfl, rfl⟩
  · rw [State.checkRetire, if_neg h]
    exact ⟨rfl, rfl, rfl, fun _ => ⟨rfl, rfl, rfl⟩, fun k => absurd k h⟩

/-- What a word's row and stack depend on. -/
theorem State.rowOf_congr {s t : State} (failed : t.mem.failed = s.mem.failed) (chx : ∀ k, (t.slab k).chx = (s.slab k).chx) (pa : Nat) :
    t.stackOf pa = s.stackOf pa ∧ t.rowOf pa = s.rowOf pa := by
  have stack : t.stackOf pa = s.stackOf pa := by
    unfold State.stackOf State.slabGroup
    rw [failed]
  refine ⟨stack, ?_⟩
  unfold State.rowOf State.place State.slabGroup
  simp only [failed, chx, stack]

end Stages

section Corrected

variable (s : State) (pa : Nat)

/-- The counts of a corrected error in its slab and stack (R215). -/
def State.countedCe : State :=
  let t := s.setSlab (pa / 2 ^ 25) { s.slab (pa / 2 ^ 25) with ce := satAdd 12 (s.slab (pa / 2 ^ 25)).ce 1 }
  { t with mem := { t.mem with stackCe := smod 0 t.mem.stackCe (t.stackOf pa) (satAdd 64 · 1) } }

/-- The counts of an uncorrectable error in its slab and stack, and the poison (R214, R215). -/
def State.countedUe : State :=
  let t := s.setSlab (pa / 2 ^ 25) { s.slab (pa / 2 ^ 25) with ue := satAdd 2 (s.slab (pa / 2 ^ 25)).ue 1 }
  { t with mem := { t.mem with poison := setIns t.mem.poison (pa / 64), stackUe := smod 0 t.mem.stackUe (t.stackOf pa) (satAdd 32 · 1) } }

theorem State.correctedError_eq (scrub : Bool) : s.correctedError pa scrub =
    let t := (s.countedCe pa).checkRetire (pa / 2 ^ 25)
    let u := if scrub then { t with mem := { t.mem with ceRows := setIns t.mem.ceRows ((s.countedCe pa).rowOf pa) } } else t
    if s.mem.ceRows.contains ((s.countedCe pa).rowOf pa) then u.addRetire ((s.countedCe pa).rowOf pa) else u := rfl

theorem State.uncorrectedError_eq : s.uncorrectedError pa =
    (((s.countedUe pa).checkRetire (pa / 2 ^ 25)).eccEvent pa).addRetire ((s.countedUe pa).rowOf pa) := rfl

theorem State.countedCe_row : (s.countedCe pa).rowOf pa = s.rowOf pa := by
  refine (State.rowOf_congr (s := s) (t := s.countedCe pa) rfl (fun k => ?_) pa).2
  rw [show (s.countedCe pa).slab k = (s.setSlab (pa / 2 ^ 25) _).slab k from rfl, State.slab_setSlab]
  split
  · next same => rw [same]
  · rfl

theorem State.countedUe_row : (s.countedUe pa).rowOf pa = s.rowOf pa := by
  refine (State.rowOf_congr (s := s) (t := s.countedUe pa) rfl (fun k => ?_) pa).2
  rw [show (s.countedUe pa).slab k = (s.setSlab (pa / 2 ^ 25) _).slab k from rfl, State.slab_setSlab]
  split
  · next same => rw [same]
  · rfl

/-- The slabs and the counts of stacks that a corrected error leaves, and the row that it retires where it has come before. -/
theorem State.correctedError_frame (scrub : Bool) : (s.correctedError pa scrub).mem.slabs = ((s.countedCe pa).checkRetire (pa / 2 ^ 25)).mem.slabs ∧
    (s.correctedError pa scrub).mem.stackCe = smod 0 s.mem.stackCe (s.stackOf pa) (satAdd 64 · 1) ∧
    (s.rowOf pa ∈ s.mem.ceRows → s.rowOf pa ∈ (s.correctedError pa scrub).mem.retireList) := by
  have stack : ((s.countedCe pa).checkRetire (pa / 2 ^ 25)).mem.stackCe = smod 0 s.mem.stackCe (s.stackOf pa) (satAdd 64 · 1) := by
    rw [((s.countedCe pa).checkRetire_frame (pa / 2 ^ 25)).1]
    rfl
  rw [State.correctedError_eq, State.countedCe_row]
  generalize (s.countedCe pa).checkRetire (pa / 2 ^ 25) = t at stack ⊢
  dsimp only
  have counted : ∀ u : State, u.mem.slabs = t.mem.slabs → u.mem.stackCe = t.mem.stackCe →
      (if s.mem.ceRows.contains (s.rowOf pa) then u.addRetire (s.rowOf pa) else u).mem.slabs = t.mem.slabs ∧
      (if s.mem.ceRows.contains (s.rowOf pa) then u.addRetire (s.rowOf pa) else u).mem.stackCe = smod 0 s.mem.stackCe (s.stackOf pa) (satAdd 64 · 1) ∧
      (s.rowOf pa ∈ s.mem.ceRows → s.rowOf pa ∈ (if s.mem.ceRows.contains (s.rowOf pa) then u.addRetire (s.rowOf pa) else u).mem.retireList) := by
    intro u slabs ce
    split
    · exact ⟨slabs, ce.trans stack, fun _ => mem_setIns.mpr (.inl rfl)⟩
    · next fresh => exact ⟨slabs, ce.trans stack, fun again => absurd (List.contains_iff_mem.mpr again) fresh⟩
  cases scrub with
  | false => exact counted t rfl rfl
  | true => exact counted _ rfl rfl

/-- The report of an uncorrectable error leaves the memory. -/
theorem State.uncorrectedError_mem : (s.uncorrectedError pa).mem = { ((s.countedUe pa).checkRetire (pa / 2 ^ 25)).mem with
    retireList := setIns ((s.countedUe pa).checkRetire (pa / 2 ^ 25)).mem.retireList (s.rowOf pa) } := by
  rw [State.uncorrectedError_eq, State.countedUe_row]
  have kept := State.eccEvent_mem ((s.countedUe pa).checkRetire (pa / 2 ^ 25)) pa
  generalize ((s.countedUe pa).checkRetire (pa / 2 ^ 25)).eccEvent pa = t at kept ⊢
  rw [State.addRetire, kept]

/-- The counts of a corrected error in its slab (R215). -/
theorem State.correctedError_slab (scrub : Bool) :
    ((s.correctedError pa scrub).slab (pa / 2 ^ 25)).ce = min 4095 ((s.slab (pa / 2 ^ 25)).ce + 1) ∧
    (s.mem.retireCeLimit ≤ min 4095 ((s.slab (pa / 2 ^ 25)).ce + 1) → ((s.correctedError pa scrub).slab (pa / 2 ^ 25)).rp = true) := by
  obtain ⟨slabs, -, -⟩ := s.correctedError_frame pa scrub
  obtain ⟨-, ce, -, -, rp⟩ := (s.countedCe pa).checkRetire_frame (pa / 2 ^ 25)
  have counted : ((s.countedCe pa).slab (pa / 2 ^ 25)).ce = min 4095 ((s.slab (pa / 2 ^ 25)).ce + 1) :=
    congrArg SlabEntry.ce (s.slab_setSlab_same (pa / 2 ^ 25) _)
  have slab : (s.correctedError pa scrub).slab (pa / 2 ^ 25) = ((s.countedCe pa).checkRetire (pa / 2 ^ 25)).slab (pa / 2 ^ 25) := by
    rw [State.slab, slabs]
    rfl
  rw [slab]
  exact ⟨ce.trans counted, fun limit => rp (.inl (counted ▸ limit))⟩

/-- What an uncorrectable error counts in its slab and stack, poisons and retires (R214, R215). -/
theorem State.uncorrectedError_frame :
    ((s.uncorrectedError pa).slab (pa / 2 ^ 25)).ue = min 3 ((s.slab (pa / 2 ^ 25)).ue + 1) ∧
    (1 ≤ (s.slab (pa / 2 ^ 25)).ue → ((s.uncorrectedError pa).slab (pa / 2 ^ 25)).rp = true) ∧
    (s.uncorrectedError pa).mem.stackUe = smod 0 s.mem.stackUe (s.stackOf pa) (satAdd 32 · 1) ∧
    pa / 64 ∈ (s.uncorrectedError pa).mem.poison ∧ s.rowOf pa ∈ (s.uncorrectedError pa).mem.retireList := by
  obtain ⟨tables, -, ue, -, rp⟩ := (s.countedUe pa).checkRetire_frame (pa / 2 ^ 25)
  have counted : ((s.countedUe pa).slab (pa / 2 ^ 25)).ue = min 3 ((s.slab (pa / 2 ^ 25)).ue + 1) :=
    congrArg SlabEntry.ue (s.slab_setSlab_same (pa / 2 ^ 25) _)
  have slab : (s.uncorrectedError pa).slab (pa / 2 ^ 25) = ((s.countedUe pa).checkRetire (pa / 2 ^ 25)).slab (pa / 2 ^ 25) := by
    rw [State.slab, State.uncorrectedError_mem]
    rfl
  rw [slab, State.uncorrectedError_mem]
  refine ⟨ue.trans counted, fun before => rp (.inr (counted ▸ by omega)), ?_, ?_, mem_setIns.mpr (.inl rfl)⟩
  · rw [tables]
    rfl
  · rw [tables]
    exact mem_setIns.mpr (.inl rfl)

end Corrected

/-! #### The report (R214, R233) -/

/-- Who hears of an error in a slab: the partition that owns it. -/
def State.hearsOf (s : State) (pa : Nat) : Option Nat :=
  if s.slabLife (pa / 2 ^ 25) = .assigned then some (s.slab (pa / 2 ^ 25)).owner.toNat else none

theorem State.eccEvent_eq (s : State) (pa : Nat) : s.eccEvent pa = s.post ((s.hearsOf pa).getD qidFault)
    [statusWord0 2 stECC_UNCORRECTED (s.hearsOf pa) none, w64 s.now, w64 (s.stackOf pa * 2 ^ 59 + pa / 64 * 64)] (unitMemory (slabQuad (pa / 2 ^ 25))) := by
  unfold State.eccEvent State.hearsOf
  dsimp only
  split <;> rfl

/-- A packet that finds the port free is its queue's newest (R221, R222). -/
theorem State.post_newest {s : State} {q : Nat} (free : PortFree (s.mqueue q)) (w : List W64) (u : Nat) :
    ((s.post q w u).mqueue q).pkts.getLast? = some (Packet.make q (s.mqueue q).seq s.now w) := by
  obtain ⟨writing, waiting, flush, sound⟩ := free
  rw [s.post_sound q w u sound, State.mqueue_putPacket, if_pos rfl]
  exact (MsgQueue.ask_free_seq _ _ _ _ writing waiting flush Nat.one_pos rfl).2

theorem State.uncorrectedError_newest {s : State} {pa : Nat} (free : PortFree (s.mqueue ((s.hearsOf pa).getD qidFault))) :
    ((s.uncorrectedError pa).mqueue ((s.hearsOf pa).getD qidFault)).pkts.getLast? = some (Packet.make ((s.hearsOf pa).getD qidFault)
      (s.mqueue ((s.hearsOf pa).getD qidFault)).seq s.now
      [statusWord0 2 stECC_UNCORRECTED (s.hearsOf pa) none, w64 s.now, w64 (s.stackOf pa * 2 ^ 59 + pa / 64 * 64)]) := by
  obtain ⟨tables, -, -, same, -⟩ := (s.countedUe pa).checkRetire_frame (pa / 2 ^ 25)
  have entry : ∀ k, ((s.countedUe pa).slab k).life = (s.slab k).life ∧ ((s.countedUe pa).slab k).owner = (s.slab k).owner := fun k => by
    rw [show (s.countedUe pa).slab k = (s.setSlab (pa / 2 ^ 25) _).slab k from rfl, State.slab_setSlab]
    split
    · next same => rw [same]; exact ⟨rfl, rfl⟩
    · exact ⟨rfl, rfl⟩
  rw [State.uncorrectedError_eq]
  generalize counted : (s.countedUe pa).checkRetire (pa / 2 ^ 25) = t at tables same
  have failed : t.mem.failed = s.mem.failed := by rw [tables]; rfl
  have queues : t.mq = s.mq := by rw [tables]; rfl
  have hub : t.hub = s.hub := by rw [tables]; rfl
  have stack : t.stackOf pa = s.stackOf pa := by
    unfold State.stackOf State.slabGroup
    rw [failed]
  have hears : t.hearsOf pa = s.hearsOf pa := by
    unfold State.hearsOf State.slabLife State.slabGroup
    rw [failed, (same (pa / 2 ^ 25)).1, (same (pa / 2 ^ 25)).2.1, (entry (pa / 2 ^ 25)).1, (entry (pa / 2 ^ 25)).2]
  have queue : ∀ q, t.mqueue q = s.mqueue q := fun q => by rw [State.mqueue, queues]; rfl
  have now : t.now = s.now := by rw [State.now, hub]; rfl
  have posted := State.post_newest (s := t) (q := (s.hearsOf pa).getD qidFault) (queue _ ▸ free)
    [statusWord0 2 stECC_UNCORRECTED (s.hearsOf pa) none, w64 s.now, w64 (s.stackOf pa * 2 ^ 59 + pa / 64 * 64)] (unitMemory (slabQuad (pa / 2 ^ 25)))
  rw [queue, now] at posted
  rw [State.eccEvent_eq, hears, now, stack]
  exact posted

/-- The one error of a memory without errors is met where a segment holds its word, and stands on elsewhere. -/
theorem State.memErrs_one {s : State} {h : EccHit} (segs : List (Nat × Nat)) (empty : s.mem.latent = []) (clean : h.word ∉ s.mem.poison) :
    s.memErrs segs [h] = if segs.any fun g => rangesMeet g (h.word * 64, 64) then
      (if h.bad then s.uncorrectedError (h.word * 64) else s.correctedError (h.word * 64) false)
      else { s with mem := { s.mem with latent := [h] } } := by
  have arisen : s.mem.upset [h] = { s.mem with latent := [h] } := by simp [Mem.upset, empty]
  have cleared : ({ s with mem := { s.mem with latent := [] } } : State) = s := by rw [← empty]
  have met : ({ s with mem := { s.mem with latent := [h] } } : State).meetErr h false =
      if h.bad then s.uncorrectedError (h.word * 64) else s.correctedError (h.word * 64) false := by
    simp only [State.meetErr, List.filter_cons, bne_self_eq_false, Bool.false_eq_true, if_false, List.filter_nil, cleared]
    exact if_neg (mt List.contains_iff_mem.mp clean)
  simp only [State.memErrs, arisen, List.filter_cons, List.filter_nil]
  split
  · exact met
  · rfl

/-! ### The patrol scrub (R213) -/

section Scrub

variable {s : State} {q : Fin 4}

/-- The address of the next word of quadrant q. -/
def State.scrubAt (s : State) (q : Nat) : Nat := q * 2 ^ 39 + s.scrubNext q (sget 0 s.mem.scrubPos q) * 64

/-- The scrub has moved behind that word. -/
def State.scrubbed (s : State) (q : Nat) : State :=
  { s with mem := { s.mem with scrubPos := sset 0 s.mem.scrubPos q ((s.scrubNext q (sget 0 s.mem.scrubPos q) + 1) % 2 ^ 33) } }

theorem execPatrolScrub_of_idle (e : EccFinding) (h : s.alive = false ∨ s.hub.trained = false ∨ s.damper.shutdown = true) :
    execPatrolScrub q e s = .next s := by
  refine if_pos ?_
  rcases h with h | h | h <;> simp [h]

theorem execPatrolScrub_of_up (e : EccFinding) (alive : s.alive = true) (trained : s.hub.trained = true) (on : s.damper.shutdown = false) :
    execPatrolScrub q e s = if s.slabLife (s.scrubAt q / 2 ^ 25) = .retired then .next (s.scrubbed q)
      else match s.mem.standing (s.scrubAt q / 64) e with
        | none => .next (s.scrubbed q)
        | some h => .next ((s.scrubbed q).meetErr h true) :=
  if_neg (by simp [alive, trained, on])

theorem Mem.standing_of_fresh {m : Mem} {w : Nat} (fresh : ∀ h ∈ m.latent, h.word ≠ w) (e : EccFinding) : m.standing w e =
    match e with
    | .clean => none
    | .corrected => some { word := w, bad := false }
    | .uncorrectable => some { word := w, bad := true } := by
  have none : m.latent.find? (fun h => h.word == w) = none := List.find?_eq_none.mpr fun h mem => by simpa using fresh h mem
  simp only [Mem.standing, none] <;> rfl

theorem Mem.standing_of_latent {m : Mem} {w : Nat} {h : EccHit} (found : (m.latent.find? fun h => h.word == w) = some h) (e : EccFinding) :
    m.standing w e = some h := by
  simp only [Mem.standing, found]

end Scrub

end Sys2Proof.Machine

namespace Sys2Proof.Claims

open Sys2Proof.Machine

theorem wipesLeaveZeros : WipesLeaveZeros := by
  intro s q
  refine ⟨fun off => ⟨if_pos (by simp [off]), if_pos off⟩, fun on idle => if_neg ?_, fun j found => ⟨fun on => ?_, ?_⟩⟩
  · simpa [on] using idle
  · refine (if_neg (by simp [on])).trans ?_
    rw [found] <;> rfl
  · obtain ⟨bytes, poison, wipes, off⟩ := s.endWipe_frame j
    rw [bytes, poison, wipes]
    refine ⟨fun a le lt => by rw [sget_bzero, if_pos ⟨le, lt⟩], fun a out => by rw [sget_bzero, if_neg (by omega)], fun w mem => ?_, off⟩
    simpa [setDel] using (List.mem_filter.mp mem).2

theorem scrubCountsAndPoisons : ScrubCountsAndPoisons := by
  intro s q e w pa s1 fresh
  refine ⟨fun alive trained on => ⟨fun calm => ?_, fun live => ⟨fun clean => ⟨?_, ?_⟩, fun h found => ?_⟩⟩, execPatrolScrub_of_idle e, fun h scrub => rfl, ?_, ?_⟩
  · have up := execPatrolScrub_of_up (q := q) e alive trained on
    rcases calm with gone | ⟨clean, rfl⟩
    · exact up.trans (if_pos gone)
    · refine up.trans ?_
      rw [Mem.standing_of_fresh (w := s.scrubAt q / 64) clean]
      exact ite_self _
  · refine (execPatrolScrub_of_up .corrected alive trained on).trans ((if_neg live).trans ?_)
    rw [Mem.standing_of_fresh (w := s.scrubAt q / 64) clean]
    rfl
  · refine (execPatrolScrub_of_up .uncorrectable alive trained on).trans ((if_neg live).trans ?_)
    rw [Mem.standing_of_fresh (w := s.scrubAt q / 64) clean]
    rfl
  · refine (execPatrolScrub_of_up e alive trained on).trans ((if_neg live).trans ?_)
    rw [Mem.standing_of_latent (w := s.scrubAt q / 64) found]
    rfl
  · exact fun segs h empty clean => State.memErrs_one segs empty clean
  · intro pa scrub owner q
    obtain ⟨ce, rp⟩ := s.correctedError_slab pa scrub
    obtain ⟨-, stackCe, again⟩ := s.correctedError_frame pa scrub
    obtain ⟨ue, pending, stackUe, poison, row⟩ := s.uncorrectedError_frame pa
    refine ⟨ce, rp, fun k => ?_, ue, pending, fun k => ?_, State.uncorrectedError_newest, poison, row, again⟩
    · rw [stackCe, sget_smod]
    · rw [stackUe, sget_smod]

/-- Settles O24: the end of a wipe by what it leaves of the memory's tables, the scrub by the error that stands in its word. -/
theorem wipesZeroAndScrubCounts : Obligations.WipesZeroAndScrubCounts := ⟨wipesLeaveZeros, scrubCountsAndPoisons⟩

end Sys2Proof.Claims
end

section
/-! PROOFS. Writes by the word (R214) and the bounds of translation (R204, R211, R216). -/

namespace Sys2Proof.Machine

/-! ### Words and poison -/

section Word

variable {s : State} {pa : Nat} {d : List Byte}

theorem State.putWord_of_part (part : d.length < 64) (poisoned : pa / 64 ∈ s.mem.poison) : s.putWord pa d = s.eccEvent pa := by
  have kept : s.clearWord pa d.length = s := if_neg part.ne
  rw [State.putWord_eq, kept, if_pos (List.contains_iff_mem.mpr poisoned)]

/-- A word that a write may fill is not poisoned once a whole write has cleared it. -/
theorem State.clearWord_clean (h : d.length = 64 ∨ pa / 64 ∉ s.mem.poison) : pa / 64 ∉ (s.clearWord pa d.length).mem.poison := by
  unfold State.clearWord
  split
  · simp [setDel]
  · next part => exact h.resolve_left part

theorem State.putWord_stored (h : d.length = 64 ∨ pa / 64 ∉ s.mem.poison) : s.putWord pa d =
    { s.clearWord pa d.length with mem := { (s.clearWord pa d.length).mem with bytes := bput s.mem.bytes pa d } } := by
  rw [State.putWord_eq, if_neg (mt List.contains_iff_mem.mp (State.clearWord_clean h))]

end Word

/-! ### Leaves -/

theorem ptePA_of_leafOk {e n : Nat} (h : pteLeafOk e n = true) : ptePA e % n = 0 := by
  simp only [pteLeafOk, Bool.and_eq_true, beq_iff_eq] at h
  exact h.2

/-- A leaf that a walk finds has one of the two page sizes and starts at a multiple of it, and its address is within the virtual range. -/
theorem State.leafAt_ok {s : State} {part base va : Nat} {l : Leaf} (h : s.leafAt part base va = .ok l) :
    va < 2 ^ 52 ∧ (l.size = 2 ^ 25 ∨ l.size = 2 ^ 16) ∧ l.pa % l.size = 0 := by
  unfold State.leafAt at h
  split at h
  · cases h
  next inside =>
  split at h
  · cases h
  · cases h
  split at h
  · cases h
  split at h
  · cases h
  · cases h
  split at h
  next large =>
    cases h
    exact ⟨Nat.not_le.mp inside, .inl rfl, ptePA_of_leafOk large⟩
  split at h
  · cases h
  split at h
  · cases h
  · cases h
  split at h
  · cases h
  next small =>
    cases h
    exact ⟨Nat.not_le.mp inside, .inr rfl, ptePA_of_leafOk (by simpa using small)⟩

/-- A walk keeps the offset within 64 KiB. -/
theorem State.walk_ok {s : State} {part base va pa : Nat} {write : Bool} (h : s.walk part base va write = .ok pa) :
    va < 2 ^ 52 ∧ pa % 2 ^ 16 = va % 2 ^ 16 := by
  unfold State.walk at h
  split at h
  next l leaf =>
    obtain ⟨inside, size, aligned⟩ := State.leafAt_ok leaf
    unfold Leaf.at_ at h
    split at h
    · cases h
    · cases h
      refine ⟨inside, ?_⟩
      rcases size with large | small
      · rw [large] at aligned ⊢
        omega
      · rw [small] at aligned ⊢
        omega
  · cases h
  · cases h

end Sys2Proof.Machine

namespace Sys2Proof.Claims

open Sys2Proof.Machine

/-- Settles O25: a write by what it leaves of the word's poison, a translation by its walk and the access check behind it. -/
theorem memoryAccessesKeepTheirBounds : Obligations.MemoryAccessesKeepTheirBounds := by
  refine ⟨fun s pa d => ⟨State.putWord_of_part, fun whole => ?_, fun stored => ?_⟩, fun s c va pa write h => ?_⟩
  · rw [State.putWord_stored (.inl whole)]
    exact State.clearWord_clean (.inl whole)
  · rw [State.putWord_stored stored]
    exact ⟨fun i lt => sget_bput_in d s.mem.bytes pa i lt, fun a out => sget_bput_out d s.mem.bytes pa a out⟩
  · obtain ⟨access, walk⟩ := State.translate_ok h
    obtain ⟨life, owner, wiping, -⟩ := State.access_ok.mp access
    obtain ⟨inside, offset⟩ := State.walk_ok walk
    exact ⟨inside, life, owner, wiping, offset⟩

end Sys2Proof.Claims
end

section
/-! PROOFS. The write port and room of a queue (R222, R223, R225), its read port (R224, R228, R230) and its flush (R227). -/

namespace Sys2Proof.Machine

open Sys2Proof.Claims

/-! ### Room (R225) -/

theorem satAdd_succ (n a k : Nat) : satAdd n (satAdd n a 1) k = satAdd n a (k + 1) := by
  unfold satAdd
  omega

/-- The packet that is being read, which stays. -/
def MsgQueue.stays (m : MsgQueue) : List Packet := if m.reading.isSome then m.pkts.take 1 else []

/-- The slots that a write needs, with those that the queue holds in l (R225). -/
def MsgQueue.load (m : MsgQueue) (q need : Nat) (l : List Packet) : Nat := held q (m.stays ++ l) + m.writeSlots q + need

/-- What making room leaves: of the packets that may go, the first k are gone, counted, as few as fit. -/
structure MsgQueue.Roomy (m : MsgQueue) (q need : Nat) (l : List Packet) (k : Nat) (u : MsgQueue) : Prop where
  pkts  : u.pkts = m.stays ++ l.drop k
  lostP : u.lostP = if k = 0 then m.lostP else satAdd 64 m.lostP k
  few   : k ≠ 0 → mqDepth q + m.readSlots q < m.load q need (l.drop (k - 1))
  fits  : k < l.length → m.load q need (l.drop k) ≤ mqDepth q + m.readSlots q
  le    : k ≤ l.length
  all   : k = 0 → u = { m with pkts := m.stays ++ l }

theorem MsgQueue.makeRoom_roomy (q need : Nat) (l : List Packet) (m : MsgQueue) : ∃ k, m.Roomy q need l k (m.makeRoom q need l) := by
  induction l generalizing m with
  | nil => exact ⟨0, (List.append_nil _).symm, rfl, fun h => absurd rfl h, fun h => absurd h (by simp), le_rfl, fun _ => by rw [List.append_nil]; rfl⟩
  | cons p r ih =>
    have eq : m.makeRoom q need (p :: r) = if m.load q need (p :: r) ≤ mqDepth q + m.readSlots q then { m with pkts := m.stays ++ p :: r }
        else MsgQueue.makeRoom ({ m with lostP := satAdd 64 m.lostP 1, lostW := satAdd 64 m.lostW p.words.length }.moveRd q (mqSlots q p)) q need r := rfl
    rw [eq]
    by_cases h : m.load q need (p :: r) ≤ mqDepth q + m.readSlots q
    · rw [if_pos h]
      exact ⟨0, rfl, rfl, fun k => absurd rfl k, fun _ => h, Nat.zero_le _, fun _ => rfl⟩
    · rw [if_neg h]
      obtain ⟨k, pkts, lostP, few, fits, le, -⟩ := ih ({ m with lostP := satAdd 64 m.lostP 1, lostW := satAdd 64 m.lostW p.words.length }.moveRd q
        (mqSlots q p))
      refine ⟨k + 1, pkts, ?_, fun _ => ?_, fun lt => fits (Nat.lt_of_succ_lt_succ lt), Nat.succ_le_succ le, fun h => absurd h (Nat.succ_ne_zero k)⟩
      · rw [lostP, if_neg (Nat.succ_ne_zero k)]
        split
        · next none => rw [none]; rfl
        · exact satAdd_succ 64 m.lostP k
      · cases k with
        | zero => exact Nat.not_le.mp h
        | succ k => exact few (Nat.succ_ne_zero k)

/-- Where the packets fit, none goes. -/
theorem MsgQueue.Roomy.of_fits {m u : MsgQueue} {q need k : Nat} {l : List Packet} (h : m.Roomy q need l k u)
    (fits : m.load q need l ≤ mqDepth q + m.readSlots q) : k = 0 := by
  by_contra ne
  have few := h.few ne
  have le : held q (l.drop (k - 1)) ≤ held q l := ((List.drop_sublist (k - 1) l).map (mqSlots q)).sum_le_sum fun _ _ => Nat.zero_le _
  simp only [MsgQueue.load, held, List.map_append, List.sum_append] at few fits le
  omega

theorem MsgQueue.stays_append_mayGo (m : MsgQueue) : m.stays ++ m.mayGo = m.pkts := by
  unfold MsgQueue.stays MsgQueue.mayGo
  split
  · exact List.take_append_drop 1 m.pkts
  · rfl

theorem MsgQueue.makeRoom_of_fits {m : MsgQueue} {q need : Nat} (fits : held q m.pkts + m.writeSlots q + need ≤ mqDepth q + m.readSlots q) :
    m.makeRoom q need m.mayGo = m := by
  obtain ⟨k, room⟩ := MsgQueue.makeRoom_roomy q need m.mayGo m
  have none := room.of_fits (by rw [MsgQueue.load, m.stays_append_mayGo]; exact fits)
  rw [room.all none, m.stays_append_mayGo]

/-! ### The write port (R222, R223) -/

/-- The queue in which room has been made for a new packet of n words. -/
def MsgQueue.begun (m : MsgQueue) (q n : Nat) : MsgQueue :=
  let m := { m with seq := (m.seq + 1) % 65536 }
  (m.makeRoom q (mqSpan q n) m.mayGo).moveWr q (mqSpan q n)

theorem MsgQueue.begun_ports (m : MsgQueue) (q n : Nat) : (m.begun q n).writing = m.writing ∧ (m.begun q n).waiting = m.waiting ∧
    (m.begun q n).flush = m.flush ∧ (m.begun q n).reading = m.reading :=
  MsgQueue.makeRoom_ports q (mqSpan q n) ({ m with seq := (m.seq + 1) % 65536 } : MsgQueue).mayGo { m with seq := (m.seq + 1) % 65536 }

theorem MsgQueue.begun_seq (m : MsgQueue) (q n : Nat) : (m.begun q n).seq = (m.seq + 1) % 65536 :=
  MsgQueue.makeRoom_seq q (mqSpan q n) ({ m with seq := (m.seq + 1) % 65536 } : MsgQueue).mayGo { m with seq := (m.seq + 1) % 65536 }

/-- The packet that a put ends, goes on with, or abandons. -/
def MsgQueue.closed (m : MsgQueue) (now q seq src : Nat) (words : List W64) : MqStop → MsgQueue
  | .done => { m with pkts := m.pkts ++ [Packet.make q seq now words], writing := none }
  | .more => { m with writing := some { src := src, seq := seq, words := words } }
  | .abandoned =>
    { m with writing := none, lostP := satAdd 64 m.lostP 1, lostW := satAdd 64 m.lostW words.length,
             wr0 := (m.wr0 + mqDepth q - mqSpan q words.length % mqDepth q) % mqDepth q
             wr1 := (m.wr1 + mqDepth q - mqSpan q words.length % mqDepth q) % mqDepth q }

theorem MsgQueue.put_of_free {m : MsgQueue} (free : m.writing = none) (now q : Nat) (a : Ask) :
    m.put now q a = (m.begun q a.words.length).closed now q m.seq a.src a.words a.stop := by
  unfold MsgQueue.put
  split
  rename_i seq old need n e
  split at e
  · next port => simp [free] at port
  · obtain ⟨rfl, rfl, rfl, rfl⟩ := by simpa only [Prod.mk.injEq] using e
    cases a.stop <;> rfl

theorem MsgQueue.put_of_port {m : MsgQueue} {w : Writing} (port : m.writing = some w) (now q : Nat) (a : Ask) :
    m.put now q a = ((m.makeRoom q a.words.length m.mayGo).moveWr q a.words.length).closed now q w.seq a.src (w.words ++ a.words) a.stop := by
  unfold MsgQueue.put
  split
  rename_i seq old need n e
  split at e
  · next v other =>
    cases port.symm.trans other
    obtain ⟨rfl, rfl, rfl, rfl⟩ := by simpa only [Prod.mk.injEq] using e
    cases a.stop <;> rfl
  · next free => simp [free] at port

/-- An abandoned packet that fits is counted with its words, and its SEQ is used. -/
theorem MsgQueue.begun_of_fits {m : MsgQueue} (free : m.writing = none) {q n : Nat} (fits : held q m.pkts + mqSpan q n ≤ mqDepth q) :
    m.begun q n = ({ m with seq := (m.seq + 1) % 65536 } : MsgQueue).moveWr q (mqSpan q n) := by
  refine congrArg (MsgQueue.moveWr · q (mqSpan q n)) (MsgQueue.makeRoom_of_fits (m := { m with seq := (m.seq + 1) % 65536 }) ?_)
  simp only [MsgQueue.writeSlots, free, Option.map_none, Option.getD_none]
  omega

/-- A free port takes the words of the one producer that asks. -/
theorem MsgQueue.ask_port {m : MsgQueue} {a : Ask} (free : PortFree m) (pop : 0 < a.pop) (now q : Nat) :
    m.ask now q a = MsgQueue.settle now q 2 ({ m with arb := (m.arb.grant [(a.src, a.pop)] a.src).drop [] }.put now q { a with late := false }) := by
  obtain ⟨writing, waiting, flush, -⟩ := free
  have asks : m.ask now q a = ({ m with waiting := [{ a with late := false }] } : MsgQueue).settle now q 3 := by simp [MsgQueue.ask, waiting, flush]
  rw [asks, MsgQueue.settle_one { m with waiting := [{ a with late := false }] } now q 2 { a with late := false } writing rfl flush pop]
  have same : ({ m with waiting := [], arb := (m.arb.grant [(a.src, a.pop)] a.src).drop [] } : MsgQueue) =
      { m with arb := (m.arb.grant [(a.src, a.pop)] a.src).drop [] } := by rw [← waiting]
  exact congrArg (fun x : MsgQueue => MsgQueue.settle now q 2 (x.put now q { a with late := false })) same

/-- A producer whose packet another's stands before waits. -/
theorem MsgQueue.ask_waits {m : MsgQueue} {w : Writing} {a : Ask} (port : m.writing = some w) (waiting : m.waiting = []) (other : w.src ≠ a.src)
    (now q : Nat) : m.ask now q a = { m with waiting := [{ a with late := m.flush }] } := by
  simp [MsgQueue.ask, MsgQueue.settle, waiting, port, Ne.symm other]

/-! ### A write as the instruction makes it -/

section Write

variable {s : State} {qid : Fin 32} {words : List W64} {a : MqWrite} (alive : s.alive = true) (open_ : mqInput a ∉ (s.mqueue qid).cut)
include alive open_

theorem execMqPacketWrite_of_sound (plain : a.upset = none) (may : s.mayWrite qid words.length a = true) (sound : (s.mqueue qid).mismatch = false) :
    execMqPacketWrite qid words a s = .next (s.setQueue qid
      ((s.mqueue qid).ask s.now qid { src := mqInput a, pop := a.pop, words := words, stop := a.stop })) := by
  have depth : mqDepth qid ≠ 0 := fun h => by simp [State.mayWrite, h] at may
  simp [execMqPacketWrite, alive, open_, plain, may, sound, depth]

theorem execMqPacketWrite_of_barred (plain : a.upset = none) (deep : mqDepth qid ≠ 0) (barred : s.mayWrite qid words.length a = false) :
    execMqPacketWrite qid words a s = .next (s.dropTrace qid a) := by
  simp [execMqPacketWrite, alive, open_, plain, barred, deep]

/-- Pointers that differ as a producer begins, or goes on with, a packet reset the queue. -/
theorem execMqPacketWrite_of_torn (may : s.mayWrite qid words.length a = true) (torn : (s.mqueue qid).mismatch = true) :
    ((s.mqueue qid).writing = none → (s.mqueue qid).flush = false →
      execMqPacketWrite qid words a s = .next ((s.loseBegun qid).markCut qid (mqInput a) a.stop)) ∧
    (∀ w, (s.mqueue qid).writing = some w → w.src = mqInput a →
      execMqPacketWrite qid words a s = .next ((s.resetQueue qid).markCut qid (mqInput a) a.stop)) := by
  have depth : mqDepth qid ≠ 0 := fun h => by simp [State.mayWrite, h] at may
  refine ⟨fun free flush => ?_, fun w port mine => ?_⟩
  · simp [execMqPacketWrite, alive, open_, may, torn, depth, free, flush, MsgQueue.portFree]
  · simp [execMqPacketWrite, alive, open_, may, torn, depth, port, mine]

/-- An upset that strikes behind some of the words: the packet is lost with the reset. -/
theorem execMqPacketWrite_of_upset {k : Nat} (upset : a.upset = some k) (pop : 0 < a.pop) (may : s.mayWrite qid words.length a = true)
    (free : PortFree (s.mqueue qid)) : execMqPacketWrite qid words a s = .next
      (((s.setQueue qid ((s.mqueue qid).ask s.now qid { src := mqInput a, pop := a.pop, words := words.take k, stop := .more })).resetQueue qid).markCut
        qid (mqInput a) a.stop) := by
  have depth : mqDepth qid ≠ 0 := fun h => by simp [State.mayWrite, h] at may
  have mine : ((s.mqueue qid).ask s.now qid { src := mqInput a, pop := a.pop, words := words.take k, stop := .more }).writing.any
      (fun w => w.src == mqInput a) = true := by
    rw [MsgQueue.ask_port free pop s.now qid, MsgQueue.put_of_free (by exact free.1)]
    have alone := (MsgQueue.begun_ports { s.mqueue qid with arb := ((s.mqueue qid).arb.grant [(mqInput a, a.pop)] (mqInput a)).drop [] } qid
      (words.take k).length).2.1.trans free.2.1
    generalize MsgQueue.begun _ _ _ = u at alone ⊢
    simp [MsgQueue.settle, MsgQueue.closed, alone]
  have sound : (s.mqueue qid).mismatch = false := free.2.2.2
  simp [execMqPacketWrite, alive, open_, upset, may, sound, depth, mine]

end Write

/-! ### The read port (R224, R228, R230) -/

/-- A packet that passes its checks is read whole. -/
theorem Packet.take_whole {k : Packet} (whole : ∀ x ∈ k.words, x.torn = false) (first : ∀ y, k.len = some y → y.bad = false ∧ y.torn = false) {n : Nat}
    (le : k.words.length ≤ n) (q : Nat) (phase : Bool) : k.take q n phase none [] =
      { header := some (mqHeader phase false k.bad k.seq q k.words.length), words := k.words.map fun x => (x.data, x.bad), reset := false } := by
  have slots : ∀ l : List Slot, (∀ x ∈ l, x.torn = false) → ∀ off i, takeSlots [] off i l = (l.map fun x => (x.data, x.bad), false) := by
    intro l
    induction l with
    | nil => exact fun _ _ _ => rfl
    | cons x r ih =>
      intro sound off i
      simp [takeSlots, ptrBad, sound x (List.mem_cons_self ..), ih fun y mem => sound y (List.mem_cons_of_mem _ mem)]
  have begins : (k.len.any fun x => x.bad || x.torn) = false := by
    cases e : k.len with
    | none => rfl
    | some y => simp [first y e]
  simp [Packet.take, begins, ptrBad, List.take_of_length_le le, slots k.words whole]

/-- An upset of the read pointer behind j words cuts the packet there. -/
theorem Packet.take_cut {k : Packet} (whole : ∀ x ∈ k.words, x.torn = false) (marked : k.len = none) {n j : Nat} (lt : j < k.words.length)
    (le : k.words.length ≤ n) (q : Nat) : k.take q n false none [.pointer j] =
      { header := some (mqHeader false false k.bad k.seq q k.words.length), words := (k.words.take j).map fun x => (x.data, x.bad), reset := true } := by
  have slots : ∀ l : List Slot, (∀ x ∈ l, x.torn = false) → ∀ i, i ≤ j → j < i + l.length →
      takeSlots [.pointer j] 0 i l = ((l.take (j - i)).map fun x => (x.data, x.bad), true) := by
    intro l
    induction l with
    | nil => intro _ i le lt; simp at lt; omega
    | cons x r ih =>
      intro sound i le lt
      by_cases here : j = i
      · subst here
        simp [takeSlots, ptrBad]
      · have next := ih (fun y mem => sound y (List.mem_cons_of_mem _ mem)) (i + 1) (by omega) (by simp at lt; omega)
        have step : j - i = (j - (i + 1)) + 1 := by omega
        simp [takeSlots, ptrBad, sound x (List.mem_cons_self ..), here, next, step]
  have cut := slots k.words whole 0 (Nat.zero_le _) (by omega)
  simp [Packet.take, marked, List.take_of_length_le le, cut]

/-- The header of a packet that no reset has cut short does not carry TRUNC. -/
theorem mqHeader_whole (bad : List Nat) (seq q len : Nat) : (mqHeader false false bad seq q len).getLsbD 62 = false := by
  have top : (if bad.isEmpty then 0 else 2 ^ 61) ≤ 2 ^ 61 := by split <;> norm_num
  unfold mqHeader w64
  rw [BitVec.getLsbD_ofNat]
  have lt : b2n false * 2 ^ 63 + b2n false * 2 ^ 62 + (if bad.isEmpty then 0 else 2 ^ 61) + (bad.foldl min (bad.headD 0)) % 128 * 2 ^ 48 +
      seq % 65536 * 2 ^ 32 + q % 256 * 2 ^ 16 + len % 512 < 2 ^ 62 := by
    simp only [b2n, Bool.false_eq_true, if_false]
    generalize (if bad.isEmpty then 0 else 2 ^ 61) = flag at top ⊢
    omega
  rw [Nat.testBit_lt_two_pow lt, Bool.and_false]

theorem Packet.strike_of_none (k : Packet) : k.strike [] = k := by
  simp [Packet.strike]

theorem mapIdx_map_eq {α β γ : Type} (f : Nat → β → γ) (g : α → β) (l : List α) : (l.map g).mapIdx f = l.mapIdx fun i x => f i (g x) := by
  apply List.ext_getElem?
  intro i
  simp only [List.getElem?_mapIdx, List.getElem?_map, Option.map_map]
  rfl

theorem mapIdx_const_eq {α β : Type} (f : α → β) (l : List α) : (l.mapIdx fun _ x => f x) = l.map f := by
  apply List.ext_getElem?
  intro i
  simp only [List.getElem?_mapIdx, List.getElem?_map]

/-- A read that brings the header and every word of the packet. -/
theorem State.readPort_of_whole {s t : State} {qid n : Nat} {k : Packet} {r : List Packet} {h : W64} (runs : s.consumerRuns qid = true)
    (pkts : (s.mqueue qid).pkts = k :: r) (reading : (s.mqueue qid).reading = none)
    (taken : s.takeFrom qid n false [] = some ({ header := some h, words := k.words.map fun x => (x.data, x.bad), reset := false }, t)) :
    s.readPort qid n [] = ((t.emit (.mqHeader h)).emits (k.words.mapIdx fun i x => .mqWord x.data x.bad (i + 1 == k.words.length))).notePoisoned
      qid (!k.bad.isEmpty) := by
  unfold State.readPort
  rw [if_neg (by simp [runs]), taken]
  simp only [pkts, reading, Taken.cutOff, Packet.strike_of_none, List.head?_cons, Option.map_some, Option.getD_some, Option.getD_none, List.length_map,
    Nat.sub_zero, le_refl, decide_true, Bool.not_false, Bool.and_self, Bool.true_and, Bool.false_and, Bool.false_eq_true, if_false, Option.any_some,
    mapIdx_map_eq]

/-- A read that a reset of the queue cuts short behind the header. -/
theorem State.readPort_of_cut {s t : State} {qid n j : Nat} {u : List MqUpset} {k : Packet} {h : W64} (runs : s.consumerRuns qid = true)
    (taken : s.takeFrom qid n false u = some ({ header := some h, words := (k.words.take j).map fun x => (x.data, x.bad), reset := true }, t))
    (plain : h.getLsbD 62 = false) : s.readPort qid n u =
      ((t.emit (.mqHeader h)).emits ((k.words.take j).map fun x => .mqWord x.data x.bad false)).cutWord qid := by
  unfold State.readPort
  rw [if_neg (by simp [runs]), taken]
  simp only [Taken.cutOff, Option.any_some, plain, Bool.not_false, Bool.not_true, Bool.and_self, Bool.and_false, Bool.false_and, if_true,
    mapIdx_map_eq, mapIdx_const_eq]

section Read

variable {s : State} {qid : Nat} {k : Packet} {r : List Packet} (pkts : (s.mqueue qid).pkts = k :: r) (sound : Sound (s.mqueue qid) k)
  (marked : k.len = none)
include pkts sound marked

omit marked in
theorem State.takeFrom_whole {n : Nat} (le : k.words.length ≤ n) (phase : Bool) : s.takeFrom qid n phase [] =
    some (k.take qid n phase none [], (s.setQueue qid ((s.mqueue qid).taken qid k.words.length k)).settleQueue qid) := by
  obtain ⟨reading, flush, agree, whole, first⟩ := sound
  simp [State.takeFrom, MsgQueue.mayRead, pkts, reading, flush, agree, Packet.strike, Packet.take_whole whole first le]

theorem State.takeFrom_cut {n j : Nat} (lt : j < k.words.length) (le : k.words.length ≤ n) : s.takeFrom qid n false [.pointer j] =
    some (k.take qid n false none [.pointer j], (s.setQueue qid { s.mqueue qid with reading := none }).resetQueue qid) := by
  obtain ⟨reading, flush, agree, whole, -⟩ := sound
  simp [State.takeFrom, MsgQueue.mayRead, pkts, reading, flush, agree, Packet.strike, Packet.take_cut whole marked lt le]

variable (runs : s.consumerRuns qid = true)
include runs

omit marked in
theorem State.readPort_whole {n : Nat} (le : k.words.length ≤ n) : s.readPort qid n [] =
    ((((s.setQueue qid ((s.mqueue qid).taken qid k.words.length k)).settleQueue qid).emit (.mqHeader
      (mqHeader false false k.bad k.seq qid k.words.length))).emits
      (k.words.mapIdx fun i x => .mqWord x.data x.bad (i + 1 == k.words.length))).notePoisoned qid (!k.bad.isEmpty) := by
  have taken := State.takeFrom_whole pkts sound le false
  rw [Packet.take_whole sound.2.2.2.1 sound.2.2.2.2 le] at taken
  exact State.readPort_of_whole runs pkts sound.1 taken

omit marked in
theorem State.readsOut_whole {n : Nat} (le : k.words.length ≤ n) : s.readsOut qid n [] = if k.bad.isEmpty then some (k.words.map Slot.data) else none := by
  have whole := sound.2.2.2.1
  simp [State.readsOut, runs, State.takeFrom_whole pkts sound le false, pkts, Packet.strike, Packet.take_whole whole sound.2.2.2.2 le]

section Cut

variable {n j : Nat} (lt : j < k.words.length) (le : k.words.length ≤ n)
include lt le

theorem State.readPort_cut : s.readPort qid n [.pointer j] =
    ((((s.setQueue qid { s.mqueue qid with reading := none }).resetQueue qid).emit (.mqHeader
      (mqHeader false false k.bad k.seq qid k.words.length))).emits
      ((k.words.take j).map fun x => .mqWord x.data x.bad false)).cutWord qid := by
  have taken := State.takeFrom_cut pkts sound marked lt le
  rw [Packet.take_cut sound.2.2.2.1 marked lt le] at taken
  exact State.readPort_of_cut runs taken (mqHeader_whole k.bad k.seq qid k.words.length)

theorem State.readsOut_cut : s.readsOut qid n [.pointer j] = none := by
  have whole := sound.2.2.2.1
  simp [State.readsOut, runs, State.takeFrom_cut pkts sound marked lt le, pkts, Packet.take_cut whole marked lt le]

end Cut

end Read

/-! ### Flush (R227, R235) -/

theorem sput_sput {α : Type} (m : Sparse α) (k : Nat) (v w : α) : sput (sput m k v) k w = sput m k w := by
  induction m with
  | nil => simp [sput]
  | cons e r ih =>
    obtain ⟨a, x⟩ := e
    simp only [sput]
    split_ifs with lt same
    · simp [sput]
    · simp [sput]
    · simp [sput, lt, same, ih]

theorem filter_sput {α : Type} (m : Sparse α) (k : Nat) (v : α) : ((sput m k v).filter fun e => e.1 != k) = m.filter fun e => e.1 != k := by
  induction m with
  | nil => simp [sput]
  | cons e r ih =>
    obtain ⟨a, x⟩ := e
    simp only [sput]
    split_ifs with lt same
    · simp
    · simp [same]
    · simp [List.filter_cons, ih]

/-- An entry that differs from the default is overwritten in place. -/
theorem sset_sset {α : Type} [DecidableEq α] (d : α) (m : Sparse α) (k : Nat) {v : α} (h : v ≠ d) (w : α) :
    sset d (sset d m k v) k w = sset d m k w := by
  unfold sset
  rw [if_neg h]
  split
  · exact filter_sput m k v
  · exact sput_sput m k v w

section Flush

variable {s : State} {q : Nat}

/-- The request of a flush. -/
def MsgQueue.asked (m : MsgQueue) : MsgQueue := { m with flush := true }

theorem State.setQueue_asked (m n : MsgQueue) : (s.setQueue q m.asked).setQueue q n = s.setQueue q n := by
  have fresh : m.asked ≠ MsgQueue.reset := fun h => absurd (congrArg MsgQueue.flush h) Bool.noConfusion
  unfold State.setQueue
  exact congrArg (fun l => { s with mq := { s.mq with queues := l } }) (sset_sset _ _ _ fresh n)

/-- The queue that a flush empties. -/
def MsgQueue.flushedOut (m : MsgQueue) : MsgQueue :=
  { m with pkts := [], flush := false, flushed := satAdd 64 m.flushed m.pkts.length, rd0 := m.wr0, rd1 := m.wr1 }

theorem MsgQueue.settle_flush {m : MsgQueue} (flush : m.flush = true) (writing : m.writing = none) (reading : m.reading = none)
    (waiting : m.waiting = []) (now : Nat) : m.settle now q 2 = m.flushedOut := by
  have taken : m.takeFlush = m.flushedOut := by simp [MsgQueue.takeFlush, MsgQueue.atBoundary, flush, writing, reading, waiting, MsgQueue.flushedOut]
  have step : m.settle now q 2 = MsgQueue.settle now q 1 m.takeFlush := by simp [MsgQueue.settle, writing, flush, reading]
  rw [step, taken]
  exact MsgQueue.settle_idle _ now q 1 writing waiting rfl

theorem State.settleQueue_of_sound (sound : (s.mqueue q).mismatch = false) : s.settleQueue q = s.settlePorts q := by
  simp [State.settleQueue, State.checkPointers, sound]

theorem State.settlePorts_flush (flush : (s.mqueue q).flush = true) (writing : (s.mqueue q).writing = none) (reading : (s.mqueue q).reading = none)
    (waiting : (s.mqueue q).waiting = []) : s.settlePorts q = s.setQueue q (s.mqueue q).flushedOut := by
  have settled := MsgQueue.settle_flush (q := q) flush writing reading waiting s.now
  simp only [State.settlePorts, waiting, List.length_nil, Nat.zero_add, settled]

theorem State.applyFlush_eq : s.applyFlush q = if (s.mqueue q).flush && (s.mqueue q).writing.isNone && (s.mqueue q).reading.isNone then s.settleQueue q
    else s := by
  simp only [State.applyFlush, MsgQueue.atBoundary, Bool.and_assoc] <;> rfl

theorem State.flushQueue_eq : s.flushQueue q = (s.setQueue q (s.mqueue q).asked).applyFlush q := rfl

theorem State.flushQueue_of_sound (sound : (s.mqueue q).mismatch = false) (writing : (s.mqueue q).writing = none) (reading : (s.mqueue q).reading = none)
    (waiting : (s.mqueue q).waiting = []) : s.flushQueue q = s.setQueue q (s.mqueue q).flushedOut := by
  rw [State.flushQueue_eq, State.applyFlush_eq, State.mqueue_setQueue_same, if_pos (by simp [MsgQueue.asked, writing, reading]),
    State.settleQueue_of_sound (by rw [State.mqueue_setQueue_same]; exact sound), State.settlePorts_flush, State.mqueue_setQueue_same, State.setQueue_asked]
  · rfl
  all_goals rw [State.mqueue_setQueue_same]
  · rfl
  · exact writing
  · exact reading
  · exact waiting

theorem State.flushQueue_of_open (busy : (s.mqueue q).writing ≠ none ∨ (s.mqueue q).reading ≠ none) :
    s.flushQueue q = s.setQueue q (s.mqueue q).asked := by
  rw [State.flushQueue_eq, State.applyFlush_eq, State.mqueue_setQueue_same]
  refine if_neg ?_
  rcases busy with h | h <;> simp [MsgQueue.asked, h]

end Flush

end Sys2Proof.Machine
end
section
namespace Sys2Proof.Claims

open Sys2Proof Sys2Proof.Machine

/-! ### The write port -/

theorem Packet.slots_make (q seq now : Nat) (words : List W64) : mqSlots q (Packet.make q seq now words) = mqSpan q words.length := by
  simp [mqSlots, Packet.make]

theorem held_append (q : Nat) (l r : List Packet) : held q (l ++ r) = held q l + held q r := by
  simp [held]

theorem mqSpan_le_depth {q n : Nat} (le : n ≤ mqMaxWords q) (some : 0 < mqDepth q) (q32 : q < 32) : mqSpan q n ≤ mqDepth q := by
  unfold mqSpan
  unfold mqMaxWords at le
  unfold mqDepth at some ⊢
  split_ifs at le some ⊢ <;> omega

section Free

variable {m : MsgQueue} {q n : Nat}

/-- Room for a packet at a free port, and what has gone. -/
theorem MsgQueue.begun_roomy (m : MsgQueue) (q n : Nat) : ∃ k, (m.begun q n).pkts = m.stays ++ m.mayGo.drop k ∧
    (k = 0 → (m.begun q n).lostP = m.lostP) ∧ (k ≠ 0 → (m.begun q n).lostP = satAdd 64 m.lostP k) ∧
    (k ≠ 0 → mqDepth q + m.readSlots q < m.load q (mqSpan q n) (m.mayGo.drop (k - 1))) ∧
    (k < m.mayGo.length → m.load q (mqSpan q n) (m.mayGo.drop k) ≤ mqDepth q + m.readSlots q) := by
  obtain ⟨k, pkts, lostP, few, fits, -, -⟩ := MsgQueue.makeRoom_roomy q (mqSpan q n) ({ m with seq := (m.seq + 1) % 65536 } : MsgQueue).mayGo
    { m with seq := (m.seq + 1) % 65536 }
  exact ⟨k, pkts, fun zero => lostP.trans (if_pos zero), fun more => lostP.trans (if_neg more), few, fits⟩

theorem MsgQueue.stays_eq (m : MsgQueue) : m.stays = m.pkts.take (if m.reading.isSome then 1 else 0) := by
  unfold MsgQueue.stays
  split <;> rfl

theorem MsgQueue.mayGo_eq (m : MsgQueue) : m.mayGo = m.pkts.drop (if m.reading.isSome then 1 else 0) := by
  unfold MsgQueue.mayGo
  split <;> rfl

/-- A packet that ends at a free port. -/
theorem MsgQueue.ask_done {a : Ask} (free : PortFree m) (pop : 0 < a.pop) (now : Nat) (done : a.stop = .done) : m.ask now q a =
    ({ m with arb := (m.arb.grant [(a.src, a.pop)] a.src).drop [] }.begun q a.words.length).closed now q m.seq a.src a.words .done := by
  obtain ⟨writing, waiting, flush, -⟩ := free
  rw [MsgQueue.ask_free m now q a writing waiting flush pop done, MsgQueue.put_of_free (by exact writing), done]

/-- A packet that a free port abandons in its last part. -/
theorem MsgQueue.ask_abandoned {a : Ask} (free : PortFree m) (pop : 0 < a.pop) (now : Nat) (stop : a.stop = .abandoned) : m.ask now q a =
    ({ m with arb := (m.arb.grant [(a.src, a.pop)] a.src).drop [] }.begun q a.words.length).closed now q m.seq a.src a.words .abandoned := by
  rw [MsgQueue.ask_port free pop, MsgQueue.put_of_free (by exact free.1)]
  simp only [stop]
  obtain ⟨-, waiting, flush, -⟩ := MsgQueue.begun_ports { m with arb := (m.arb.grant [(a.src, a.pop)] a.src).drop [] } q a.words.length
  exact MsgQueue.settle_idle _ now q 2 rfl (waiting.trans free.2.1) (flush.trans free.2.2.1)

end Free

/-- The producer that holds the port abandons its packet, which fits. -/
theorem MsgQueue.ask_holder {m : MsgQueue} {w : Writing} {a : Ask} {q : Nat} (port : m.writing = some w) (waiting : m.waiting = [])
    (flush : m.flush = false) (mine : w.src = a.src) (none : a.words = []) (stop : a.stop = .abandoned) (now : Nat)
    (fits : held q m.pkts + mqSpan q w.words.length ≤ mqDepth q) :
    m.ask now q a = (m.moveWr q 0).closed now q w.seq a.src w.words .abandoned := by
  have alone : ({ m with waiting := [{ a with late := false }] } : MsgQueue).unask w.src = m := by
    simp [MsgQueue.unask, delFirst, mine, ← waiting]
  have asks : m.ask now q a = MsgQueue.settle now q 2 (m.put now q { a with late := false }) := by
    have found : ([{ a with late := false }] : List Ask).find? (fun a => a.src == w.src) = some { a with late := false } := by simp [mine]
    have step : m.ask now q a = ({ m with waiting := [{ a with late := false }] } : MsgQueue).settle now q 3 := by
      simp [MsgQueue.ask, waiting, flush]
    rw [step]
    simp only [MsgQueue.settle, port, found]
    rw [← port, alone]
  have room : m.makeRoom q 0 m.mayGo = m := MsgQueue.makeRoom_of_fits (by simp only [MsgQueue.writeSlots, port, Option.map_some, Option.getD_some]; omega)
  rw [asks, MsgQueue.put_of_port port]
  simp only [none, stop, List.length_nil, List.append_nil, room]
  exact MsgQueue.settle_idle _ now q 2 rfl waiting flush

/-- The largest packet of a queue fits it. -/
theorem State.span_of_mayWrite {s : State} {qid : Fin 32} {n src pop : Nat} {stop : MqStop} (done : stop = .done)
    (may : s.mayWrite qid n { src := src, pop := pop, stop := stop, upset := none } = true) : mqSpan qid n ≤ mqDepth qid := by
  subst done
  simp only [State.mayWrite, MsgQueue.fits, Bool.and_eq_true, decide_eq_true_eq] at may
  exact mqSpan_le_depth (by omega) may.1.1.1.1 qid.isLt

/-- A packet that a producer writes to a free port is the newest; whole oldest packets go, as far as they must (R222, R225). -/
theorem ask_keepsNewest {m : MsgQueue} {q src pop now : Nat} {words : List W64} (free : PortFree m) (some : 0 < pop)
    (span : mqSpan q words.length ≤ mqDepth q) :
    let first := if m.reading.isSome then 1 else 0
    let new := Packet.make q m.seq now words
    let u := m.ask now q { src := src, pop := pop, words := words, stop := .done }
    (∃ k, u.pkts = m.pkts.take first ++ (m.pkts.drop first).drop k ++ [new] ∧ (k = 0 → u.lostP = m.lostP) ∧ (k ≠ 0 → u.lostP = satAdd 64 m.lostP k) ∧
      (m.reading = none → k ≠ 0 → mqDepth q < held q (m.pkts.drop (k - 1)) + mqSlots q new)) ∧
      (m.reading = none → held q u.pkts ≤ mqDepth q) ∧ u.seq = (m.seq + 1) % 65536 ∧ u.reading = m.reading := by
  intro first new u
  have eq : u = _ := MsgQueue.ask_done (a := { src := src, pop := pop, words := words, stop := .done }) free some now rfl
  obtain ⟨k, pkts, zero, more, few, fits⟩ := MsgQueue.begun_roomy { m with arb := (m.arb.grant [(src, pop)] src).drop [] } q words.length
  obtain ⟨-, -, -, reading⟩ := MsgQueue.begun_ports { m with arb := (m.arb.grant [(src, pop)] src).drop [] } q words.length
  have seq := MsgQueue.begun_seq { m with arb := (m.arb.grant [(src, pop)] src).drop [] } q words.length
  rw [eq]
  generalize MsgQueue.begun _ q words.length = b at pkts zero more reading seq ⊢
  have stays : ({ m with arb := (m.arb.grant [(src, pop)] src).drop [] } : MsgQueue).stays = m.pkts.take first := MsgQueue.stays_eq m
  have mayGo : ({ m with arb := (m.arb.grant [(src, pop)] src).drop [] } : MsgQueue).mayGo = m.pkts.drop first := MsgQueue.mayGo_eq m
  rw [stays, mayGo] at pkts
  rw [mayGo] at few fits
  have idle : m.writeSlots q = 0 := by simp [MsgQueue.writeSlots, free.1]
  have load (l : List Packet) (reads : m.reading = none) :
      ({ m with arb := (m.arb.grant [(src, pop)] src).drop [] } : MsgQueue).load q (mqSpan q words.length) l = held q l + mqSpan q words.length := by
    have empty : ({ m with arb := (m.arb.grant [(src, pop)] src).drop [] } : MsgQueue).stays = [] := by simp [MsgQueue.stays, reads]
    have calm : ({ m with arb := (m.arb.grant [(src, pop)] src).drop [] } : MsgQueue).writeSlots q = 0 := idle
    rw [MsgQueue.load, empty, calm, List.nil_append, Nat.add_zero]
  have all (reads : m.reading = none) : first = 0 := by simp [first, reads]
  have unread (reads : m.reading = none) : ({ m with arb := (m.arb.grant [(src, pop)] src).drop [] } : MsgQueue).readSlots q = 0 := by
    simp [MsgQueue.readSlots, reads]
  refine ⟨⟨k, congrArg (· ++ [new]) pkts, zero, more, fun reads some => ?_⟩, fun reads => ?_, seq, reading⟩
  · have few := few some
    rw [load _ reads, unread reads, all reads, Nat.add_zero] at few
    rw [Packet.slots_make]
    exact few
  · have sum : held q (b.pkts ++ [new]) = held q ((m.pkts.drop first).drop k) + mqSpan q words.length := by
      rw [pkts, all reads, List.take_zero, List.nil_append, held_append]
      simp [held, new, Packet.slots_make]
    refine sum.trans_le ?_
    by_cases short : k < (m.pkts.drop first).length
    · have fits := fits short
      rwa [load _ reads, unread reads, Nat.add_zero] at fits
    · rw [List.drop_of_length_le (Nat.not_lt.mp short)]
      simpa [held] using span

theorem State.dropTrace_trace {s : State} {qid p src pop : Nat} {stop : MqStop} {u : Option Nat} (core : traceCore qid src = some p) :
    s.dropTrace qid { src := src, pop := pop, stop := stop, upset := u } =
      if stop ≠ .more ∧ (s.core p).life ≠ .opened then s.dropAtPort p 1 else s := by
  simp only [State.dropTrace, core, State.producerShut, Option.any_some, Bool.and_eq_true, bne_iff_ne, and_comm]

theorem State.dropTrace_other {s : State} {qid src pop : Nat} {stop : MqStop} {u : Option Nat} (other : traceCore qid src = none) :
    s.dropTrace qid { src := src, pop := pop, stop := stop, upset := u } = s := by
  simp only [State.dropTrace, other]

theorem queuesKeepTheNewestWholePackets : QueuesKeepTheNewestWholePackets := by
  intro s qid src pop words alive some m input new first by_
  refine ⟨fun may free uncut => ⟨_, execMqPacketWrite_of_sound (a := by_ .done) alive uncut rfl may free.2.2.2, ?_⟩,
    fun stop may sound uncut w port other waiting => ?_, fun stop uncut => ⟨fun p core shut => ?_, fun barred lives => ?_⟩⟩
  · rw [State.mqueue_setQueue_same]
    exact ask_keepsNewest free some (State.span_of_mayWrite rfl may)
  · refine (execMqPacketWrite_of_sound (a := by_ stop) alive uncut rfl may sound).trans ?_
    exact congrArg (fun u => Host.Outcome.next (s.setQueue qid u)) (MsgQueue.ask_waits port waiting other s.now qid)
  · have deep : mqDepth qid ≠ 0 := by
      unfold traceCore at core
      split at core
      · unfold mqDepth
        split_ifs <;> omega
      · cases core
    have barred : s.mayWrite qid words.length (by_ stop) = false := by simp [State.mayWrite, by_, State.producerShut, core, shut]
    refine (execMqPacketWrite_of_barred (a := by_ stop) alive uncut rfl deep barred).trans ?_
    rw [State.dropTrace_trace core]
    by_cases more : stop = .more
    · rw [if_pos more, if_neg (fun h => h.1 more)]
    · rw [if_neg more, if_pos ⟨more, shut⟩]
  · have still : s.dropTrace qid (by_ stop) = s := by
      cases core : traceCore qid src with
      | none => exact State.dropTrace_other core
      | some p => exact (State.dropTrace_trace core).trans (if_neg fun h => h.2 (lives p core))
    by_cases deep : mqDepth qid = 0
    · show execMqPacketWrite qid words (by_ stop) s = .next s
      simp [execMqPacketWrite, deep]
    · exact (execMqPacketWrite_of_barred (a := by_ stop) alive uncut rfl deep (barred.resolve_left deep)).trans (congrArg _ still)

/-! ### Abandonment, reset, reading and flush -/

section Stops

variable {s : State} {qid : Fin 32} {src pop : Nat} {words : List W64} (alive : s.alive = true) (some : 0 < pop) (uncut : src + 40 ∉ (s.mqueue qid).cut)
include alive some uncut

theorem abandoned_isCounted (may : s.mayWrite qid words.length { src := src, pop := pop, stop := .abandoned, upset := none } = true)
    (free : PortFree (s.mqueue qid)) (fits : held qid (s.mqueue qid).pkts + mqSpan qid words.length ≤ mqDepth qid) :
    ∃ t, exec (.mqPacketWrite qid words { src := src, pop := pop, stop := .abandoned, upset := none }) s = .next t ∧
      (t.mqueue qid).pkts = (s.mqueue qid).pkts ∧ (t.mqueue qid).seq = ((s.mqueue qid).seq + 1) % 65536 ∧
      (t.mqueue qid).lostP = satAdd 64 (s.mqueue qid).lostP 1 ∧ (t.mqueue qid).lostW = satAdd 64 (s.mqueue qid).lostW words.length := by
  refine ⟨_, execMqPacketWrite_of_sound (a := { src := src, pop := pop, stop := .abandoned, upset := none }) alive uncut rfl may free.2.2.2, ?_⟩
  rw [State.mqueue_setQueue_same, MsgQueue.ask_abandoned free some _ rfl, MsgQueue.begun_of_fits (by exact free.1) (by exact fits)]
  exact ⟨rfl, rfl, rfl, rfl⟩

omit some in
theorem abandonedHolder_isCounted {w : Writing} (may : s.mayWrite qid 0 { src := src, pop := pop, stop := .abandoned, upset := none } = true)
    (sound : (s.mqueue qid).mismatch = false) (waiting : (s.mqueue qid).waiting = []) (flush : (s.mqueue qid).flush = false)
    (port : (s.mqueue qid).writing = Option.some w) (mine : w.src = src + 40)
    (fits : held qid (s.mqueue qid).pkts + mqSpan qid w.words.length ≤ mqDepth qid) :
    ∃ t, exec (.mqPacketWrite qid [] { src := src, pop := pop, stop := .abandoned, upset := none }) s = .next t ∧
      (t.mqueue qid).pkts = (s.mqueue qid).pkts ∧ (t.mqueue qid).writing = none ∧ (t.mqueue qid).seq = (s.mqueue qid).seq ∧
      (t.mqueue qid).lostP = satAdd 64 (s.mqueue qid).lostP 1 ∧ (t.mqueue qid).lostW = satAdd 64 (s.mqueue qid).lostW w.words.length := by
  refine ⟨_, execMqPacketWrite_of_sound (words := []) (a := { src := src, pop := pop, stop := .abandoned, upset := none }) alive uncut rfl may sound, ?_⟩
  rw [State.mqueue_setQueue_same, MsgQueue.ask_holder port waiting flush mine rfl rfl _ fits]
  exact ⟨rfl, rfl, rfl, rfl, rfl⟩

end Stops

/-- What is left of a packet that a reset has cut is written nowhere. -/
theorem cutPacket_isWrittenNowhere {s : State} {qid : Fin 32} {src pop : Nat} {words : List W64} {stop : MqStop} (alive : s.alive = true)
    (cut : src + 40 ∈ (s.mqueue qid).cut) (deep : mqDepth qid ≠ 0) (some : stop = .abandoned ∨ words ≠ []) :
    exec (.mqPacketWrite qid words { src := src, pop := pop, stop := stop, upset := none }) s =
      .next ((s.markCut qid (src + 40) stop).dropTrace qid { src := src, pop := pop, stop := stop, upset := none }) := by
  show execMqPacketWrite qid words _ s = _
  have last : (stop == .abandoned || !words.isEmpty) = true := by
    rcases some with rfl | more
    · rfl
    · simp [more]
  simp [execMqPacketWrite, alive, deep, cut, mqInput, mqUnits, last]

theorem markCut_cut (s : State) (qid input : Nat) :
    input ∈ ((s.markCut qid input .more).mqueue qid).cut ∧ input ∉ ((s.markCut qid input .done).mqueue qid).cut := by
  constructor
  · simp [State.markCut, mem_setIns]
  · simp [State.markCut]

/-- What the reader gets of the request queue, whose requests the control processor takes up. -/
def served (qid : Fin 32) (words : Option (List W64)) (t : State) : State :=
  if qid = 30 then (match words with | some w => t.cpServes w | none => t).settleWaits else t

theorem mqPacketRead_served {s : State} {qid : Fin 32} (q : 28 ≤ qid.val) (n : Nat) (u : List MqUpset) :
    exec (.mqPacketRead qid n u) s = .next (served qid (s.readsOut qid n u) (s.readPort qid n u)) := by
  show execMqPacketRead qid n u s = _
  unfold execMqPacketRead
  rw [if_neg (by omega), if_neg (by omega)]
  unfold served
  by_cases cp : qid = 30
  · rw [if_pos cp]
    exact (if_pos (congrArg Fin.val cp)).trans rfl
  · rw [if_neg cp]
    exact if_neg fun h => cp (Fin.ext h)

theorem served_ite (qid : Fin 32) (clean : Bool) (words : List W64) (t : State) : served qid (if clean then some words else none) t =
    if qid = 30 then (if clean then t.cpServes words else t).settleWaits else t := by
  cases clean <;> rfl

/-! ### Flush where the pointers' copies differ (R227, R235) -/

/-- The queue that a pending flush leaves after the reset of a queue that nobody uses. -/
def flushedReset (m : MsgQueue) : MsgQueue := (MsgQueue.resetBlock m.asked).flushedOut

theorem State.mqueue_resetPorts_flush {s : State} {q : Nat} {m : MsgQueue} (mine : s.mqueue q = m.asked) (writing : m.writing = none)
    (reading : m.reading = none) (waiting : m.waiting = []) : (s.resetPorts q).mqueue q = flushedReset m := by
  have reads : ¬ (s.mqueue q).reading.isSome := by simp [mine, MsgQueue.asked, reading]
  have block : (s.mqueue q).resetBlock = MsgQueue.resetBlock m.asked := by rw [mine]
  unfold State.resetPorts
  rw [if_neg reads]
  dsimp only
  rw [block, State.settlePorts_flush]
  · rw [State.mqueue_setQueue_same, State.mqueue_setQueue_same]
    rfl
  all_goals rw [State.mqueue_setQueue_same]
  · rfl
  · rfl
  · rfl
  · exact waiting

/-- The fault queue, which is reset where its own copies differ, is another than an event queue. -/
theorem State.mqueue_faultReset_ne {q : Nat} (other : q ≠ qidFault) (s : State) :
    (if (s.mqueue qidFault).mismatch then s.resetFaultQueue else s).mqueue q = s.mqueue q := by
  split
  · exact s.mqueue_resetFaultQueue_ne other
  · rfl

/-- An event queue's reset ends with its own packet. -/
theorem State.mqueue_resetQueue_event {s : State} {q : Nat} (event : q < 16) : ∃ now words,
    (s.resetQueue q).mqueue q = ((s.resetPorts q).mqueue q).ask now q { src := unitQueues, pop := 1, words := words, stop := .done } := by
  have other : q ≠ qidFault := fun h => by simp [h, qidFault] at event
  unfold State.resetQueue
  rw [if_neg other]
  dsimp only
  rw [if_pos event, State.mqueue_putPacket, if_pos rfl, State.mqueue_putPacket_ne other, State.mqueue_faultReset_ne other]
  exact ⟨_, _, rfl⟩

/-- The event of its own reset is all that a flushed event queue holds whose pointers' copies differed. -/
theorem State.flushQueue_of_torn {s : State} {q : Nat} (event : q < 16) (torn : (s.mqueue q).mismatch = true) (writing : (s.mqueue q).writing = none)
    (reading : (s.mqueue q).reading = none) (waiting : (s.mqueue q).waiting = []) :
    ((s.flushQueue q).mqueue q).pkts.length = 1 ∧ ((s.flushQueue q).mqueue q).flush = false ∧
      ((s.flushQueue q).mqueue q).flushed = satAdd 64 (s.mqueue q).flushed 0 ∧
      ((s.flushQueue q).mqueue q).lostP = satAdd 64 (s.mqueue q).lostP (s.mqueue q).pkts.length := by
  have mine : (s.setQueue q (s.mqueue q).asked).mqueue q = (s.mqueue q).asked := State.mqueue_setQueue_same ..
  obtain ⟨now, words, asks⟩ := State.mqueue_resetQueue_event (s := s.setQueue q (s.mqueue q).asked) event
  rw [State.mqueue_resetPorts_flush mine writing reading waiting] at asks
  have flush : s.flushQueue q = ((s.setQueue q (s.mqueue q).asked).resetQueue q).settlePorts q := by
    rw [State.flushQueue_eq, State.applyFlush_eq, mine, if_pos (by simp [MsgQueue.asked, writing, reading]), State.settleQueue, State.checkPointers, mine,
      if_pos (by exact torn)]
  have empty : (flushedReset (s.mqueue q)).pkts = [] ∧ (flushedReset (s.mqueue q)).flush = false ∧ (flushedReset (s.mqueue q)).reading = none ∧
      (flushedReset (s.mqueue q)).flushed = satAdd 64 (s.mqueue q).flushed 0 ∧
      (flushedReset (s.mqueue q)).lostP = satAdd 64 (s.mqueue q).lostP (s.mqueue q).pkts.length ∧ PortFree (flushedReset (s.mqueue q)) := by
    refine ⟨rfl, rfl, rfl, rfl, ?_, rfl, waiting, rfl, rfl⟩
    simp [flushedReset, MsgQueue.resetBlock, MsgQueue.flushedOut, MsgQueue.asked, writing]
  obtain ⟨pkts, calm, reads, flushed, lostP, free⟩ := empty
  generalize flushedReset (s.mqueue q) = m at *
  rw [MsgQueue.ask_done free Nat.one_pos now rfl] at asks
  have fresh : ∀ n : MsgQueue, n.pkts = [] → n.begun q words.length = ({ n with seq := (n.seq + 1) % 65536 } : MsgQueue).moveWr q (mqSpan q words.length) := by
    intro n none
    refine congrArg (MsgQueue.moveWr · q (mqSpan q words.length)) ?_
    have go : ({ n with seq := (n.seq + 1) % 65536 } : MsgQueue).mayGo = [] := by simp [MsgQueue.mayGo, none]
    rw [go]
    simp [MsgQueue.makeRoom, none]
  rw [fresh _ (by exact pkts)] at asks
  have settled : (s.flushQueue q).mqueue q = ((s.setQueue q (s.mqueue q).asked).resetQueue q).mqueue q := by
    rw [flush, State.settlePorts, State.mqueue_setQueue_same]
    refine MsgQueue.settle_idle _ _ q _ ?_ ?_ ?_ <;> rw [asks]
    · rfl
    · exact free.2.1
    · exact calm
  rw [settled, asks]
  exact ⟨by simp [MsgQueue.closed, MsgQueue.moveWr, pkts], calm, flushed, lostP⟩

theorem queuesReadFlushAndReset : QueuesReadFlushAndReset := by
  intro s pr qid src pop words m input by_
  refine ⟨fun alive some => ⟨fun may free uncut _ fits => abandoned_isCounted alive some uncut may free fits,
    fun w may sound waiting flush port uncut mine fits => abandonedHolder_isCounted alive uncut may sound waiting flush port mine fits,
    fun stop cut deep more => cutPacket_isWrittenNowhere alive cut deep more,
    fun stop p core => State.dropTrace_trace core, fun other stop => State.dropTrace_other other,
    fun stop may => ⟨fun k upset free uncut => ?_, fun torn uncut => ?_, markCut_cut s qid input⟩⟩,
    fun k r pkts q runs sound marked => ⟨fun n le => ?_, fun n j lt le => ?_⟩, fun h deep => ?_, ?_,
    fun sound => ⟨fun writing reading waiting => ⟨?_, fun flush => ?_⟩, fun _ busy => State.flushQueue_of_open busy⟩,
    fun torn => ⟨?_, fun event writing reading waiting => State.flushQueue_of_torn event torn writing reading waiting⟩⟩
  · exact execMqPacketWrite_of_upset (a := by_ stop (Option.some k)) alive uncut rfl some upset free
  · exact execMqPacketWrite_of_torn (a := by_ stop none) alive uncut may torn
  · refine (mqPacketRead_served q n []).trans (congrArg _ ?_)
    rw [State.readsOut_whole pkts sound runs le, State.readPort_whole pkts sound runs le, served_ite]
  · refine (mqPacketRead_served q n _).trans (congrArg _ ?_)
    rw [State.readsOut_cut pkts sound marked runs lt le, State.readPort_cut pkts sound marked runs lt le]
    rfl
  · show Host.Outcome.next (s.dictWrite pr _ false _) = _
    unfold State.dictWrite
    refine answers_of_open h ?_
    rw [if_neg (by decide), if_neg deep, if_neg (by decide)]
  · exact congrArg Host.Outcome.next s.applyFlush_eq
  · exact State.flushQueue_of_sound sound writing reading waiting
  · exact (State.settleQueue_of_sound sound).trans (State.settlePorts_flush flush writing reading waiting)
  · rw [State.settleQueue, State.checkPointers, if_pos (by exact torn)]

/-- Settles O26, by the rules of a queue's write port, its room, its read port and its flush. -/
theorem queuesKeepReadAndFlushPackets : Obligations.QueuesKeepReadAndFlushPackets :=
  ⟨queuesKeepTheNewestWholePackets, queuesReadFlushAndReset⟩

end Sys2Proof.Claims
end

section
/-! PROOFS. Delivery of packets into their rings (R231, R273): what the consumer gets, and where it goes. -/

namespace Sys2Proof.Machine

open Sys2Proof.Claims

theorem wordBytes_length (l : List W64) : (wordBytes l).length = 8 * l.length := by
  induction l with
  | nil => rfl
  | cons w r ih => simp only [wordBytes, List.flatMap_cons, List.length_append, List.length_cons] at ih ⊢; rw [ih]; simp [leBytes]; omega

/-- Where the pieces of a ring lie and how long they are, whatever their bytes. -/
theorem ringPieces_shape {size off : Nat} {a b : List Byte} (same : a.length = b.length) :
    (ringPieces size off a).map (fun e => (e.1, e.2.length)) = (ringPieces size off b).map fun e => (e.1, e.2.length) := by
  unfold ringPieces
  dsimp only
  rw [same]
  split <;> simp [same]

theorem Packet.poisoned_eq (k : Packet) : ((List.range (k.words.map fun x => (x.data, x.bad)).length).filter fun i =>
    ((k.words.map fun x => (x.data, x.bad)).getD i (0, false)).2) = k.bad := by
  unfold Packet.bad
  rw [List.length_map]
  refine List.filter_congr fun i _ => ?_
  simp only [List.getD_eq_getElem?_getD, List.getElem?_map]
  cases k.words[i]? <;> simp

/-- What is delivered of a packet: its words, and the header of the ring's phase. -/
def Packet.toRing (k : Packet) (r : Ring) (qid : Nat) : List (Nat × List Byte) :=
  ringPieces r.size (r.off + 8) (wordBytes k.data) ++
    ringPieces r.size r.off (wordBytes [mqHeader r.phase false k.bad k.seq qid k.words.length])

/-- The ring behind a packet. -/
def Ring.behind (r : Ring) (k : Packet) : Ring :=
  { r with off := (r.off + 8 * (k.words.length + 1)) % r.size,
           phase := if r.size ≤ r.off + 8 * (k.words.length + 1) then !r.phase else r.phase }

section Deliver

variable {s : State} {qid no fn vec : Nat} {k : Packet} {rest : List Packet} (pkts : (s.mqueue qid).pkts = k :: rest)
  (sound : Sound (s.mqueue qid) k) (some : 0 < (s.ring no).size) (runs : (s.ring no).stopped = false)
  (room : ((s.ring no).off + (s.ring no).size - (s.ring no).cons % (s.ring no).size) % (s.ring no).size + 8 * (k.words.length + 1) < (s.ring no).size)
include pkts sound some runs room

/-- A packet with room goes to host memory. -/
theorem State.deliver_host (host : (bitN (s.ring no).base 0 && decide (no < 16)) = false) (master : s.canMaster fn = true) :
    s.deliver qid no fn vec [] =
      (((((s.setQueue qid ((s.mqueue qid).taken qid k.words.length k)).settleQueue qid).setRing no ((s.ring no).behind k)).emits
        ((k.toRing (s.ring no) qid).map fun e => Emit.hostWrite fn ((s.ring no).base.toNat + e.1) e.2 false false)).msix fn vec) := by
  have taken := State.takeFrom_whole pkts sound le_rfl (s.ring no).phase
  rw [Packet.take_whole sound.2.2.2.1 sound.2.2.2.2 le_rfl] at taken
  unfold Packet.toRing Packet.data Ring.behind
  generalize (s.setQueue qid _).settleQueue qid = t at taken ⊢
  have fits : (decide ((s.ring no).size ≠ 0 ∧ ¬ (s.ring no).stopped = true ∧
      ((s.ring no).off + (s.ring no).size - (s.ring no).cons % (s.ring no).size) % (s.ring no).size + 8 * (k.words.length + 1) < (s.ring no).size)) =
      true := by simp [runs, room, some.ne']
  unfold State.deliver
  dsimp only
  rw [pkts]
  dsimp only
  rw [if_neg (by rw [fits, host, master]; decide), if_neg (by rw [host]; simp), taken]
  dsimp only [Taken.cutOff]
  simp only [Bool.false_and, Bool.false_eq_true, if_false, List.append_nil, Packet.poisoned_eq, Option.getD_some, ite_self, host, List.map_map]
  rfl

/-- A packet with room goes to device memory that the partition's accesses reach. -/
theorem State.deliver_device (device : (bitN (s.ring no).base 0 && decide (no < 16)) = true)
    (reach : ∀ e ∈ k.toRing (s.ring no) qid, s.rangeAccess no ((s.ring no).base.toNat / 2 * 2 + e.1) e.2.length = .ok ()) :
    s.deliver qid no fn vec [] =
      ((k.toRing (s.ring no) qid).foldl (fun t e => t.memWrite ((s.ring no).base.toNat / 2 * 2 + e.1) e.2)
        (((s.setQueue qid ((s.mqueue qid).taken qid k.words.length k)).settleQueue qid).setRing no ((s.ring no).behind k))).msix fn vec := by
  have taken := State.takeFrom_whole pkts sound le_rfl (s.ring no).phase
  rw [Packet.take_whole sound.2.2.2.1 sound.2.2.2.2 le_rfl] at taken
  have all : (k.toRing (s.ring no) qid).takeWhile (fun e => decide (s.rangeAccess no ((s.ring no).base.toNat / 2 * 2 + e.1) e.2.length = .ok ())) =
      k.toRing (s.ring no) qid := List.takeWhile_eq_self_iff.mpr fun e mem => decide_eq_true (reach e mem)
  have free : ¬ ((ringPieces (s.ring no).size ((s.ring no).off + 8) (List.replicate (8 * (k.words.length + 1) - 8) 0) ++
      ringPieces (s.ring no).size (s.ring no).off (List.replicate 8 0)).map
        fun e => s.rangeAccess no ((s.ring no).base.toNat / 2 * 2 + e.1) e.2.length).contains .held = true := by
    have shape : (ringPieces (s.ring no).size ((s.ring no).off + 8) (List.replicate (8 * (k.words.length + 1) - 8) 0) ++
        ringPieces (s.ring no).size (s.ring no).off (List.replicate 8 0)).map (fun e => (e.1, e.2.length)) =
        (k.toRing (s.ring no) qid).map fun e => (e.1, e.2.length) := by
      rw [Packet.toRing, List.map_append, List.map_append]
      refine congrArg₂ (· ++ ·) (ringPieces_shape ?_) (ringPieces_shape ?_)
      · simp only [wordBytes_length, List.length_replicate, Packet.data, List.length_map]; omega
      · simp only [wordBytes_length, List.length_replicate, List.length_cons, List.length_nil]
    intro held
    obtain ⟨e, mem, at_⟩ := List.mem_map.mp (List.contains_iff_mem.mp held)
    obtain ⟨e', mem', same⟩ := List.mem_map.mp (shape ▸ List.mem_map_of_mem mem)
    obtain ⟨first, length⟩ := Prod.mk.inj same
    rw [← first, ← length, reach e' mem'] at at_
    cases at_
  unfold Packet.toRing Packet.data at all ⊢
  unfold Ring.behind
  generalize (s.setQueue qid _).settleQueue qid = t at taken ⊢
  have fits : (decide ((s.ring no).size ≠ 0 ∧ ¬ (s.ring no).stopped = true ∧
      ((s.ring no).off + (s.ring no).size - (s.ring no).cons % (s.ring no).size) % (s.ring no).size + 8 * (k.words.length + 1) < (s.ring no).size)) =
      true := by simp [runs, room, some.ne']
  unfold State.deliver
  dsimp only
  rw [pkts]
  dsimp only
  rw [if_neg (by rw [fits, device]; simp), if_neg (by rw [device, if_pos rfl]; exact fun h => free h.2), taken]
  dsimp only [Taken.cutOff]
  simp only [Bool.false_and, Bool.false_eq_true, if_false, List.append_nil, Packet.poisoned_eq, Option.getD_some, ite_self, device, if_true, List.map_map]
  rw [show List.map (Prod.fst ∘ fun x : Slot => (x.data, x.bad)) k.words = k.words.map Slot.data from rfl, all, if_pos rfl]

end Deliver

end Sys2Proof.Machine

namespace Sys2Proof.Claims

open Sys2Proof Sys2Proof.Machine

/-- Settles O27, by the rules of delivery to host and to device memory, and of the ring's registers. -/
theorem deliveryFillsTheRing : Obligations.DeliveryFillsTheRing := by
  intro s pr qid fn ring v m no to_ vector r
  refine ⟨?_, fun ide => ⟨fun takes mine => ?_,
    fun other => ?_⟩, fun h => ⟨?_, fun size => ?_, fun size => ?_⟩⟩
  · intro q k rest pkts sound some runs need room pieces r' taken
    have fill : pieces = k.toRing r qid := rfl
    refine ⟨fun host master => congrArg Host.Outcome.next ?_, fun device event reach => ?_⟩
    · have goes : s.deliverQueue qid [] = s.deliver qid no to_ vector [] := by
        by_cases event : qid.val < 16
        · simp [State.deliverQueue, no, to_, vector, event, fnOfPart]
        · simp [State.deliverQueue, no, to_, vector, event, q]
      have free : (bitN (s.ring no).base 0 && decide (no < 16)) = false := by
        rcases host with host | trace
        · exact (Bool.and_eq_false_iff).mpr (.inl host)
        · exact (Bool.and_eq_false_iff).mpr (.inr (by simp [no, Nat.not_lt.mpr trace]))
      rw [fill]
      exact goes.trans (State.deliver_host pkts sound some runs room free master)
    · refine congrArg Host.Outcome.next ?_
      have no_ : no = qid.val := if_pos event
      have goes : s.deliverQueue qid [] = s.deliver qid no to_ vector [] := by simp [State.deliverQueue, no, to_, vector, event, fnOfPart]
      have there : (bitN (s.ring no).base 0 && decide (no < 16)) = true :=
        Bool.and_eq_true_iff.mpr ⟨device, decide_eq_true (no_.trans_lt event)⟩
      have reached : ∀ e ∈ k.toRing (s.ring no) qid, s.rangeAccess no ((s.ring no).base.toNat / 2 * 2 + e.1) e.2.length = .ok () := by
        intro e mem
        exact (congrArg (fun n => s.rangeAccess n ((s.ring no).base.toNat / 2 * 2 + e.1) e.2.length) no_).trans (reach e (fill ▸ mem))
      rw [fill]
      exact goes.trans (State.deliver_device pkts sound some runs room there reached)
  · exact if_pos ⟨takes, mine⟩
  · refine if_neg fun both => ?_
    rcases other with none | ⟨a, b⟩
    · exact absurd both.1 (by rw [none]; decide)
    · exact both.2.elim a b
  · show Host.Outcome.next (s.dictWrite pr _ false _) = _
    unfold State.dictWrite
    exact answers_of_open h rfl
  · show Host.Outcome.next (s.dictWrite pr _ false _) = _
    unfold State.dictWrite
    refine answers_of_open h ?_
    rw [if_neg (by simp [size])]
    rfl
  · show Host.Outcome.next (s.dictWrite pr _ false _) = _
    unfold State.dictWrite
    refine answers_of_open h ?_
    exact if_pos (by simp [size])

end Sys2Proof.Claims
end

section
/-! PROOFS. The window into device memory (R274 to R276, R413): what the check of an access decides, and what then happens. -/

namespace Sys2Proof.Machine

open Sys2Proof.Claims

section Window

variable {s : State} {fn : Fin 17} {off len : Nat} {w : Option (List Byte)} {m : List EccHit} {ide : Bool} (takes : s.takesRequest fn ide = true)
include takes

/-- An access behind a held one of its function is held as it came. -/
theorem State.windowAccess_behind (behind : ¬ ∀ k ∈ s.mem.held, k.fn ≠ fn.val) : s.windowAccess fn off len w m ide =
    { s with mem := { s.mem with held := s.mem.held ++ [windowAt s fn off len w m] } } := by
  have any : (s.mem.held.any fun k => k.fn == fn.val) = true := by simpa using behind
  unfold State.windowAccess
  rw [takes]
  dsimp only
  rw [if_neg (by decide), if_pos any]
  rfl

section Clear

variable (clear : ∀ k ∈ s.mem.held, k.fn ≠ fn.val)
include clear

/-- Any other access is checked as it comes. -/
theorem State.windowAccess_clear : s.windowAccess fn off len w m ide = match s.windowStep (windowAt s fn off len w m) with
    | some t => t
    | none => { s with mem := { s.mem with held := s.mem.held ++ [{ windowAt s fn off len w m with passed := true }] } } := by
  have any : ¬ (s.mem.held.any fun k => k.fn == fn.val) = true := by simpa using clear
  unfold State.windowAccess
  rw [takes]
  dsimp only
  rw [if_neg (by decide), if_neg any]
  rfl

theorem State.windowAccess_of_served (check : s.windowCheck (windowAt s fn off len w m) = .served) :
    s.windowAccess fn off len w m ide = s.windowServe (windowAt s fn off len w m) := by
  rw [State.windowAccess_clear takes clear, State.windowStep, check]

theorem State.windowAccess_of_refused (check : s.windowCheck (windowAt s fn off len w m) = .refused) :
    s.windowAccess fn off len w m ide = s.windowRefused (windowAt s fn off len w m) := by
  rw [State.windowAccess_clear takes clear, State.windowStep, check]

theorem State.windowAccess_of_denied (check : s.windowCheck (windowAt s fn off len w m) = .denied) :
    s.windowAccess fn off len w m ide = (s.windowDenied (windowAt s fn off len w m)).windowRefused (windowAt s fn off len w m) := by
  rw [State.windowAccess_clear takes clear, State.windowStep, check]

theorem State.windowAccess_of_wait (check : s.windowCheck (windowAt s fn off len w m) = .wait) : s.windowAccess fn off len w m ide =
    { s with mem := { s.mem with held := s.mem.held ++ [{ windowAt s fn off len w m with passed := true }] } } := by
  rw [State.windowAccess_clear takes clear, State.windowStep, check]

end Clear

end Window

/-! ### The check (R275) -/

section Check

variable {s : State} {fn off len : Nat} {w : Option (List Byte)} {m : List EccHit}

theorem windowAt_open (wen : (s.fn fn).wen = true) (inside : (s.fn fn).winBase.toNat + off / 2 ^ 25 < 65536) :
    (windowAt s fn off len w m).shut = false := by
  simp only [windowAt, wen, Bool.not_true, Bool.false_or, decide_eq_false_iff_not, not_lt]
  omega

theorem windowAt_shut (shut : ¬ ((s.fn fn).wen = true ∧ (s.fn fn).winBase.toNat + off / 2 ^ 25 < 65536)) :
    (windowAt s fn off len w m).shut = true := by
  simp only [windowAt, Bool.or_eq_true, Bool.not_eq_true', decide_eq_true_eq]
  by_cases wen : (s.fn fn).wen = true
  · have out : ¬ (s.fn fn).winBase.toNat + off / 2 ^ 25 < 65536 := fun inside => shut ⟨wen, inside⟩
    exact .inr (by omega)
  · exact .inl (Bool.not_eq_true _ ▸ wen)

/-- An access that reaches its slab is decided by its wipes and by WBIAS. -/
theorem State.windowCheck_of_reaches {a : HeldAccess} (shut : a.shut = false) (reaches : WindowReaches s a) : s.windowCheck a =
    if s.wipeMeets a || s.damper.shutdown then .wait
    else if (s.slab (a.pa / 2 ^ 25)).wbias == 2 || ((s.slab (a.pa / 2 ^ 25)).wbias == 1 && a.write.isNone) then .served else .refused := by
  obtain ⟨life, plain, owner⟩ := reaches
  unfold State.windowCheck
  dsimp only
  generalize a.pa / 2 ^ 25 = n at *
  have mine : ¬ (!(s.slabLife n == .assigned) || a.fn != 0 && (s.slab n).owner.toNat + 1 != a.fn) = true := by
    rcases owner with zero | own
    · simp [life, zero]
    · simp [life, own]
  rw [if_neg (by simp [shut]), if_neg (by simp [plain]), if_neg mine]

theorem wbiasAllows_iff {a : HeldAccess} : ((s.slab (a.pa / 2 ^ 25)).wbias == 2 || ((s.slab (a.pa / 2 ^ 25)).wbias == 1 && a.write.isNone)) = true ↔
    WbiasAllows s a := by
  unfold WbiasAllows
  generalize (s.slab (a.pa / 2 ^ 25)).wbias = b
  simp

section Reaches

variable {a : HeldAccess} (shut : a.shut = false) (reaches : WindowReaches s a)
include shut reaches

theorem State.windowCheck_waits (wait : s.wipeMeets a = true ∨ s.damper.shutdown = true) : s.windowCheck a = .wait := by
  rw [State.windowCheck_of_reaches shut reaches, if_pos (by simpa using wait)]

variable (goes : s.wipeMeets a = false ∧ s.damper.shutdown = false)
include goes

theorem State.windowCheck_served (allows : WbiasAllows s a) : s.windowCheck a = .served := by
  rw [State.windowCheck_of_reaches shut reaches, if_neg (by simp [goes.1, goes.2]), if_pos (wbiasAllows_iff.mpr allows)]

theorem State.windowCheck_barred (barred : ¬ WbiasAllows s a) : s.windowCheck a = .refused := by
  rw [State.windowCheck_of_reaches shut reaches, if_neg (by simp [goes.1, goes.2]), if_neg (mt wbiasAllows_iff.mp barred)]

end Reaches

theorem State.windowCheck_shut {a : HeldAccess} (shut : a.shut = true) : s.windowCheck a = .refused := if_pos shut

theorem State.windowCheck_unassigned {a : HeldAccess} (life : s.slabLife (a.pa / 2 ^ 25) ≠ .assigned) : s.windowCheck a = .refused := by
  unfold State.windowCheck
  generalize a.pa / 2 ^ 25 = n at *
  simp [life]

theorem State.windowCheck_foreign {a : HeldAccess} (plain : s.confidential (s.slab (a.pa / 2 ^ 25)).owner.toNat = false) (vf : a.fn ≠ 0)
    (owner : (s.slab (a.pa / 2 ^ 25)).owner.toNat + 1 ≠ a.fn) : s.windowCheck a = .refused := by
  unfold State.windowCheck
  generalize a.pa / 2 ^ 25 = n at *
  simp [plain, vf, owner]

theorem State.windowCheck_confidential {a : HeldAccess} (shut : a.shut = false) (first : a.passed = false)
    (life : s.slabLife (a.pa / 2 ^ 25) = .assigned) (conf : s.confidential (s.slab (a.pa / 2 ^ 25)).owner.toNat = true) :
    s.windowCheck a = .denied := by
  unfold State.windowCheck
  generalize a.pa / 2 ^ 25 = n at *
  simp [shut, first, life, conf]

end Check

end Sys2Proof.Machine

namespace Sys2Proof.Claims

open Sys2Proof Sys2Proof.Machine

theorem windowServesWhatItsCheckPasses : WindowServesWhatItsCheckPasses := by
  intro s fn off len d m ide takes a b isOpen clear hold read goes refused readRefused
  have reads (check : s.windowCheck a = .refused) (free : clear) : exec (.windowRead fn off len m ide) s = readRefused :=
    congrArg Host.Outcome.next (State.windowAccess_of_refused takes free check)
  have writes (check : s.windowCheck b = .refused) (free : clear) : exec (.windowWrite fn off d m ide) s = .next refused :=
    congrArg Host.Outcome.next (State.windowAccess_of_refused takes free check)
  have opened (w : isOpen) : a.shut = false ∧ b.shut = false := ⟨windowAt_open w.1 w.2, windowAt_open w.1 w.2⟩
  refine ⟨fun open_ free reach allows go => ?_, fun open_ free reach allows go => ?_, fun open_ free reach => ⟨fun wait => ?_, fun wait => ?_⟩,
    fun behind => ⟨?_, ?_⟩, fun free why => ?_, fun open_ free reach => ⟨fun bias go => ?_, fun bias go => ?_⟩⟩
  · have served : exec (.windowRead fn off len m ide) s = .next (s.windowServe a) :=
      congrArg Host.Outcome.next (State.windowAccess_of_served takes free (State.windowCheck_served (opened open_).1 reach go allows))
    refine ⟨fun clean => ?_, fun bad => ?_⟩
    · exact served.trans (congrArg Host.Outcome.next (if_neg (Bool.not_eq_true _ ▸ clean)))
    · exact served.trans (congrArg Host.Outcome.next (if_pos bad))
  · exact congrArg Host.Outcome.next (State.windowAccess_of_served takes free (State.windowCheck_served (opened open_).2 reach go allows))
  · exact congrArg Host.Outcome.next (State.windowAccess_of_wait takes free (State.windowCheck_waits (opened open_).1 reach wait))
  · exact congrArg Host.Outcome.next (State.windowAccess_of_wait takes free (State.windowCheck_waits (opened open_).2 reach wait))
  · exact congrArg Host.Outcome.next (State.windowAccess_behind takes behind)
  · exact congrArg Host.Outcome.next (State.windowAccess_behind takes behind)
  · rcases why with shut | life | ⟨plain, vf, owner⟩
    · exact ⟨reads (State.windowCheck_shut (windowAt_shut shut)) free, writes (State.windowCheck_shut (windowAt_shut shut)) free⟩
    · exact ⟨reads (State.windowCheck_unassigned life) free, writes (State.windowCheck_unassigned life) free⟩
    · exact ⟨reads (State.windowCheck_foreign plain vf owner) free, writes (State.windowCheck_foreign plain vf owner) free⟩
  · refine reads (State.windowCheck_barred (opened open_).1 reach go fun allows => ?_) free
    rcases allows with two | ⟨one, -⟩
    · exact bias.elim (fun h => absurd (h.symm.trans two) (by decide)) fun h => absurd (h.symm.trans two) (by decide)
    · exact bias.elim (fun h => absurd (h.symm.trans one) (by decide)) fun h => absurd (h.symm.trans one) (by decide)
  · refine writes (State.windowCheck_barred (opened open_).2 reach go fun allows => ?_) free
    rcases allows with two | ⟨-, load⟩
    · exact bias two
    · cases load

theorem windowDeniesConfidentialSlabs : WindowDeniesConfidentialSlabs := by
  intro s fn off len d m ide takes wen inside free pa owner life conf logged counted
  have denied (len : Nat) (w : Option (List Byte)) : s.windowAccess fn off.toNat len w m ide =
      (s.windowDenied (windowAt s fn off.toNat len w m)).windowRefused (windowAt s fn off.toNat len w m) :=
    State.windowAccess_of_denied takes free (State.windowCheck_confidential (windowAt_open wen inside) rfl life conf)
  have kept (w : Bool) : (counted (logged w)).mem = s.mem := State.post_mem ..
  exact ⟨congrArg Host.Outcome.next (denied _ _), congrArg Host.Outcome.next (denied _ _), kept true, kept false⟩

/-- Settles O28, by the check of an access and what each of its answers does. -/
theorem theWindowServesOrDenies : Obligations.TheWindowServesOrDenies := ⟨windowServesWhatItsCheckPasses, windowDeniesConfidentialSlabs⟩

end Sys2Proof.Claims
end

section
/-! PROOFS. BAR0 and configuration requests (R268 to R281), and the vectors that an unmasking sends (R284). -/

namespace Sys2Proof.Machine

/-! ### Requests to BAR0 -/

theorem State.barWrite_takes {s : State} {fn : Nat} {ide : Bool} (takes : s.takesRequest fn ide = true) (f : Fn → Fn) :
    s.barWrite fn ide f = s.setFn fn (f (s.fn fn)) := if_pos takes

section Page

variable (s : State) (fn k : Nat) (c : Fin 4096) (ide : Bool) (inside : k < 0x1000)
include inside

/-- A read of a doorbell page lies above every other register. -/
theorem State.barReg_page : s.barReg fn (0x1000000 + 0x1000 * c.val + k) ide = if !s.ownsPage fn c ide then 0
    else if k = 0x108 then (s.ctx c).semsel.toNat
    else if k = 0x110 then (sget 0 (s.part (s.ctx c).part.toNat).sems (s.ctx c).semsel.toNat).toNat
    else 0 := by
  have context : (0x1000000 + 0x1000 * c.val + k - 0x1000000) / 0x1000 = c := by omega
  have place : (0x1000000 + 0x1000 * c.val + k) % 0x1000 = k := by omega
  have page : 0x1000000 ≤ 0x1000000 + 0x1000 * c.val + k ∧ 0x1000000 + 0x1000 * c.val + k < 0x2000000 := by
    have := c.isLt
    omega
  unfold State.barReg
  generalize 0x1000000 + 0x1000 * c.val + k = o at context place page ⊢
  obtain ⟨low, high⟩ := page
  dsimp only
  rw [if_neg (by omega), if_neg (by omega), if_neg (by omega), if_neg (by omega), if_neg (by omega), if_pos ⟨low, high⟩, context, place]

end Page

/-! ### Configuration requests -/

/-- A request that only changes a function's registers wakes what waits for the bus. -/
theorem configurationRequest_sets {s : State} {fn : Fin 17} {ide : Bool} {c : ConfigSet} (up : s.host.linkUp = true) (there : s.fnThere fn = true)
    (ok : s.ideOk fn ide = true) (write : c ≠ .readIds) : exec (.configurationRequest fn c ide) s =
      .next ((List.range 17).foldl State.busWake (if fn = 0 then (s.setFn fn ((s.fn fn).config c)).configPf c
        else s.setFn fn ((s.fn fn).config c))) := by
  refine (if_neg (by simp [up])).trans ((if_neg (by simp [there, ok])).trans ?_)
  cases c
  case readIds => exact absurd rfl write
  all_goals rfl

theorem State.configPf_vfEnable (s : State) : s.configPf (.vfEnable true) = { s with host := { s.host with vfEnable := true } } := by
  simp [State.configPf]

/-! ### Pending vectors (R284) -/

theorem State.emits_out (l : List Emit) (s : State) : (s.emits l).hub.out = l.reverse ++ s.hub.out := by
  induction l generalizing s with
  | nil => rfl
  | cons e r ih => exact (ih _).trans (by simp)

theorem State.emits_host (l : List Emit) (s : State) : (s.emits l).host = s.host := by
  induction l generalizing s with
  | nil => rfl
  | cons e r ih => exact ih _

end Sys2Proof.Machine

namespace Sys2Proof.Claims

open Sys2Proof Sys2Proof.Machine

theorem barRequestsSetTheirRegisters : BarRequestsSetTheirRegisters := by
  intro s fn v e h off bar vec data on ide f wake
  refine ⟨fun takes => ⟨?_, ?_, ?_, ?_, ?_, ?_⟩, ⟨rfl, fun vf => ?_, rfl, rfl, fun c => ⟨fun owns => ⟨?_, ?_⟩, fun other k inside => ?_⟩⟩,
    fun up => ⟨if_pos up, fun lacks c => ?_, fun there ok => ⟨?_, ?_, ?_, ?_, ?_, ?_⟩, fun off n => ⟨?_, ?_⟩⟩⟩
  · exact congrArg Host.Outcome.next (State.barWrite_takes takes _)
  · exact congrArg Host.Outcome.next (State.barWrite_takes takes _)
  · exact if_pos takes
  · refine congrArg Host.Outcome.next ((if_pos takes).trans ?_)
    rw [State.barWrite_takes takes]
    rfl
  · refine congrArg Host.Outcome.next ((if_pos takes).trans ?_)
    rw [State.barWrite_takes takes]
    rfl
  · refine congrArg Host.Outcome.next ((if_pos takes).trans ?_)
    rw [State.barWrite_takes takes]
    rfl
  · exact if_neg (by omega)
  · rw [State.barReg_page s fn 0x108 c ide (by decide), owns]
    rfl
  · rw [State.barReg_page s fn 0x110 c ide (by decide), owns]
    rfl
  · rw [State.barReg_page s fn k c ide inside, other]
    rfl
  · refine (if_neg (by simp [up])).trans (if_pos ?_)
    rcases lacks with there | ok
    · simp [there]
    · simp [ok]
  · rw [configurationRequest_sets up there ok ConfigSet.noConfusion]
    exact congrArg (fun t => Host.Outcome.next (wake t)) (ite_self _)
  · rw [configurationRequest_sets up there ok ConfigSet.noConfusion]
    exact congrArg (fun t => Host.Outcome.next (wake t)) (ite_self _)
  · rw [configurationRequest_sets up there ok ConfigSet.noConfusion]
    exact congrArg (fun t => Host.Outcome.next (wake t)) (ite_self _)
  · rw [configurationRequest_sets up there ok ConfigSet.noConfusion]
    exact congrArg (fun t => Host.Outcome.next (wake t)) (ite_self _)
  · rw [configurationRequest_sets up there ok ConfigSet.noConfusion]
    exact congrArg (fun t => Host.Outcome.next (wake t)) (ite_self _)
  · exact (if_neg (by simp [up])).trans (if_neg (by simp [there, ok]))
  · rw [configurationRequest_sets (fn := 0) up rfl rfl ConfigSet.noConfusion, if_pos rfl]
    exact congrArg (fun t => Host.Outcome.next (wake t)) (if_neg (fun on => Bool.noConfusion (off.symm.trans on)))
  · rw [configurationRequest_sets (fn := 0) up rfl rfl ConfigSet.noConfusion, if_pos rfl, State.configPf_vfEnable]
    rfl

theorem pendingVectorsGoOnce : PendingVectorsGoOnce := by
  intro s fn mask enabled master go
  have goes : s.sendPending fn = (s.setFn fn { s.fn fn with pendingVec := (s.fn fn).pendingVec.filter fun v => !(s.fn fn).unmasked.contains v }).emits
      (go.map fun v => (s.fn fn).message fn v) := if_neg (by simp [mask, enabled, master])
  refine ⟨?_, fun v => ?_⟩
  · rw [goes, State.emits_out]
    rfl
  · rw [goes, State.fn, State.emits_host, ← State.fn, State.fn_setFn_same]
    simp

/-- Settles O29, by each request to BAR0, each configuration request, and what an unmasking sends. -/
theorem barRequestsAndVectorsTakeEffect : Obligations.BarRequestsAndVectorsTakeEffect := ⟨barRequestsSetTheirRegisters, pendingVectorsGoOnce⟩

end Sys2Proof.Claims
end

section
/-! PROOFS. Link training and the resets of the link (R267, R285, R286): what they leave of a function, and what they do not touch. -/

namespace Sys2Proof.Machine

theorem Fn.linkReset_linkReset (f : Fn) : f.linkReset.linkReset = f.linkReset := rfl

/-- One function's registers after a reset, and the requests that wait for it. -/
def State.resetFn (s : State) (k : Nat) : State := (s.setFn k (s.fn k).linkReset).quietWaits k

theorem State.fn_resetFn (s : State) (k n : Nat) : (s.resetFn k).fn n = if n = k then (s.fn n).linkReset else s.fn n := by
  refine (s.fn_setFn k n _).trans ?_
  split
  · next same => rw [same]
  · rfl

/-- A reset of functions changes their registers, and the requests that wait for them. -/
structure State.FnStep (s t : State) : Prop where
  mem   : t.mem = s.mem
  cores : t.cores = s.cores
  disp  : t.disp = s.disp
  hub   : t.hub = s.hub
  link  : t.host.linkUp = s.host.linkUp

theorem State.resetFns_step (l : List Nat) (s : State) : s.FnStep (l.foldl State.resetFn s) ∧
    ∀ n, (l.foldl State.resetFn s).fn n = if n ∈ l then (s.fn n).linkReset else s.fn n := by
  induction l generalizing s with
  | nil => exact ⟨⟨rfl, rfl, rfl, rfl, rfl⟩, fun n => rfl⟩
  | cons k r ih =>
    obtain ⟨⟨mem, cores, disp, hub, link⟩, fns⟩ := ih (s.resetFn k)
    refine ⟨⟨mem, cores, disp, hub, link⟩, fun n => (fns n).trans ?_⟩
    rw [State.fn_resetFn]
    by_cases same : n = k <;> by_cases more : n ∈ r <;> simp [same, more, Fn.linkReset_linkReset]

/-- The link is down, and what it carried is gone. -/
def State.linkEnded (s : State) : State :=
  ({ s with host := { s.host with linkUp := false, cache := [], vfEnable := false, numVfs := 0, vfBars := [0, 0, 0] }
            mem := { s.mem with held := s.mem.held.filter fun a => a.write.isSome }
            sec := s.sec.linkEnd }).stallHost

theorem State.linkReset_eq (s : State) : s.linkReset = ((List.range 17).foldl State.resetFn s).linkEnded := by
  unfold State.linkReset State.linkEnded State.resetFn
  with_reducible rfl

/-- A reset of the link resets every function and quarantines it. -/
theorem State.linkReset_keeps (s : State) : s.linkReset.host.linkUp = false ∧ s.linkReset.host.cache = [] ∧ s.linkReset.host.vfEnable = false ∧
    s.linkReset.sec.ide = [] ∧ (∀ k < 17, s.linkReset.fn k = (s.fn k).linkReset) ∧ s.linkReset.mem.bytes = s.mem.bytes ∧
    s.linkReset.cores = s.cores ∧ s.linkReset.disp = s.disp ∧ s.linkReset.hub = s.hub := by
  obtain ⟨⟨mem, cores, disp, hub, -⟩, fns⟩ := State.resetFns_step (List.range 17) s
  have reset : ∀ k < 17, ((List.range 17).foldl State.resetFn s).fn k = (s.fn k).linkReset := fun k lt =>
    (fns k).trans (if_pos (List.mem_range.mpr lt))
  rw [State.linkReset_eq]
  generalize (List.range 17).foldl State.resetFn s = t at mem cores disp hub reset ⊢
  exact ⟨rfl, rfl, rfl, rfl, reset, show t.mem.bytes = s.mem.bytes by rw [mem], cores, disp, hub⟩

end Sys2Proof.Machine

namespace Sys2Proof.Claims

open Sys2Proof Sys2Proof.Machine

/-- Settles O30, by what a reset of the link leaves of each function. -/
theorem linkResetsQuarantineAndKeepTheDevice : Obligations.LinkResetsQuarantineAndKeepTheDevice := by
  intro s gen width n ide alive
  refine ⟨fun clock mode => ?_, ⟨s.linkReset, if_pos alive, ?_⟩, ⟨State.linkReset { s with hub := { s.hub with perstN := false } }, if_pos alive, ?_⟩, fun up there lacks => ?_,
    fun up there ok => ⟨s.vfFlr (n.val + 1), ?_, ?_⟩⟩
  · exact if_neg (by simp [alive, clock, mode])
  · obtain ⟨link, cache, vf, ide, fns, mem, cores, disp, hub⟩ := s.linkReset_keeps
    exact ⟨link, cache, vf, ide, fun k lt => ⟨fns k lt, congrArg Fn.quar (fns k lt)⟩, mem, cores, disp, hub⟩
  · obtain ⟨link, cache, vf, ide, fns, mem, cores, disp, hub⟩ := State.linkReset_keeps { s with hub := { s.hub with perstN := false } }
    generalize State.linkReset { s with hub := { s.hub with perstN := false } } = t at *
    exact ⟨link, by rw [hub], by rw [hub], cache, vf, ide, fun k lt => ⟨fns k lt, congrArg Fn.quar (fns k lt)⟩, mem, cores, disp⟩
  · exact (if_neg (by simp [alive, up, there])).trans (if_pos (by simp [lacks]))
  · exact (if_neg (by simp [alive, up, there])).trans (if_neg (by simp [ok]))
  · have fns (k : Nat) : (s.vfFlr (n.val + 1)).fn k = if k = n.val + 1 then (s.fn k).linkReset else s.fn k := s.fn_resetFn (n.val + 1) k
    have mine : (s.vfFlr (n.val + 1)).fn (n.val + 1) = (s.fn (n.val + 1)).linkReset := (fns _).trans (if_pos rfl)
    exact ⟨mine, congrArg Fn.quar mine, fun k other => (fns k).trans (if_neg other), up, rfl, rfl, rfl, rfl⟩

end Sys2Proof.Claims
end

section
/-! PROOFS. Host transfers that stall (R286, R288) and the re-attach (R287 to R290). -/

namespace Sys2Proof.Machine

open Sys2Proof.Claims

/-! ### The commands that a fault leaves -/

theorem State.cmd_modCmd (s : State) (u v : Nat) {f : Issued → Issued} (same : ∀ i, (f i).uid = i.uid) :
    (s.modCmd u f).cmd v = if v = u then (s.cmd v).map f else s.cmd v := by
  show (modFirst (fun i => i.uid == u) f s.disp.issued).find? (fun i => i.uid == v) = _
  unfold State.cmd
  generalize s.disp.issued = l
  induction l with
  | nil => split <;> rfl
  | cons i r ih =>
    unfold modFirst
    by_cases mine : i.uid = u
    · rw [if_pos (by simpa using mine)]
      by_cases at_ : v = u
      · simp [same, mine, at_]
      · simp [same, mine, at_, Ne.symm at_]
    · rw [if_neg (by simpa using mine)]
      by_cases here : i.uid = v
      · have apart : ¬ v = u := fun at_ => mine (here.trans at_)
        simp [here, apart]
      · have next : (i.uid == v) = false := by simpa using here
        simpa [List.find?_cons, next] using ih

theorem State.discardGang_disp (uid : Nat) (gang : List Nat) (s : State) : (s.discardGang uid gang).disp = s.disp := by
  induction gang generalizing s with
  | nil => rfl
  | cons p r ih => exact ih _

/-- The stage of a command that a fault has found. -/
def Issued.faulted (st : BitVec 16) (i : Issued) : Issued :=
  match i.stage with
  | .faulted _ => i
  | _ => { i with stage := .faulted st }

theorem Issued.faulted_uid (st : BitVec 16) (i : Issued) : (i.faulted st).uid = i.uid := by
  unfold Issued.faulted
  split <;> rfl

theorem Issued.faulted_stage {st : BitVec 16} {i : Issued} (runs : ∀ x, i.stage ≠ .faulted x) : (i.faulted st).stage = .faulted st := by
  unfold Issued.faulted
  split
  · next h => exact absurd h (runs _)
  · rfl

theorem Issued.faulted_keeps {st x : BitVec 16} {i : Issued} (h : i.stage = .faulted x) : i.faulted st = i := by
  simp [Issued.faulted, h]

/-- A fault changes the stage of its command alone. -/
theorem State.cmd_faultCmd (s : State) (u v : Nat) (st : BitVec 16) :
    (s.faultCmd u st).cmd v = if v = u then (s.cmd v).map (Issued.faulted st) else s.cmd v := by
  cases found : s.cmd u with
  | none =>
    rw [s.faultCmd_none u st found]
    split
    · next same => rw [same, found]; rfl
    · rfl
  | some i =>
    have done : ((s.discardGang u i.gang).modCmd u (Issued.faulted st)).cmd v = if v = u then (s.cmd v).map (Issued.faulted st) else s.cmd v := by
      rw [State.cmd_modCmd _ u v (Issued.faulted_uid st)]
      simp only [State.cmd, State.discardGang_disp]
    rw [← done]
    unfold State.faultCmd
    rw [found]
    show State.cmd (match ((s.discardGang u i.gang).modCmd u (Issued.faulted st)).ctx i.ctx |>.pending with
      | some _ => (s.discardGang u i.gang).modCmd u (Issued.faulted st)
      | none => ((s.discardGang u i.gang).modCmd u (Issued.faulted st)).setCtx i.ctx _) v = _
    split <;> rfl

/-- Faults of commands change neither the peal engine nor the clock nor the host's registers. -/
theorem State.faultCmds_outside (l : List Inst) (st : BitVec 16) (s : State) : SameOutside s (l.foldl (fun s i => s.faultCmd i.uid st) s) := by
  induction l generalizing s with
  | nil => exact (CoresChange.refl (fun _ => True) s).outside
  | cons i r ih => exact SameOutside.trans (s.faultCmd_change i.uid st).outside (ih _)

/-- A command keeps its stage, or a fault has found it. -/
def Issued.Ends (k : Issued) (st : BitVec 16) (t : State) (uid : Nat) : Prop := ∃ k', t.cmd uid = some k' ∧ (k'.stage = k.stage ∨ k'.stage = .faulted st)

/-- A fault has found the command. -/
def State.Faulted (t : State) (st : BitVec 16) (uid : Nat) : Prop := ∃ k', t.cmd uid = some k' ∧ k'.stage = .faulted st

theorem Issued.Ends.faultCmd {k : Issued} {st : BitVec 16} {t : State} {uid : Nat} (h : k.Ends st t uid) (u : Nat) : k.Ends st (t.faultCmd u st) uid := by
  obtain ⟨k', found, stage⟩ := h
  rw [Issued.Ends, State.cmd_faultCmd]
  split
  · refine ⟨k'.faulted st, by rw [found]; rfl, ?_⟩
    unfold Issued.faulted
    split
    · exact stage
    · exact .inr rfl
  · exact ⟨k', found, stage⟩

theorem State.Faulted.faultCmd {st : BitVec 16} {t : State} {uid : Nat} (h : t.Faulted st uid) (u : Nat) : (t.faultCmd u st).Faulted st uid := by
  obtain ⟨k', found, stage⟩ := h
  rw [State.Faulted, State.cmd_faultCmd]
  split
  · exact ⟨k', by rw [found, Option.map_some, Issued.faulted_keeps stage], stage⟩
  · exact ⟨k', found, stage⟩

/-- The fault of the command itself finds it. -/
theorem Issued.Ends.faults {k : Issued} {st : BitVec 16} {t : State} {uid : Nat} (runs : ∀ x, k.stage ≠ .faulted x) (h : k.Ends st t uid) :
    (t.faultCmd uid st).Faulted st uid := by
  obtain ⟨k', found, stage⟩ := h
  refine ⟨k'.faulted st, by rw [State.cmd_faultCmd, if_pos rfl, found]; rfl, ?_⟩
  rcases stage with same | faulted
  · exact Issued.faulted_stage fun x => same ▸ runs x
  · rw [Issued.faulted_keeps faulted, faulted]

/-- The commands of a list of transfers, faulted one after the other. -/
def State.faultAll (s : State) (st : BitVec 16) (l : List Inst) : State := l.foldl (fun s i => s.faultCmd i.uid st) s

theorem State.faultAll_ends {k : Issued} {st : BitVec 16} {uid : Nat} (l : List Inst) {s : State} (h : k.Ends st s uid) :
    k.Ends st (s.faultAll st l) uid := by
  induction l generalizing s with
  | nil => exact h
  | cons i r ih => exact ih (h.faultCmd i.uid)

theorem State.faultAll_keeps {st : BitVec 16} {uid : Nat} (l : List Inst) {s : State} (h : s.Faulted st uid) : (s.faultAll st l).Faulted st uid := by
  induction l generalizing s with
  | nil => exact h
  | cons i r ih => exact ih (h.faultCmd i.uid)

/-- Every command of a list that has not faulted ends with the fault. -/
theorem State.faultAll_faults {k : Issued} {st : BitVec 16} {i : Inst} (runs : ∀ x, k.stage ≠ .faulted x) {l : List Inst} (mem : i ∈ l)
    {s : State} (h : k.Ends st s i.uid) : (s.faultAll st l).Faulted st i.uid := by
  induction l generalizing s with
  | nil => cases mem
  | cons j r ih =>
    rcases List.mem_cons.mp mem with rfl | later
    · exact State.faultAll_keeps r (h.faults runs)
    · exact ih later (h.faultCmd j.uid)

/-! ### The end of a quarantine (R286) -/

theorem State.waitedOut_of_late {s : State} {i : Inst} {t : Nat} (stall : i.stall = some t) (late : t + s.host.waitLimit * 1000000000 ≤ s.now) :
    s.waitedOut i = true := by
  unfold State.waitedOut
  rw [stall, Option.any_some]
  exact decide_eq_true late

/-- The stalled transfers whose limit has passed as their quarantine ends. -/
def State.lateHost (s : State) : List Inst :=
  s.peal.insts.filter fun i => (i.stall.isSome && !s.quarantined (fnOfPart i.part)) && s.waitedOut i

theorem State.unstallHost_cmd (s : State) (uid : Nat) : s.unstallHost.cmd uid = (s.faultAll stPAGE_FAULT s.lateHost).cmd uid := rfl

theorem State.unstallHost_insts (s : State) : s.unstallHost.peal.insts = s.peal.insts.map fun i =>
    if !s.quarantined (fnOfPart i.part) && i.stall.any (fun t => decide (s.now < t + s.host.waitLimit * 1000000000)) then { i with stall := none }
    else i := by
  have peal : (s.faultAll stPAGE_FAULT s.lateHost).peal = s.peal := (State.faultCmds_outside s.lateHost stPAGE_FAULT s).2.2.2.2.2.2.1
  have open_ (i : Inst) : (i.stall.isSome && !s.quarantined (fnOfPart i.part) && !s.waitedOut i) =
      (!s.quarantined (fnOfPart i.part) && i.stall.any fun t => decide (s.now < t + s.host.waitLimit * 1000000000)) := by
    unfold State.waitedOut
    cases i.stall with
    | none => simp
    | some t =>
      rw [Option.any_some, Option.any_some, Option.isSome_some, Bool.true_and]
      generalize t + s.host.waitLimit * 1000000000 = close
      refine congrArg (!s.quarantined (fnOfPart i.part) && ·) ?_
      rw [← decide_not]
      exact decide_eq_decide.mpr Nat.not_le
  show (s.faultAll stPAGE_FAULT s.lateHost).peal.insts.map (fun i =>
    if i.stall.isSome && !s.quarantined (fnOfPart i.part) && !s.waitedOut i then { i with stall := none } else i) = _
  rw [peal]
  exact List.map_congr_left fun i _ => by rw [open_]

/-! ### The rings of a lost host (R290) -/

theorem State.fn_stopRings (s : State) (k n : Nat) : (s.stopRings k).fn n = s.fn n := by
  unfold State.stopRings
  dsimp only
  split_ifs <;> rfl

end Sys2Proof.Machine

namespace Sys2Proof.Claims

open Sys2Proof Sys2Proof.Machine

/-- Settles O31, by what a fault leaves of its command, and the checks of a re-attach. -/
theorem reattachNeedsItsCredential : Obligations.ReattachNeedsItsCredential := by
  intro s uid fn pr target cred
  refine ⟨?_, ⟨s.unstallHost_insts, ?_⟩, fun h reads => ?_, ?_⟩
  · rintro ⟨i, mem, rfl, t, stall, late⟩
    exact if_pos (List.any_eq_true.mpr ⟨i, mem, by rw [State.waitedOut_of_late stall late, beq_self_eq_true, Bool.and_self]⟩)
  · intro i mem t k stall late open_ found
    have ends : k.Ends stPAGE_FAULT s i.uid := ⟨k, found, .inl rfl⟩
    have listed : i ∈ s.lateHost := List.mem_filter.mpr ⟨mem, by rw [State.waitedOut_of_late stall late, stall, open_]; rfl⟩
    obtain ⟨k', there, -⟩ := State.faultAll_ends s.lateHost ends
    refine ⟨k', there, fun runs => ?_⟩
    obtain ⟨k2, at_, stage⟩ := State.faultAll_faults runs listed ends
    cases there.symm.trans at_
    exact stage
  · have goes (f : State → Nat → State) {t : State} {r : BitVec 8} (e : (if (s.fn fn).keeping then (rBUSY, { s with host := { s.host with
        reattachRefused := satAdd 32 s.host.reattachRefused 1 } }) else if !s.credOk fn cred then (rREFUSED, { s with host := { s.host with
        reattachRefused := satAdd 32 s.host.reattachRefused 1 } }) else (rOK, f s fn)) = (r, t)) :
        Host.Outcome.next (s.reattach pr target cred f) = answers pr t r := by
      unfold State.reattach State.dictWrite
      refine answers_of_open h ?_
      rw [reads]
      exact e
    refine ⟨fun keeping => ⟨goes _ (if_pos keeping), goes _ (if_pos keeping)⟩, fun idle bad => ⟨goes _ ?_, goes _ ?_⟩,
      fun idle good => ⟨goes _ ?_, goes _ ?_⟩⟩
    · rw [if_neg (by simp [idle]), if_pos (by simp [bad])]
    · rw [if_neg (by simp [idle]), if_pos (by simp [bad])]
    · rw [if_neg (by simp [idle]), if_neg (by simp [good])]
    · rw [if_neg (by simp [idle]), if_neg (by simp [good])]
      dsimp only
      rw [State.fn_stopRings]
  · simp [State.credOk]

end Sys2Proof.Claims
end

section
/-! PROOFS. Geril packets (R312 to R325): the fields of a header, the checks of a packet, and what an accepted one does. -/

namespace Sys2Proof.Machine

open Sys2Proof.Claims

section Check

variable {s : State} {k : GPkt} {typ : Nat} {op : Option Nat} (f : State → State)

/-- A packet with a good header is counted and goes on. -/
theorem headerOk_of_good (h : HeaderGood s k typ op) : s.headerOk k typ op f = f (counted s k) := by
  obtain ⟨up, mine, on, sum, type, code, ver, dst, size, short⟩ := h
  unfold State.headerOk
  rw [if_neg (by simp [up, mine]), if_neg (by simp [on]), if_neg (by simp [sum])]
  have car : (counted s k).car.ownRank = s.car.ownRank := by unfold counted; split <;> rfl
  show (if k.typ.toNat ≠ typ ∨ _ ∨ k.ver ≠ 1 ∨ k.dst ≠ (counted s k).car.ownRank ∨ 8192 < k.payload.length ∨ (typ = 3 ∧ 256 < k.payload.length) then
      (counted s k).gcount cBadHdr else f (counted s k)) = _
  refine if_neg fun bad => ?_
  rcases bad with t | c | v | d | l | ⟨t, l⟩
  · exact t type
  · cases op with
    | none => exact absurd c (by simp)
    | some o => exact absurd c (by simp [code o rfl])
  · exact v ver
  · exact d (dst.trans car.symm)
  · omega
  · have := short t
    omega

theorem counted_rankEntry (s : State) (k : GPkt) (r : Nat) : (counted s k).rankEntry r = s.rankEntry r := by
  unfold counted
  split <;> rfl

/-- The packet of a rank of the table is judged by its incarnation. -/
theorem receive_of_known (h : HeaderGood s k typ op) (rank : k.src.toNat < 255) (there : (s.rankEntry k.src.toNat).present = true) :
    s.receive k typ op f = if k.inc = (s.rankEntry k.src.toNat).inc then f (counted s k)
      else if k.inc.toNat < (s.rankEntry k.src.toNat).inc.toNat then
        (((counted s k).gcount cStale).netEvent 3 stFENCED_PEER k.src.toNat).answerStale k.src.toNat k.port.val k.dstIp k.srcIp
      else (counted s k).gcount cStale := by
  unfold State.receive
  rw [headerOk_of_good _ h]
  dsimp only
  rw [counted_rankEntry, if_neg (by simp [there, rank])]

theorem receive_of_accepted (h : Accepted s k typ op) : s.receive k typ op f = f (counted s k) := by
  obtain ⟨good, rank, there, same⟩ := h
  rw [receive_of_known f good rank there, if_pos same]

end Check

/-- Every Geril packet meets the checks of its header first. -/
theorem geril_headerOk (s : State) (k : GPkt) {e : (GPkt → Instr) × Nat}
    (mem : e ∈ controlTable ++ [(Instr.announce, 4), (Instr.gerilData, 0), (Instr.gerilAck, 0)]) :
    ∃ typ op f, exec (e.1 k) s = .next (s.headerOk k typ op f) := by
  simp only [controlTable, List.cons_append, List.nil_append, List.mem_cons, List.not_mem_nil, or_false] at mem
  rcases mem with rfl | rfl | rfl | rfl | rfl | rfl | rfl | rfl | rfl | rfl | rfl
  all_goals exact ⟨_, _, _, rfl⟩

/-- The packets that come from a rank of the table. -/
theorem geril_receive (s : State) (k : GPkt) {c : Instr} {typ : Nat} {op : Option Nat}
    (mem : (c, typ, op) ∈ [(Instr.gerilData k, 1, none), (Instr.gerilAck k, 2, none)] ++ controlTable.map fun e => (e.1 k, 3, some e.2)) :
    ∃ f, exec c s = .next (s.receive k typ op f) := by
  simp only [controlTable, List.map_cons, List.map_nil, List.cons_append, List.nil_append, List.mem_cons, List.not_mem_nil, or_false, Prod.mk.injEq] at mem
  rcases mem with ⟨rfl, rfl, rfl⟩ | ⟨rfl, rfl, rfl⟩ | ⟨rfl, rfl, rfl⟩ | ⟨rfl, rfl, rfl⟩ | ⟨rfl, rfl, rfl⟩ | ⟨rfl, rfl, rfl⟩ | ⟨rfl, rfl, rfl⟩ |
    ⟨rfl, rfl, rfl⟩ | ⟨rfl, rfl, rfl⟩ | ⟨rfl, rfl, rfl⟩
  all_goals exact ⟨_, rfl⟩

end Sys2Proof.Machine

namespace Sys2Proof.Claims

open Sys2Proof Sys2Proof.Machine

theorem headersCarryTheirFields : HeadersCarryTheirFields := by
  intro h k spelt
  have bits (i : Nat) : k.head.getLsbD i = h.word.getLsbD i := by rw [spelt]
  have field (i n : Nat) : k.head.extractLsb' i n = h.word.extractLsb' i n := by rw [spelt]
  unfold GHdr.word at bits field
  refine ⟨(bits 248).trans ?_, (bits 247).trans ?_, (bits 246).trans ?_, (field 232 14).trans ?_, (field 192 40).trans ?_, (field 160 32).trans ?_,
    (field 128 32).trans ?_, (field 96 32).trans ?_, (field 80 16).trans ?_, (field 64 16).trans ?_, (field 32 32).trans ?_, (field 16 14).trans ?_,
    (field 8 8).trans ?_, (field 4 4).trans ?_, (field 0 4).trans ?_, (field 249 7).trans ?_, (field 30 2).trans ?_⟩
  iterate 3
    · simp only [BitVec.getLsbD_append]
      simp
  all_goals
    simp (disch := decide) only [BitVec.extractLsb'_append_eq_of_le, BitVec.extractLsb'_append_eq_of_add_le]
    exact BitVec.extractLsb'_eq_self

theorem staleTrafficIsFenced : StaleTrafficIsFenced := by
  intro s k up
  refine ⟨fun e mem => ?_, fun c typ op mem good rank there => ?_⟩
  · obtain ⟨typ, op, f, eq⟩ := geril_headerOk s k mem
    rw [eq]
    refine ⟨fun other => congrArg _ (if_pos (.inr (by simp [other]))), fun mine off => congrArg _ ?_, fun mine on bad => congrArg _ ?_⟩
    · exact (if_neg (by simp [up, mine])).trans (if_pos (by simp [off]))
    · exact (if_neg (by simp [up, mine])).trans ((if_neg (by simp [on])).trans (if_pos (by simp [bad])))
  · obtain ⟨f, eq⟩ := geril_receive s k mem
    rw [eq, receive_of_known f good rank there]
    refine ⟨fun older => ?_, fun newer => ?_⟩
    · rw [if_neg (fun same => by rw [same] at older; exact absurd older (Nat.lt_irrefl _)), if_pos older]
    · rw [if_neg (fun same => by rw [same] at newer; exact absurd newer (Nat.lt_irrefl _)), if_neg (Nat.not_lt.mpr newer.le)]

theorem dataIsTakenInSequence : DataIsTakenInSequence := by
  intro s k accepted t0 rank stream s1 h
  refine ⟨congrArg Host.Outcome.next (receive_of_accepted _ accepted), fun fresh full => ?_, fun r found => ?_⟩
  · have closed : t0.openRx k = t0 := by
      unfold State.openRx
      dsimp only
      rw [if_neg (by simp [show t0.rxStream k.src.toNat k.stream.toNat = none from fresh]), if_pos full]
    unfold State.takeData
    dsimp only
    rw [closed, show t0.rxStream k.src.toNat k.stream.toNat = none from fresh]
  · have taken : t0.takeData k = if (k.seq - BitVec.ofNat 32 r.expected).toNat = 0 then
          match s1.deliverData h with
          | none => if k.op = 7 ∧ 0 < k.want ∧ !(s1.conn rank).up then s1.greet rank else s1
          | some t => (((t.modRx rank stream fun r => { r with expected := (r.expected + 1) % 2 ^ 32 }).drainHeld rank stream
              r.held.length).noteData rank stream).pump
        else if 2 ^ 31 ≤ (k.seq - BitVec.ofNat 32 r.expected).toNat ∨ r.held.any (fun x => x.pkt.seq == k.seq) then
          (s1.gcount cDup).ackStream rank stream
        else if s1.rwndOf k.opid < (r.held.map fun x => x.pkt.payload.length).sum + k.payload.length then s1
        else (s1.modRx rank stream fun r => { r with held := r.held ++ [h] }).ackStream rank stream := by
      unfold State.takeData
      dsimp only
      rw [show (t0.openRx k).rxStream k.src.toNat k.stream.toNat = some r from found] <;> rfl
    intro delta
    refine ⟨fun t due delivered => ?_, fun off dup => ?_, fun off near fresh fits => ?_⟩
    · rw [taken, if_pos due, delivered]
    · rw [taken, if_neg off, if_pos (dup.imp_right fun ⟨x, mem, same⟩ => List.any_eq_true.mpr ⟨x, mem, by simp [same]⟩)]
    · have ahead : ¬ (2 ^ 31 ≤ (k.seq - BitVec.ofNat 32 r.expected).toNat ∨ r.held.any (fun x => x.pkt.seq == k.seq) = true) := by
        rintro (far | held)
        · exact absurd near (Nat.not_lt.mpr far)
        · obtain ⟨x, mem, same⟩ := List.any_eq_true.mp held
          exact fresh x mem (by simpa using same)
      rw [taken, if_neg off, if_neg ahead, if_neg (Nat.not_lt.mpr fits)]

/-- Settles O32, by the fields of the header's word, the checks of R312 to R324, and the sequence of a stream. -/
theorem gerilDataIsFencedOrTaken : Obligations.GerilDataIsFencedOrTaken := ⟨headersCarryTheirFields, staleTrafficIsFenced, dataIsTakenInSequence⟩

end Sys2Proof.Claims
end

section
/-! PROOFS. Timers of the transport (R321, R322), and how instances complete (R342), whose reads and writes meet errors. -/

namespace Sys2Proof.Machine

open Sys2Proof.Claims

/-! ### What an error in memory leaves of the functions -/

/-- Every function masters the bus as before. -/
def State.SameBus (s t : State) : Prop := ∀ f, (t.fn f).bme = (s.fn f).bme ∧ (t.fn f).d3 = (s.fn f).d3 ∧ (t.fn f).quar = (s.fn f).quar

theorem State.SameBus.refl (s : State) : s.SameBus s := fun _ => ⟨rfl, rfl, rfl⟩

theorem State.SameBus.trans {s t u : State} (h : s.SameBus t) (k : t.SameBus u) : s.SameBus u := fun f =>
  ⟨(k f).1.trans (h f).1, (k f).2.1.trans (h f).2.1, (k f).2.2.trans (h f).2.2⟩

theorem State.SameBus.of_host {s t : State} (h : t.host = s.host) : s.SameBus t := fun f => by rw [State.fn, h]; exact ⟨rfl, rfl, rfl⟩

theorem State.setFn_sameBus (s : State) (f : Nat) (x : Fn) (same : x.bme = (s.fn f).bme ∧ x.d3 = (s.fn f).d3 ∧ x.quar = (s.fn f).quar) :
    s.SameBus (s.setFn f x) := fun k => by
  rw [State.fn_setFn]
  split
  · next at_ => rw [at_]; exact same
  · exact ⟨rfl, rfl, rfl⟩

theorem State.msix_sameBus (s : State) (f v : Nat) : s.SameBus (s.msix f v) := by
  rcases s.msix_cases f v with ⟨-, e⟩ | ⟨-, e⟩ | ⟨-, -, -, -, -, e⟩
  · rw [e]; exact s.setFn_sameBus f _ ⟨rfl, rfl, rfl⟩
  · rw [e]; exact s.setFn_sameBus f _ ⟨rfl, rfl, rfl⟩
  · rw [e]; exact .of_host rfl

theorem State.setQueue_sameBus (s : State) (q : Nat) (m : MsgQueue) : s.SameBus (s.setQueue q m) := .of_host rfl

theorem State.putPacket_sameBus (s : State) (q : Nat) (w : List W64) (u : Nat) : s.SameBus (s.putPacket q w u) := s.setQueue_sameBus q _

theorem State.noteFaultReset_sameBus (s : State) : s.SameBus { s with mq := { s.mq with faultqReset := true } } := .of_host rfl

theorem State.resetPorts_host (s : State) (q : Nat) : (s.resetPorts q).host = s.host := by
  unfold State.resetPorts State.cutWord State.notePoisoned
  dsimp only
  split_ifs <;> rfl

theorem State.resetFaultQueue_sameBus (s : State) : s.SameBus s.resetFaultQueue :=
  ((State.SameBus.of_host (s.resetPorts_host qidFault)).trans (State.noteFaultReset_sameBus _)).trans (State.msix_sameBus _ 0 0)

theorem State.resetQueue_sameBus (s : State) (q : Nat) : s.SameBus (s.resetQueue q) := by
  unfold State.resetQueue
  split
  · exact s.resetFaultQueue_sameBus
  · have fault : ∀ t : State, t.SameBus (if (t.mqueue qidFault).mismatch then t.resetFaultQueue else t) := fun t => by
      split
      · exact t.resetFaultQueue_sameBus
      · exact .refl t
    have ports := fun w => ((State.SameBus.of_host (s.resetPorts_host q)).trans (fault (s.resetPorts q))).trans
      (State.putPacket_sameBus _ qidFault w unitQueues)
    dsimp only
    split
    · exact (ports _).trans (State.putPacket_sameBus _ _ _ _)
    · exact ports _

theorem State.post_sameBus (s : State) (q : Nat) (w : List W64) (u : Nat) : s.SameBus (s.post q w u) := by
  unfold State.post
  split
  · exact (s.setQueue_sameBus q _).trans (State.resetQueue_sameBus _ q)
  · exact s.putPacket_sameBus q w u

/-! ### What the errors of the reads and writes of instances leave -/

/-- Errors have been met: memory's bytes, the functions on the bus and every other unit are as before. -/
def State.Meets (s t : State) : Prop := s.ErrStep t ∧ s.SameBus t

theorem State.Meets.refl (s : State) : s.Meets s := ⟨.refl s, .refl s⟩

theorem State.Meets.trans {s t u : State} (h : s.Meets t) (k : t.Meets u) : s.Meets u := ⟨h.1.trans k.1, h.2.trans k.2⟩

theorem State.Meets.foldl {α : Type} {f : State → α → State} (h : ∀ t a, State.Meets t (f t a)) (l : List α) (s : State) : s.Meets (l.foldl f s) := by
  induction l generalizing s with
  | nil => exact .refl s
  | cons a r ih => exact (h s a).trans (ih _)

theorem State.checkRetire_host (s : State) (n : Nat) : (s.checkRetire n).host = s.host := by
  unfold State.checkRetire
  dsimp only
  split <;> rfl

theorem State.correctedError_host (s : State) (pa : Nat) : (s.correctedError pa false).host = s.host := by
  unfold State.correctedError
  dsimp only
  split <;> exact State.checkRetire_host _ _

theorem State.eccEvent_sameBus (s : State) (pa : Nat) : s.SameBus (s.eccEvent pa) := by
  unfold State.eccEvent
  dsimp only
  split <;> exact s.post_sameBus _ _ _

theorem State.addRetire_sameBus (s : State) (r : Nat) : s.SameBus (s.addRetire r) := .of_host rfl

theorem State.setSlab_sameBus (s : State) (n : Nat) (e : SlabEntry) : s.SameBus (s.setSlab n e) := .of_host rfl

theorem State.mem_sameBus (s : State) (m : Mem) : s.SameBus { s with mem := m } := .of_host rfl

theorem State.uncorrectedError_sameBus (s : State) (pa : Nat) : s.SameBus (s.uncorrectedError pa) :=
  ((((s.setSlab_sameBus _ _).trans (State.mem_sameBus _ _)).trans (.of_host (State.checkRetire_host _ _))).trans (State.eccEvent_sameBus _ pa)).trans
    (State.addRetire_sameBus _ _)

theorem State.meetErr_meets (s : State) (h : EccHit) : s.Meets (s.meetErr h false) := by
  refine ⟨s.meetErr_errStep h false, (s.mem_sameBus { s.mem with latent := s.mem.latent.filter fun k => k.word != h.word }).trans ?_⟩
  unfold State.meetErr
  generalize ({ s with mem := { s.mem with latent := s.mem.latent.filter fun k => k.word != h.word } } : State) = u
  dsimp only
  split_ifs
  · exact .refl u
  · exact u.uncorrectedError_sameBus _
  · exact .of_host (u.correctedError_host _)

theorem State.mem_meets (s : State) {m : Mem} (bytes : m.bytes = s.mem.bytes) : s.Meets { s with mem := m } := ⟨s.errStep_mem m bytes, .of_host rfl⟩

theorem State.memErrs_meets (s : State) (segs : List (Nat × Nat)) (hits : List EccHit) : s.Meets (s.memErrs segs hits) :=
  (s.mem_meets (m := s.mem.upset hits) rfl).trans (State.Meets.foldl (fun t h => t.meetErr_meets h) _ _)

theorem State.meetWalk_meets (s : State) (c va : Nat) : s.Meets (s.meetWalk c va) := by
  unfold State.meetWalk
  dsimp only
  split
  · exact .refl s
  · exact .foldl (fun t k => t.memErrs_meets _ _) _ _

theorem State.meetPages_meets (c : Nat) (w : Bool) (l : List Nat) : ∀ s : State, s.Meets (s.meetPages c w l) := by
  induction l with
  | nil => exact .refl
  | cons va r ih =>
    intro s
    unfold State.meetPages
    dsimp only
    split
    · exact (s.meetWalk_meets c va).trans (ih _)
    · exact s.meetWalk_meets c va

theorem State.meetWalks_meets (s : State) (c va n : Nat) (w : Bool) : s.Meets (s.meetWalks c va n w) := by
  unfold State.meetWalks
  split
  · exact .refl s
  · exact State.meetPages_meets c w _ s

theorem State.vaReadErrs_meets (s : State) (c va n : Nat) (hits : List EccHit) : s.Meets (s.vaReadErrs c va n hits).2 := by
  have start : s.Meets { s with mem := s.mem.upset hits } := s.mem_meets rfl
  unfold State.vaReadErrs
  dsimp only
  split
  · exact start.trans (State.meetWalks_meets _ c va n false)
  · exact start
  · exact (start.trans (State.meetWalks_meets _ c va n false)).trans (State.memErrs_meets _ _ _)

theorem State.meetRanges_meets (s : State) (c : Nat) (l : List (Nat × Nat)) : s.Meets (s.meetRanges c l) := by
  unfold State.meetRanges
  split
  · exact .refl s
  · exact .foldl (fun t r => t.vaReadErrs_meets c r.1 r.2 []) l s

theorem State.meetReads_meets (s : State) (l : List (Nat × Nat × Nat)) : s.Meets (s.meetReads l) := by
  unfold State.meetReads
  split
  · exact .refl s
  · have step (t : State) (r : Nat × Nat × Nat) : t.Meets (t.meetRanges r.1 [(r.2.1, r.2.2)]) := t.meetRanges_meets r.1 [(r.2.1, r.2.2)]
    exact State.Meets.foldl step l s

theorem State.meetShard_meets (s : State) (n layer : Nat) : s.Meets (s.meetShard n layer) := by
  have met (pa : Nat) (c : Prop) [Decidable c] : s.Meets (if c then s.memErrs [(pa, 64)] [] else s) := by
    split
    · exact s.memErrs_meets [(pa, 64)] []
    · exact .refl s
  exact met _ _

theorem State.meetWrites_meets (s : State) (l : List (Nat × Nat × Nat)) : s.Meets (s.meetWrites l) := by
  unfold State.meetWrites
  split
  · exact .refl s
  · exact .foldl (fun t r => t.meetWalks_meets r.1 r.2.1 r.2.2 true) l s

theorem State.meetShardOf_meets (s : State) (i : Inst) : s.Meets (if i.desc.op = 13 then s.meetShard i.part i.desc.layer else s) := by
  split
  · exact s.meetShard_meets _ _
  · exact .refl s

theorem State.meetResults_meets (s : State) (i : Inst) (v : View) : s.Meets (s.meetResults i v) := by
  have reads := (s.meetReads_meets (s.resultReads i v)).trans (State.meetShardOf_meets _ i)
  unfold State.meetResults
  dsimp only
  generalize (if i.desc.op = 13 then (s.meetReads (s.resultReads i v)).meetShard i.part i.desc.layer else s.meetReads (s.resultReads i v)) = t at reads ⊢
  split
  · exact reads
  · split
    · exact reads.trans ((t.meetWrites_meets _).trans (State.meetWrites_meets _ _))
    · exact reads

/-- Errors do not change which transfers the instances have had. -/
theorem State.Meets.transfersDone {s t : State} (h : s.Meets t) (i : Inst) (v : View) : t.transfersDone i v = s.transfersDone i v := by
  obtain ⟨⟨step, -⟩, bus⟩ := h
  have own : t.ownRank = s.ownRank := by rw [State.ownRank, step.car]; rfl
  have target (d : PealDesc) : t.target d = s.target d := by
    unfold State.target State.buddy State.members State.axis State.ownRank
    rw [step.car]
  have master (f : Nat) : t.canMaster f = s.canMaster f := by
    obtain ⟨bme, d3, quar⟩ := bus f
    unfold State.canMaster State.busReady State.quarantined State.fnThere State.ideLacks State.part
    rw [bme, d3, quar, step.host, step.disp, step.sec]
  unfold State.transfersDone State.sends State.receives
  simp only [own, target, master, step.peal]

/-! ### A packet that is sent again (R321) -/

/-- A frame that is queued changes the ports alone. -/
theorem State.queueFrame_eth (s : State) (k : Nat) (f : TxFrame) : s.queueFrame k f = { s with eth := (s.queueFrame k f).eth } := by
  unfold State.queueFrame
  dsimp only
  split <;> rfl

/-- What is sent changes neither a connection nor RETX_LIMIT. -/
theorem State.sendGeril_conns (s : State) (k tc : Nat) (p : GPkt) : (s.sendGeril k tc p).peal.conns = s.peal.conns ∧
    (s.sendGeril k tc p).peal.retxLimit = s.peal.retxLimit := by
  unfold State.sendGeril
  split
  · rw [State.queueFrame_eth]
    exact ⟨rfl, rfl⟩
  · exact ⟨rfl, rfl⟩

theorem modFirst_congr {α : Type} {p : α → Bool} {f g : α → α} (same : ∀ a, p a = true → f a = g a) (l : List α) : modFirst p f l = modFirst p g l := by
  induction l with
  | nil => rfl
  | cons a r ih =>
    unfold modFirst
    split
    · next at_ => rw [same a at_]
    · rw [ih]

/-- Only the stream itself is changed. -/
theorem State.modStream_congr {s : State} {rank stream : Nat} {f g : TxStream → TxStream} (same : ∀ t, t.rank = rank → f t = g t) :
    s.modStream rank stream f = s.modStream rank stream g := by
  unfold State.modStream
  rw [modFirst_congr (g := g)]
  intro t at_
  simp only [Bool.and_eq_true, beq_iff_eq] at at_
  exact same t at_.1

/-- The state behind the packet u of the stream t that is sent again. -/
def State.resent (s : State) (t : TxStream) (u : Unacked) : State :=
  ((s.sendGeril t.port t.tc (s.again u.pkt)).gcount cRetx).modStream t.rank t.stream fun t => { t with
    unacked := modFirst (fun x => x.seq == u.seq) (fun x =>
      { x with retx := u.retx + 1, deadline := s.now + s.backoff t.rank (u.retx + 1) }) t.unacked }

theorem State.resent_conn (s : State) (t : TxStream) (u : Unacked) (r : Nat) : (s.resent t u).conn r = s.conn r :=
  congrArg (fun l => sget Conn.reset l r) (s.sendGeril_conns t.port t.tc (s.again u.pkt)).1

end Sys2Proof.Machine

namespace Sys2Proof.Claims

open Sys2Proof Sys2Proof.Machine

section Resend

variable {s : State} {rank : BitVec 16} {stream : BitVec 14} {seq : BitVec 32} {t : TxStream} {u : Unacked}
  (found : s.txStream rank.toNat stream.toNat = some t)
  (late : (t.unacked.find? fun u => u.seq == seq.toNat && decide (u.deadline ≤ s.now)) = some u)
include found late

theorem rtoExpiry_resends : exec (.rtoExpiry rank stream seq) s = if !s.maySend t then .next s else .next (s.resend t u) := by
  show execRtoExpiry rank stream seq s = _
  unfold execRtoExpiry
  dsimp only
  rw [found, Option.bind_some, late]
  rfl

theorem rtoExpiry_held (held : s.maySend t = false) : exec (.rtoExpiry rank stream seq) s = .next s := by
  rw [rtoExpiry_resends found late, if_pos (by simp [held])]

theorem rtoExpiry_sent (may : s.maySend t = true) : exec (.rtoExpiry rank stream seq) s =
    .next ((s.resent t u).noteUnreach rank.toNat (u.retx + 1)) := by
  have mine := List.find?_some found
  simp only [Bool.and_eq_true, beq_iff_eq] at mine
  rw [rtoExpiry_resends found late, if_neg (by simp [may])]
  unfold State.resend
  rw [if_neg (by simp [may])]
  dsimp only
  rw [mine.1]
  unfold State.resent
  rw [mine.1]

end Resend

/-! ### How instances complete (R342) -/

section Complete

variable {s : State} {opid : BitVec 32} {group : BitVec 8} {host : List Byte} {i : Inst}
  (found : (s.peal.insts.find? fun i => i.desc.opid == opid && i.desc.group == group) = some i)
include found

theorem pealComplete_waits (waits : (i.done || i.status.isSome || (s.car.st == 3 && !i.desc.isHost) || s.cmdFaulted i.uid) = true) :
    exec (.pealComplete opid group host) s = .next s := by
  show execPealComplete opid group host s = _
  unfold execPealComplete
  rw [found]
  exact if_pos waits

variable (goes : (i.done || i.status.isSome || (s.car.st == 3 && !i.desc.isHost) || s.cmdFaulted i.uid) = false)
include goes

theorem pealComplete_lost (lost : s.hostLost i = true) : exec (.pealComplete opid group host) s = .next (s.failPeal opid stPAGE_FAULT true) := by
  show execPealComplete opid group host s = _
  unfold execPealComplete
  rw [found]
  exact (if_neg (by rw [goes]; decide)).trans (if_pos lost)

theorem pealComplete_done {v : View} {r : PealResult} {t : State} (kept : s.hostLost i = false) (view : s.view i.ctx i.desc = .ok v)
    (all : s.transfersDone i v = true) (results : (s.meetResults i v).results i v host = .ok r)
    (finish : (s.meetResults i v).finishPeal i { r with flags := i.flags ||| r.flags } host = .ok t) :
    exec (.pealComplete opid group host) s = .next t := by
  have complete : (s.meetResults i v).completeInst i v host = .ok t := by
    unfold State.completeInst
    rw [(s.meetResults_meets i v).transfersDone i v, if_neg (by simp [all]), results]
    exact finish
  show execPealComplete opid group host s = _
  unfold execPealComplete
  rw [found]
  refine (if_neg (by rw [goes]; decide)).trans ((if_neg (by simp [kept])).trans ?_)
  rw [view]
  refine (if_neg (by simp [all])).trans ?_
  dsimp only
  rw [complete]

end Complete

/-- One of the instances runs, a fenced device may complete it, and its command has not faulted. -/
theorem calmOf {s : State} {i : Inst} (run : i.done = false) (calm : i.status = none) (may : s.car.st ≠ 3 ∨ i.desc.isHost = true)
    (well : s.cmdFaulted i.uid = false) : (i.done || i.status.isSome || (s.car.st == 3 && !i.desc.isHost) || s.cmdFaulted i.uid) = false := by
  have part : (s.car.st == 3 && !i.desc.isHost) = false := by
    rcases may with unfenced | host
    · rw [beq_false_of_ne unfenced, Bool.false_and]
    · rw [host, Bool.not_true, Bool.and_false]
  rw [run, calm, part, well]
  rfl

/-- Settles O33, by the rules of a timeout and of a completion, whose errors leave which transfers are done. -/
theorem transportTimersAndCompletion : Obligations.TransportTimersAndCompletion := by
  intro s k rank stream seq opid group host
  refine ⟨fun accepted => congrArg Host.Outcome.next (receive_of_accepted _ accepted), fun r t found at_ => ⟨fun due => ?_, fun early => ?_⟩,
    ?_,
    fun i v found run calm => ⟨fun fenced device => ?_, fun faulted => ?_, fun may well => ⟨fun lost => ?_, fun kept view all r t results finish => ?_⟩⟩⟩
  · refine congrArg Host.Outcome.next ?_
    unfold State.dueAck
    rw [found, Option.bind_some, at_]
    exact if_pos due
  · refine congrArg Host.Outcome.next ?_
    unfold State.dueAck
    rw [found, Option.bind_some, at_]
    exact if_neg (Nat.not_le.mpr early)
  · intro t u found late n s1
    have same : s1 = s.resent t u := by
      have mine := List.find?_some found
      simp only [Bool.and_eq_true, beq_iff_eq] at mine
      unfold State.resent
      rw [mine.1, mine.2]
      exact State.modStream_congr fun x at_ => by rw [at_]; rfl
    have conn : (s.resent t u).conn rank.toNat = s.conn rank.toNat := s.resent_conn t u rank.toNat
    rw [same]
    refine ⟨rtoExpiry_held found late, fun may reached => ?_, fun may limit first => ?_⟩
    · refine (rtoExpiry_sent found late may).trans (congrArg Host.Outcome.next (if_neg fun both => ?_))
      rcases reached with few | known
      · exact absurd both.1 (Nat.not_le.mpr few)
      · exact absurd both.2 (by rw [conn, known]; decide)
    · refine (rtoExpiry_sent found late may).trans (congrArg Host.Outcome.next ((if_pos ⟨limit, by rw [conn, first]; rfl⟩).trans ?_))
      rw [conn]
  · exact pealComplete_waits found (by simp [fenced, device])
  · exact pealComplete_waits found (by simp [faulted])
  · exact pealComplete_lost found (calmOf run calm may well) lost
  · exact pealComplete_done found (calmOf run calm may well) kept view all results finish

end Sys2Proof.Claims
end

section
/-! PROOFS. CONTROL packets (R318, R323 to R325, R334, R339, R344, R377): what each accepted one does. -/

namespace Sys2Proof.Claims

open Sys2Proof Sys2Proof.Machine

/-- What the count of a packet leaves as it was. -/
theorem counted_frame (s : State) (k : GPkt) : (counted s k).car = s.car ∧ (counted s k).disp = s.disp ∧ (counted s k).peal.insts = s.peal.insts ∧
    (counted s k).peal.regions = s.peal.regions := by
  unfold counted
  split <;> exact ⟨rfl, rfl, rfl, rfl⟩

/-- Settles O34, by the check that every accepted packet passes. -/
theorem controlPacketsHaveTheirEffect : Obligations.ControlPacketsHaveTheirEffect := by
  intro s k t r
  obtain ⟨car, disp, insts, regions⟩ := counted_frame s k
  refine ⟨fun h => congrArg Host.Outcome.next (receive_of_accepted _ h), fun h => congrArg Host.Outcome.next (receive_of_accepted _ h),
    fun h newer free => congrArg Host.Outcome.next ((receive_of_accepted _ h).trans ?_),
    fun h => congrArg Host.Outcome.next (receive_of_accepted _ h),
    fun h region on => congrArg Host.Outcome.next ((receive_of_accepted _ h).trans ?_),
    fun h => ⟨fun long code live => congrArg Host.Outcome.next ((receive_of_accepted _ h).trans ?_),
      fun bad => congrArg Host.Outcome.next ((receive_of_accepted _ h).trans ?_)⟩,
    fun h => congrArg Host.Outcome.next (receive_of_accepted _ h)⟩
  · have own : (counted s k).ownRank = s.ownRank := by rw [State.ownRank, car]; rfl
    refine (if_pos ⟨?_, ?_⟩).trans (congrArg (fun n => (counted s k).becomeFenced.netEvent 4 stFENCED_PEER n) own)
    · rw [car]; exact newer
    · rw [car]; exact free
  · have entry : (counted s k).region (natAt k.payload 0 1) = s.region (natAt k.payload 0 1) := by rw [State.region, regions]; rfl
    have part (n : Nat) : (counted s k).part n = s.part n := by rw [State.part, disp]; rfl
    refine (if_neg ?_).trans ?_
    · rw [entry, on, Bool.not_true]
      exact fun out => out.elim (Nat.not_le.mpr region) Bool.noConfusion
    · rw [entry]
      exact congrArg (fun p : Part => State.dropIdle (State.setPart _ _ { p with sems := smod 0 p.sems _ fun v => w64 (satAdd 64 v.toNat 1) })) (part _)
  · have there : ((counted s k).inst k.opid).isSome = true := by rw [State.inst, insts]; exact live
    dsimp only
    rw [if_neg (by simpa using ⟨long, code⟩), if_pos there]
  · dsimp only
    exact if_pos (by simpa using bad)

end Sys2Proof.Claims
end

section
/-! PROOFS. Takeover and rejoin (R325, R376, R377, R384), and CARILLON_EN (R312, R344), which cancels all instances. -/

namespace Sys2Proof.Machine

open Sys2Proof.Claims

/-! ### What is sent -/

/-- Frames have been queued, and counted: nothing else has changed. -/
def State.Sent (s t : State) : Prop := t = { s with eth := t.eth, peal := { s.peal with counters := t.peal.counters } }

theorem State.Sent.refl (s : State) : s.Sent s := rfl

theorem State.Sent.trans {s t u : State} (h : s.Sent t) (k : t.Sent u) : s.Sent u := by
  unfold State.Sent at h k ⊢
  rw [h] at k
  exact k

theorem State.Sent.foldl {α : Type} {f : State → α → State} (h : ∀ t a, State.Sent t (f t a)) (l : List α) (s : State) : s.Sent (l.foldl f s) := by
  induction l generalizing s with
  | nil => exact .refl s
  | cons a r ih => exact (h s a).trans (ih _)

theorem State.Sent.car {s t : State} (h : s.Sent t) : t.car = s.car := by rw [h]
theorem State.Sent.insts {s t : State} (h : s.Sent t) : t.peal.insts = s.peal.insts := by rw [h]
theorem State.Sent.cancelled {s t : State} (h : s.Sent t) : t.peal.cancelled = s.peal.cancelled := by rw [h]

theorem State.queueFrame_sent (s : State) (k : Nat) (f : TxFrame) : s.Sent (s.queueFrame k f) := by
  unfold State.queueFrame State.Sent
  dsimp only
  split <;> rfl

theorem State.sendGeril_sent (s : State) (k tc : Nat) (p : GPkt) : s.Sent (s.sendGeril k tc p) := by
  unfold State.sendGeril
  split
  · exact (s.queueFrame_sent k _).trans (show State.Sent _ (State.gcount _ cTx) from rfl)
  · exact .refl s

theorem State.sendCtl_sent (s : State) (retx : Bool) (rank op : Nat) (opid gen : BitVec 32) (stream : Nat) (payload : List Byte) :
    s.Sent (s.sendCtl retx rank op opid gen stream payload) := by
  unfold State.sendCtl
  split
  · exact .refl s
  · exact s.sendGeril_sent _ _ _

theorem State.sendControl_sent (s : State) (rank op : Nat) (opid gen : BitVec 32) (stream : Nat) (payload : List Byte) :
    s.Sent (s.sendControl rank op opid gen stream payload) := s.sendCtl_sent false rank op opid gen stream payload

theorem State.sendLowest_sent (s : State) (f : TxFrame) : s.Sent (s.sendLowest f) := by
  unfold State.sendLowest
  split
  · exact .refl s
  · exact s.queueFrame_sent _ f

theorem State.sendLend_sent (s : State) (typ rank : Nat) (loan : BitVec 32) (amount : Nat) : s.Sent (s.sendLend typ rank loan amount) := by
  unfold State.sendLend
  split
  · exact s.sendLowest_sent _
  · exact .refl s

/-! ### Events -/

theorem State.QueueStep.foldl {α : Type} {f : State → α → State} (h : ∀ t a, State.QueueStep t (f t a)) (l : List α) (s : State) :
    s.QueueStep (l.foldl f s) := by
  induction l generalizing s with
  | nil => exact .refl s
  | cons a r ih => exact (h s a).trans (ih _)

/-- A packet for the partitions of a set. -/
theorem State.postIf_queueStep (s : State) (c : Bool) (n : Nat) (w : List W64) (u : Nat) : s.QueueStep (if c then s.post n w u else s) := by
  split
  · exact s.post_queueStep n w u
  · exact .refl s

theorem State.carEvent_queueStep (s : State) (kind : Nat) (status : BitVec 16) (rank : Nat) : s.QueueStep (s.carEvent kind status rank) :=
  .foldl (fun t _ => t.postIf_queueStep _ _ _ _) _ s

theorem State.netEvent_queueStep (s : State) (kind : Nat) (status : BitVec 16) (rank : Nat) : s.QueueStep (s.netEvent kind status rank) :=
  .foldl (fun t _ => t.postIf_queueStep _ _ _ _) _ s

theorem State.damperEvent_queueStep (s : State) (kind : Nat) : s.QueueStep (s.damperEvent kind) := .foldl (fun t _ => t.post_queueStep _ _ _) _ s

/-! ### Cancellation (R344) -/

/-- Instances have been cancelled: each that is gone has its OPID among those cancelled. -/
structure State.Cancels (s t : State) : Prop where
  subset : ∀ i ∈ t.peal.insts, i ∈ s.peal.insts
  kept   : ∀ o ∈ s.peal.cancelled, o ∈ t.peal.cancelled
  gone   : ∀ i ∈ s.peal.insts, i ∈ t.peal.insts ∨ i.desc.opid ∈ t.peal.cancelled

theorem State.Cancels.of_eq {s t : State} (insts : t.peal.insts = s.peal.insts) (cancelled : t.peal.cancelled = s.peal.cancelled) : s.Cancels t :=
  ⟨fun i mem => insts ▸ mem, fun o mem => cancelled ▸ mem, fun i mem => .inl (insts ▸ mem)⟩

theorem State.Cancels.refl (s : State) : s.Cancels s := .of_eq rfl rfl

theorem State.Cancels.trans {s t u : State} (h : s.Cancels t) (k : t.Cancels u) : s.Cancels u where
  subset i mem := h.subset i (k.subset i mem)
  kept o mem := k.kept o (h.kept o mem)
  gone i mem := (h.gone i mem).elim (k.gone i) fun out => .inr (k.kept _ out)

theorem State.Cancels.foldl {α : Type} {f : State → α → State} (h : ∀ t a, State.Cancels t (f t a)) (l : List α) (s : State) :
    s.Cancels (l.foldl f s) := by
  induction l generalizing s with
  | nil => exact .refl s
  | cons a r ih => exact (h s a).trans (ih _)

theorem State.closeStreams_cancels (s : State) (opid : BitVec 32) : s.Cancels (s.closeStreams opid) := by
  have sent : s.Sent ((s.peal.tx.filter fun t => t.opid == opid && t.source.isNone).foldl (fun s t => s.sendControl t.rank ctlCLOSE opid 0 t.stream []) s) :=
    .foldl (fun t _ => t.sendControl_sent _ _ _ _ _ _) _ s
  exact .of_eq sent.insts sent.cancelled

theorem State.unmark_peal (s : State) (i : Inst) : (s.unmark i).peal = s.peal := by
  have shard := (s.meetShard_meets i.part i.desc.layer).1.step.peal
  unfold State.unmark
  dsimp only
  split
  · rfl
  · split
    · split
      · exact (State.memWrite_memStep _ _ _).peal.trans shard
      · exact shard
    · exact shard

theorem State.cancelInst_cancels (s : State) (i : Inst) : s.Cancels (s.cancelInst i) ∧ i ∉ (s.cancelInst i).peal.insts := by
  have before : s.Cancels ((s.closeStreams i.desc.opid).unmark i) :=
    (s.closeStreams_cancels i.desc.opid).trans (.of_eq (by rw [State.unmark_peal]) (by rw [State.unmark_peal]))
  unfold State.cancelInst
  generalize (s.closeStreams i.desc.opid).unmark i = u at before ⊢
  refine ⟨before.trans ⟨fun k mem => (List.mem_filter.mp mem).1, fun o mem => ?_, fun k mem => ?_⟩, fun mem => ?_⟩
  · by_cases same : o = i.desc.opid
    · exact same ▸ List.mem_cons_self ..
    · exact List.mem_cons_of_mem _ (List.mem_filter.mpr ⟨mem, by simpa using same⟩)
  · by_cases same : k.desc.opid = i.desc.opid ∧ k.desc.group = i.desc.group
    · exact .inr (same.1 ▸ List.mem_cons_self ..)
    · exact .inl (List.mem_filter.mpr ⟨mem, by
        simp only [Bool.not_eq_true', Bool.and_eq_false_iff, beq_eq_false_iff_ne]
        exact not_and_or.mp same⟩)
  · have other := (List.mem_filter.mp mem).2
    simp at other

/-- All instances of a list are gone, once each has been cancelled. -/
theorem State.cancelInsts_gone (l : List Inst) : ∀ s : State, ∀ i ∈ l, i ∉ (l.foldl State.cancelInst s).peal.insts := by
  induction l with
  | nil => exact fun _ i none => absurd none (List.not_mem_nil)
  | cons k r ih =>
    intro s i mem here
    rcases List.mem_cons.mp mem with rfl | later
    · exact (s.cancelInst_cancels i).2 ((State.Cancels.foldl (fun t a => (t.cancelInst_cancels a).1) r _).subset i here)
    · exact ih _ i later here

theorem State.cancelUid_cancels (s : State) (uid : Nat) : s.Cancels (s.cancelUid uid) ∧ ∀ i ∈ (s.cancelUid uid).peal.insts, i.uid ≠ uid := by
  have insts : s.Cancels ((s.peal.insts.filter fun i => i.uid == uid).foldl State.cancelInst s) := .foldl (fun t a => (t.cancelInst_cancels a).1) _ s
  have keeps := State.Cancels.foldl (fun t n => State.Cancels.of_eq (s := t) (t := t.setKeeps n ((t.keeps n).filter fun k => k.standing || k.uid != uid))
    rfl rfl) (List.range 16) ((s.peal.insts.filter fun i => i.uid == uid).foldl State.cancelInst s)
  refine ⟨insts.trans keeps, fun i mem same => ?_⟩
  have left := keeps.subset i mem
  exact State.cancelInsts_gone _ s i (List.mem_filter.mpr ⟨insts.subset i left, by simpa using same⟩) left

theorem State.cancelUids_cancels (l : List Nat) : ∀ s : State, s.Cancels (l.foldl State.cancelUid s) ∧
    ∀ i ∈ (l.foldl State.cancelUid s).peal.insts, i.uid ∉ l := by
  induction l with
  | nil => exact fun s => ⟨.refl s, fun i _ none => absurd none (List.not_mem_nil)⟩
  | cons u r ih =>
    intro s
    obtain ⟨first, left⟩ := s.cancelUid_cancels u
    obtain ⟨rest, out⟩ := ih (s.cancelUid u)
    refine ⟨first.trans rest, fun i mem at_ => ?_⟩
    rcases List.mem_cons.mp at_ with same | later
    · exact left i (rest.subset i mem) same
    · exact out i mem later

theorem State.endLoans_peal (s : State) : s.endLoans.peal.insts = s.peal.insts ∧ s.endLoans.peal.cancelled = s.peal.cancelled := by
  have borrow : (s.endBorrow fun _ => true).peal = s.peal := by
    unfold State.endBorrow
    dsimp only
    split
    · rfl
    · exact (State.damperEvent_queueStep _ 5).peal
  have settle (t : State) : t.settleLoans.peal.insts = t.peal.insts ∧ t.settleLoans.peal.cancelled = t.peal.cancelled := by
    have returns (l : List Borrow) (u : State) : u.Sent (l.foldl (fun s b => s.sendLend 5 b.rank b.seq b.amount) u) :=
      .foldl (fun t b => t.sendLend_sent _ _ _ _) l u
    have grants (l : List Loan) (u : State) : u.Sent (l.foldl (fun s b => s.sendLend 2 b.rank b.seq b.amount) u) :=
      .foldl (fun t b => t.sendLend_sent _ _ _ _) l u
    unfold State.settleLoans
    split
    · exact ⟨rfl, rfl⟩
    · exact ⟨(grants _ _).insts.trans (returns _ _).insts, (grants _ _).cancelled.trans (returns _ _).cancelled⟩
  unfold State.endLoans
  rw [(settle _).1, (settle _).2, borrow]
  exact ⟨rfl, rfl⟩

/-- All instances are gone, and their OPIDs cancelled (R344). -/
theorem State.cancelAll (s : State) :
    let u := ((s.peal.insts.map Inst.uid).dedup.foldl State.cancelUid s).endLoans
    u.peal.insts = [] ∧ ∀ i ∈ s.peal.insts, i.desc.opid ∈ u.peal.cancelled := by
  intro u
  obtain ⟨all, out⟩ := State.cancelUids_cancels (s.peal.insts.map Inst.uid).dedup s
  obtain ⟨insts, cancelled⟩ := State.endLoans_peal ((s.peal.insts.map Inst.uid).dedup.foldl State.cancelUid s)
  have none : ∀ i, i ∉ ((s.peal.insts.map Inst.uid).dedup.foldl State.cancelUid s).peal.insts := fun i mem =>
    out i mem (List.mem_dedup.mpr (List.mem_map_of_mem (all.subset i mem)))
  refine ⟨insts.trans (List.eq_nil_iff_forall_not_mem.mpr none), fun i mem => ?_⟩
  rw [show u.peal.cancelled = _ from cancelled]
  exact (all.gone i mem).resolve_left (none i)

/-! ### Takeover (R376, R377) -/

theorem State.takeOver_car (s : State) (r : Nat) : (s.takeOver r).car.ownRank = BitVec.ofNat 16 r ∧
    (s.takeOver r).car.ownInc = (s.rankEntry r).inc + 1 ∧ (s.takeOver r).car.st = 1 := by
  have sends (inc : BitVec 32) (l : List Nat) (u : State) : (l.foldl (fun s p => s.sendControl p ctlANNOUNCE 0 0 0
      (leBytes 8 s.deviceId.toNat ++ leBytes 4 inc.toNat)) u).car = u.car := (State.Sent.foldl (fun t p => t.sendControl_sent _ _ _ _ _ _) l u).car
  unfold State.takeOver
  dsimp only
  split
  · dsimp only
    rw [sends]
    exact ⟨rfl, rfl, rfl⟩
  · rw [(State.carEvent_queueStep _ _ _ _).car, sends]
    exact ⟨rfl, rfl, rfl⟩

/-- What a timed-out announcement and the limit change of the carillon: the takeover alone. -/
theorem State.reannounce_car (s : State) (r : Nat) : (s.reannounce r).car = { s.car with takeover := (s.reannounce r).car.takeover } := by
  have unreach (u : State) (n : Nat) : (u.noteUnreach r n).car = u.car := by
    unfold State.noteUnreach
    dsimp only
    split
    · exact (State.netEvent_queueStep _ 1 0 r).car
    · rfl
  unfold State.reannounce
  split
  · rfl
  · split
    · rfl
    · split
      · rfl
      · dsimp only
        rw [unreach, State.gcount_car, (State.sendCtl_sent _ _ _ _ _ _ _ _).car]

theorem State.closeTakeover_car (s : State) : s.closeTakeover.car = { s.car with takeover := s.closeTakeover.car.takeover } := by
  unfold State.closeTakeover
  split
  · rfl
  · split
    · rfl
    · dsimp only
      split
      · rw [(State.carEvent_queueStep _ _ _ _).car]
      · rfl

end Sys2Proof.Machine

namespace Sys2Proof.Claims

open Sys2Proof Sys2Proof.Machine

theorem announceAndResumeCarryATakeover : AnnounceAndResumeCarryATakeover := by
  intro s k t r e id
  obtain ⟨car, -, -, -⟩ := counted_frame s k
  have entry (n : Nat) : t.rankEntry n = s.rankEntry n := counted_rankEntry s k n
  refine ⟨fun good active rank new next x spare => ?_, fun good active rank inc ident => ?_, fun o takeover early limit => ?_, ?_⟩
  · refine congrArg Host.Outcome.next ((headerOk_of_good _ good).trans ?_)
    have found : ((List.range 255).find? fun x => (t.rankEntry x).state == 2 && (t.rankEntry x).ident == id) = some x := by
      simpa only [entry] using spare
    dsimp only
    rw [car, counted_rankEntry, if_neg (by omega), if_neg new, show (List.range 255).find? _ = some x from found]
    dsimp only
    rw [if_neg (not_not.mpr next), show (counted s k).rankEntry x = s.rankEntry x from entry x]
  · refine congrArg Host.Outcome.next ((headerOk_of_good _ good).trans ?_)
    dsimp only
    rw [car, counted_rankEntry, if_neg (by omega), if_pos ⟨inc, ident⟩]
  · have now : t.now = s.now := by
      show (counted s k).now = s.now
      unfold counted
      split <;> rfl
    have waits : t.car.takeover = some o := by rw [show t.car = s.car from car]; exact takeover
    have none : (o.waiting.find? fun a => a.rank == r && decide (a.due ≤ t.now)) = none := by
      refine List.find?_eq_none.mpr fun a mem => ?_
      rw [now]
      by_cases mine : a.rank = r
      · simp [Nat.not_le.mpr (early a mem mine)]
      · simp [mine]
    have quiet : t.reannounce r = t := by
      unfold State.reannounce
      rw [waits]
      dsimp only
      rw [none]
    rw [quiet]
    unfold State.closeTakeover
    rw [waits]
    exact if_pos (by rw [now]; exact limit)
  · intro t1 accepted o takeover mine left u
    have same : t1.car.activeRanks = s.car.activeRanks ∧ t1.car.ownRank = s.car.ownRank := by
      show (State.closeTakeover _).car.activeRanks = _ ∧ (State.closeTakeover _).car.ownRank = _
      rw [State.closeTakeover_car, State.reannounce_car, show t.car = s.car from car]
      exact ⟨rfl, rfl⟩
    have own : t1.ownRank = s.ownRank := congrArg BitVec.toNat same.2
    have listed : o.waiting.any (fun a => a.rank == r) = true := List.any_eq_true.mpr (by simpa using mine)
    have resumed : exec (.resume k) s = .next (if left.any (fun a => decide (a.rank < t1.car.activeRanks)) then
        { u with car := { u.car with takeover := some { o with waiting := left } } }
        else ({ u with car := { u.car with takeover := none } }).carEvent 4 0 t1.ownRank) := by
      refine congrArg Host.Outcome.next ((receive_of_accepted _ accepted).trans ?_)
      show (match t1.car.takeover with
        | none => if t1.car.fresh then t1.addResumed k else t1
        | some o => if !(o.waiting.any fun a => a.rank == r) then t1.addResumed k else _) = _
      rw [takeover]
      exact if_neg (by rw [listed]; decide)
    rw [resumed, same.1, own]
    refine ⟨fun done => ?_, fun more => ?_⟩
    · rw [if_neg]
      intro some
      obtain ⟨a, mem, lt⟩ := List.any_eq_true.mp some
      exact absurd (of_decide_eq_true lt) (Nat.not_lt.mpr (done a mem))
    · obtain ⟨a, mem, lt⟩ := more
      rw [if_pos (List.any_eq_true.mpr ⟨a, mem, decide_eq_true lt⟩)]

theorem carillonRegistersMoveItsState : CarillonRegistersMoveItsState := by
  intro s pr r
  refine ⟨fun h => ⟨fun free => ⟨?_, ?_, s.cancelAll⟩, fun fenced => ⟨?_, ?_⟩⟩,
    fun h => ⟨fun spare active rank there inc => ⟨?_, ?_⟩, fun bad => ?_, fun on fenced reset rank state ident => ?_, fun bad => ?_⟩,
    fun o takeover open_ closed => ?_⟩
  · show Host.Outcome.next (s.dictWrite pr _ false _) = _
    unfold State.dictWrite
    refine answers_of_open h ?_
    rw [if_neg (by decide), if_neg free, if_pos rfl]
  · show Host.Outcome.next (s.dictWrite pr _ false _) = _
    unfold State.dictWrite
    refine answers_of_open h ?_
    rw [if_neg (by decide), if_neg free, if_neg (by decide)]
  · show Host.Outcome.next (s.dictWrite pr _ false _) = _
    unfold State.dictWrite
    refine answers_of_open h ?_
    rw [if_neg (by decide), if_pos fenced]
    rfl
  · show Host.Outcome.next (s.dictWrite pr _ false _) = _
    unfold State.dictWrite
    refine answers_of_open h ?_
    rw [if_neg (by decide), if_pos fenced]
    rfl
  · show Host.Outcome.next (s.dictWrite pr _ true _) = _
    unfold State.dictWrite
    refine answers_of_open h ?_
    dsimp only
    rw [if_neg]
    rintro (a | b | c | d | e)
    · exact a spare
    · omega
    · omega
    · exact there d
    · exact inc e
  · obtain ⟨own, inc, st⟩ := s.takeOver_car r.toNat
    exact ⟨own.trans (by simp), inc, st⟩
  · show Host.Outcome.next (s.dictWrite pr _ true _) = _
    unfold State.dictWrite
    refine answers_of_open h ?_
    dsimp only
    rw [if_pos]
    rcases bad with a | b | c
    · exact .inl a
    · exact .inr (.inl b)
    · exact .inr (.inr (.inr (.inr c)))
  · show Host.Outcome.next (s.dictWrite pr _ true _) = _
    unfold State.dictWrite
    refine answers_of_open h ?_
    dsimp only
    rw [if_neg]
    simp [on, fenced, reset, state, ident]
    omega
  · show Host.Outcome.next (s.dictWrite pr _ true _) = _
    unfold State.dictWrite
    refine answers_of_open h ?_
    dsimp only
    rw [if_pos]
    rcases bad with a | b | c | d
    · exact .inr (.inl a)
    · exact .inr (.inr (.inl b))
    · exact .inr (.inr (.inr (.inr (.inl c))))
    · exact .inr (.inr (.inr (.inr (.inr d))))
  · have open_' : ¬ (o.refused = true ∨ s.now < o.deadline) := by rw [open_]; exact fun h => h.elim Bool.noConfusion (Nat.not_lt.mpr closed)
    refine ⟨s.closeTakeover, rfl, ?_, fun a first => ?_⟩
    · unfold State.closeTakeover
      rw [takeover]
      dsimp only
      rw [if_neg open_']
      split
      · rw [(State.carEvent_queueStep _ _ _ _).car]
      · rfl
    · unfold State.closeTakeover
      rw [takeover]
      dsimp only
      rw [if_neg open_', first]

/-- Settles O35, by what is sent and cancelled, and the checks of a takeover. -/
theorem theCarillonTakesRanksOver : Obligations.TheCarillonTakesRanksOver := ⟨announceAndResumeCarryATakeover, carillonRegistersMoveItsState⟩

end Sys2Proof.Claims
end

section
/-! PROOFS. Device tolls (R371 to R373): what goes out, what is heard, and which ranks are silent. -/

namespace Sys2Proof.Machine

open Sys2Proof.Claims

/-! ### The bytes of a toll (R372) -/

theorem leNat_leBytes_of_lt {n v : Nat} (lt : v < 256 ^ n) : leNat (leBytes n v) = v := (leNat_leBytes n v).trans (Nat.mod_eq_of_lt lt)

theorem tollBytes_fields (m : TollMsg) : (tollBytes m).length = 32 ∧ natAt (tollBytes m) 0 1 = 1 ∧ natAt (tollBytes m) 1 1 = m.ver.toNat ∧
    natAt (tollBytes m) 2 2 = m.rank.toNat ∧ natAt (tollBytes m) 4 4 = m.inc.toNat ∧ natAt (tollBytes m) 8 4 = m.seq.toNat ∧
    natAt (tollBytes m) 12 2 = m.slack.toNat ∧ natAt (tollBytes m) 14 1 = m.state.toNat ∧ natAt (tollBytes m) 16 8 = m.ident.toNat := by
  refine ⟨rfl, rfl, rfl, ?_, ?_, ?_, ?_, rfl, ?_⟩
  · exact leNat_leBytes_of_lt (n := 2) m.rank.isLt
  · exact leNat_leBytes_of_lt (n := 4) m.inc.isLt
  · exact leNat_leBytes_of_lt (n := 4) m.seq.isLt
  · exact leNat_leBytes_of_lt (n := 2) m.slack.isLt
  · exact leNat_leBytes_of_lt (n := 8) m.ident.isLt

/-! ### Silence (R372) -/

theorem not_mem_setDel (l : List Nat) (r : Nat) : r ∉ setDel l r (r + 1) := by
  simp [setDel]

theorem State.goSilent_now (s : State) (r : Nat) : (s.goSilent r).now = s.now := by
  unfold State.goSilent
  split
  · have hub := (State.carEvent_queueStep { s with car := { s.car with silent := setIns s.car.silent r } } 1 0 r).hub
    rw [State.now, hub]
    rfl
  · rfl

/-- What a toll of the present incarnation leaves, before its events. -/
def State.hears (s : State) (m : TollMsg) : State :=
  let u := s.goSilent m.rank.toNat
  { u with
    car := { u.car with lastToll := sset 0 u.car.lastToll m.rank.toNat s.now, silent := setDel u.car.silent m.rank.toNat (m.rank.toNat + 1) }
    damper := { u.damper with peerSlack := sset 0 u.damper.peerSlack m.rank.toNat m.slack } }

/-- The events of a toll: the rank is heard again, or has failed. -/
def State.tollEvents (s t : State) (m : TollMsg) : State :=
  let again := if m.rank.toNat ∈ (s.goSilent m.rank.toNat).car.silent then t.carEvent 2 0 m.rank.toNat else t
  if m.state = 1 then again.carEvent 3 0 m.rank.toNat else again

theorem State.tollEvents_queueStep (s t : State) (m : TollMsg) : t.QueueStep (s.tollEvents t m) := by
  unfold State.tollEvents
  dsimp only
  split_ifs
  · exact (t.carEvent_queueStep _ _ _).trans (State.carEvent_queueStep _ _ _ _)
  · exact t.carEvent_queueStep _ _ _
  · exact t.carEvent_queueStep _ _ _
  · exact .refl t

end Sys2Proof.Machine

namespace Sys2Proof.Claims

open Sys2Proof Sys2Proof.Machine

section Toll

variable {s : State} {m : TollMsg} (on : s.car.en = true) (ver : m.ver = 1)
include on ver

theorem deviceToll_unknown (unknown : ¬ (m.rank.toNat < 255 ∧ (s.rankEntry m.rank.toNat).present = true)) :
    exec (.deviceToll m) s = .next (s.gcount cBadHdr) := by
  have rank : s.rankKnown m.rank.toNat = false := by
    rw [State.rankKnown, Bool.eq_false_iff]
    exact fun h => unknown (by simpa using h)
  exact (if_neg (by simp [on, ver])).trans (if_pos (by rw [rank]; rfl))

variable (known : m.rank.toNat < 255 ∧ (s.rankEntry m.rank.toNat).present = true)
include known

theorem deviceToll_known : exec (.deviceToll m) s = if m.inc ≠ (s.rankEntry m.rank.toNat).inc then
      (if m.inc.toNat < (s.rankEntry m.rank.toNat).inc.toNat then
        .next (({ s with car := { s.car with stale := satAdd 64 s.car.stale 1 } }.netEvent 3 stFENCED_PEER m.rank.toNat).fenceRank m.rank.toNat
          (s.rankOfIdent m.ident))
      else .next { s with car := { s.car with stale := satAdd 64 s.car.stale 1 } })
    else .next (s.tollEvents (s.hears m) m) := by
  have rank : s.rankKnown m.rank.toNat = true := by rw [State.rankKnown, known.2, decide_eq_true known.1]; rfl
  refine (if_neg (by simp [on, ver])).trans ((if_neg (by rw [rank]; decide)).trans ?_)
  split
  · rfl
  · have contains : (if (s.goSilent m.rank.toNat).car.silent.contains m.rank.toNat = true then (s.hears m).carEvent 2 0 m.rank.toNat else s.hears m) =
        if m.rank.toNat ∈ (s.goSilent m.rank.toNat).car.silent then (s.hears m).carEvent 2 0 m.rank.toNat else s.hears m :=
      if_congr List.contains_iff_mem rfl rfl
    unfold State.tollEvents
    rw [← contains]
    unfold State.hears
    rw [← s.goSilent_now m.rank.toNat]

end Toll

/-- Settles O36, by the bytes of a toll, what hearing it leaves, and its events. -/
theorem deviceTollsKeepRanksHeard : Obligations.DeviceTollsKeepRanksHeard := by
  intro s m r
  refine ⟨fun on due free => ?_, tollBytes_fields m, fun on due fenced => ⟨fun first => ?_, fun later => ?_⟩, fun early => ?_,
    fun on ver => ⟨deviceToll_unknown on ver, fun known older => ?_, fun known newer => ?_, fun known same => ?_⟩, fun on ver rank there same => ?_,
    fun on there other heard => ⟨fun late => ?_, fun early => ?_⟩, fun own x => ⟨rfl, fun k ks a ports path => ?_, fun found => ?_⟩⟩
  · refine (if_neg ?_).trans ?_
    · rintro (off | early | ⟨fenced, -⟩)
      · simp [on] at off
      · omega
      · exact free fenced
    · have unfenced : (s.car.fencedToll || s.car.st == 3) = s.car.fencedToll := by rw [beq_false_of_ne free, Bool.or_false]
      dsimp only
      rw [if_neg free, unfenced]
  · refine (if_neg ?_).trans ?_
    · rintro (off | early | ⟨-, sent⟩)
      · simp [on] at off
      · omega
      · simp [first] at sent
    · have marked : (s.car.fencedToll || s.car.st == 3) = true := by rw [fenced]; exact Bool.or_true _
      dsimp only
      rw [if_pos fenced, marked]
  · exact if_pos (.inr (.inr ⟨fenced, later⟩))
  · exact if_pos (.inr (.inl early))
  · rw [deviceToll_known on ver known, if_pos (fun same => absurd older (by rw [same]; exact Nat.lt_irrefl _)), if_pos older]
  · rw [deviceToll_known on ver known, if_pos (fun same => absurd newer (by rw [same]; exact Nat.lt_irrefl _)), if_neg (Nat.not_lt.mpr newer.le)]
  · rw [deviceToll_known on ver known, if_neg (not_not.mpr same)]
    rfl
  · refine ⟨_, by rw [deviceToll_known on ver ⟨rank, there⟩, if_neg (not_not.mpr same)], ?_⟩
    have step := s.tollEvents_queueStep (s.hears m) m
    rw [step.car, step.damper]
    exact ⟨sget_sset_same .., sget_sset_same .., not_mem_setDel _ _⟩
  · have silent : s.goSilent r = ({ s with car := { s.car with silent := setIns s.car.silent r } }).carEvent 1 0 r :=
      if_pos (by simp [on, there, other, heard, late])
    exact ⟨rfl, silent⟩
  · have quiet : s.goSilent r = s := if_neg (by simp [early])
    exact ⟨congrArg Host.Outcome.next quiet, quiet⟩
  · unfold State.fenceRank
    dsimp only
    rw [ports]
    dsimp only
    rw [path]
  · have mine := List.find?_some found
    simp only [Bool.and_eq_true, bne_iff_ne, beq_iff_eq] at mine
    exact ⟨mine.2, mine.1⟩

end Sys2Proof.Claims
end

section
/-! PROOFS. The configuration of ports (R291 to R295), and what a change of state leaves (R295, R306). -/

namespace Sys2Proof.Machine

open Sys2Proof.Claims

/-! ### Port events (R306) -/

theorem State.portEvent_queueStep (s : State) (k kind tc : Nat) : s.QueueStep (s.portEvent k kind tc) :=
  .foldl (fun t _ => t.postIf_queueStep _ _ _ _) _ s

theorem State.QueueStep.port {s t : State} (h : s.QueueStep t) (k : Nat) : t.port k = s.port k := by rw [State.port, h.eth]; rfl

theorem State.QueueStep.now {s t : State} (h : s.QueueStep t) : t.now = s.now := by rw [State.now, h.hub]; rfl

/-- The packet of a port event. -/
def State.portPacket (s : State) (k kind tc : Nat) : List W64 :=
  [w64 (0x05 * 2 ^ 56 + kind * 2 ^ 48 + k * 2 ^ 40 + tc * 2 ^ 32), w64 (s.port k).timer]

/-- What one event queue gets of a port event. -/
def State.portPost (k kind tc : Nat) (s : State) (n : Nat) : State :=
  if (s.port k).evqMask.getLsbD n then s.post n (s.portPacket k kind tc) (unitMac k) else s

theorem State.portPost_queueStep (k kind tc : Nat) (s : State) (n : Nat) : s.QueueStep (State.portPost k kind tc s n) := s.postIf_queueStep _ _ _ _

/-- An event queue gets nothing from the events of the others. -/
theorem State.portPosts_ne {n : Nat} (event : n < 16) (k kind tc : Nat) (l : List Nat) (apart : n ∉ l) :
    ∀ s : State, (l.foldl (State.portPost k kind tc) s).mqueue n = s.mqueue n := by
  induction l with
  | nil => exact fun _ => rfl
  | cons m r ih =>
    intro s
    have other : n ≠ m := fun same => apart (same ▸ List.mem_cons_self ..)
    have more : n ∉ r := fun mem => apart (List.mem_cons_of_mem _ mem)
    refine (ih more _).trans ?_
    unfold State.portPost
    split
    · exact s.mqueue_post_ne other (by rintro rfl; exact absurd event (by decide)) _ _
    · rfl

/-- A queue that the mask names, its port free, gets the event as its newest packet. -/
theorem State.portEvent_newest {u : State} {k kind tc n : Nat} (event : n < 16) (named : (u.port k).evqMask.getLsbD n = true)
    (free : PortFree (u.mqueue n)) : ((u.portEvent k kind tc).mqueue n).pkts.getLast? =
      some (Packet.make n (u.mqueue n).seq u.now (u.portPacket k kind tc)) := by
  have split_ : List.range 16 = List.range n ++ n :: (List.range (15 - n)).map (· + (n + 1)) := by
    interval_cases n <;> rfl
  have before : ∀ l : List Nat, u.QueueStep (l.foldl (State.portPost k kind tc) u) := fun l => .foldl (State.portPost_queueStep k kind tc) l u
  have all : u.portEvent k kind tc = (List.range 16).foldl (State.portPost k kind tc) u := rfl
  obtain ⟨writing, waiting, flush, sound⟩ := free
  rw [all, split_, List.foldl_append, List.foldl_cons, State.portPosts_ne event _ _ _ _ (by simp; omega)]
  have step := before (List.range n)
  have same := State.portPosts_ne event k kind tc (List.range n) (by simp) u
  generalize (List.range n).foldl (State.portPost k kind tc) u = t at step same ⊢
  have packet : t.portPacket k kind tc = u.portPacket k kind tc := by unfold State.portPacket; rw [step.port]
  unfold State.portPost
  rw [step.port, if_pos named, packet, State.post_sound _ _ _ _ (by rw [same]; exact sound), State.mqueue_putPacket, if_pos rfl, same, step.now]
  exact (MsgQueue.ask_free_seq _ _ _ _ writing waiting flush Nat.one_pos rfl).2

/-! ### A change of state (R295) -/

/-- The port as it leaves UP, its queued frames discarded. -/
def Port.leaves (p : Port) : Port :=
  if p.st = .up then { p with txq := [], arb := p.arb.drop [], txTil := min p.txTil p.ticks }.count pTxLinkdown ((p.txq.map fun (e : Nat × List TxFrame) => e.2.length).sum)
  else p

theorem Port.leaves_up {p : Port} (up : p.st = .up) : p.leaves.txq = [] ∧
    p.leaves.counters = smod 0 p.counters pTxLinkdown (satAdd 64 · ((p.txq.map fun (e : Nat × List TxFrame) => e.2.length).sum)) := by
  unfold Port.leaves
  rw [if_pos up]
  exact ⟨rfl, rfl⟩

theorem State.setLink_same {s : State} {k : Nat} {st : PortState} (same : (s.port k).st = st) : s.setLink k st = s := if_pos same

theorem State.setLink_new {s : State} {k : Nat} {st : PortState} (new : (s.port k).st ≠ st) :
    s.setLink k st = (s.setPort k { (s.port k).leaves with st := st }).portEvent k 1 0 := if_neg new

theorem State.port_setLink {s : State} {k : Nat} {st : PortState} (there : k < s.eth.ports.length) (new : (s.port k).st ≠ st) :
    (s.setLink k st).port k = { (s.port k).leaves with st := st } := by
  rw [State.setLink_new new, (State.portEvent_queueStep _ _ _ _).port, State.port_setPort_same _ _ _ there]

theorem State.port_setLink_ne (s : State) {k j : Nat} (other : j ≠ k) (st : PortState) : (s.setLink k st).port j = s.port j := by
  by_cases same : (s.port k).st = st
  · rw [State.setLink_same same]
  · rw [State.setLink_new same, (State.portEvent_queueStep _ _ _ _).port, State.port_setPort_ne _ _ other]

/-- Whatever the port leaves, its lanes and classes stay. -/
theorem State.setLink_keeps {s : State} {k : Nat} (there : k < s.eth.ports.length) (st : PortState) : ((s.setLink k st).port k).st = st ∧
    ((s.setLink k st).port k).lanes = (s.port k).lanes ∧ ((s.setLink k st).port k).classes = (s.port k).classes := by
  by_cases same : (s.port k).st = st
  · rw [State.setLink_same same]
    exact ⟨same, rfl, rfl⟩
  · rw [State.port_setLink there same]
    unfold Port.leaves
    split <;> exact ⟨rfl, rfl, rfl⟩

/-- A fold over other keys leaves a key's value. -/
theorem foldl_sset_ne {α : Type} [DecidableEq α] {d : α} (f : α → α) {l : List Nat} {c : Nat} (m : Sparse α) (apart : c ∉ l) :
    sget d (l.foldl (fun m t => sset d m t (f (sget d m t))) m) c = sget d m c := by
  induction l generalizing m with
  | nil => rfl
  | cons a r ih =>
    have other : c ≠ a := fun same => apart (same ▸ List.mem_cons_self ..)
    exact (ih _ fun mem => apart (List.mem_cons_of_mem _ mem)).trans (sget_sset_ne _ _ _ other)

/-- A fold over a key leaves there a value that it has made. -/
theorem foldl_sset_mem {α : Type} [DecidableEq α] {d : α} (f : α → α) {P : α → Prop} (made : ∀ x, P (f x)) {l : List Nat} {c : Nat} (m : Sparse α)
    (mem : c ∈ l) : P (sget d (l.foldl (fun m t => sset d m t (f (sget d m t))) m) c) := by
  induction l generalizing m with
  | nil => exact absurd mem List.not_mem_nil
  | cons a r ih =>
    by_cases later : c ∈ r
    · exact ih _ later
    · obtain rfl : c = a := (List.mem_cons.mp mem).resolve_right later
      rw [List.foldl_cons, foldl_sset_ne f _ later, sget_sset_same]
      exact made _

/-- A class that is not paused. -/
def ClassState.unpaused (c : ClassState) : ClassState := { c with pauseEnd := none, pauseSince := 0, broken := false, recoverAt := 0 }

/-- The port whose lanes change: no class of it is paused. -/
def Port.relaned (p : Port) (v : BitVec 8) : Port :=
  { p with lanes := v, classes := (List.range 8).foldl (fun m t => sset ClassState.reset m t (sget ClassState.reset m t).unpaused) p.classes }

theorem Port.relaned_unpaused (p : Port) (v : BitVec 8) {c : Nat} (class_ : c < 8) :
    (sget ClassState.reset (p.relaned v).classes c).pauseEnd = none := by
  unfold Port.relaned
  generalize eight : List.range 8 = l
  have mem : c ∈ l := eight ▸ List.mem_range.mpr class_
  exact foldl_sset_mem (d := ClassState.reset) ClassState.unpaused (P := fun x => x.pauseEnd = none) (fun _ => rfl) p.classes mem

/-- A port trains, or is DISABLED without lanes. -/
theorem State.retrain_keeps {s : State} {k : Nat} (there : k < s.eth.ports.length) (p : Port) :
    let t := (s.setPort k p).retrain k
    (t.port k).st = (if p.lanes = 0 then .disabled else .training) ∧ (t.port k).lanes = p.lanes ∧ (t.port k).classes = p.classes := by
  have set := State.port_setPort_same s k p there
  have keeps := State.setLink_keeps (s := s.setPort k p) (by rw [State.setPort_eth_ports, List.length_set]; exact there)
    (if ((s.setPort k p).port k).lanes = 0 then .disabled else .training)
  rw [set] at keeps
  intro t
  rw [show t = (s.setPort k p).setLink k (if ((s.setPort k p).port k).lanes = 0 then .disabled else .training) from rfl, set]
  exact keeps

end Sys2Proof.Machine

namespace Sys2Proof.Claims

open Sys2Proof Sys2Proof.Machine

/-- The lane counts that PORT_LANES takes. -/
theorem lanes_valid {v : BitVec 8} : (v = 0 ∨ v = 1 ∨ v = 2 ∨ v = 4) → ¬ (v.toNat ≠ 0 ∧ v.toNat ≠ 1 ∧ v.toNat ≠ 2 ∧ v.toNat ≠ 4) := by
  rintro (rfl | rfl | rfl | rfl) <;> decide

theorem lanes_bad {v : BitVec 8} (bad : ¬ (v = 0 ∨ v = 1 ∨ v = 2 ∨ v = 4)) : v.toNat ≠ 0 ∧ v.toNat ≠ 1 ∧ v.toNat ≠ 2 ∧ v.toNat ≠ 4 := by
  refine ⟨?_, ?_, ?_, ?_⟩ <;> exact fun eq => bad (by bv_omega)

/-- `LanesFit` is what the model's check lets through. -/
theorem lanes_fit {s : State} {k n : Nat} : ¬ ((n = 4 ∧ (k % 2 = 1 ∨ (s.port (k + 1)).lanes ≠ 0)) ∨
    (k % 2 = 1 ∧ n ≠ 0 ∧ (s.port (k - 1)).lanes = 4)) ↔ LanesFit s k n := by
  have parity : k % 2 = 0 ↔ ¬ k % 2 = 1 := by omega
  unfold LanesFit
  rw [parity]
  tauto

theorem portConfigurationRetrains : PortConfigurationRetrains := by
  intro s pr k v st fast h p
  have goes {f : State → BitVec 8 × State} {r : BitVec 8} {t : State} (e : f s = (r, t)) :
      Host.Outcome.next (s.dictWrite pr (portWriter pr) false f) = answers pr t r := answers_of_open h e
  refine ⟨fun valid => ⟨fun fit => ?_, fun unfit => ?_⟩, fun bad => ?_, fun small an => ?_, fun two an => ?_, fun big => ?_, fun small optical => ?_,
    fun one optical => ?_, fun big => ?_, ?_, fun alive down lanes => ?_, fun alive lanes clock => ?_⟩
  · by_cases same : p.lanes = v
    · exact ⟨s, goes ((if_neg (lanes_valid valid)).trans ((if_neg (lanes_fit.mpr fit)).trans (if_pos same))), fun _ => rfl,
        fun new => absurd same.symm new⟩
    · refine ⟨(s.setPort k (p.relaned v)).retrain k, goes ?_, fun eq => absurd eq.symm same, fun _ there => ?_⟩
      · refine (if_neg (lanes_valid valid)).trans ((if_neg (lanes_fit.mpr fit)).trans ((if_neg same).trans ?_))
        unfold Port.relaned ClassState.unpaused State.modPort
        with_reducible rfl
      · obtain ⟨state, lanes, classes⟩ := State.retrain_keeps there (p.relaned v)
        refine ⟨lanes, state.trans ?_, fun c class_ => ?_⟩
        · rw [show (p.relaned v).lanes = v from rfl]
        · rw [Port.cls, classes]
          exact p.relaned_unpaused v class_
  · exact goes ((if_neg (lanes_valid valid)).trans (if_pos (by_contra fun fit => unfit (lanes_fit.mp fit))))
  · exact goes (if_pos (lanes_bad bad))
  · refine goes ?_
    dsimp only
    rw [if_neg (Nat.not_lt.mpr small), if_neg an]
    split
    · rfl
    · rfl
  · exact goes ((if_neg (by rw [two]; decide)).trans (if_pos ⟨two, an⟩))
  · exact goes (if_pos big)
  · exact goes ((if_neg (Nat.not_lt.mpr small)).trans (if_neg optical))
  · exact goes ((if_neg (by rw [one]; decide)).trans (if_pos ⟨one, optical⟩))
  · exact goes (if_pos big)
  · show execTrainingRetry k s = _
    unfold execTrainingRetry
    split
    · next same => rw [State.setLink_same same]
    · rfl
  · show execLinkChange k st fast s = _
    unfold execLinkChange
    rw [alive]
    have fits : (if (s.port k).lanes = 0 then st == PortState.disabled else st != .disabled) = true := by
      split
      · next none => exact beq_iff_eq.mpr (lanes.mp none)
      · next some => exact bne_iff_ne.mpr fun eq => some (lanes.mpr eq)
    simp only [fits, down]
    rfl
  · show execLinkChange k .up fast s = _
    unfold execLinkChange
    rw [alive]
    simp only [if_neg (show ¬ (s.port k).lanes = 0 from lanes), clock]
    rfl

theorem leavingUpDiscardsTheQueuedFrames : LeavingUpDiscardsTheQueuedFrames := by
  intro s k st there p t
  refine ⟨(State.setLink_keeps there st).1, fun new => ⟨_, State.setLink_new new, ?_, fun n _ => rfl⟩, fun u kind tc n event named free =>
    State.portEvent_newest event named free, fun up down => ?_, fun stays => ?_, fun same => State.setLink_same same, fun j other => s.port_setLink_ne other st⟩
  · rw [State.port_setPort_same _ _ _ there, show t.port k = _ from State.port_setLink there new]
  · rw [show t.port k = _ from State.port_setLink there (by rw [show (s.port k).st = .up from up]; exact down.symm)]
    obtain ⟨frames, counted⟩ := Port.leaves_up (p := s.port k) up
    refine ⟨frames, ?_⟩
    show sget 0 (s.port k).leaves.counters pTxLinkdown = _
    rw [counted, sget_smod_same]
  · by_cases same : (s.port k).st = st
    · rw [show t = s from State.setLink_same same]
      exact ⟨rfl, rfl⟩
    · rw [show t.port k = _ from State.port_setLink there same]
      have low : ¬ (s.port k).st = .up := stays.elim id fun up eq => same (eq.trans up.symm)
      unfold Port.leaves
      rw [if_neg low]
      exact ⟨rfl, rfl⟩

/-- Settles O37, by what a change of state leaves of a port, and the checks of its registers. -/
theorem portsRetrainAndDiscard : Obligations.PortsRetrainAndDiscard := ⟨portConfigurationRetrains, leavingUpDiscardsTheQueuedFrames⟩

end Sys2Proof.Claims
end

section
/-! PROOFS. Frames that a port receives and sends (R292, R296 to R303). -/

namespace Sys2Proof.Machine

open Sys2Proof.Claims

/-! ### The gates, the pauses and the priorities -/

theorem b2n_decide (q : Prop) [Decidable q] : b2n (decide q) = if q then 1 else 0 := by
  simp only [b2n, decide_eq_true_eq]

theorem Port.pfcOn_iff {p : Port} {t : Nat} : p.pfcOn t = true ↔ p.pfcEn.getLsbD t = true ∧ t ≠ 7 := by
  unfold Port.pfcOn
  rw [Bool.and_eq_true, bne_iff_ne]

/-- The frame that may start is on a port that is UP, with no pause in force, the wire free and its gate open. -/
theorem Port.mayStart_iff {p : Port} {tc len : Nat} : p.mayStart tc len = true ↔
    p.st = .up ∧ p.paused tc = false ∧ p.txTil ≤ p.ticks ∧ p.gateLets tc len = true := by
  unfold Port.mayStart
  simp only [Bool.and_eq_true, beq_iff_eq, Bool.not_eq_true', decide_eq_true_eq, and_assoc]

theorem Port.pause_over {p : Port} {tc e : Nat} (going : p.paused tc = false) (ends : (p.cls tc).pauseEnd = some e) :
    e ≤ p.ticks ∨ p.breaks tc = true := by
  unfold Port.paused at going
  rw [ends, Option.any_some, Bool.and_eq_false_iff, decide_eq_false_iff_not, Bool.not_eq_false'] at going
  exact going.imp_left Nat.not_lt.mp

/-- Under a schedule a frame starts in an open gate alone. -/
theorem Port.gate_open {p : Port} {tc len : Nat} (lets : p.gateLets tc len = true) (en : p.gateEn = true) (active : p.active ≠ none) :
    p.gatesNow.getLsbD tc = true := by
  unfold Port.gateLets at lets
  cases sched : p.sched with
  | some g =>
    rw [sched] at lets
    exact (Bool.and_eq_true_iff.mp lets).1
  | none =>
    unfold Port.sched at sched
    rw [if_pos en] at sched
    split at sched
    · split at sched
      · cases sched
      · exact absurd sched active
    · exact absurd sched active

/-- An input that the drop does not name keeps no credit. -/
theorem Arbiter.drop_credit (a : Arbiter) {asks : List (Nat × Nat)} {c : Nat} (out : ∀ e ∈ asks, e.1 ≠ c) : sget 0 (a.drop asks).credit c = 0 := by
  show sget 0 (a.credit.filter fun e => asks.any fun x => x.1 == e.1) c = 0
  induction a.credit with
  | nil => rfl
  | cons e r ih =>
    rw [List.filter_cons]
    split
    · next asked =>
      obtain ⟨x, mem, same⟩ := List.any_eq_true.mp asked
      have other : ¬ e.1 = c := fun eq => out x mem ((beq_iff_eq.mp same).trans eq)
      exact (if_neg other).trans ih
    · exact ih

theorem Port.dropIdle_credit {p : Port} {c : Nat} (idle : p.asksWire c = false) : sget 0 p.dropIdle.arb.credit c = 0 := by
  refine p.arb.drop_credit fun e mem same => ?_
  obtain ⟨t, asks, rfl⟩ := List.mem_map.mp mem
  obtain rfl : t = c := same
  exact Bool.noConfusion (idle.symm.trans (List.mem_filter.mp asks).2)

/-! ### The management frames of R298 -/

/-- The prefix of a frame is stale where a known rank's incarnation is another, or the rank is not known. -/
theorem State.stalePrefix_iff {s : State} {f : RxFrame} : s.stalePrefix f = true ↔
    (natAt f.bytes (f.etypeAt + 2) 1 = 0x10 ∨ natAt f.bytes (f.etypeAt + 2) 1 = 0x11) ∧
      ¬ (s.rankKnown (natAt f.bytes (f.etypeAt + 2 + 2) 2) = true ∧
        natAt f.bytes (f.etypeAt + 2 + 4) 4 = (s.rankEntry (natAt f.bytes (f.etypeAt + 2 + 2) 2)).inc.toNat) := by
  unfold State.stalePrefix
  simp only [Bool.and_eq_true, Bool.or_eq_true, beq_iff_eq, Bool.not_eq_true', Bool.and_eq_false_iff, beq_eq_false_iff_ne, not_and_or,
    Bool.not_eq_true, ne_eq]

end Sys2Proof.Machine

namespace Sys2Proof.Claims

open Sys2Proof Sys2Proof.Machine

theorem goodFrame_iff {p : Port} {f : RxFrame} :
    (f.fcs || decide (f.bytes.length < 64) || decide (p.maxFrame < f.bytes.length) || f.symbol) = false ↔ GoodFrame p f := by
  simp only [Bool.or_eq_false_iff, decide_eq_false_iff_not, Nat.not_lt, GoodFrame]
  tauto

theorem framesStartWhereTheGatesAllow : FramesStartWhereTheGatesAllow := by
  intro s k tc f r p rest head
  refine ⟨fun may first turn fits => ?_, fun up long => ?_, fun off => ?_, fun c idle => Port.dropIdle_credit idle, fun may => ?_⟩
  · show execFrameTransmit k tc s = _
    have mine : s.tcTurn k tc = true := by
      unfold State.tcTurn
      exact Bool.or_eq_true_iff.mpr (turn.imp decide_eq_true fun pick => beq_iff_eq.mpr pick)
    have starts : ¬ ((!p.mayStart tc f.len) = true ∨ p.outranked tc = true ∨ (!s.tcTurn k tc) = true) := by
      rw [may, first, mine]
      decide
    unfold execFrameTransmit
    dsimp only
    rw [show sget [] (s.port k).txq tc = f :: r from head]
    dsimp only
    rw [if_neg fun both => Bool.noConfusion (fits.symm.trans both.2), if_neg starts]
  · show execFrameTransmit k tc s = _
    unfold execFrameTransmit
    dsimp only
    rw [show sget [] (s.port k).txq tc = f :: r from head]
    dsimp only
    rw [if_pos ⟨up, long⟩]
  · show execFrameTransmit k tc s = _
    have stays : ¬ (p.st = .up ∧ p.oversize tc f.len = true) := by
      rintro ⟨up, long⟩
      exact off.elim (fun down => down up) fun ⟨_, fits⟩ => Bool.noConfusion (fits.symm.trans long)
    have waits : (!p.mayStart tc f.len) = true ∨ p.outranked tc = true ∨ (!s.tcTurn k tc) = true := by
      obtain down | ⟨no | higher | ⟨low, other⟩, _⟩ := off
      · refine .inl ?_
        rw [Bool.not_eq_true', Bool.eq_false_iff]
        exact fun may => down (Port.mayStart_iff.mp may).1
      · exact .inl (by rw [no]; rfl)
      · exact .inr (.inl higher)
      · refine .inr (.inr ?_)
        unfold State.tcTurn
        rw [Bool.not_eq_true', Bool.or_eq_false_iff]
        exact ⟨decide_eq_false (by omega), beq_eq_false_iff_ne.mpr other⟩
    unfold execFrameTransmit
    dsimp only
    rw [show sget [] (s.port k).txq tc = f :: r from head]
    dsimp only
    rw [if_neg stays, if_pos waits]
  · obtain ⟨up, going, free, lets⟩ := Port.mayStart_iff.mp may
    exact ⟨up, fun e ends => Port.pause_over going ends, free, Port.gate_open lets⟩

/-- A frame of the management EtherType is kept, dropped or refused. -/
theorem mgmtFrame {s : State} {k tc : Nat} {f : RxFrame} {reply : Option (List Byte)} (geril : (s.port k).isGeril f s.peal.udpPort.toNat = false)
    (mgmt : f.etype = s.eth.mgmtEtype.toNat) : s.sortFrame k tc f reply =
      if ((s.port k).mgmtEn && s.car.en && s.macListed f.srcMac) = true then (if s.stalePrefix f then s.dropStale f else s) else s.refuseMgmt k := by
  unfold State.sortFrame
  dsimp only
  rw [geril, if_neg Bool.false_ne_true, if_pos mgmt]

/-- A frame of another EtherType goes to the control processor or to the ring. -/
theorem plainFrame {s : State} {k tc : Nat} {f : RxFrame} {reply : Option (List Byte)} (geril : (s.port k).isGeril f s.peal.udpPort.toNat = false)
    (other : f.etype ≠ s.eth.mgmtEtype.toNat) : s.sortFrame k tc f reply =
      if f.isNeighbour = true then s.toCp k f.bytes reply
      else if (s.port k).rxrSize = 0 then s.modPort k fun p => p.count pRxNoq 1 else s.toRing k tc 0 f.bytes := by
  unfold State.sortFrame
  dsimp only
  rw [geril, if_neg Bool.false_ne_true, if_neg other]

/-- A refused management frame is an event, where none was in the last second. -/
theorem refuseMgmt_due {s : State} {k : Nat} (due : ∀ a, (s.port k).refusedAt = some a → a + 1000000000 ≤ (s.port k).ticks) :
    s.refuseMgmt k = (s.setPort k { (s.port k).count pRxMgmtRefused 1 with refusedAt := some (s.port k).ticks }).portEvent k 6 0 := by
  unfold State.refuseMgmt
  refine if_pos ?_
  show (match (s.port k).refusedAt with
    | none => true
    | some a => decide (a + 1000000000 ≤ (s.port k).ticks)) = true
  split
  · rfl
  · next a last => exact decide_eq_true (due a last)

theorem refuseMgmt_soon {s : State} {k a : Nat} (last : (s.port k).refusedAt = some a) (soon : (s.port k).ticks < a + 1000000000) :
    s.refuseMgmt k = s.setPort k ((s.port k).count pRxMgmtRefused 1) := by
  unfold State.refuseMgmt
  refine if_neg ?_
  show ¬ (match (s.port k).refusedAt with
    | none => true
    | some a => decide (a + 1000000000 ≤ (s.port k).ticks)) = true
  rw [last]
  exact fun due => absurd (of_decide_eq_true due) (Nat.not_le.mpr soon)

/-- A good frame takes its share, or is dropped. -/
theorem receive_good {s : State} {k : Fin 8} {f : RxFrame} {fec : Nat × Nat} {reply : Option (List Byte)} (up : (s.port k).st = .up)
    (good : GoodFrame (s.port k) f) : exec (.frameReceive k f fec reply) s =
      let t := s.modPort k fun p => (((p.count pRxFrames 1).count pRxBytes f.bytes.length).count pFecCorrected fec.1).count pFecUncorrected fec.2
      let tc := (s.port k).rxClass f.pcp
      if 262144 < ((s.port k).cls tc).share + f.bytes.length ∧ !(s.port k).pfcOn tc then .next (t.modPort k fun p => p.countTc pRxBufDrop tc 1)
      else .next ((t.takeShare k tc f.bytes.length).sortFrame k tc f reply) := by
  show execFrameReceive k f s fec reply = _
  unfold execFrameReceive
  dsimp only
  rw [if_neg (not_not_intro up), goodFrame_iff.mpr good, if_neg Bool.false_ne_true]

theorem receivedFramesAreCountedAndSorted : ReceivedFramesAreCountedAndSorted := by
  intro s k f fec reply p len tc p1 s1
  refine ⟨fun down => if_pos down, fun there up good => ⟨fun fits => ?_, fun full off => ?_⟩, fun there up bad host cp => ?_, fun geril => if_pos geril,
    fun geril other => ⟨fun near room => ?_, fun near full => ?_, fun far none => ?_, fun far ring => ?_⟩, fun geril mgmt => ?_, fun g r queue => ?_⟩
  · refine (receive_good up good).trans (if_neg ?_)
    rw [Bool.not_eq_true', ← Bool.not_eq_true, Port.pfcOn_iff]
    rintro ⟨full, off⟩
    exact fits.elim (fun small => absurd full (Nat.not_lt.mpr small)) off
  · have closed : (!p.pfcOn tc) = true := by
      rw [Bool.not_eq_true', Bool.eq_false_iff]
      intro on
      obtain ⟨enabled, seven⟩ := Port.pfcOn_iff.mp on
      exact off.elim (fun no => Bool.noConfusion (no.symm.trans enabled)) seven
    refine (receive_good up good).trans ((if_pos ⟨full, closed⟩).trans ?_)
    unfold State.modPort
    rw [s.port_setPort_same k _ there]
  · show execFrameReceive k f s fec reply = _
    have faulty : (f.fcs || decide (f.bytes.length < 64) || decide ((s.port k).maxFrame < f.bytes.length) || f.symbol) = true := by
      rw [← Bool.not_eq_false, goodFrame_iff]
      exact bad
    have same : s1.port k = p1 := s.port_setPort_same k p1 there
    unfold execFrameReceive
    dsimp only
    refine (if_neg (not_not_intro up)).trans ((if_pos faulty).trans ((if_neg ?_).trans ((if_neg ?_).trans ?_)))
    · exact fun keep => Bool.noConfusion (host.symm.trans keep.1)
    · exact fun keep => Bool.noConfusion (cp.symm.trans keep.1)
    · unfold State.modPort
      rw [s.port_setPort_same k _ there, b2n_decide, b2n_decide]
      rfl
  · rw [plainFrame geril other, if_pos near]
    exact congrArg (s.setPort k) (if_neg (Nat.not_le.mpr room))
  · rw [plainFrame geril other, if_pos near]
    exact congrArg (s.setPort k) (if_pos full)
  · rw [plainFrame geril other, far, if_neg Bool.false_ne_true, if_pos none]
    rfl
  · rw [plainFrame geril other, far, if_neg Bool.false_ne_true, if_neg ring]
  · intro takes o prefixed rk i own stale refused
    refine ⟨fun take fresh => ?_, fun take pre unknown => ?_, fun take pre known => ⟨fun older => ?_, fun newer => ?_⟩, fun no => ⟨fun due => ?_, fun a last soon => ?_⟩⟩
    · rw [mgmtFrame geril mgmt, if_pos take, if_neg]
      rw [State.stalePrefix_iff]
      exact fun ⟨pre, not⟩ => fresh.elim (fun n => n pre) not
    · rw [mgmtFrame geril mgmt, if_pos take, if_pos (State.stalePrefix_iff.mpr ⟨pre, fun both => Bool.noConfusion (unknown.symm.trans both.1)⟩)]
      unfold State.dropStale
      exact if_pos (by rw [show s.rankKnown _ = false from unknown]; rfl)
    · rw [mgmtFrame geril mgmt, if_pos take, if_pos (State.stalePrefix_iff.mpr ⟨pre, fun both => absurd both.2 (Nat.ne_of_lt older)⟩)]
      unfold State.dropStale
      exact (if_neg (by rw [show s.rankKnown _ = true from known]; decide)).trans (if_pos older)
    · rw [mgmtFrame geril mgmt, if_pos take, if_pos (State.stalePrefix_iff.mpr ⟨pre, fun both => absurd both.2 (Nat.ne_of_gt newer)⟩)]
      unfold State.dropStale
      exact (if_neg (by rw [show s.rankKnown _ = true from known]; decide)).trans (if_neg (Nat.not_lt.mpr (Nat.le_of_lt newer)))
    · rw [mgmtFrame geril mgmt, if_neg fun yes => Bool.noConfusion (no.symm.trans yes)]
      exact refuseMgmt_due due
    · rw [mgmtFrame geril mgmt, if_neg fun yes => Bool.noConfusion (no.symm.trans yes)]
      exact refuseMgmt_soon last soon
  · unfold State.takeCpq
    rw [queue]
    rfl

/-- Settles O38, by the branches of a frame's receipt and of its start. -/
theorem framesAreSortedAndSent : Obligations.FramesAreSortedAndSent := ⟨receivedFramesAreCountedAndSorted, framesStartWhereTheGatesAllow⟩

end Sys2Proof.Claims
end

section
/-! PROOFS. Pauses and gate schedules (R300, R301, R304, R305). -/

namespace Sys2Proof.Machine

open Sys2Proof.Claims

theorem Port.setCls_classes (p : Port) (t : Nat) (c : ClassState) : (p.setCls t c).cls t = c := sget_sset_same ..

/-- A pause that has lasted the limit is broken (R305). -/
theorem Port.breaks_iff {p : Port} {t : Nat} : p.breaks t = true ↔ (p.cls t).broken = false ∧ p.limitAt t ≤ p.ticks ∧
    ∃ e, (p.cls t).pauseEnd = some e ∧ p.limitAt t ≤ e := by
  unfold Port.breaks
  simp only [Bool.and_eq_true, Bool.not_eq_true', decide_eq_true_eq, Option.any_eq_true, and_assoc]

/-- A class that takes no part in PFC counts the frame alone. -/
theorem Port.pfcClass_off {p : Port} {t : Nat} (off : p.pfcOn t = false) (q : Nat) : (p.pfcClass t q).classes = p.classes := by
  have no : (!(p.countTc pPfcRx t 1).pfcOn t) = true := by rw [show (p.countTc pPfcRx t 1).pfcOn t = p.pfcOn t from rfl, off]; rfl
  unfold Port.pfcClass
  dsimp only
  rw [if_pos no]
  rfl

theorem Port.pfcClass_pause {p : Port} {t : Nat} (on : p.pfcOn t = true) (whole : (p.cls t).broken = false) {q : Nat} (pauses : q ≠ 0) :
    ((p.pfcClass t q).cls t).pauseEnd = some (p.ticks + pauseNs q p.rate) := by
  have yes : ¬ (!(p.countTc pPfcRx t 1).pfcOn t) = true := by rw [show (p.countTc pPfcRx t 1).pfcOn t = p.pfcOn t from rfl, on]; decide
  unfold Port.pfcClass
  dsimp only
  rw [if_neg yes, whole, if_neg Bool.false_ne_true, if_neg pauses, Port.setCls_classes]
  rfl

theorem Port.pfcClass_resume {p : Port} {t : Nat} (on : p.pfcOn t = true) (whole : (p.cls t).broken = false) :
    ((p.pfcClass t 0).cls t).pauseEnd = none := by
  have yes : ¬ (!(p.countTc pPfcRx t 1).pfcOn t) = true := by rw [show (p.countTc pPfcRx t 1).pfcOn t = p.pfcOn t from rfl, on]; decide
  unfold Port.pfcClass
  dsimp only
  rw [if_neg yes, whole, if_neg Bool.false_ne_true, if_pos rfl, Port.setCls_classes]

/-! ### Gate schedules -/

theorem changeTime_spec {b c t : Nat} (cycle : 0 < c) : t + 1000 ≤ changeTime b c t ∧ b ≤ changeTime b c t ∧ (changeTime b c t - b) % c = 0 ∧
    (b < changeTime b c t → changeTime b c t < t + 1000 + c) := by
  unfold changeTime
  dsimp only
  split
  · next early =>
    exact ⟨early, Nat.le_refl b, by rw [Nat.sub_self, Nat.zero_mod], fun late => absurd late (Nat.lt_irrefl b)⟩
  · next late =>
    have whole := Nat.div_add_mod (t + 1000 - b + c - 1) c
    have part := Nat.mod_lt (t + 1000 - b + c - 1) cycle
    rw [Nat.mul_comm] at whole
    have rounds := Nat.mul_mod_left ((t + 1000 - b + c - 1) / c) c
    generalize (t + 1000 - b + c - 1) / c * c = n at whole rounds ⊢
    exact ⟨by omega, by omega, by rw [Nat.add_sub_cancel_left]; exact rounds, by omega⟩

/-- A port whose armed schedule's time has come runs it. -/
theorem Port.gatesNow_armed {p : Port} {g : Sched} {at_ : Nat} (en : p.gateEn = true) (armed : p.armed = some (g, at_)) :
    p.gatesNow = if at_ ≤ p.timer then g.gatesAt p.timer else ({ p with armed := none } : Port).gatesNow := by
  have sched : p.sched = if at_ ≤ p.timer then some g else p.active := by
    unfold Port.sched
    rw [if_pos en, armed]
  have unarmed : ({ p with armed := none } : Port).sched = p.active := by
    unfold Port.sched
    exact if_pos en
  unfold Port.gatesNow
  rw [sched, unarmed]
  by_cases due : at_ ≤ p.timer
  · rw [if_pos due, if_pos due]
  · rw [if_neg due, if_neg due] <;> rfl

theorem State.changeGates_none {s : State} {k : Nat} (none_ : (s.port k).armed = none) : s.changeGates k = s := by
  unfold State.changeGates
  dsimp only
  rw [none_]

theorem State.changeGates_early {s : State} {k at_ : Nat} {g : Sched} (armed : (s.port k).armed = some (g, at_)) (early : (s.port k).timer < at_) :
    s.changeGates k = s := by
  unfold State.changeGates
  dsimp only
  rw [armed]
  exact if_pos early

end Sys2Proof.Machine

namespace Sys2Proof.Claims

open Sys2Proof Sys2Proof.Machine

/-- The end of a pause that is not broken. -/
theorem execPauseExpire_whole {s : State} {k tc : Fin 8} (whole : ¬ (s.port k).breaks tc = true) : exec (.pauseExpire k tc) s =
    match ((s.port k).cls tc).pauseEnd with
    | none => .next s
    | some e =>
      if e ≤ (s.port k).ticks then .next (s.setPort k ((s.port k).setCls tc { (s.port k).cls tc with pauseEnd := none })) else .next s := by
  show execPauseExpire k tc s = _
  unfold execPauseExpire
  rw [show s.breakPause k tc = s from if_neg whole] <;> rfl

/-- The model's check of the pending schedule. -/
theorem pendingSchedule_iff {p : Port} : ¬ ((gateList p.pendList).isEmpty ∨ 256 < (gateList p.pendList).length ∨
    (gateList p.pendList).any (fun e => decide (e.2 = 0 ∨ 1000000000 < e.2)) ∨ p.pendCycle < 1000 ∨ 1000000000 < p.pendCycle) ↔ PendingSchedule p := by
  have entries : ¬ (gateList p.pendList).any (fun e => decide (e.2 = 0 ∨ 1000000000 < e.2)) = true ↔
      ∀ e ∈ gateList p.pendList, 1 ≤ e.2 ∧ e.2 ≤ 1000000000 := by
    rw [List.any_eq_true]
    simp only [decide_eq_true_eq, not_exists, not_and, not_or, Nat.not_lt, Nat.one_le_iff_ne_zero, ne_eq]
  have some_ : ¬ (gateList p.pendList).isEmpty = true ↔ 1 ≤ (gateList p.pendList).length := by
    rw [List.isEmpty_iff, Nat.one_le_iff_ne_zero, ne_eq, List.length_eq_zero_iff]
  rw [not_or, not_or, not_or, not_or, entries, some_, Nat.not_lt, Nat.not_lt, Nat.not_lt]

theorem cut_iff {q : Prop} [Decidable q] {b : Bool} : (decide q && !b) = true ↔ q ∧ b = false := by
  rw [Bool.and_eq_true, decide_eq_true_eq, Bool.not_eq_true']

theorem pausesEndBreakAndRecover : PausesEndBreakAndRecover := by
  intro s k tc cl qs p c close Broken
  have breaks : p.breaks tc = true ↔ Broken := Port.breaks_iff
  refine ⟨fun up => if_neg (not_not_intro up), fun down => if_pos down, fun en seven whole => ?_, fun off q => ?_, fun e pause past kept => ?_,
    fun e pause soon short => ?_, fun broken => ?_, fun whole => ?_, fun broken past => ?_, fun a sent due more up en seven => ?_, fun off => ?_⟩
  · have on : p.pfcOn tc = true := Port.pfcOn_iff.mpr ⟨en, seven⟩
    exact ⟨fun q pauses => Port.pfcClass_pause on whole pauses, Port.pfcClass_resume on whole⟩
  · refine Port.pfcClass_off ?_ q
    rw [Bool.eq_false_iff]
    intro on
    obtain ⟨enabled, seven⟩ := Port.pfcOn_iff.mp on
    exact off.elim (fun no => Bool.noConfusion (no.symm.trans enabled)) seven
  · have whole : ¬ Broken := by
      rintro ⟨whole, _, e', pause', late⟩
      obtain rfl : e = e' := Option.some.inj (pause.symm.trans pause')
      exact Bool.noConfusion (whole.symm.trans (kept late))
    rw [execPauseExpire_whole fun yes => whole (breaks.mp yes), show ((s.port k).cls tc).pauseEnd = some e from pause]
    exact if_pos past
  · have whole : ¬ Broken := fun ⟨_, late, _⟩ => absurd late (Nat.not_le.mpr short)
    rw [execPauseExpire_whole fun yes => whole (breaks.mp yes), show ((s.port k).cls tc).pauseEnd = some e from pause]
    exact if_neg (Nat.not_le.mpr soon)
  · show Host.Outcome.next (s.breakPause k tc) = _
    unfold State.breakPause
    rw [if_pos (breaks.mpr broken)]
    rfl
  · show Host.Outcome.next (s.breakPause k tc) = _
    unfold State.breakPause
    rw [if_neg (fun yes => whole (breaks.mp yes))]
  · show Host.Outcome.next (s.rearm k tc) = _
    unfold State.rearm
    rw [if_pos ⟨broken, past⟩]
  · show execPfcRepeat k tc s = _
    unfold execPfcRepeat
    dsimp only
    rw [show ((s.port k).cls tc).pfcAt = some a from sent]
    exact if_pos ⟨up, Port.pfcOn_iff.mpr ⟨en, seven⟩, more, due⟩
  · show execPfcRepeat k tc s = _
    unfold execPfcRepeat
    dsimp only
    split
    · rfl
    · refine if_neg ?_
      rintro ⟨up, on, more, _⟩
      exact off.elim (Nat.not_lt.mpr more) fun off => off.elim (fun down => down up) fun no => Bool.noConfusion (no.symm.trans (Port.pfcOn_iff.mp on).1)

theorem gateSchedulesChangeAtTheirTime : GateSchedulesChangeAtTheirTime := by
  intro s pr k v p t q
  refine ⟨fun h => ⟨fun sched => ?_, fun no => ?_, ?_, ?_⟩, rfl, State.changeGates_none, fun g at_ armed early => State.changeGates_early armed early,
    fun b c t cycle => changeTime_spec cycle, fun g at_ en armed => Port.gatesNow_armed en armed, rfl, fun g at_ armed => ⟨fun early => ?_, fun due => ?_⟩⟩
  · exact answers_of_open h ((if_neg (by decide)).trans ((if_neg (by decide)).trans (if_neg (pendingSchedule_iff.mpr sched))))
  · exact answers_of_open h ((if_neg (by decide)).trans ((if_neg (by decide)).trans (if_pos (by_contra fun ok => no (pendingSchedule_iff.mp ok)))))
  · exact answers_of_open h rfl
  · exact answers_of_open h rfl
  · exact congrArg Host.Outcome.next (State.changeGates_early armed early)
  · show Host.Outcome.next (s.changeGates k) = _
    unfold State.changeGates
    dsimp only
    rw [show (s.port k).armed = _ from armed]
    dsimp only
    rw [if_neg (Nat.not_lt.mpr due)]
    exact congrArg (fun p => Host.Outcome.next ((s.setPort k p).portEvent k 5 0)) (if_congr cut_iff rfl rfl)

/-- Settles O39, by the windows of a class and by the change of a port's schedule. -/
theorem pausesAndGatesKeepTheirTimes : Obligations.PausesAndGatesKeepTheirTimes := ⟨pausesEndBreakAndRecover, gateSchedulesChangeAtTheirTime⟩

end Sys2Proof.Claims
end

section
/-! PROOFS. The cap and its loop (R388 to R392, R396, R404). -/

namespace Sys2Proof.Machine

open Sys2Proof.Claims

/-! ### The own cap (R390) -/

theorem Damper.effCap_bounds (d : Damper) : d.capSet * 850 ≤ d.effCap ∧ d.effCap ≤ d.capSet * 1150 := by
  unfold Damper.effCap
  exact ⟨Nat.le_max_left .., Nat.max_le.mpr ⟨Nat.mul_le_mul_left _ (by decide), Nat.min_le_left ..⟩⟩

/-! ### The stages of one run of the loop -/

/-- A fold over keys keeps, of every key's value, what each of its steps keeps. -/
theorem foldl_sset_keeps {α β : Type} [DecidableEq α] {d : α} (f : α → α) (g : α → β) (keeps : ∀ x, g (f x) = g x) (l : List Nat) (m : Sparse α)
    (c : Nat) : g (sget d (l.foldl (fun m t => sset d m t (f (sget d m t))) m) c) = g (sget d m c) := by
  induction l generalizing m with
  | nil => rfl
  | cons a r ih =>
    refine (ih _).trans ?_
    by_cases same : c = a
    · rw [same, sget_sset_same, keeps]
    · rw [sget_sset_ne _ _ _ same]

/-- A rail's sum for the cap loop begins again. -/
def Fast.again (f : Fast) : Fast := { f with acc := 0, accN := 0 }

/-- The rails' sums begin again. -/
def againAll (m : Sparse Fast) : Sparse Fast := (List.range 4).foldl (fun m q => sset Fast.reset m q (sget Fast.reset m q).again) m

/-- The readings after a run. -/
def Damper.takes (d : Damper) (now : Nat) (m : CapSample) : List Reading :=
  let amps := (List.range 4).map fun q => (d.fastOf q).recent
  { at_ := now, power := samplePower m amps, amps := amps } :: d.readings.filter fun x => decide (now < x.at_ + 10000000)

/-- What a run measures (R388, R389). -/
def Damper.reads (d : Damper) (now : Nat) (m : CapSample) : Damper :=
  let e := { d with readings := d.takes now m, fast := againAll d.fast }
  { e with meanPower := e.powerOver now 1000000, temps := (List.range 5).map (m.temps.getD · 25000),
           energyNj := d.energyNj + samplePower m ((List.range 4).map fun q => (d.fastOf q).recent) * 100 }

/-- A raised cap comes into force once the mean power allows (R404). -/
def Damper.raises (d : Damper) : Damper :=
  { d with capInForce := if d.capInForce < d.capSet ∧ ({ d with capInForce := d.capSet } : Damper).settled = true then d.capSet else d.capInForce }

/-- The temperature rows of R396. -/
def Damper.judges (d : Damper) : Damper :=
  { d with tjHot := if 95000 ≤ maxTemp d.temps then true else if maxTemp d.temps < 93000 then false else d.tjHot,
           tjLimit := if 100000 ≤ maxTemp d.temps then true else if maxTemp d.temps < 98000 then false else d.tjLimit }

/-- A run up to the pace target. -/
def Damper.weighs (d : Damper) (now : Nat) (m : CapSample) : Damper := (d.reads now m).raises.judges

/-- The voltages that follow a pace target. -/
def Damper.volts (d : Damper) (pace : Rat) : Sparse Nat :=
  (List.range 4).foldl (fun t q => sset 0 t q (stepVolt (sget 0 d.vcq q) (voltageFor q (d.temps.getD q 25000) pace))) d.vcq

/-- The pace target and the voltages of a run (R391). -/
def Damper.regulates (d : Damper) (now : Nat) : Damper :=
  { d with paceT := d.nextPace (d.meanAmps now), vcq := d.volts (d.nextPace (d.meanAmps now)) }

/-- A run up to the units of the quadrants. -/
def Damper.paces (d : Damper) (now : Nat) (m : CapSample) : Damper := (d.weighs now m).regulates now

theorem Damper.measure_eq (d : Damper) (now : Nat) (m : CapSample) :
    d.measure now m = { d with readings := d.takes now m, fast := againAll d.fast } := rfl

theorem Damper.raises_eq (d : Damper) : (if d.capInForce < d.capSet ∧ ({ d with capInForce := d.capSet } : Damper).settled = true then
    { d with capInForce := d.capSet } else d) = d.raises := by
  unfold Damper.raises
  split <;> rfl

/-- The units of the quadrants are all that the rows of R392 change. -/
theorem Damper.capUnits_eq (d : Damper) (q : Nat) (floor : Bool) : ∃ w h, d.capUnits q floor = { d with swell := w, hbm := h } := by
  unfold Damper.capUnits
  dsimp only
  split
  · split
    · exact ⟨_, _, rfl⟩
    · split <;> exact ⟨_, _, rfl⟩
  · split
    · exact ⟨_, _, rfl⟩
    · split <;> exact ⟨_, _, rfl⟩

theorem Damper.foldl_capUnits (l : List Nat) (d : Damper) :
    ∃ w h, l.foldl (fun d q => d.capUnits q (d.belowFloor q)) d = { d with swell := w, hbm := h } := by
  induction l generalizing d with
  | nil => exact ⟨_, _, rfl⟩
  | cons q r ih =>
    obtain ⟨w, h, first⟩ := d.capUnits_eq q (d.belowFloor q)
    obtain ⟨w', h', rest⟩ := ih (d.capUnits q (d.belowFloor q))
    refine ⟨w', h', ?_⟩
    rw [List.foldl_cons, rest, first]

theorem Damper.run_eq (d : Damper) (now : Nat) (m : CapSample) :
    ∃ w h, d.run now m = { d.paces now m with swell := w, hbm := h } := by
  obtain ⟨w, h, units⟩ := Damper.foldl_capUnits (List.range 4) (d.paces now m)
  refine ⟨w, h, Eq.trans ?_ units⟩
  unfold Damper.paces Damper.weighs
  rw [← (d.reads now m).raises_eq]
  rfl

/-- A run changes nothing that these rows of the fast loop read. -/
theorem Damper.fastBits_congr {d e : Damper} (swell : e.swell = d.swell) (hbm : e.hbm = d.hbm)
    (fast : ∀ q, (e.fastOf q).holdTil = (d.fastOf q).holdTil ∧ (e.fastOf q).swell = (d.fastOf q).swell ∧ (e.fastOf q).hbm = (d.fastOf q).hbm) :
    e.fastBits = d.fastBits := by
  have hold : ∀ q, (e.fastOf q).holdTil = (d.fastOf q).holdTil := fun q => (fast q).1
  have own : ∀ q, (e.fastOf q).swell = (d.fastOf q).swell := fun q => (fast q).2.1
  have adm : ∀ q, (e.fastOf q).hbm = (d.fastOf q).hbm := fun q => (fast q).2.2
  unfold Damper.fastBits Damper.capSwell Damper.capHbm
  simp only [swell, hbm, hold, own, adm]

theorem Damper.weighs_fastOf (d : Damper) (now : Nat) (m : CapSample) {α : Type} (g : Fast → α) (keeps : ∀ f : Fast, g f.again = g f) (q : Nat) :
    g ((d.weighs now m).fastOf q) = g (d.fastOf q) :=
  foldl_sset_keeps Fast.again g keeps (List.range 4) d.fast q

theorem Damper.weighs_fastBits (d : Damper) (now : Nat) (m : CapSample) : (d.weighs now m).fastBits = d.fastBits :=
  Damper.fastBits_congr rfl rfl fun q => ⟨d.weighs_fastOf now m Fast.holdTil (fun _ => rfl) q, d.weighs_fastOf now m Fast.swell (fun _ => rfl) q,
    d.weighs_fastOf now m Fast.hbm (fun _ => rfl) q⟩

theorem Damper.fastOf_again (m : Sparse Fast) {q : Nat} (rail : q < 4) : (sget Fast.reset (againAll m) q).acc = 0 ∧
    (sget Fast.reset (againAll m) q).accN = 0 :=
  foldl_sset_mem (d := Fast.reset) Fast.again (P := fun f => f.acc = 0 ∧ f.accN = 0) (fun _ => ⟨rfl, rfl⟩) m (List.mem_range.mpr rail)

theorem stepVolt_bounds (now goal : Nat) : stepVolt now goal ≤ now + 10 ∧ now ≤ stepVolt now goal + 10 := by
  unfold stepVolt
  split <;> omega

/-- A fold that writes one value to each of its keys. -/
theorem foldl_sset_at {α : Type} [DecidableEq α] {d : α} (v : Nat → α) {l : List Nat} {c : Nat} (m : Sparse α) (mem : c ∈ l) :
    sget d (l.foldl (fun m t => sset d m t (v t)) m) c = v c := by
  induction l using List.reverseRecOn generalizing m with
  | nil => exact absurd mem List.not_mem_nil
  | append_singleton r a ih =>
    rw [List.foldl_append, List.foldl_cons, List.foldl_nil]
    by_cases same : c = a
    · rw [same, sget_sset_same]
    · rw [sget_sset_ne _ _ _ same]
      exact ih m ((List.mem_append.mp mem).resolve_right fun last => same (List.mem_singleton.mp last))

theorem Damper.volts_at (d : Damper) (pace : Rat) {q : Nat} (rail : q < 4) :
    sget 0 (d.volts pace) q = stepVolt (sget 0 d.vcq q) (voltageFor q (d.temps.getD q 25000) pace) :=
  foldl_sset_at (fun q => stepVolt (sget 0 d.vcq q) (voltageFor q (d.temps.getD q 25000) pace)) d.vcq (List.mem_range.mpr rail)

theorem State.damperEvent_if (s : State) (c : Prop) [Decidable c] (kind : Nat) : (if c then s.damperEvent kind else s).damper = s.damper := by
  split
  · exact (s.damperEvent_queueStep kind).damper
  · rfl

/-- THROTTLE and the time of its last event are all of the damper that a new value changes. -/
theorem State.setThrottle_damper (s : State) (v : Nat) :
    ∃ e, (s.setThrottle v).damper = { s.damper with throttle := BitVec.ofNat 8 v, lastEvent := e } := by
  unfold State.setThrottle
  dsimp only
  split
  · next same => exact ⟨s.damper.lastEvent, by rw [same]⟩
  · exact ⟨_, State.damperEvent_if _ _ _⟩

/-- What the rows of R396 do, after a measurement. -/
def State.capActs (s : State) (off : Bool) : State :=
  let hot (t : Nat) : Bool := !off && decide (t ≤ maxTemp s.damper.temps)
  let s := if hot 95000 then s.endBorrow fun _ => true else s
  let s := s.setThrottle (s.damper.loopBits (s.damper.meanAmps s.now) + s.damper.fastBits)
  let s := if off then s else s.settleLoans
  if hot 110000 then s.shutDown else s

theorem State.capActs_on (s : State) : s.capActs false =
    let s1 := if 95000 ≤ maxTemp s.damper.temps then s.endBorrow fun _ => true else s
    let s2 := (s1.setThrottle (s1.damper.loopBits (s1.damper.meanAmps s1.now) + s1.damper.fastBits)).settleLoans
    if 110000 ≤ maxTemp s.damper.temps then s2.shutDown else s2 := by
  unfold State.capActs
  simp only [Bool.not_false, Bool.true_and, decide_eq_true_eq, Bool.false_eq_true, if_false]

end Sys2Proof.Machine

namespace Sys2Proof.Claims

open Sys2Proof Sys2Proof.Machine

theorem theCapIsSetInItsRange : TheCapIsSetInItsRange := by
  intro s pr v
  refine ⟨fun h => ⟨fun bad => answers_of_open h (if_pos bad), fun low high => ?_⟩, s.damper.effCap_bounds⟩
  intro d raised
  refine ⟨_, answers_of_open h (if_neg (by omega)), fun now => ?_, fun more hot => ?_⟩
  · exact if_pos (now.imp_right decide_eq_true)
  · refine if_neg ?_
    rintro (less | settled)
    · exact absurd less (Nat.not_le.mpr more)
    · exact absurd (of_decide_eq_true settled) (Nat.not_le.mpr hot)

/-- What holds of the damper after a run of the loop. -/
theorem capRun (o : Damper) (now : Nat) (m : CapSample) :
    let d := (o.run now m).measurePace
    let now_ := (List.range 4).map fun q => (o.fastOf q).recent
    let amps := d.meanAmps now
    let hot := d.regPoint < d.meanPower * 1000 ∨ (∃ i ∈ amps, 177300 < i) ∨ 95000 ≤ maxTemp d.temps
    let easy := d.meanPower * 1000 * 100 < d.regPoint * 97 ∧ maxTemp d.temps < 93000 ∧ o.fastBits % 8 = 0
    (∀ q < 5, d.paceReg[q]? = some (d.pace q)) ∧
    d.readings = { at_ := now, power := samplePower m now_, amps := now_ } :: o.readings.filter (fun x => decide (now < x.at_ + 10000000)) ∧
    d.meanPower = meanOf ((d.readings.filter fun x => decide (now < x.at_ + 1000000)).map Reading.power) ∧
    (∀ q < 4, amps[q]? = some (meanOf ((d.readings.filter fun x => decide (now < x.at_ + 1000000)).map fun x => x.amps.getD q 0)) ∧
      (d.fastOf q).acc = 0 ∧ (d.fastOf q).accN = 0) ∧
    d.energyNj = o.energyNj + samplePower m now_ * 100 ∧ d.capSet = o.capSet ∧ d.shutdown = o.shutdown ∧
    (o.telemetry = false → d.paceT = lowestPace) ∧
    (o.telemetry = true → hot → d.paceT = o.paceT * 99 / 100) ∧
    (o.telemetry = true → ¬ hot → easy → d.paceT = min (o.paceT * 1005 / 1000) d.ceiling) ∧
    (o.telemetry = true → ¬ hot → ¬ easy → d.paceT = o.paceT) ∧
    (∀ q < 4, sget 0 d.vcq q = stepVolt (sget 0 o.vcq q) (voltageFor q (d.temps.getD q 25000) d.paceT) ∧
      sget 0 d.vcq q ≤ sget 0 o.vcq q + 10 ∧ sget 0 o.vcq q ≤ sget 0 d.vcq q + 10) := by
  intro d now_ amps hot easy
  obtain ⟨w, h, run⟩ := o.run_eq now m
  have whole : d = ({ o.paces now m with swell := w, hbm := h } : Damper).measurePace := congrArg Damper.measurePace run
  have pace : d.paceT = (o.weighs now m).nextPace ((o.weighs now m).meanAmps now) := by rw [whole]; rfl
  have volts : d.vcq = (o.weighs now m).volts d.paceT := by rw [pace, whole]; rfl
  have temps : d.temps = (o.weighs now m).temps := by rw [whole]; rfl
  have ampsEq : amps = (o.weighs now m).meanAmps now := by rw [show amps = d.meanAmps now from rfl, whole]; rfl
  have reg : d.regPoint = (o.weighs now m).regPoint := by rw [whole]; rfl
  have ceil : d.ceiling = (o.weighs now m).ceiling := by rw [whole]; rfl
  have power : d.meanPower = (o.weighs now m).meanPower := by rw [whole]; rfl
  have on (tele : o.telemetry = true) : ¬ (!(o.weighs now m).telemetry) = true := by
    rw [show (o.weighs now m).telemetry = o.telemetry from rfl, tele]
    decide
  refine ⟨fun q rail => ?_, by rw [whole]; rfl, by rw [whole]; rfl, fun q rail => ⟨?_, ?_⟩, by rw [whole]; rfl, by rw [whole]; rfl, by rw [whole]; rfl,
    fun lost => ?_, fun tele hot => ?_, fun tele cool easy => ?_, fun tele cool hard => ?_, fun q rail => ?_⟩
  · rw [show d.paceReg = (List.range 5).map d.pace by rw [whole]; rfl, List.getElem?_map, List.getElem?_range rail]
    rfl
  · rw [show amps = (List.range 4).map _ from rfl, List.getElem?_map, List.getElem?_range rail]
    rfl
  · rw [show d.fastOf q = sget Fast.reset (againAll o.fast) q by rw [whole]; rfl]
    exact Damper.fastOf_again o.fast rail
  · rw [pace]
    exact if_pos (by rw [show (o.weighs now m).telemetry = o.telemetry from rfl, lost]; rfl)
  · rw [pace]
    refine (if_neg (on tele)).trans (if_pos ?_)
    rw [← reg, ← power, ← ampsEq, ← temps, List.any_eq_true]
    simpa only [decide_eq_true_eq] using hot
  · rw [pace, ceil]
    refine (if_neg (on tele)).trans ((if_neg ?_).trans (if_pos ?_))
    · rw [← reg, ← power, ← ampsEq, ← temps, List.any_eq_true]
      simpa only [decide_eq_true_eq] using cool
    · rw [← reg, ← power, ← temps, o.weighs_fastBits now m]
      exact easy
  · rw [pace]
    refine (if_neg (on tele)).trans ((if_neg ?_).trans (if_neg ?_))
    · rw [← reg, ← power, ← ampsEq, ← temps, List.any_eq_true]
      simpa only [decide_eq_true_eq] using cool
    · rw [← reg, ← power, ← temps, o.weighs_fastBits now m]
      exact hard
  · rw [volts, Damper.volts_at _ _ rail, ← temps, show (o.weighs now m).vcq = o.vcq from rfl]
    exact ⟨rfl, stepVolt_bounds _ _⟩

theorem execCapLoop_acts {s : State} {m : CapSample} (alive : s.alive = true) : exec (.capLoop m) s =
    let d := s.damper.run s.now m
    let t := damped s (if s.damper.shutdown then { d with vcq := s.damper.vcq } else d).measurePace
    .next ((if t.damper.tjLimit && !s.damper.tjLimit then t.damperEvent 2 else t).capActs s.damper.shutdown) :=
  if_neg (by rw [alive]; decide)

theorem theCapLoopRegulatesThePace : TheCapLoopRegulatesThePace := by
  intro s m o d now_ amps hot easy
  refine ⟨fun rest => if_pos (by rw [rest]; rfl), fun alive off => ?_, fun alive on => ?_, capRun o s.now m⟩
  · intro s1 s2
    have keeps : s2.damper = s1.damper := s1.damperEvent_if _ 2
    obtain ⟨w, h, stages⟩ := o.run_eq s.now m
    have loans : (o.run s.now m).loans = o.loans ∧ (o.run s.now m).borrows = o.borrows := by
      rw [stages]
      exact ⟨rfl, rfl⟩
    have run : exec (.capLoop m) s = .next (s2.setThrottle (s2.damper.loopBits (s2.damper.meanAmps s2.now) + s2.damper.fastBits)) := by
      rw [execCapLoop_acts alive, off]
      rfl
    obtain ⟨e, throttled⟩ := s2.setThrottle_damper (s2.damper.loopBits (s2.damper.meanAmps s2.now) + s2.damper.fastBits)
    refine ⟨_, run, rfl, ?_, ?_, ?_⟩
    · rw [throttled, keeps]; rfl
    · rw [throttled, keeps]; exact loans.1
    · rw [throttled, keeps]; exact loans.2
  · intro s1 s2 s3 s4
    have temps : s2.damper.temps = d.temps := congrArg Damper.temps (s1.damperEvent_if _ 2)
    have run : exec (.capLoop m) s = .next (if 110000 ≤ maxTemp s2.damper.temps then s4.shutDown else s4) := by
      rw [execCapLoop_acts alive, on]
      exact congrArg Host.Outcome.next s2.capActs_on
    rw [run, temps]
    exact ⟨fun cool => congrArg Host.Outcome.next (if_neg (Nat.not_le.mpr cool)), fun hot => congrArg Host.Outcome.next (if_pos hot)⟩

/-- Settles O40, by the stages of one run of the loop. -/
theorem theCapIsSetAndKept : Obligations.TheCapIsSetAndKept := ⟨theCapIsSetInItsRange, theCapLoopRegulatesThePace⟩

end Sys2Proof.Claims
end

section
/-! PROOFS. The fast loop, shutdown and lost telemetry (R389, R394, R397). -/

namespace Sys2Proof.Machine

open Sys2Proof.Claims

/-! ### The fast loop -/

/-- The fast loop's bits of THROTTLE are all that a refresh changes of the damper. -/
theorem State.refreshFast_damper (s : State) : ∃ t e, s.refreshFast.damper = { s.damper with throttle := t, lastEvent := e } := by
  obtain ⟨e, throttled⟩ := s.setThrottle_damper (s.damper.throttle.toNat - s.damper.throttle.toNat / 4 % 4 * 4 + s.damper.fastBits)
  exact ⟨_, e, throttled⟩

theorem Damper.fastOf_setFast (d : Damper) (q k : Nat) (f : Fast) : (d.setFast q f).fastOf k = if k = q then f else d.fastOf k := by
  unfold Damper.setFast Damper.fastOf
  by_cases same : k = q
  · rw [if_pos same, same, sget_sset_same]
  · rw [if_neg same, sget_sset_ne _ _ _ same]

/-- A hold rules both units (R394). -/
theorem Damper.held_units {d : Damper} {q t : Nat} (held : (d.fastOf q).holdTil = some t) : d.swellNow q ≤ 1 ∧ d.hbmNow q ≤ 4 := by
  have on : (d.fastOf q).holdTil.isSome = true := by rw [held]; rfl
  unfold Damper.swellNow Damper.hbmNow
  dsimp only
  rw [if_pos on, if_pos on]
  constructor
  · split
    · exact Nat.zero_le 1
    · exact (Nat.min_le_left ..).trans (Nat.min_le_right ..)
  · split
    · exact Nat.zero_le 4
    · exact (Nat.min_le_left ..).trans (Nat.min_le_right ..)

/-- The window's rows change the units and their times alone. -/
theorem Fast.windowRule_keeps (f : Fast) (now w h : Nat) : (f.windowRule now w h).window = f.window ∧ (f.windowRule now w h).timer = f.timer ∧
    (f.windowRule now w h).acc = f.acc ∧ (f.windowRule now w h).accN = f.accN ∧ (f.windowRule now w h).holdTil = f.holdTil := by
  unfold Fast.windowRule
  dsimp only
  split
  · split
    · exact ⟨rfl, rfl, rfl, rfl, rfl⟩
    · split
      · exact ⟨rfl, rfl, rfl, rfl, rfl⟩
      · split
        · exact ⟨rfl, rfl, rfl, rfl, rfl⟩
        · split <;> exact ⟨rfl, rfl, rfl, rfl, rfl⟩
  · split
    · split
      · exact ⟨rfl, rfl, rfl, rfl, rfl⟩
      · split
        · exact ⟨rfl, rfl, rfl, rfl, rfl⟩
        · split
          · exact ⟨rfl, rfl, rfl, rfl, rfl⟩
          · split <;> exact ⟨rfl, rfl, rfl, rfl, rfl⟩
    · exact ⟨rfl, rfl, rfl, rfl, rfl⟩

/-- A sample that joins, behind the window's rows. -/
theorem Fast.join_fields (f g : Fast) (mA : Nat) (window : g.window = f.window) (timer : g.timer = f.timer) (acc : g.acc = f.acc)
    (accN : g.accN = f.accN) : (g.join mA).window = (f.timer, mA) :: f.window.filter (fun e => decide (f.age e.1 ≤ 4000)) ∧
      (g.join mA).acc = f.acc + mA ∧ (g.join mA).accN = f.accN + 1 ∧ (g.join mA).swell = g.swell ∧ (g.join mA).hbm = g.hbm := by
  unfold Fast.join Fast.age
  rw [window, timer, acc, accN]
  exact ⟨rfl, rfl, rfl, rfl, rfl⟩

theorem Fast.windowRule_first {f : Fast} {now w h : Nat} (high : 228000 ≤ f.mean) (first : f.highAt = none) :
    (f.windowRule now w h).swell = min f.swell 6 ∧ (f.windowRule now w h).hbm = min f.hbm 12 := by
  unfold Fast.windowRule
  dsimp only
  rw [if_pos high, first]
  exact ⟨rfl, rfl⟩

theorem Fast.windowRule_again {f : Fast} {now w h a : Nat} (high : 228000 ≤ f.mean) (last : f.highAt = some a) (due : a + 40 ≤ now) :
    (1 < f.swell → (f.windowRule now w h).swell = f.swell - 1 ∧ (f.windowRule now w h).hbm = f.hbm) ∧
      (f.swell = 1 → 4 < f.hbm → (f.windowRule now w h).swell = 1 ∧ (f.windowRule now w h).hbm = f.hbm - 1) := by
  unfold Fast.windowRule
  dsimp only
  rw [if_pos high, last]
  dsimp only
  rw [if_neg (Nat.not_lt.mpr due)]
  constructor
  · intro more
    rw [if_pos more]
    exact ⟨rfl, rfl⟩
  · intro one more
    rw [if_neg (by omega), if_pos more]
    exact ⟨one, rfl⟩

/-! ### The thermal shutdown -/

theorem State.postCause_queueStep (s : State) (qid cause : Nat) : s.QueueStep (s.postCause qid cause) :=
  .trans (t := s.draw.2) (by constructor <;> rfl) (State.post_queueStep _ _ _ _)

/-- The state that a shutdown leaves, but for the packet of its fault. -/
def State.darkened (s : State) : State :=
  { s with damper := { s.damper with shutdown := true, vcq := [(0, 620), (1, 620), (2, 620), (3, 620)] },
           hub := { s.hub with thermN := false, fault := if s.hub.fault = 0 then 4 else s.hub.fault } }

theorem State.shutDown_eq (s : State) : s.shutDown = s.darkened.postCause qidFault 4 := by
  unfold State.shutDown State.deviceFault State.darkened
  dsimp only
  split <;> rfl

theorem State.shutDown_step (s : State) : s.shutDown.hub.fault = (if s.hub.fault = 0 then 4 else s.hub.fault) ∧ s.darkened.QueueStep s.shutDown := by
  have step := s.darkened.postCause_queueStep qidFault 4
  rw [← s.shutDown_eq] at step
  exact ⟨by rw [step.hub]; rfl, step⟩

/-! ### Telemetry -/

theorem Damper.swellNow_bad {d : Damper} {q : Nat} (bad : q ∈ d.imonBad) : d.swellNow q ≤ 4 := by
  have on : d.imonBad.contains q = true := List.contains_iff_mem.mpr bad
  unfold Damper.swellNow
  dsimp only
  rw [if_pos on]
  split
  · exact Nat.zero_le 4
  · exact (Nat.min_le_right ..).trans (Nat.min_le_right ..)

theorem throttle_set : ∀ t : BitVec 8, BitVec.ofNat 8 (t.toNat ||| 32) = t ||| 32#8 := by decide

theorem alert_bit : ∀ t : BitVec 8, (t ||| 32#8).getLsbD 5 = true := by decide

theorem throttle_clear : ∀ t : BitVec 8, BitVec.ofNat 8 (t.toNat - t.toNat / 32 % 2 * 32) = t &&& 0xDF#8 := by decide

/-- The state without telemetry, before THROTTLE takes its bit. -/
def State.unread (s : State) (imon : Option (Fin 4)) : State :=
  { s with damper := { s.damper with telemetry := false, paceT := lowestPace, imonBad := match imon with
    | some q => setIns s.damper.imonBad q.val
    | none => s.damper.imonBad } }

/-- The state with telemetry again, before THROTTLE loses its bit. -/
def State.reread (s : State) : State := { s with damper := { s.damper with telemetry := true, imonBad := [] } }

end Sys2Proof.Machine

namespace Sys2Proof.Claims

open Sys2Proof Sys2Proof.Machine

/-- The quadrant's loop state after a sample. -/
def sampled (f : Fast) (d : Damper) (q mA : Nat) : Fast :=
  let g := (f.windowRule f.timer (d.capSwell q) (d.capHbm q)).join mA
  if 290000 ≤ mA then { g with holdTil := some (g.timer + 4000) } else g

theorem sampled_fields (f : Fast) (d : Damper) (q mA : Nat) :
    (sampled f d q mA).window = (f.timer, mA) :: f.window.filter (fun e => decide (f.age e.1 ≤ 4000)) ∧
      (sampled f d q mA).acc = f.acc + mA ∧ (sampled f d q mA).accN = f.accN + 1 ∧
      (sampled f d q mA).swell = (f.windowRule f.timer (d.capSwell q) (d.capHbm q)).swell ∧
      (sampled f d q mA).hbm = (f.windowRule f.timer (d.capSwell q) (d.capHbm q)).hbm := by
  obtain ⟨window, timer, acc, accN, -⟩ := f.windowRule_keeps f.timer (d.capSwell q) (d.capHbm q)
  have fields := f.join_fields (f.windowRule f.timer (d.capSwell q) (d.capHbm q)) mA window timer acc accN
  unfold sampled
  dsimp only
  split <;> exact fields

theorem execFastLoop_alive {s : State} {q : Fin 4} {mA : Nat} (alive : s.alive = true) : ∃ t, exec (.fastLoop q mA) s = .next t ∧
    ∃ b e, t.damper = { s.damper.setFast q (sampled (s.damper.fastOf q) s.damper q mA) with
      imonBad := setDel s.damper.imonBad q.val (q.val + 1), peaks := if 290000 ≤ mA then satAdd 64 s.damper.peaks 1 else s.damper.peaks,
      throttle := b, lastEvent := e } := by
  show ∃ t, execFastLoop q mA s = .next t ∧ _
  unfold execFastLoop
  dsimp only
  rw [alive, if_neg (by decide)]
  split
  · next peak =>
    refine ⟨_, rfl, ?_⟩
    obtain ⟨b, e, refreshed⟩ := State.refreshFast_damper _
    refine ⟨b, e, refreshed.trans ?_⟩
    unfold sampled
    rw [if_pos peak]
    rfl
  · next calm =>
    refine ⟨_, rfl, ?_⟩
    obtain ⟨b, e, refreshed⟩ := State.refreshFast_damper _
    refine ⟨b, e, refreshed.trans ?_⟩
    unfold sampled
    rw [if_neg calm]
    rfl

theorem theFastLoopLowersItsQuadrant : TheFastLoopLowersItsQuadrant := by
  intro s q mA d f
  refine ⟨fun rest => ⟨?_, ?_⟩, fun alive => ?_, fun alive h hold => ⟨fun past => ?_, fun early => ?_⟩⟩
  · show execFastLoop q mA s = _
    unfold execFastLoop
    exact if_pos (by rw [rest]; rfl)
  · show execPeakHoldEnd q s = _
    unfold execPeakHoldEnd
    dsimp only
    split
    · rfl
    · rw [rest]
      rfl
  · obtain ⟨t, run, b, e, damper⟩ := execFastLoop_alive (q := q) (mA := mA) alive
    have mine : t.damper.fastOf q = sampled f d q mA := by
      rw [damper]
      exact (Damper.fastOf_setFast _ _ _ _).trans (if_pos rfl)
    obtain ⟨-, timer, -, -, kept⟩ := f.windowRule_keeps f.timer (d.capSwell q) (d.capHbm q)
    obtain ⟨joined, sum, count, swell, hbm⟩ := sampled_fields f d q mA
    refine ⟨t, run, mine ▸ joined, mine ▸ sum, mine ▸ count, ?_, fun k other => ?_, rfl, fun peak => ?_, fun calm => ?_, fun high first => ?_,
      fun a high last due => ?_⟩
    · rw [damper]
      exact not_mem_setDel _ _
    · rw [damper]
      exact (Damper.fastOf_setFast _ _ _ _).trans (if_neg other)
    · have held : (t.damper.fastOf q).holdTil = some (f.timer + 4000) := by
        rw [mine]
        unfold sampled
        rw [if_pos peak]
        exact congrArg (fun n => some (n + 4000)) timer
      exact ⟨held, by rw [damper]; exact if_pos peak, Damper.held_units held⟩
    · constructor
      · rw [mine]
        unfold sampled
        rw [if_neg (Nat.not_le.mpr calm)]
        exact kept
      · rw [damper]
        exact if_neg (Nat.not_le.mpr calm)
    · rw [mine, swell, hbm]
      exact Fast.windowRule_first high first
    · rw [mine, swell, hbm]
      exact Fast.windowRule_again high last due
  · show execPeakHoldEnd q s = _
    unfold execPeakHoldEnd
    dsimp only
    rw [show (s.damper.fastOf q).holdTil = some h from hold, alive]
    exact if_pos (decide_eq_true past)
  · show execPeakHoldEnd q s = _
    unfold execPeakHoldEnd
    dsimp only
    rw [show (s.damper.fastOf q).holdTil = some h from hold, alive]
    exact if_neg (fun late => absurd (of_decide_eq_true late) (Nat.not_le.mpr early))

theorem shutdownAndLostTelemetryHoldTheDevice : ShutdownAndLostTelemetryHoldTheDevice := by
  intro s imon
  refine ⟨fun rest c mem => ?_, fun alive => ⟨?_, ?_, fun fine => ?_, fun lost => ?_⟩⟩
  · simp only [List.mem_cons, List.not_mem_nil, or_false] at mem
    obtain rfl | rfl | rfl := mem
    · exact congrArg Host.Outcome.next (if_neg (by rw [rest]; decide))
    · exact if_pos (by rw [rest]; rfl)
    · exact if_pos (by rw [rest, Bool.not_false, Bool.or_true])
  · have off := s.shutDown_step
    obtain ⟨fault, step⟩ := off
    have dark : s.shutDown.damper.shutdown = true := by rw [step.damper]; rfl
    have volts : ∀ q < 4, sget 0 s.shutDown.damper.vcq q = 620 := by
      rw [step.damper]
      exact fun q rail => by interval_cases q <;> rfl
    refine ⟨_, congrArg Host.Outcome.next (if_pos alive), rfl, fun p => ?_, by rw [step.hub]; rfl, dark, fun q rail => ⟨volts q rail, if_pos dark, if_pos dark⟩,
      fun part pa => ?_, fun none => ?_, fun some => ?_⟩
    · unfold State.canIssue
      rw [dark, Bool.not_true, Bool.and_false]
    · unfold State.access
      rw [dark, Bool.or_true]
      dsimp only
      split
      · exact fun eq => by cases eq
      · exact fun eq => by cases eq
    · exact fault.trans (if_pos none)
    · exact fault.trans (if_neg some)
  · obtain ⟨e, throttled⟩ := (s.unread imon).setThrottle_damper (s.damper.throttle.toNat ||| 32)
    have damper := (State.damperEvent_if _ (s.damper.telemetry = true) 3).trans throttled
    have run : exec (.telemetryLost imon) s = .next (if s.damper.telemetry = true then
        ((s.unread imon).setThrottle (s.damper.throttle.toNat ||| 32)).damperEvent 3 else (s.unread imon).setThrottle (s.damper.throttle.toNat ||| 32)) :=
      if_neg (by rw [alive]; decide)
    refine ⟨_, run, by rw [damper]; rfl, by rw [damper]; rfl, ?_, ?_, fun q input => ⟨?_, ?_⟩⟩
    · rw [damper]
      exact throttle_set _
    · unfold State.alertN
      rw [damper]
      dsimp only
      rw [throttle_set, alert_bit, Bool.or_true]
      rfl
    · rw [damper]
      show q.val ∈ (s.unread imon).damper.imonBad
      rw [input]
      exact mem_setIns.mpr (.inl rfl)
    · rw [damper]
      refine Damper.swellNow_bad ?_
      show q.val ∈ (s.unread imon).damper.imonBad
      rw [input]
      exact mem_setIns.mpr (.inl rfl)
  · exact if_pos (by rw [fine]; rfl)
  · obtain ⟨e, throttled⟩ := (s.reread).setThrottle_damper (s.damper.throttle.toNat - s.damper.throttle.toNat / 32 % 2 * 32)
    have damper := (State.damperEvent_queueStep _ 4).damper.trans throttled
    have run : exec .telemetryRestored s = .next ((s.reread.setThrottle (s.damper.throttle.toNat - s.damper.throttle.toNat / 32 % 2 * 32)).damperEvent 4) :=
      if_neg (by rw [lost, alive]; decide)
    refine ⟨_, run, by rw [damper]; rfl, by rw [damper]; rfl, ?_⟩
    rw [damper]
    exact throttle_clear _

/-- Settles O41, by the rows of the fast loop and what a shutdown sets. -/
theorem quadrantsAreLoweredAndShutDown : Obligations.QuadrantsAreLoweredAndShutDown :=
  ⟨theFastLoopLowersItsQuadrant, shutdownAndLostTelemetryHoldTheDevice⟩

end Sys2Proof.Claims
end

section
/-! PROOFS. Lending (R399 to R402, R405). -/

namespace Sys2Proof.Machine

open Sys2Proof.Claims

/-- The donor's side of the loans that `f` takes ends. -/
theorem State.endLoan_damper (s : State) (f : Loan → Bool) : (s.endLoan f).damper = { s.damper with
    loans := s.damper.loans.filter (fun l => !f l), lent := s.damper.lent - ((s.damper.loans.filter f).map Loan.amount).sum } := by
  unfold State.endLoan
  dsimp only
  split
  · next none =>
    rw [List.isEmpty_iff] at none
    have all : s.damper.loans.filter (fun l => !f l) = s.damper.loans :=
      List.filter_eq_self.mpr fun l mem => by rw [Bool.not_eq_true', Bool.eq_false_iff]; exact List.filter_eq_nil_iff.mp none l mem
    rw [none, all]
    rfl
  · exact (State.damperEvent_queueStep _ 5).damper

/-- Leases that have not closed end nothing. -/
theorem State.closeLeases_none {s : State} {p : Borrow → Bool} (none : ∀ b ∈ s.damper.borrows, p b = true → s.now < b.at_ + s.damper.lease) :
    s.closeLeases p = s := by
  unfold State.closeLeases
  refine if_neg ?_
  rw [List.any_eq_true]
  rintro ⟨b, mem, closed⟩
  obtain ⟨named, past⟩ := Bool.and_eq_true_iff.mp closed
  exact absurd (of_decide_eq_true past) (Nat.not_le.mpr (none b mem named))

end Sys2Proof.Machine

namespace Sys2Proof.Claims

open Sys2Proof Sys2Proof.Machine

theorem toRecall_none {s : State} {own : Nat} : s.toRecall own = none ↔ ∀ l, s.damper.loans.head? = some l →
    (sget 0 s.damper.peerSlack l.rank).toNat ≤ own ∧ s.damper.lent ≤ s.damper.capSet * 150 := by
  unfold State.toRecall
  split
  · next none => simp [none]
  · next l first =>
    rw [first]
    constructor
    · intro kept m eq
      obtain rfl : l = m := Option.some.inj eq
      by_contra less
      rw [if_pos (by omega)] at kept
      cases kept
    · intro all
      have := all l rfl
      exact if_neg (by omega)

/-- The rank that a lending period lends a step to. -/
def gives (s : State) (own : Nat) : Option Nat :=
  match lowestSlack s.slacks with
  | some e => if e.2 + s.damper.lendThresh ≤ own ∧ s.damper.lent + s.damper.lendStep ≤ s.damper.capSet * 150 ∧
      s.damper.throttle.toNat / 4 % 2 = 0 ∧ s.damper.throttle.toNat / 16 % 2 = 0 then some e.1 else none
  | none => none

theorem gives_some {s : State} {own r : Nat} : gives s own = some r ↔ Lends s own r := by
  unfold gives
  cases lowest : lowestSlack s.slacks with
  | none => simp [Lends, lowest]
  | some e =>
    obtain ⟨rank, slack⟩ := e
    dsimp only
    by_cases fits : slack + s.damper.lendThresh ≤ own ∧ s.damper.lent + s.damper.lendStep ≤ s.damper.capSet * 150 ∧
      s.damper.throttle.toNat / 4 % 2 = 0 ∧ s.damper.throttle.toNat / 16 % 2 = 0
    · rw [if_pos fits]
      constructor
      · intro eq
        obtain rfl : rank = r := Option.some.inj eq
        exact ⟨slack, lowest, fits⟩
      · rintro ⟨v, eq, -⟩
        obtain ⟨rfl, -⟩ := Prod.mk.inj (Option.some.inj (lowest.symm.trans eq))
        rfl
    · rw [if_neg fits]
      constructor
      · exact fun eq => by cases eq
      · rintro ⟨v, eq, rest⟩
        obtain ⟨-, rfl⟩ := Prod.mk.inj (Option.some.inj (lowest.symm.trans eq))
        exact absurd rest fits

theorem gives_none {s : State} {own : Nat} (none : ¬ ∃ r, Lends s own r) : gives s own = .none := by
  cases given : gives s own with
  | none => rfl
  | some r => exact absurd ⟨r, gives_some.mp given⟩ none

/-- What a lending period decides, on the state s0 that has taken its time. -/
def decides (s s0 : State) (own : Nat) : Option Nat → Out
  | some r =>
    let l : Loan := { seq := s.damper.loanSeq + 1, rank := r, amount := s.damper.lendStep, sentAt := s.now, recalled := none, granted := false }
    let d := { s0.damper with loanSeq := s.damper.loanSeq + 1, loans := s.damper.loans ++ [l], lent := s.damper.lent + s.damper.lendStep }
    .next ((damped s0 d).damperEvent 5).settleLoans
  | none =>
    match s0.toRecall own with
    | some l =>
      let loans := modFirst (fun x => x.seq == l.seq) (fun x => { x with recalled := some (l.recalled.getD s0.now) }) s0.damper.loans
      .next ((damped s0 { s0.damper with loans := loans }).sendLend 4 l.rank l.seq l.amount)
    | none =>
      let loans := s0.damper.loans.map fun l => if renewed s0.damper s0.now l then { l with sentAt := s0.now } else l
      .next ((s0.damper.loans.filter (renewed s0.damper s0.now)).foldl (fun s l => s.sendLend 2 l.rank l.seq l.amount)
        (damped s0 { s0.damper with loans := loans }))

theorem decides_recall {s s0 : State} {own : Nat} {l : Loan} (back : s0.toRecall own = some l) : decides s s0 own none =
    .next ((damped s0 { s0.damper with
      loans := modFirst (fun x => x.seq == l.seq) (fun x => { x with recalled := some (l.recalled.getD s0.now) }) s0.damper.loans }).sendLend
        4 l.rank l.seq l.amount) := by
  simp only [decides, back]

theorem decides_renew {s s0 : State} {own : Nat} (keep : s0.toRecall own = none) : decides s s0 own none =
    .next ((s0.damper.loans.filter (renewed s0.damper s0.now)).foldl (fun s l => s.sendLend 2 l.rank l.seq l.amount)
      (damped s0 { s0.damper with loans := s0.damper.loans.map fun l => if renewed s0.damper s0.now l then { l with sentAt := s0.now } else l })) := by
  simp only [decides, keep]

theorem lendPeriod_decides {s : State} (alive : s.alive = true) (now : s.damper.lendAt + s.damper.lendPeriod * 1000 ≤ s.now) (may : s.mayLend = true) :
    exec .lendPeriod s = decides s (damped s { s.damper with slackSum := 0, slackN := 0, lendAt := s.now }) (ownSlack s.damper)
      (gives s (ownSlack s.damper)) := by
  have early : ¬ ((!s.alive) = true ∨ s.now < s.damper.lendAt + s.damper.lendPeriod * 1000) := by
    rw [alive]
    exact fun off => off.elim (by decide) (Nat.not_lt.mpr now)
  refine (if_neg early).trans ((if_neg ?_).trans ?_)
  · show ¬ (!s.mayLend) = true
    rw [may]
    decide
  · rfl

theorem aLendingPeriodGrantsRecallsOrRenews : ALendingPeriodGrantsRecallsOrRenews := by
  intro s d own due s0
  refine ⟨fun off => if_pos ?_, fun alive now no => ?_, fun alive now may => ⟨fun r lends => ?_, fun none => ⟨fun l back => ?_, fun keep => ?_⟩⟩, toRecall_none⟩
  · exact off.imp (fun rest => by rw [rest]; rfl) (fun early => Nat.not_le.mp early)
  · have early : ¬ ((!s.alive) = true ∨ s.now < s.damper.lendAt + s.damper.lendPeriod * 1000) := by
      rw [alive]
      exact fun off => off.elim (by decide) (Nat.not_lt.mpr now)
    refine (if_neg early).trans (if_pos ?_)
    show (!s.mayLend) = true
    rw [no]
    rfl
  · rw [lendPeriod_decides alive now may, gives_some.mpr lends]
    rfl
  · rw [lendPeriod_decides alive now may, gives_none none]
    exact decides_recall back
  · rw [lendPeriod_decides alive now may, gives_none none]
    exact decides_renew keep

theorem rankKnown_iff {s : State} {r : Nat} : s.rankKnown r = true ↔ r < 255 ∧ (s.rankEntry r).present = true := by
  unfold State.rankKnown
  rw [Bool.and_eq_true, decide_eq_true_eq]

theorem lendMsg_runs {s : State} {m : LendMsg} {c : Instr} (mem : c ∈ [Instr.grant m, .answer m, .recall m, .returnLoan m]) :
    ∃ f, exec c s = .next (s.lendMsg m f) := by
  simp only [List.mem_cons, List.not_mem_nil, or_false] at mem
  obtain rfl | rfl | rfl | rfl := mem <;> exact ⟨_, rfl⟩

theorem lend_on {s : State} {m : LendMsg} (en : s.car.en = true) (ver : m.ver = 1) : ¬ ((!s.car.en) = true ∨ m.ver ≠ 1) := by
  rw [en, ver]
  decide

/-- A message that passes the check but for its incarnation. -/
theorem lendMsg_ok {s : State} {m : LendMsg} {f : State → State} (ok : LendOk s m) : s.lendMsg m f =
    if m.inc ≠ (s.rankEntry m.rank.toNat).inc then damped s { s.damper with lendStale := satAdd 64 s.damper.lendStale 1 } else f s := by
  obtain ⟨en, ver, small, present, mine⟩ := ok
  exact (if_neg (lend_on en ver)).trans ((if_neg (by rw [rankKnown_iff.mpr ⟨small, present⟩]; decide)).trans (if_neg (not_not_intro mine)))

/-- A loan of an amount begins at its recipient. -/
def borrowing (m : LendMsg) (s : State) (amount : Nat) : State :=
  let b : Borrow := { rank := m.rank.toNat, seq := m.loan, amount := amount, at_ := s.now, ending := false }
  let t := damped s { s.damper with borrows := s.damper.borrows ++ [b], borrowed := s.damper.borrowed + amount }
  (if 0 < amount then t.damperEvent 5 else t).sendLend 3 m.rank.toNat m.loan amount

theorem ite_both {q : Prop} [Decidable q] {a b x : Nat} :
    (if (decide q && a == 0 && b == 0) = true then x else 0) = if q ∧ a = 0 ∧ b = 0 then x else 0 := by
  simp only [Bool.and_eq_true, decide_eq_true_eq, beq_iff_eq, and_assoc]

/-- What a GRANT does, its check passed and the leases that have closed ended. -/
def granting (m : LendMsg) (s : State) : State :=
  if !s.mayLend then s
  else match s.damper.borrows.find? fun b => b.rank == m.rank.toNat && b.seq == m.loan with
    | some b =>
      if b.ending ∨ (b.amount ≠ 0 ∧ b.at_ + s.damper.lease ≤ s.now) then s
      else (damped s { s.damper with borrows := modFirst (fun x => x == b) (fun x => { x with at_ := s.now }) s.damper.borrows }).sendLend
        3 m.rank.toNat m.loan b.amount
    | none =>
      let thr := s.damper.throttle.toNat
      let ok := decide (s.damper.borrowed + m.amount.toNat ≤ s.damper.capSet * 150) && thr / 16 % 2 == 0 && thr / 32 % 2 == 0
      borrowing m s (if ok then m.amount.toNat else 0)

theorem grant_runs {s : State} {m : LendMsg} (ok : LendOk s m) (fresh : m.inc = (s.rankEntry m.rank.toNat).inc)
    (live : ∀ b ∈ s.damper.borrows, b.rank = m.rank.toNat → b.seq = m.loan → s.now < b.at_ + s.damper.lease) :
    exec (.grant m) s = .next (granting m s) := by
  have open_ : s.closeLeases (fun b => b.rank == m.rank.toNat && b.seq == m.loan) = s := by
    refine State.closeLeases_none fun b mem named => ?_
    rw [Bool.and_eq_true, beq_iff_eq, beq_iff_eq] at named
    exact live b mem named.1 named.2
  show Host.Outcome.next (s.lendMsg m fun s => granting m (s.closeLeases fun b => b.rank == m.rank.toNat && b.seq == m.loan)) = _
  rw [lendMsg_ok ok, if_neg (not_not_intro fresh), open_]

theorem lendBytes_fields (typ : Fin 256) (m : LendMsg) : (lendBytes typ m).length = 32 ∧ natAt (lendBytes typ m) 0 1 = typ ∧
    natAt (lendBytes typ m) 1 1 = m.ver.toNat ∧ natAt (lendBytes typ m) 2 2 = m.rank.toNat ∧ natAt (lendBytes typ m) 4 4 = m.inc.toNat ∧
    natAt (lendBytes typ m) 8 2 = m.dst.toNat ∧ natAt (lendBytes typ m) 12 4 = m.loan.toNat ∧ natAt (lendBytes typ m) 16 4 = m.amount.toNat := by
  refine ⟨rfl, Nat.mod_eq_of_lt typ.isLt, rfl, ?_, ?_, ?_, ?_, ?_⟩
  · exact leNat_leBytes_of_lt (n := 2) m.rank.isLt
  · exact leNat_leBytes_of_lt (n := 4) m.inc.isLt
  · exact leNat_leBytes_of_lt (n := 2) m.dst.isLt
  · exact leNat_leBytes_of_lt (n := 4) m.loan.isLt
  · exact leNat_leBytes_of_lt (n := 4) m.amount.isLt

theorem loansBeginAndEndByTheirMessages : LoansBeginAndEndByTheirMessages := by
  intro s m rank loan d r inc lease closed
  refine ⟨fun c mem => ⟨fun off => ?_, fun en ver => ⟨fun unknown => ?_, fun small present other => ?_⟩⟩, fun ok stale c mem => ?_, fun ok fresh => ⟨fun no live => ?_,
    fun b found may whole live => ?_, fun may new => ?_, fun zero => ?_, fun some => ?_, ?_, ?_⟩, fun ⟨b, mem, past⟩ => ?_, fun live => ?_, rfl, fun typ => ?_,
    fun f => ?_⟩
  · obtain ⟨f, runs⟩ := lendMsg_runs mem
    rw [runs]
    exact congrArg Host.Outcome.next (if_pos (off.imp_left fun no => by rw [no]; decide))
  · obtain ⟨f, runs⟩ := lendMsg_runs mem
    rw [runs]
    exact congrArg Host.Outcome.next ((if_neg (lend_on en ver)).trans (if_pos (by
      rw [Bool.not_eq_true', Bool.eq_false_iff]
      exact fun known => unknown (rankKnown_iff.mp known))))
  · obtain ⟨f, runs⟩ := lendMsg_runs mem
    rw [runs]
    exact congrArg Host.Outcome.next ((if_neg (lend_on en ver)).trans ((if_neg (by rw [rankKnown_iff.mpr ⟨small, present⟩]; decide)).trans (if_pos other)))
  · obtain ⟨f, runs⟩ := lendMsg_runs mem
    rw [runs, lendMsg_ok ok]
    exact congrArg Host.Outcome.next (if_pos stale)
  · rw [grant_runs ok fresh live]
    exact congrArg Host.Outcome.next (if_pos (by rw [no]; rfl))
  · rw [grant_runs ok fresh live]
    have member := List.mem_of_find?_eq_some found
    have named := List.find?_some found
    rw [Bool.and_eq_true, beq_iff_eq, beq_iff_eq] at named
    have running : ¬ (b.ending = true ∨ (b.amount ≠ 0 ∧ b.at_ + s.damper.lease ≤ s.now)) := by
      rintro (ended | ⟨-, past⟩)
      · exact Bool.noConfusion (whole.symm.trans ended)
      · exact absurd past (Nat.not_le.mpr (live b member named.1 named.2))
    unfold granting
    rw [if_neg (by rw [may]; decide), show s.damper.borrows.find? _ = some b from found]
    exact congrArg Host.Outcome.next (if_neg running)
  · rw [grant_runs ok fresh fun b mem rank loan => absurd ⟨rank, loan⟩ (new b mem)]
    have missing : s.damper.borrows.find? (fun b => b.rank == m.rank.toNat && b.seq == m.loan) = none := by
      rw [List.find?_eq_none]
      intro b mem named
      rw [Bool.and_eq_true, beq_iff_eq, beq_iff_eq] at named
      exact new b mem named
    intro amount s1
    have granted : granting m s = borrowing m s amount := by
      unfold granting
      refine (if_neg (by rw [may]; decide)).trans ?_
      rw [missing]
      dsimp only
      rw [ite_both]
    rw [granted]
    rfl
  · show Host.Outcome.next (s.lendMsg m _) = _
    rw [lendMsg_ok ok, if_neg (not_not_intro fresh)]
    exact congrArg Host.Outcome.next (if_pos zero)
  · show Host.Outcome.next (s.lendMsg m _) = _
    rw [lendMsg_ok ok, if_neg (not_not_intro fresh)]
    exact congrArg Host.Outcome.next (if_neg some)
  · show Host.Outcome.next (s.lendMsg m _) = _
    rw [lendMsg_ok ok, if_neg (not_not_intro fresh)] <;> rfl
  · show Host.Outcome.next (s.lendMsg m _) = _
    rw [lendMsg_ok ok, if_neg (not_not_intro fresh)] <;> rfl
  · exact congrArg Host.Outcome.next (if_pos (List.any_eq_true.mpr ⟨b, mem, past⟩))
  · exact congrArg Host.Outcome.next (if_neg fun any => by
      obtain ⟨b, mem, past⟩ := List.any_eq_true.mp any
      exact Bool.noConfusion ((live b mem).symm.trans past))
  · exact lendBytes_fields typ m
  · rw [s.endLoan_damper f]
    exact ⟨rfl, rfl⟩

/-- Settles O42, by the branches of a lending period and of a message's check. -/
theorem loansAreGrantedAndEnded : Obligations.LoansAreGrantedAndEnded := ⟨aLendingPeriodGrantsRecallsOrRenews, loansBeginAndEndByTheirMessages⟩

end Sys2Proof.Claims
end

section
/-! PROOFS. The life cycle and confidential mode (R409 to R415). -/

namespace Sys2Proof.Machine

open Sys2Proof.Claims

/-! ### What leaves the life-cycle state and the count of challenges as they were -/

/-- A step that leaves the life-cycle state and the count of challenges. -/
structure State.SameSeal (s t : State) : Prop where
  lc         : t.sec.lc = s.sec.lc
  challenges : t.sec.challenges = s.sec.challenges

theorem State.SameSeal.of_sec {s t : State} (h : t.sec = s.sec) : s.SameSeal t := ⟨by rw [h], by rw [h]⟩

theorem State.SameSeal.refl (s : State) : s.SameSeal s := .of_sec rfl

theorem State.SameSeal.trans {s t u : State} (h : s.SameSeal t) (k : t.SameSeal u) : s.SameSeal u := ⟨k.lc.trans h.lc, k.challenges.trans h.challenges⟩

theorem State.SameSeal.foldl {α : Type} {f : State → α → State} (h : ∀ t a, State.SameSeal t (f t a)) (l : List α) : ∀ s : State, s.SameSeal (l.foldl f s) := by
  induction l with
  | nil => exact State.SameSeal.refl
  | cons a r ih => exact fun s => (h s a).trans (ih _)

theorem State.QueueStep.seal {s t : State} (h : s.QueueStep t) : s.SameSeal t := .of_sec h.sec

theorem State.MemStep.seal {s t : State} (h : s.MemStep t) : s.SameSeal t := .of_sec h.sec

theorem State.Sent.seal {s t : State} (h : s.Sent t) : s.SameSeal t := .of_sec (by rw [h])

theorem State.modCore_seal (s : State) (p : Nat) (f : Core → Core) : s.SameSeal (s.modCore p f) := .of_sec rfl

theorem State.setKeeps_seal (s : State) (n : Nat) (l : List Keep) : s.SameSeal (s.setKeeps n l) := .of_sec rfl

theorem State.setCtx_seal (s : State) (c : Nat) (x : Ctx) : s.SameSeal (s.setCtx c x) := .of_sec rfl

theorem State.mem_seal (s : State) (m : Mem) : s.SameSeal { s with mem := m } := .of_sec rfl

theorem State.peal_seal (s : State) (p : Peal) : s.SameSeal { s with peal := p } := .of_sec rfl

theorem State.setSlab_seal (s : State) (n : Nat) (e : SlabEntry) : s.SameSeal (s.setSlab n e) := .of_sec rfl

theorem State.dropIdle_seal (s : State) : s.SameSeal s.dropIdle := .of_sec rfl

theorem State.delCmd_seal (s : State) (uid : Nat) : s.SameSeal (s.delCmd uid) := .of_sec rfl

theorem State.wipeCores_seal (s : State) (l : List Nat) : s.SameSeal (s.wipeCores l) := .foldl (fun t p => t.modCore_seal p _) _ _

theorem State.abortPkgs_seal (s : State) (p : PkgJob → Bool) : s.SameSeal (s.abortPkgs p) := by
  unfold State.abortPkgs
  split
  · exact .refl s
  · exact ⟨rfl, rfl⟩

theorem State.abortMeasures_seal (s : State) (c : Nat) : s.SameSeal (s.abortMeasures c) :=
  State.SameSeal.trans (t := { s with sec := { s.sec with measures := s.sec.measures.filter fun j => j.ctx != c } }) ⟨rfl, rfl⟩
    (.foldl (fun t _ => .of_sec (t := t.answer rREFUSED) rfl) _ _)

theorem State.closeStreams_seal (s : State) (opid : BitVec 32) : s.SameSeal (s.closeStreams opid) :=
  (State.SameSeal.foldl (fun t _ => (t.sendControl_sent _ _ _ _ _ _).seal) _ s).trans (.of_sec rfl)

theorem State.Meets.seal {s t : State} (h : s.Meets t) : s.SameSeal t := h.1.1.seal

theorem State.unmark_seal (s : State) (i : Inst) : s.SameSeal (s.unmark i) := by
  unfold State.unmark
  dsimp only
  split
  · exact .refl s
  · refine (s.meetShard_meets i.part i.desc.layer).seal.trans ?_
    split
    · split
      · exact (State.memWrite_memStep _ _ _).seal
      · exact .refl _
    · exact .refl _

theorem State.cancelInst_seal (s : State) (i : Inst) : s.SameSeal (s.cancelInst i) :=
  (s.closeStreams_seal _).trans ((State.unmark_seal _ i).trans (State.peal_seal _ _))

theorem State.cancelUid_seal (s : State) (uid : Nat) : s.SameSeal (s.cancelUid uid) :=
  (State.SameSeal.foldl (fun t i => t.cancelInst_seal i) _ _).trans (.foldl (fun t n => t.setKeeps_seal n _) _ _)

theorem State.cancelPart_seal (s : State) (n : Nat) : s.SameSeal (s.cancelPart n) :=
  (State.SameSeal.foldl (fun t i => t.cancelInst_seal i) _ _).trans ((State.setKeeps_seal _ n []).trans (State.peal_seal _ _))

theorem State.dropCommands_seal (s : State) (c : Nat) (uid : Option Nat) : s.SameSeal (s.dropCommands c none uid) := by
  unfold State.dropCommands
  refine State.SameSeal.trans (t := if (s.disp.issued.filter fun i => i.ctx == c).isEmpty then s else s.setCtx c
    { s.ctx c with torn := (s.ctx c).torn ++ (s.disp.issued.filter fun i => i.ctx == c).flatMap fun i => i.entry.writes }) ?_ (.foldl (fun t i => ?_) _ _)
  · split
    · exact .refl s
    · exact .of_sec rfl
  · have released : t.SameSeal (t.releaseGang i.uid i.gang) := .foldl (fun u p => u.modCore_seal p _) _ _
    exact released.trans ((State.cancelUid_seal _ _).trans (State.delCmd_seal _ _))

theorem State.meetTables_seal (s : State) (n base : Nat) : s.SameSeal (s.meetTables n base) := by
  have table (t : State) (pa len : Nat) : t.SameSeal (t.meetTable n pa len) := .foldl (fun u h => (u.meetErr_errStep h false).1.seal) _ _
  unfold State.meetTables
  split
  · exact .refl s
  · exact (table s _ _).trans ((State.SameSeal.foldl (fun t e => table t _ _) _ _).trans (.foldl (fun t e => table t _ _) _ _))

theorem State.cancelCtx_seal (s : State) (c : Nat) : s.SameSeal (s.cancelCtx c) := .foldl (fun t n => t.setKeeps_seal n _) _ _

theorem State.teardown_seal (s : State) (c : Nat) (toFree : Bool) (uid : Option Nat) : s.SameSeal (s.teardown c toFree none uid) :=
  ((((((((s.dropCommands_seal c uid).trans (State.meetTables_seal _ _ _)).trans (State.mem_seal _ _)).trans (State.wipeCores_seal _ _)).trans
    (State.abortPkgs_seal _ _)).trans (State.abortMeasures_seal _ _)).trans (State.cancelCtx_seal _ _)).trans (State.setCtx_seal _ _ _)).trans
      (State.dropIdle_seal _)

theorem State.destroy_seal (s : State) (c : Nat) : s.SameSeal (s.destroy c) := by
  unfold State.destroy
  dsimp only
  split
  · exact .refl s
  · exact s.setCtx_seal _ _
  · exact (s.setCtx_seal _ _).trans (State.teardown_seal _ _ _ _)

theorem State.flushTraces_seal (s : State) : s.SameSeal s.flushTraces :=
  .foldl (fun t i => ((t.setQueue_queueStep (16 + i) _).trans (State.flushQueue_queueStep _ _)).seal) _ s

theorem State.endsDebug_seal (s : State) (c : Bool) : s.SameSeal (if c then { s with sec := { s.sec with debugEn := false } } else s) := by
  split
  · exact ⟨rfl, rfl⟩
  · exact .refl s

theorem State.losesTraces_seal (s : State) (c : Bool) : s.SameSeal (if c then s.flushTraces else s) := by
  split
  · exact s.flushTraces_seal
  · exact .refl s

/-- The end of a partition reset on the state that has lost its traces. -/
theorem State.closeReset_seal (s : State) (n : Nat) (p : Part) (m : Mem) (car : Carillon) :
    s.SameSeal ({ s.setPart n p with mem := m, car := car } : State).retap := .of_sec rfl

theorem State.finishPartReset_seal (s : State) (n : Nat) : s.SameSeal (s.finishPartReset n) := by
  unfold State.finishPartReset
  dsimp only
  split
  · exact ((s.endsDebug_seal _).trans (State.losesTraces_seal _ _)).trans (State.closeReset_seal _ _ _ _ _)
  · exact .refl s

theorem State.emptied_seal (s : State) (n : Nat) : s.SameSeal (s.emptied n) := by
  have seals (l : List Nat) (t : State) : t.SameSeal (t.dropSeals l) := .foldl (fun u c => (u.abortMeasures_seal c).trans (State.setCtx_seal _ _ _)) l t
  exact (((State.SameSeal.foldl (fun t c => t.destroy_seal c) _ s).trans (seals _ _)).trans (State.cancelPart_seal _ n)).trans
    (State.flushQueue_queueStep _ n).seal

theorem State.cleared_seal (s : State) (n : Nat) : s.SameSeal (s.cleared n) :=
  State.SameSeal.trans (t := s.clearTables n) ⟨rfl, rfl⟩ (State.abortPkgs_seal _ _)

theorem State.markWiped_seal (s : State) (n : Nat) : s.SameSeal (s.markWiped n) :=
  ((State.SameSeal.foldl (fun t k => t.setSlab_seal k _) (s.ownedBy n) s).trans (State.mem_seal _ _)).trans (State.wipeCores_seal _ _)

theorem State.resetPart_seal (s : State) (n : Nat) : s.SameSeal (s.resetPart n) := by
  rw [State.resetPart_eq]
  exact (((s.emptied_seal n).trans (State.cleared_seal _ n)).trans (State.markWiped_seal _ n)).trans (State.finishPartReset_seal _ n)

theorem State.unmap_seal (s : State) (p : Nat) : s.SameSeal (s.unmap p) := by
  unfold State.unmap
  dsimp only
  split
  · split <;> exact .of_sec rfl
  · split
    · exact .of_sec rfl
    · exact .refl s

theorem State.bist_seal (s : State) (b : Bist) : s.SameSeal { s with bist := b } := .of_sec rfl

theorem State.abortTests_seal (s : State) (l : List Nat) : s.SameSeal (s.abortTests l) :=
  (s.bist_seal _).trans (.foldl (fun t p => ((t.modCore_seal p _).trans (State.bist_seal _ _)).trans (State.unmap_seal _ _)) l _)

theorem State.damper_seal (s : State) (d : Damper) : s.SameSeal { s with damper := d } := .of_sec rfl

theorem State.unmap_same (s : State) (p : Nat) : (s.unmap p).sec = s.sec ∧ (s.unmap p).mem = s.mem := by
  unfold State.unmap
  dsimp only
  split
  · split <;> exact ⟨rfl, rfl⟩
  · split <;> exact ⟨rfl, rfl⟩

/-- Tests that are aborted touch neither memory nor the security state. -/
theorem State.abortTests_same (s : State) (l : List Nat) : (s.abortTests l).sec = s.sec ∧ (s.abortTests l).mem = s.mem := by
  unfold State.abortTests
  dsimp only
  generalize start : { s with bist := { s.bist with cores := [], aborted := l } } = t
  have same : t.sec = s.sec ∧ t.mem = s.mem := by rw [← start]; exact ⟨rfl, rfl⟩
  clear start
  induction l generalizing t with
  | nil => exact same
  | cons p r ih =>
    refine ih _ ?_
    rw [(State.unmap_same _ p).1, (State.unmap_same _ p).2]
    exact same

theorem State.endBorrow_seal (s : State) (p : Borrow → Bool) : s.SameSeal (s.endBorrow p) := by
  unfold State.endBorrow
  dsimp only
  split
  · exact .refl s
  · exact (s.damper_seal _).trans (State.damperEvent_queueStep _ 5).seal

theorem State.settleLoans_seal (s : State) : s.SameSeal s.settleLoans := by
  have sends (typ rank : Nat) (loan : BitVec 32) (amount : Nat) (t : State) : t.SameSeal (t.sendLend typ rank loan amount) :=
    (t.sendLend_sent typ rank loan amount).seal
  have returns (l : List Borrow) (t : State) : t.SameSeal (l.foldl (fun s b => s.sendLend 5 b.rank b.seq b.amount) t) :=
    State.SameSeal.foldl (f := fun s (b : Borrow) => s.sendLend 5 b.rank b.seq b.amount) (fun u b => sends 5 b.rank b.seq b.amount u) l t
  have grants (l : List Loan) (t : State) : t.SameSeal (l.foldl (fun s b => s.sendLend 2 b.rank b.seq b.amount) t) :=
    State.SameSeal.foldl (f := fun s (b : Loan) => s.sendLend 2 b.rank b.seq b.amount) (fun u b => sends 2 b.rank b.seq b.amount u) l t
  unfold State.settleLoans
  split
  · exact .refl s
  · exact (((s.damper_seal _).trans (returns _ _)).trans (grants _ _)).trans (State.damper_seal _ _)

theorem State.endLoans_seal (s : State) : s.SameSeal s.endLoans := (s.endBorrow_seal _).trans (State.settleLoans_seal _)

/-- The partitions, the loans and the tests of a device whose life cycle turns. -/
def State.turned (s : State) : State :=
  (((List.range 16).foldl State.resetPart s).endLoans).abortTests ((List.range 16).foldl State.resetPart s).endLoans.bist.abortList

theorem State.turned_seal (s : State) : s.SameSeal s.turned :=
  ((State.SameSeal.foldl State.resetPart_seal (List.range 16) s).trans (State.endLoans_seal _)).trans (State.abortTests_seal _ _)

theorem State.lcAccept_eq (s : State) (t : LifeCycle) : s.lcAccept t = { s.turned with
    mem := { s.turned.mem with wipes := [], opSlabs := [] }, car := { s.turned.car with en := false, st := 0 },
    sec := { s.turned.sec with ckey := none, ckeyId := zeros64, lcTarget := some t } } := by
  unfold State.lcAccept State.turned
  with_reducible rfl

end Sys2Proof.Machine

namespace Sys2Proof.Claims

open Sys2Proof Sys2Proof.Machine

/-- A transition that is under way keeps commands and dictionary writes out. -/
theorem turnAccepted_of {w s : State} {target : LifeCycle} {uses : Bool} (turning : w.sec.lcTarget = some target) (lc : w.sec.lc = s.sec.lc)
    (key : w.sec.ckey = none) (off : w.car.en = false) (st : w.car.st = 0) (wipes : w.mem.wipes = [])
    (used : w.sec.challenges = s.sec.challenges + (if uses then 1 else 0)) (ok : w.hub.out.head? = some (.answer rOK)) :
    TurnAccepted (.next w) s target uses := by
  refine ⟨w, rfl, turning, lc, key, off, st, wipes, used, ?_, fun range allowed cp => ?_, ok⟩
  · unfold State.commandsRun
    rw [turning, Option.isNone_some, Bool.and_false, Bool.false_and]
  · unfold State.writeGate
    rw [turning, Option.isSome_some, Bool.or_true, if_pos rfl]

/-- The answer of a transition that is accepted from state v. -/
def accepts (pr : Principal) (v : State) (target : LifeCycle) : State := ((v.lcAccept target).counted pr rOK).answer rOK

theorem answer_head (s : State) (r : BitVec 8) : (s.answer r).hub.out.head? = some (.answer r) := rfl

theorem accepts_fields (pr : Principal) (v : State) (target : LifeCycle) : (accepts pr v target).sec.lcTarget = some target ∧
    (accepts pr v target).sec.lc = v.sec.lc ∧ (accepts pr v target).sec.ckey = none ∧ (accepts pr v target).car.en = false ∧
    (accepts pr v target).car.st = 0 ∧ (accepts pr v target).mem.wipes = [] ∧ (accepts pr v target).sec.challenges = v.sec.challenges ∧
    (accepts pr v target).hub.out.head? = some (.answer rOK) := by
  have sec : (accepts pr v target).sec = (v.lcAccept target).sec := (v.lcAccept target).counted_sec pr rOK
  have car : (accepts pr v target).car = (v.lcAccept target).car := (v.lcAccept target).counted_car pr rOK
  have mem : (accepts pr v target).mem = (v.lcAccept target).mem := (v.lcAccept target).counted_mem pr rOK
  have kept := v.turned_seal
  have out : (accepts pr v target).hub.out.head? = some (.answer rOK) := answer_head _ _
  rw [sec, car, mem, v.lcAccept_eq]
  generalize v.turned = u at kept
  exact ⟨rfl, kept.lc, rfl, rfl, rfl, rfl, kept.challenges, out⟩

/-- What one LC_REQUEST answers. -/
def requested (who : Bool) (start : LifeCycle → Bool) (target : LifeCycle) (token : State → Bool) (uses : Bool) (s : State) : BitVec 8 × State :=
  if !who ∨ !start s.sec.lc ∨ (15 ≤ s.sec.transitions ∧ target ≠ .scrapped) ∨ !token s then (rREFUSED, s)
  else (rOK, (if uses then { s with sec := { s.sec with challenges := s.sec.challenges + 1 } } else s).lcAccept target)

section Request

variable {s : State} {pr : Principal} {who uses : Bool} {start : LifeCycle → Bool} {target : LifeCycle} {token : State → Bool}

theorem lcRequest_eq : s.lcRequest pr who start target token uses = s.dictWriteAt pr 0 (prHost pr || prBmc pr) true
    (requested who start target token uses) := rfl

theorem turns (h : WriteOpen s (prHost pr || prBmc pr) true) (may : who = true) (starts : start s.sec.lc = true)
    (few : s.sec.transitions < 15 ∨ target = .scrapped) (good : token s = true) : s.lcRequest pr who start target token uses =
      accepts pr (if uses then { s with sec := { s.sec with challenges := s.sec.challenges + 1 } } else s) target := by
  have served : ¬ ((!who) = true ∨ (!start s.sec.lc) = true ∨ (15 ≤ s.sec.transitions ∧ target ≠ .scrapped) ∨ (!token s) = true) := by
    rw [may, starts, good]
    rintro (no | no | ⟨many, other⟩ | no)
    · cases no
    · cases no
    · exact few.elim (Nat.not_lt.mpr many) other
    · cases no
  have runs : requested who start target token uses s = (rOK, State.lcAccept _ target) := if_neg served
  exact lcRequest_eq.trans (Host.Outcome.next.inj (answers_of_open h runs))

theorem turnsAway (h : WriteOpen s (prHost pr || prBmc pr) true)
    (no : who = false ∨ start s.sec.lc = false ∨ (15 ≤ s.sec.transitions ∧ target ≠ .scrapped) ∨ token s = false) :
    s.lcRequest pr who start target token uses = (s.counted pr rREFUSED).answer rREFUSED := by
  have runs : requested who start target token uses s = (rREFUSED, s) :=
    if_pos (no.imp (fun e => by rw [e]; rfl) fun no => no.imp (fun e => by rw [e]; rfl) fun no => no.imp_right fun e => by rw [e]; rfl)
  exact lcRequest_eq.trans (Host.Outcome.next.inj (answers_of_open h runs))

end Request

/-- A transition that is accepted from s or, by its use of a challenge, from v. -/
theorem accepts_turn (pr : Principal) {s v : State} (target : LifeCycle) {uses : Bool} (lc : v.sec.lc = s.sec.lc)
    (used : v.sec.challenges = s.sec.challenges + (if uses then 1 else 0)) : TurnAccepted (.next (accepts pr v target)) s target uses := by
  obtain ⟨turning, same, key, off, st, wipes, count, ok⟩ := accepts_fields pr v target
  exact turnAccepted_of turning (same.trans lc) key off st wipes (count.trans used) ok

/-- The certificate that a token brings (R410). -/
theorem turnAccepted_cert {w s : State} {target : LifeCycle} {uses : Bool} (cert : Option (List Byte)) (h : TurnAccepted (.next w) s target uses) :
    TurnAccepted (.next { w with sec := { w.sec with idCertFlash := cert } }) s target uses := by
  obtain ⟨t, same, turning, lc, key, off, st, wipes, used, -, -, ok⟩ := h
  obtain rfl := Host.Outcome.next.inj same
  exact turnAccepted_of (w := { w with sec := { w.sec with idCertFlash := cert } }) turning lc key off st wipes used ok

theorem lcToProvisioned_refused {s : State} {pr : Principal} {token : List Byte} (h : WriteOpen s (prHost pr || prBmc pr) true)
    (no : prHost pr = false ∨ (s.sec.lc ≠ .blank ∧ s.sec.lc ≠ .returned) ∨ 15 ≤ s.sec.transitions ∨ s.tokenOk token = false) :
    exec (.lcToProvisioned pr token) s = answers pr s rREFUSED := by
  have away := turnsAway (start := fun l => l == LifeCycle.blank || l == LifeCycle.returned) (target := .provisioned) (token := (·.tokenOk token))
    (uses := true) (who := prHost pr) h (no.imp_right fun no => no.imp (fun ⟨a, b⟩ => by simp [a, b]) fun no => no.imp_left fun many => ⟨many, by decide⟩)
  show execLcToProvisioned pr token s = _
  unfold execLcToProvisioned
  dsimp only
  rw [away, if_neg]
  · rfl
  · rintro ⟨-, turning, -⟩
    rw [show ((s.counted pr rREFUSED).answer rREFUSED).sec = s.sec from s.counted_sec pr rREFUSED, (State.writeGate_none h.2).2.1] at turning
    cases turning

theorem lcToProvisioned_accepted {s : State} {pr : Principal} {token : List Byte} (h : WriteOpen s (prHost pr || prBmc pr) true) (host : prHost pr = true)
    (begins : s.sec.lc = .blank ∨ s.sec.lc = .returned) (few : s.sec.transitions < 15) (good : s.tokenOk token = true) :
    TurnAccepted (exec (.lcToProvisioned pr token) s) s .provisioned true := by
  have goes := turns (start := fun l => l == LifeCycle.blank || l == LifeCycle.returned) (target := .provisioned) (token := (·.tokenOk token))
    (uses := true) h host (by simpa using begins) (.inl few) good
  show TurnAccepted (execLcToProvisioned pr token s) s .provisioned true
  unfold execLcToProvisioned
  dsimp only
  have turn := accepts_turn pr (s := s) (v := { s with sec := { s.sec with challenges := s.sec.challenges + 1 } }) .provisioned (uses := true) rfl rfl
  rw [goes, if_pos rfl]
  generalize accepts pr _ _ = w at turn ⊢
  split
  · exact turnAccepted_cert _ turn
  · exact turn

/-- A boot keeps what flash and fuses keep, and empties memory. -/
theorem boot_fields {u : State} (on : u.damper.shutdown = false) : u.boot.sec = u.sec.afterReset ∧ u.boot.mem = memAfterReset u.fw := by
  unfold State.boot State.resetKeep State.retap
  dsimp only
  rw [on, if_neg Bool.false_ne_true, (State.abortTests_same _ _).1, (State.abortTests_same _ _).2]
  exact ⟨rfl, rfl⟩

/-- The device as its wipes end, before it boots (R411). -/
def wiped (u : State) (lc : LifeCycle) : State :=
  let s := { u with sec := { u.sec with lc := lc, transitions := u.sec.transitions + 1, seedOff := u.sec.seedOff || lc == LifeCycle.scrapped } }
  if lc = .returned then { s with fw := { s.fw with flashRetire := [], flashRetired := [] } } else s

theorem wiped_fields (u : State) (lc : LifeCycle) : (wiped u lc).damper = u.damper ∧
    (wiped u lc).sec = { u.sec with lc := lc, transitions := u.sec.transitions + 1, seedOff := u.sec.seedOff || lc == LifeCycle.scrapped } ∧
    (lc = .returned → (wiped u lc).fw.flashRetire = []) ∧ (lc = .returned → (wiped u lc).fw.flashRetired = []) := by
  unfold wiped
  split
  · exact ⟨rfl, rfl, fun _ => rfl, fun _ => rfl⟩
  · next other => exact ⟨rfl, rfl, fun back => absurd back other, fun back => absurd back other⟩

theorem theLifeCycleTakesOnlyItsTransitions : TheLifeCycleTakesOnlyItsTransitions := by
  intro s pr token h n
  obtain ⟨live, idle, allowed, -⟩ := State.writeGate_none h.2
  have turn {who : Bool} {start : LifeCycle → Bool} {target : LifeCycle} (may : who = true) (starts : start s.sec.lc = true)
      (few : s.sec.transitions < 15 ∨ target = .scrapped) :
      TurnAccepted (.next (s.lcRequest pr who start target (fun _ => true) false)) s target false := by
    rw [turns (uses := false) h may starts few rfl]
    exact accepts_turn pr target rfl rfl
  have away {who : Bool} {start : LifeCycle → Bool} {target : LifeCycle}
      (no : who = false ∨ start s.sec.lc = false ∨ (15 ≤ s.sec.transitions ∧ target ≠ .scrapped)) :
      Host.Outcome.next (s.lcRequest pr who start target (fun _ => true) false) = answers pr s rREFUSED :=
    congrArg Host.Outcome.next (turnsAway h (no.imp_right fun no => no.imp_right .inl))
  refine ⟨fun host starts few good => lcToProvisioned_accepted h host starts few good, fun host lc few => turn host (by rw [lc]; rfl) (.inl few),
    fun lc few => turn allowed (by rw [lc]; rfl) (.inl few), fun lc => turn allowed (bne_iff_ne.mpr lc) (.inr rfl),
    fun no => lcToProvisioned_refused h no, fun no => away (no.imp_right fun no => no.imp beq_eq_false_iff_ne.mpr fun many => ⟨many, by decide⟩),
    fun no => away (.inr (no.imp beq_eq_false_iff_ne.mpr fun many => ⟨many, by decide⟩)), fun u lc turning dark => ?_, fun u lc turning on => ?_⟩
  · show execLcWipeEnd u = _
    unfold execLcWipeEnd
    rw [turning]
    exact if_pos dark
  · show ∃ t, execLcWipeEnd u = _ ∧ _
    have run : execLcWipeEnd u = .next (wiped u lc).boot := by
      unfold execLcWipeEnd
      rw [turning]
      dsimp only
      rw [on, if_neg Bool.false_ne_true] <;> rfl
    obtain ⟨damper, sec, list, slabs⟩ := wiped_fields u lc
    obtain ⟨booted, memory⟩ := boot_fields (u := wiped u lc) (by rw [damper]; exact on)
    refine ⟨_, run, ?_⟩
    rw [booted, memory, sec]
    refine ⟨rfl, rfl, rfl, fun scrap => ?_, fun back => ⟨list back, slabs back⟩, rfl, rfl⟩
    show (u.sec.seedOff || lc == LifeCycle.scrapped) = true
    rw [scrap, beq_self_eq_true, Bool.or_true]

theorem confidentialModeGuardsAndDebugEnds : ConfidentialModeGuardsAndDebugEnds := by
  intro s pr n v h p
  refine ⟨fun big => ⟨answers_of_open h (if_pos big), answers_of_open h (if_pos big)⟩, fun small no => ?_, fun small op free => ⟨fun same idle => ?_, fun new => ?_⟩,
    fun on conf => ?_, fun ok => ?_, fun t => ⟨fun can => ?_, fun cannot => ?_, fun closed => ?_⟩⟩
  · exact answers_of_open h ((if_neg (Nat.not_lt.mpr small)).trans (if_pos (no.imp_right fun held => by rw [held]; rfl)))
  · have served : ¬ (s.sec.lc ≠ .operational ∨ (!s.allFree n) = true) := by rw [free]; exact fun bad => bad.elim (fun n => n op) (by decide)
    exact answers_of_open h ((if_neg (Nat.not_lt.mpr small)).trans ((if_neg served).trans (if_pos ⟨same, by rw [idle]; rfl⟩)))
  · have served : ¬ (s.sec.lc ≠ .operational ∨ (!s.allFree n) = true) := by rw [free]; exact fun bad => bad.elim (fun n => n op) (by decide)
    refine answers_of_open h ((if_neg (Nat.not_lt.mpr small)).trans ((if_neg served).trans (if_neg ?_)))
    rintro ⟨same, idle⟩
    exact new.elim (fun n => n same) fun n => n (Option.isNone_iff_eq_none.mp idle)
  · exact answers_of_open h ((if_neg (by rw [on]; decide)).trans (if_pos ⟨on, conf⟩))
  · refine answers_of_open h ((if_neg ?_).trans (if_neg ?_))
    · obtain ⟨rfl, -⟩ | rfl := ok <;> decide
    · rintro ⟨on, conf⟩
      obtain ⟨-, plain⟩ | rfl := ok
      · exact Bool.noConfusion (plain.symm.trans conf)
      · exact absurd on (by decide)
  · unfold State.retap
    rw [if_pos can]
  · unfold State.retap
    rw [cannot, if_neg Bool.false_ne_true]
  · have shut : t.debugOk = false := by
      unfold State.debugOk
      obtain gone | ⟨op, off | conf⟩ := closed
      · rw [gone]
      · rw [op, off]
        rfl
      · rw [op, conf]
        exact Bool.and_false _
    exact ⟨shut, fun _ => shut⟩

/-- Settles O43, by what a transition leaves, and the checks of its requests. -/
theorem theLifeCycleAndConfidentialityHold : Obligations.TheLifeCycleAndConfidentialityHold :=
  ⟨theLifeCycleTakesOnlyItsTransitions, confidentialModeGuardsAndDebugEnds⟩

end Sys2Proof.Claims
end

section
/-! PROOFS. Measurement, reports and the carillon key (R418 to R422). -/

namespace Sys2Proof.Claims

open Sys2Proof Sys2Proof.Machine

/-! ### The lengths of a value -/

theorem lenBad_short {n : Nat} {d : List Byte} (short : d.length < n) : lenBad n d = some rRANGE :=
  (if_neg (Nat.not_lt.mpr (Nat.le_of_lt short))).trans (if_pos short)

theorem lenBad_long {n : Nat} {d : List Byte} (long : n < d.length) : lenBad n d = some rTOO_LARGE := if_pos long

theorem lenBad_none {n : Nat} {d : List Byte} (exact_ : d.length = n) : lenBad n d = none :=
  (if_neg (by omega)).trans (if_neg (by omega))

/-! ### MEASURE (R419) -/

section Measure

variable {s : State} {pr : Principal} {n : Fin 16} {d : List Byte}

theorem measure_turned (h : Open s 8 (prOwns pr n) true) {r : BitVec 8} (bad : s.measureBad n d = some r) : exec (.measure pr n d) s = answers pr s r := by
  show execMeasure pr n d s = _
  unfold execMeasure
  rw [h.1, show s.writeGate 8 (prOwns pr n.val) true = none from h.2]
  dsimp only
  rw [bad]
  rfl

theorem measure_tries (h : Open s 8 (prOwns pr n) true) (good : s.measureBad n d = none) :
    exec (.measure pr n d) s = .next ((s.counted pr rOK).tryMeasure (measureOf n d)) := by
  show execMeasure pr n d s = _
  unfold execMeasure
  rw [h.1, show s.writeGate 8 (prOwns pr n.val) true = none from h.2]
  dsimp only
  rw [good]
  rfl

/-- The check of R419, where the length is right. -/
theorem measureBad_fields (whole : d.length = 24) : s.measureBad n d =
    if ¬ MeasureFields d then some rRANGE
    else if 4096 ≤ (measureOf n d).ctx ∨ (s.ctx (measureOf n d).ctx).part.toNat ≠ n then some rREFUSED else none := by
  have same : (1 < natAt d 2 1 ∨ (!zeroAt d 3 5) = true ∨ natAt d 8 8 % 8 ≠ 0 ∨ natAt d 16 8 % 8 ≠ 0 ∨ natAt d 16 8 < 8 ∨ 2 ^ 24 < natAt d 16 8) ↔
      ¬ MeasureFields d := by
    unfold MeasureFields
    cases zeroAt d 3 5 <;> simp [whole] <;> omega
  unfold State.measureBad
  rw [lenBad_none whole]
  dsimp only
  exact if_congr same rfl rfl

theorem tryMeasure_full {t : State} {j : MeasureJob} (idle : t.measureBusy j = false) (full : 256 ≤ (t.mlog j.part).length) :
    t.tryMeasure j = t.answer rREFUSED :=
  (if_neg (by rw [idle]; exact Bool.false_ne_true)).trans (if_pos full)

/-- A measurement that neither waits nor finds its log full. -/
theorem tryMeasure_reads {t : State} {j : MeasureJob} (idle : t.measureBusy j = false) (room : (t.mlog j.part).length < 256) : t.tryMeasure j =
    match (t.vaReadErrs j.ctx j.va j.len []).1 with
    | .held => { t with sec := { t.sec with measures := t.sec.measures ++ [j] } }
    | .fault _ => (t.vaReadErrs j.ctx j.va j.len []).2.answer rREFUSED
    | .ok b =>
      let u := (t.vaReadErrs j.ctx j.va j.len []).2.appendLog j.part 1 j.fix j.ctx j.va j.len (shake256 b)
      (if j.fix then u.setCtx j.ctx { u.ctx j.ctx with seals := (u.ctx j.ctx).seals ++ [(j.va, j.len)] } else u).answer rOK := by
  refine (if_neg (by rw [idle]; exact Bool.false_ne_true)).trans ((if_neg (Nat.not_le.mpr room)).trans ?_)
  generalize t.vaReadErrs j.ctx j.va j.len [] = o
  obtain ⟨got, u⟩ := o
  cases got <;> rfl

end Measure

theorem mlog_appendLog (t : State) (n kind : Nat) (b : Bool) (c va len : Nat) (x : List Byte) :
    (t.appendLog n kind b c va len x).mlog n = t.mlog n ++ [{ bytes := logEntry kind b c (t.mlog n).length va len x }] := by
  generalize entry : logEntry kind b c (t.mlog n).length va len x = e
  unfold State.appendLog
  dsimp only
  rw [entry]
  exact sget_sset_same [] t.sec.logs n _

theorem logHash_appendLog (t : State) (n kind : Nat) (b : Bool) (c va len : Nat) (x : List Byte) :
    (t.appendLog n kind b c va len x).logHash n = shake256 (t.logHash n ++ logEntry kind b c (t.mlog n).length va len x) :=
  sget_sset_same zeros64 t.sec.loghash n (shake256 (t.logHash n ++ logEntry kind b c (t.mlog n).length va len x))

theorem measureLogsAndSeals : MeasureLogsAndSeals := by
  intro s pr n d h j c
  refine ⟨fun short => measure_turned h ?_, fun long => measure_turned h ?_, fun whole bad => measure_turned h ?_, fun good away => measure_turned h ?_,
    fun good small mine => ?_⟩
  · unfold State.measureBad
    rw [lenBad_short short]
  · unfold State.measureBad
    rw [lenBad_long long]
  · exact (measureBad_fields whole).trans (if_pos bad)
  · exact (measureBad_fields good.1).trans ((if_neg (not_not_intro good)).trans (if_pos away))
  · have tries := measure_tries h ((measureBad_fields good.1).trans ((if_neg (not_not_intro good)).trans
      (if_neg fun bad => bad.elim (Nat.not_le.mpr small) fun n => n mine)))
    intro wait
    have same : c.measureBusy j = s.measureBusy j := by
      unfold State.measureBusy
      rw [s.counted_disp pr rOK, show c.ctx j.ctx = s.ctx j.ctx by unfold State.ctx; rw [s.counted_disp pr rOK]]
    have log (k : Nat) : c.mlog k = s.mlog k := by unfold State.mlog; rw [s.counted_sec pr rOK]
    have hash (k : Nat) : c.logHash k = s.logHash k := by unfold State.logHash; rw [s.counted_sec pr rOK]
    rw [tries]
    refine ⟨fun busy => congrArg Host.Outcome.next (if_pos (same.trans busy)), fun idle full => congrArg Host.Outcome.next (tryMeasure_full (same.trans idle)
      ((log n).symm ▸ full)), fun idle room => ?_⟩
    have free : c.measureBusy j = false := same.trans idle
    have fits : (c.mlog j.part).length < 256 := (log n).symm ▸ room
    have read := tryMeasure_reads free fits
    have kept := (c.vaReadErrs_meets j.ctx j.va j.len []).1.1.sec
    intro o
    refine ⟨fun st fault => ?_, fun held => ?_, fun b ok => ?_⟩
    · rw [read, show (c.vaReadErrs j.ctx j.va j.len []).1 = _ from fault]
    · rw [read, show (c.vaReadErrs j.ctx j.va j.len []).1 = _ from held]
    · rw [read, show (c.vaReadErrs j.ctx j.va j.len []).1 = _ from ok]
      have after (k : Nat) : o.2.mlog k = s.mlog k := by
        rw [← log]
        unfold State.mlog
        rw [kept]
      have sum (k : Nat) : o.2.logHash k = s.logHash k := by
        rw [← hash]
        unfold State.logHash
        rw [kept]
      refine ⟨rfl, ?_, ?_⟩
      · rw [← after]
        exact mlog_appendLog ..
      · rw [← after, ← sum]
        exact logHash_appendLog ..

/-- The state after the report r of a scope (R420). -/
def reported (s : State) (pr : Principal) (scope : Nat) (r : List Byte) : State :=
  let ds := if scope = 0xFF then (shake256 r :: s.sec.digests).take 4 else s.sec.digests
  { s with sec := { s.sec with report := sset [] s.sec.report (prKey pr) r, reports := s.sec.reports + 1, digests := ds } }

theorem reported_report (s : State) (pr : Principal) (scope : Nat) (r : List Byte) : sget [] (reported s pr scope r).sec.report (prKey pr) = r :=
  sget_sset_same [] s.sec.report (prKey pr) r

theorem ckey_barred {s : State} {x : List Byte} : (s.sec.lc ≠ .operational ∨ (!s.sec.digests.contains x) = true) ↔
    s.sec.lc ≠ .operational ∨ x ∉ s.sec.digests := by
  rw [Bool.not_eq_true', List.contains_eq_mem, decide_eq_false_iff_not]

theorem reportsAndTheCarillonKey : ReportsAndTheCarillonKey := by
  intro s pr d v scope r no
  refine ⟨fun h => ⟨fun short => ?_, fun long => ?_, fun whole fits => ?_, fun whole high other => ?_⟩, fun h whole => ⟨fun off => ?_, fun shut => ?_, fun op known k opens => ?_⟩,
    fun h => ⟨answers_of_open h rfl, answers_of_open h rfl, fun big => answers_of_open h (if_pos big)⟩⟩
  · refine answers_of_open h ?_
    dsimp only
    rw [lenBad_short short]
  · refine answers_of_open h ?_
    dsimp only
    rw [lenBad_long long]
  · have fit : ¬ (scope ≠ 0xFF ∧ 16 ≤ scope) := fun bad => fits.elim (Nat.not_lt.mpr bad.2) bad.1
    have run : exec (.attRequest pr d) s = answers pr (reported s pr scope r) rOK := by
      refine answers_of_open h ?_
      dsimp only
      rw [lenBad_none whole]
      exact if_neg fit
    exact ⟨_, run, reported_report s pr scope r, rfl, fun device => if_pos device, fun small => if_neg (by omega)⟩
  · refine answers_of_open h ?_
    dsimp only
    rw [lenBad_none whole]
    exact if_pos ⟨other, high⟩
  · refine answers_of_open h ?_
    dsimp only
    rw [lenBad_none whole]
    exact if_pos (ckey_barred.mpr off)
  · refine answers_of_open h ?_
    dsimp only
    rw [lenBad_none whole]
    dsimp only
    split
    · rfl
    · rw [shut] <;> rfl
  · have open_ : ¬ (s.sec.lc ≠ .operational ∨ bytesAt d 0x670 64 ∉ s.sec.digests) := fun bad => bad.elim (fun n => n op) fun n => n known
    refine answers_of_open h ?_
    dsimp only
    rw [lenBad_none whole]
    refine (if_neg (fun bad => open_ (ckey_barred.mp bad))).trans ?_
    rw [opens]

/-- Settles O44, by the checks of a request and what a measurement logs. -/
theorem measurementsReportsAndKeys : Obligations.MeasurementsReportsAndKeys := ⟨measureLogsAndSeals, reportsAndTheCarillonKey⟩

end Sys2Proof.Claims
end

section
/-! PROOFS. Weight packages and PCIe IDE (R423 to R428). -/

namespace Sys2Proof.Claims

open Sys2Proof Sys2Proof.Machine

/-! ### The end of a load (R424) -/

theorem startPkg_dst (s : State) : s.startPkg.sec.pkgs.map PkgJob.dst = s.sec.pkgs.map PkgJob.dst ∧ s.startPkg.sec.pkgState = s.sec.pkgState := by
  unfold State.startPkg
  split
  · exact ⟨rfl, rfl⟩
  · next j r queue =>
    rw [queue]
    exact ⟨rfl, rfl⟩

section Segments

variable {s : State} {k : PkgJob} {key h c : List Byte} {i m : Nat}

theorem pkgSegs_forged (read : s.vaRead k.ctx (k.src + 4096 + i * (2 ^ pkgLog h + 16)) (min (2 ^ pkgLog h) (pkgPlain h - i * 2 ^ pkgLog h) + 16) = .ok c)
    (bad : pkgSegment key h i c = none) : s.pkgSegs k key h i (m + 1) = .ok (some 3, s) := by
  unfold State.pkgSegs
  dsimp only
  rw [read]
  dsimp only
  rw [bad]

theorem pkgSegs_writes (read : s.vaRead k.ctx (k.src + 4096 + i * (2 ^ pkgLog h + 16)) (min (2 ^ pkgLog h) (pkgPlain h - i * 2 ^ pkgLog h) + 16) = .ok c)
    {p : List Byte} (good : pkgSegment key h i c = some p) : s.pkgSegs k key h i (m + 1) =
      match s.vaWrite k.ctx (k.dst + i * 2 ^ pkgLog h) (bytesAt p 0 (min (2 ^ pkgLog h) (pkgPlain h - i * 2 ^ pkgLog h))) with
      | .held => .held
      | .fault _ => .ok (some 4, s.meetWrites [(k.ctx, k.dst + i * 2 ^ pkgLog h, min (2 ^ pkgLog h) (pkgPlain h - i * 2 ^ pkgLog h))])
      | .ok t => t.pkgSegs k key h (i + 1) m := by
  rw [State.pkgSegs, read]
  dsimp only
  rw [good] <;> rfl

end Segments

/-- The state with a load that has joined its queue (R424, R428). -/
def joins (u : State) (j : PkgJob) (n : Nat) : State :=
  let first := u.sec.pkgs.isEmpty
  let t := { u with sec := { u.sec with pkgs := u.sec.pkgs ++ [j], pkgState := sset 0 u.sec.pkgState n 1 } }
  if first then t.startPkg else t

theorem joins_first {u : State} {k : Sec} {j : PkgJob} {n : Nat} (none : u.sec.pkgs = []) (sec : u.sec = k) : joins u j n =
    { u with sec := { k with pkgState := sset 0 k.pkgState n 1, pkgs := [{ j with key := k.ckey, keyId := k.ckeyId }] } } := by
  subst sec
  unfold joins State.startPkg
  simp only [none, List.isEmpty_nil, if_true, List.nil_append]

theorem joins_behind {u : State} {k : Sec} {j : PkgJob} {n : Nat} (some : u.sec.pkgs ≠ []) (sec : u.sec = k) : joins u j n =
    { u with sec := { k with pkgState := sset 0 k.pkgState n 1, pkgs := k.pkgs ++ [j] } } := by
  subst sec
  exact if_neg (by rw [List.isEmpty_iff]; exact some)

section Load

variable {s : State} {k : PkgJob}

theorem runPkg_aborted (aborted : k.aborted = true) : s.runPkg k = some ((s.meetRanges k.ctx [(k.src, 4096)]).pkgDone k 5) := if_pos aborted

theorem runPkg_fault (going : k.aborted = false) {st : BitVec 16}
    (read : (s.meetRanges k.ctx [(k.src, 4096)]).vaRead k.ctx k.src 4096 = .fault st) :
    s.runPkg k = some ((s.meetRanges k.ctx [(k.src, 4096)]).pkgDone k 4) := by
  unfold State.runPkg
  dsimp only
  rw [going, if_neg Bool.false_ne_true, read]

theorem runPkg_keyless (going : k.aborted = false) {h : List Byte} (read : (s.meetRanges k.ctx [(k.src, 4096)]).vaRead k.ctx k.src 4096 = .ok h)
    (other : k.key = none ∨ bytesAt h 0x20 64 ≠ k.keyId) : s.runPkg k = some ((s.meetRanges k.ctx [(k.src, 4096)]).pkgDone k 1) := by
  unfold State.runPkg
  dsimp only
  rw [going, if_neg Bool.false_ne_true, read]
  dsimp only
  split
  · rfl
  · next key held => exact if_pos (other.resolve_left (by rw [held]; exact fun e => by cases e))

theorem runPkg_misformed (going : k.aborted = false) {h key : List Byte} (read : (s.meetRanges k.ctx [(k.src, 4096)]).vaRead k.ctx k.src 4096 = .ok h)
    (held : k.key = some key) (same : bytesAt h 0x20 64 = k.keyId) (bad : pkgFormatOk h k.len = false) :
    s.runPkg k = some ((s.meetRanges k.ctx [(k.src, 4096)]).pkgDone k 2) := by
  unfold State.runPkg
  dsimp only
  rw [going, if_neg Bool.false_ne_true, read]
  dsimp only
  rw [held]
  dsimp only
  rw [if_neg (not_not_intro same), bad] <;> rfl

/-- The end of a load whose segments have been taken from state s, with what its whole read gives. -/
def segmented (s : State) (k : PkgJob) (key h : List Byte) (whole : Got (List Byte)) (segs : Got (Option Nat × State)) : Option State :=
  match whole, segs with
  | .held, _ => none
  | _, .held => none
  | _, .fault _ => some (s.pkgDone k 4)
  | whole, .ok (r, t) =>
    match r, whole with
    | some why, _ => some (loadUndone s t k key h why)
    | none, .ok b =>
      if 256 ≤ (t.mlog k.part).length then some (loadUndone s t k key h 6)
      else some ((t.appendLog k.part 2 false k.ctx k.dst (pkgPlain h) (shake256 b)).pkgDone k 0)
    | none, _ => some (loadUndone s t k key h 4)

theorem runPkg_segmented (going : k.aborted = false) {h key : List Byte} (read : (s.meetRanges k.ctx [(k.src, 4096)]).vaRead k.ctx k.src 4096 = .ok h)
    (held : k.key = some key) (same : bytesAt h 0x20 64 = k.keyId) (good : pkgFormatOk h k.len = true) {s2 : State}
    (met : (s.meetRanges k.ctx [(k.src, 4096)]).meetRanges k.ctx [(k.src, pkgBytes h)] = s2) :
    s.runPkg k = segmented s2 k key h (s2.vaRead k.ctx k.src (pkgBytes h)) (s2.pkgSegs k key h 0 (pkgCount h)) := by
  unfold State.runPkg
  dsimp only
  rw [going, if_neg Bool.false_ne_true, read]
  dsimp only
  rw [held]
  dsimp only
  rw [if_neg (not_not_intro same), good, if_neg (by decide), met]
  generalize s2.vaRead k.ctx k.src (pkgBytes h) = whole
  generalize s2.pkgSegs k key h 0 (pkgCount h) = segs
  obtain b | e | _ := whole
  · obtain ⟨_ | why, t⟩ | e | _ := segs <;> rfl
  · obtain ⟨_ | why, t⟩ | e | _ := segs <;> rfl
  · rfl

theorem segmented_stopped {s t : State} {k : PkgJob} {key h : List Byte} {whole : Got (List Byte)} {why : Nat} (read : whole ≠ .held) :
    segmented s k key h whole (.ok (some why, t)) = some (loadUndone s t k key h why) := by
  cases whole with
  | held => exact absurd rfl read
  | fault e => rfl
  | ok b => rfl

theorem segmented_full {s t : State} {k : PkgJob} {key h b : List Byte} (full : 256 ≤ (t.mlog k.part).length) :
    segmented s k key h (.ok b) (.ok (none, t)) = some (loadUndone s t k key h 6) := if_pos full

theorem segmented_logged {s t : State} {k : PkgJob} {key h b : List Byte} (room : (t.mlog k.part).length < 256) :
    segmented s k key h (.ok b) (.ok (none, t)) =
      some ((t.appendLog k.part 2 false k.ctx k.dst (pkgPlain h) (shake256 b)).pkgDone k 0) := if_neg (Nat.not_le.mpr room)

end Load

theorem packagesLoadInTheirTurn : PackagesLoadInTheirTurn := by
  refine ⟨fun s pr n d h whole => ?_, fun s k r queue => ?_⟩
  · intro j loading u
    have sec : u.sec = s.sec := (s.meetRanges_meets j.ctx [(j.src, 4096)]).1.1.sec
    refine ⟨fun barred => answers_of_open h ?_, fun let_ meet => answers_of_open h ?_, fun let_ apart => ⟨fun full => answers_of_open h ?_,
      fun none => answers_of_open h ?_, fun some room => answers_of_open h ?_⟩⟩
    · dsimp only
      rw [lenBad_none whole]
      exact if_pos barred
    · dsimp only
      rw [lenBad_none whole]
      exact (if_neg (by rw [let_]; exact Bool.false_ne_true)).trans (if_pos meet)
    · dsimp only
      rw [lenBad_none whole]
      exact (if_neg (by rw [let_]; exact Bool.false_ne_true)).trans ((if_neg (by rw [apart]; exact Bool.false_ne_true)).trans (if_pos (sec ▸ full)))
    · dsimp only
      rw [lenBad_none whole]
      refine (if_neg (by rw [let_]; exact Bool.false_ne_true)).trans ((if_neg (by rw [apart]; exact Bool.false_ne_true)).trans ((if_neg ?_).trans
        (congrArg (rOK, ·) (joins_first (sec ▸ none) sec))))
      rw [show (s.meetRanges (pkgOf n d).ctx [((pkgOf n d).src, 4096)]).sec = s.sec from sec, none]
      decide
    · dsimp only
      rw [lenBad_none whole]
      refine (if_neg (by rw [let_]; exact Bool.false_ne_true)).trans ((if_neg (by rw [apart]; exact Bool.false_ne_true)).trans ((if_neg ?_).trans
        (congrArg (rOK, ·) (joins_behind (sec ▸ some) sec))))
      rw [show (s.meetRanges (pkgOf n d).ctx [((pkgOf n d).src, 4096)]).sec = s.sec from sec]
      exact Nat.not_le.mpr room
  · intro s1
    have ends : exec .pkgLoadEnd s = .next ((s.runPkg k).getD s) := by
      show execPkgLoadEnd s = _
      unfold execPkgLoadEnd
      rw [queue]
    refine ⟨fun aborted => ?_, fun going => ?_, fun key h c i m => ?_, fun reason => ?_⟩
    · rw [ends, runPkg_aborted aborted, Option.getD_some]
    · refine ⟨fun st fault => ?_, fun h ok => ⟨fun other => ?_, fun key held same => ⟨fun bad => ?_, fun good => ?_⟩⟩⟩
      · rw [ends, runPkg_fault going fault, Option.getD_some]
      · rw [ends, runPkg_keyless going ok other, Option.getD_some]
      · rw [ends, runPkg_misformed going ok held same bad, Option.getD_some]
      · intro s2 whole
        have run := runPkg_segmented going ok held same good (s2 := s2) rfl
        refine ⟨fun why t read segs => ?_, fun b t read segs => ⟨fun full => ?_, fun room => ?_⟩⟩
        · rw [ends, run, show (State.pkgSegs _ k key h 0 (pkgCount h)) = _ from segs, segmented_stopped read, Option.getD_some]
        · rw [ends, run, show (State.pkgSegs _ k key h 0 (pkgCount h)) = _ from segs, show State.vaRead _ k.ctx k.src (pkgBytes h) = _ from read]
          rw [segmented_full full, Option.getD_some]
        · rw [ends, run, show (State.pkgSegs _ k key h 0 (pkgCount h)) = _ from segs, show State.vaRead _ k.ctx k.src (pkgBytes h) = _ from read]
          rw [segmented_logged room, Option.getD_some]
    · intro size n read
      refine ⟨fun bad => pkgSegs_forged read bad, fun p t good wrote => ?_, fun p e good fault => ?_⟩
      · rw [pkgSegs_writes read good, wrote]
      · rw [pkgSegs_writes read good, fault]
    · obtain ⟨order, states⟩ := startPkg_dst { s with sec := { s.sec with
        pkgs := s.sec.pkgs.drop 1, pkgState := sset 0 s.sec.pkgState k.part (BitVec.ofNat 16 (if reason = 0 then 2 else reason * 256 + 3)) } }
      refine ⟨order.trans ?_, ?_⟩
      · rw [queue]
        rfl
      · rw [show (s.pkgDone k reason).sec.pkgState = _ from states]
        exact sget_sset_same ..

theorem session_on {s : State} (ready : s.hub.ready = true) (up : s.host.linkUp = true) (live : s.sec.lc ≠ .scrapped) :
    ¬ (!s.hub.ready || !s.host.linkUp || s.sec.lc == .scrapped) = true := by
  rw [ready, up, beq_eq_false_iff_ne.mpr live]
  decide

theorem ideStreamsBecomeSecureWithTheirKeys : IdeStreamsBecomeSecureWithTheirKeys := by
  intro s k msg key ready up
  refine ⟨fun gone => ⟨if_pos ?_, fun o => if_pos ?_⟩, fun shut o => if_pos ?_, fun live => ?_⟩
  · rw [gone]; simp
  · rw [gone]; simp
  · rw [shut]; simp
  · intro log
    refine ⟨fun none => ?_, fun x held => ?_, fun open_ => ?_⟩
    · show execSpdmRequest msg s = _
      unfold execSpdmRequest
      rw [if_neg (session_on ready up live)]
      dsimp only
      rw [show s.sec.spdmAnswer (s.sec.spdmLog ++ [msg]) = .none by unfold Sec.spdmAnswer; rw [none]; rfl]
    · intro answer
      show execSpdmRequest msg s = _
      unfold execSpdmRequest
      rw [if_neg (session_on ready up live)]
      dsimp only
      rw [show s.sec.spdmAnswer (s.sec.spdmLog ++ [msg]) = some (answer, Config.spdmOpens x.1.toList (log ++ [answer])) by
        unfold Sec.spdmAnswer; rw [held]; rfl]
    · have go : ¬ (!s.hub.ready || !s.host.linkUp || !s.sec.spdm || s.sec.lc == .scrapped) = true := by
        rw [ready, up, open_, beq_eq_false_iff_ne.mpr live]
        decide
      intro now gives
      exact ⟨if_neg go, if_neg go, if_neg go⟩

/-- Settles O45, by the steps of a load and of a stream's keys. -/
theorem packagesAndStreamsAreSecured : Obligations.PackagesAndStreamsAreSecured := ⟨packagesLoadInTheirTurn, ideStreamsBecomeSecureWithTheirKeys⟩

end Sys2Proof.Claims
end

section

/-! ## Requests over their channels (O46) -/

namespace Sys2Proof.Machine

/-! ### Which request is taken up (R444) -/

/-- R444: what is taken up does not outrun a request to its entry that stands in the CP request channel. -/
theorem State.firstFree_free {s : State} {w : VWait} : ∀ {l : List VWait} {held : List (BitVec 16 × BitVec 8)},
    s.firstFree l held = some w → s.toExecute w = true → s.outrun w = false
  | [], _, h, _ => nomatch h
  | x :: r, held, h, run => by
    rw [State.firstFree] at h
    split_ifs at h with stays
    · exact firstFree_free h run
    · obtain rfl : x = w := Option.some.inj h
      by_contra late
      exact stays (by simp [run, Bool.not_eq_false _ ▸ late])

/-- R444: a request that alone waits, not yet passed on, is taken up. -/
theorem State.nextWait_alone {s : State} {w : VWait} (alone : s.dict.waiting = [w]) (new : w.passed = false) : s.nextWait = some w := by
  have mine : (s.waitOf w.ch).head? = some w := by simp [State.waitOf, alone]
  have free : s.outrun w = false := by simp [State.outrun, alone, new]
  simp [State.nextWait, alone, new, mine, State.firstFree, free]

/-- R230, R444: where one request waits and has not been passed on, none is lost, and it is served. -/
theorem State.settleWaits_alone {s : State} {w : VWait} (alone : s.dict.waiting = [w]) (new : w.passed = false) : s.settleWaits = s.serve w := by
  have kept (p : List (List W64)) : keepWaits p [w] = [w] := by simp [keepWaits, new]
  have same : { s with dict := { s.dict with waiting := [w] } } = s := by rw [← alone]
  unfold State.settleWaits
  simp only [alone, kept, same, List.isEmpty_cons, Bool.false_eq_true, if_false, List.contains_cons, beq_self_eq_true, Bool.true_or,
    Bool.not_true, List.filter_cons_of_neg, not_false_eq_true, List.filter_nil, List.foldl_nil, List.length_singleton, State.advance,
    State.nextWait_alone alone new]

/-! ### The requests' words -/

theorem length_reqBytes (op : BitVec 8) (m : VMsg) : (reqBytes op m).length = 16 + m.data.length := by
  simp [reqBytes]
  omega

/-- R449: the writes of a peer are those of channel class 4 with operation 2. -/
theorem peerWrites_iff (w : VWait) : peerWrites w = true ↔ chanSub w.ch = 4 ∧ w.op = 2 := by
  unfold peerWrites chanSub
  cases w.ch with
  | mailbox fn => simp only [chanPrincipal]; split_ifs <;> simp [prSub]
  | mctp b eid => simp [chanPrincipal, prSub]
  | peer r => simp [chanPrincipal, prSub]
  | cp => simp [chanPrincipal, prSub]

end Sys2Proof.Machine

namespace Sys2Proof.Claims

open Sys2Proof Sys2Proof.Machine

/-! ### A request is complete, and carried out -/

/-- R442, R452: the model's completion of a request is the answer that the statements describe. -/
theorem complete_answeredWith (s : State) (w : VWait) (r : Reply) : s.complete w r = answeredWith s w r := by
  unfold State.complete answeredWith
  by_cases busy : r.result = rBUSY
  · simp only [if_pos busy]
    rfl
  · by_cases denied : r.result = rDENIED
    · simp only [if_neg busy, if_pos denied]
      rfl
    · simp only [if_neg busy, if_neg denied]
      rfl

theorem execute_carriedOut (s : State) (w : VWait) : s.execute w = carriedOut s w := by
  unfold State.execute carriedOut
  by_cases peer : peerWrites w = true
  · rw [if_pos peer, if_pos ((peerWrites_iff w).mp peer), complete_answeredWith]
  · rw [if_neg peer, if_neg (mt (peerWrites_iff w).mpr peer)]
    exact complete_answeredWith _ _ _

/-! ### What becomes of a request that arrives (R442 to R444, R449) -/

section Arrival
variable (s : State) (ch : Channel) (op : BitVec 8) (m : VMsg)

/-- The state in which the request has been counted and waits alone. -/
def waitsAlone : State := { s.vcount 0 (chanSub ch) with dict := { (s.vcount 0 (chanSub ch)).dict with waiting := [asked ch op m] } }

variable {s} (none_ : s.dict.waiting = [])
include none_

/-- Once it is taken up, what is left is the state in which it has been counted. -/
theorem dropWait_waitsAlone : (waitsAlone s ch op m).dropWait ch = s.vcount 0 (chanSub ch) := by
  have drops : delFirst (fun w : VWait => w.ch == ch) [asked ch op m] = [] := by simp [delFirst, asked]
  have same : { s.vcount 0 (chanSub ch) with dict := { (s.vcount 0 (chanSub ch)).dict with waiting := [] } } = s.vcount 0 (chanSub ch) := by
    rw [← none_]
    rfl
  unfold State.dropWait
  rw [show (waitsAlone s ch op m).dict.waiting = [asked ch op m] from rfl, drops]
  exact same

theorem serve_held {h : HeldResp} (found : (s.chan ch).held.find? (fun h => h.token == m.token) = some h) :
    (waitsAlone s ch op m).serve (asked ch op m) = ((s.vcount 0 (chanSub ch)).vcount 3 (chanSub ch)).respond (asked ch op m) h := by
  have found' : ((waitsAlone s ch op m).chan (asked ch op m).ch).held.find? (fun h => h.token == (asked ch op m).msg.token) = some h := found
  unfold State.serve
  simp only [found']
  rw [show (asked ch op m).ch = ch from rfl, dropWait_waitsAlone ch op m none_]

variable (new : ∀ h ∈ (s.chan ch).held, h.token ≠ m.token)
include new

theorem serve_malformed (bad : malformed m op.toNat (chanMax ch) = true) :
    (waitsAlone s ch op m).serve (asked ch op m) = answeredWith (s.vcount 0 (chanSub ch)) (asked ch op m) (.code rMALFORMED) := by
  have missing : ((waitsAlone s ch op m).chan (asked ch op m).ch).held.find? (fun h => h.token == (asked ch op m).msg.token) = none :=
    List.find?_eq_none.mpr fun h mem => mt beq_iff_eq.mp (new h mem)
  unfold State.serve
  simp only [missing]
  rw [show malformed (asked ch op m).msg (asked ch op m).op.toNat (chanMax (asked ch op m).ch) = true from bad, if_pos rfl,
    show (asked ch op m).ch = ch from rfl, dropWait_waitsAlone ch op m none_, complete_answeredWith]

variable (good : malformed m op.toNat (chanMax ch) = false)
include good

theorem serve_good : (waitsAlone s ch op m).serve (asked ch op m) =
    if !s.passes (asked ch op m) then ((waitsAlone s ch op m).dropWait ch).execute (asked ch op m)
    else if s.cpIdle then (((waitsAlone s ch op m).passThrough (msgWords op m).length).dropWait ch).execute (asked ch op m)
    else { waitsAlone s ch op m with dict := { (waitsAlone s ch op m).dict with waiting := [{ asked ch op m with passed := true }] } }.post
      qidCpReq (msgWords op m) := by
  have missing : ((waitsAlone s ch op m).chan (asked ch op m).ch).held.find? (fun h => h.token == (asked ch op m).msg.token) = none :=
    List.find?_eq_none.mpr fun h mem => mt beq_iff_eq.mp (new h mem)
  have passed : modFirst (fun x : VWait => x.ch == ch) (fun x => { x with passed := true }) [asked ch op m] =
      [{ asked ch op m with passed := true }] := by simp [modFirst, asked]
  have same : (waitsAlone s ch op m).passes (asked ch op m) = s.passes (asked ch op m) := rfl
  unfold State.serve
  simp only [missing]
  rw [show malformed (asked ch op m).msg (asked ch op m).op.toNat (chanMax (asked ch op m).ch) = false from good,
    if_neg Bool.false_ne_true, same, ← passed]
  rfl

end Arrival

/-- R442 to R444, R449: a request that arrives on its channel. -/
theorem arrives (s : State) (ch : Channel) (op : BitVec 8) (m : VMsg) : Arrives s ch op m (s.arrive ch op m) := by
  have room : 0 < chanLimit ch := by cases ch <;> simp [chanLimit]
  have queued : (s.waitOf ch).length < chanLimit ch → s.arrive ch op m =
      ({ s.vcount 0 (chanSub ch) with dict := { (s.vcount 0 (chanSub ch)).dict with waiting := s.dict.waiting ++ [asked ch op m] } }).settleWaits :=
    fun short => if_neg (Nat.not_le.mpr short)
  refine ⟨fun long => (if_pos long).trans (complete_answeredWith _ _ _), queued, fun none_ => ?_⟩
  have served : s.arrive ch op m = (waitsAlone s ch op m).serve (asked ch op m) := by
    rw [queued (by simpa [State.waitOf, none_] using room), none_]
    exact State.settleWaits_alone (s := waitsAlone s ch op m) rfl rfl
  rw [served]
  refine ⟨fun h found => serve_held ch op m none_ found, fun new => ⟨serve_malformed ch op m none_ new, fun good => ?_⟩⟩
  rw [serve_good ch op m none_ new good]
  refine ⟨fun own => ?_, fun cp idle => ?_, fun cp waits => ?_⟩
  · rw [own, dropWait_waitsAlone ch op m none_]
    exact execute_carriedOut _ _
  · have drops : ((waitsAlone s ch op m).passThrough (msgWords op m).length).dropWait ch =
        (((waitsAlone s ch op m).dropWait ch).passThrough (msgWords op m).length) := rfl
    rw [cp, idle, drops, dropWait_waitsAlone ch op m none_]
    exact execute_carriedOut _ _
  · rw [cp, waits]
    rfl

/-! ### The channels (R439, R445, R448) -/

/-- R448: over any other channel than a mailbox a request arrives as it is. -/
theorem request_arrives {s : State} {ch : Channel} {op : BitVec 8} {m : VMsg} {env : MctpEnv} (up : s.chanOpen ch = true)
    (good : s.carries ch m env = true) (other : ∀ fn, ch ≠ .mailbox fn) : s.request ch op m env = s.arrive ch op m := by
  unfold State.request
  rw [up, good, if_neg (by decide)]
  cases ch with
  | mailbox fn => exact absurd rfl (other fn)
  | mctp b eid => rfl
  | peer r => rfl
  | cp => rfl

theorem request_shut {s : State} {ch : Channel} {op : BitVec 8} {m : VMsg} {env : MctpEnv}
    (shut : s.chanOpen ch = false ∨ s.carries ch m env = false) : s.request ch op m env = s := by
  unfold State.request
  rcases shut with h | h <;> exact if_pos (by rw [h]; simp)

/-- R448: over a mailbox it is written to MB_REQ, and GO follows, where no other is being served. -/
theorem request_mailbox {s : State} {fn : Fin 17} {op : BitVec 8} {m : VMsg} {env : MctpEnv} (up : s.chanOpen (.mailbox fn) = true) :
    s.request (.mailbox fn) op m env = if (s.fn fn).mailbox.busy then s.mbIgnore ((min 2048 (16 + m.data.length) + 7) / 8 + 1)
      else (s.setFn fn { s.fn fn with mailbox := (s.fn fn).mailbox.putReq 0 ((reqBytes op m).take 2048) }).mailboxSubmit fn op m := by
  have size : ((reqBytes op m).take 2048).length = min 2048 (16 + m.data.length) := by rw [List.length_take, length_reqBytes]
  unfold State.request
  rw [up, show s.carries (.mailbox fn) m env = true from rfl, if_neg (by decide)]
  simp only [size]

/-- R439: a request by its operation, on a channel that is shut, on a mailbox, and on any other. -/
theorem request_asks (s : State) (ch : Channel) (op : BitVec 8) (m : VMsg) (env : MctpEnv) :
    (s.chanOpen ch = false ∨ s.carries ch m env = false → (.next (s.request ch op m env) : Out) = .next s) ∧
    (s.chanOpen ch = true → s.carries ch m env = true →
      ((∀ fn, ch ≠ .mailbox fn) → ∃ u, (.next (s.request ch op m env) : Out) = .next u ∧ Arrives s ch op m u) ∧
      (∀ fn, ch = .mailbox fn →
        ((s.fn fn).mailbox.busy = true →
          (.next (s.request ch op m env) : Out) = .next (s.mbIgnore ((min 2048 (16 + m.data.length) + 7) / 8 + 1))) ∧
        ((s.fn fn).mailbox.busy = false → (.next (s.request ch op m env) : Out) =
          .next ((s.setFn fn { s.fn fn with mailbox := (s.fn fn).mailbox.putReq 0 ((reqBytes op m).take 2048) }).mailboxSubmit fn op m)))) := by
  refine ⟨fun shut => congrArg _ (request_shut shut), fun up good =>
    ⟨fun other => ⟨_, congrArg _ (request_arrives up good other), arrives s ch op m⟩, ?_⟩⟩
  rintro fn rfl
  exact ⟨fun busy => congrArg _ ((request_mailbox up).trans (if_pos busy)),
    fun idle => congrArg _ ((request_mailbox up).trans (if_neg (by rw [idle]; exact Bool.false_ne_true)))⟩

/-- R445, R446: what an MCTP message has to be. -/
theorem carries_mctp (s : State) (b : Fin 2) (eid : BitVec 8) (m : VMsg) (env : MctpEnv) :
    s.carries (.mctp b eid) m env = true ↔ env.typ = 0x7E ∧ env.vendor = true ∧ env.proto = 1 ∧ m.data.length ≤ 2035 ∧
      (b = 0 → (∀ a, env.addr = some a → a = s.busAddr) ∧ (s.dict.i3cAddr = none → env.pec = true)) := by
  have size : 20 + m.data.length ≤ 2055 ↔ m.data.length ≤ 2035 := by omega
  have port : (b == 1 || (env.addr.all (fun a => a == s.busAddr) && (s.dict.i3cAddr.isSome || env.pec))) = true ↔
      (b = 0 → (∀ a, env.addr = some a → a = s.busAddr) ∧ (s.dict.i3cAddr = none → env.pec = true)) := by
    obtain rfl | rfl : b = 0 ∨ b = 1 := by omega
    · cases env.addr <;> cases s.dict.i3cAddr <;> simp
    · simp
  rw [← port, ← size]
  simp [State.carries, and_assoc]

/-- Settles O46, by what becomes of a request that arrives: where none waits it is the one that is taken up, and the model's service of it is the
statement's answer. -/
theorem everyRequestIsAnswered : Obligations.EveryRequestIsAnswered := by
  intro s ch m0 env
  refine ⟨fun w next run own x mem passed same => ?_, request_asks s ch 1 m0 env, request_asks s ch 2 m0 env, request_asks s ch 3 m0 env,
    request_asks s ch 4 m0 env, request_asks s ch 2 _ env, request_asks s ch 2 _ env, ?_⟩
  · have free : s.outrun w = false := State.firstFree_free next run
    have late : s.outrun w = true := by
      simp only [State.outrun, own, Bool.not_false, Bool.true_and]
      exact List.any_eq_true.mpr ⟨x, mem, by simp [passed, same]⟩
    exact Bool.false_ne_true (free.symm.trans late)
  · rintro b eid rfl
    exact carries_mctp s b eid m0 env

end Sys2Proof.Claims

end

section

/-! ## The rights (O47) -/

namespace Sys2Proof.Machine

/-! ### Requests by their entry (R431, R434, R441, R444) -/

section Rights
variable {s : State} {ch : Channel} {pr : Principal} {m : VMsg} {op : Nat} {e : Ent} {rd wr : Bool}

theorem State.voxOp_noEntry (t : s.turnedAway op m.index.toNat m.sub.toNat = none) (h : s.findEntry pr m.index.toNat m.sub.toNat = none) :
    s.voxOp ch pr op m = (.code rNO_ENTRY, s) := by
  simp only [State.voxOp, t, h]

theorem State.voxOp_read (t : s.turnedAway 1 m.index.toNat m.sub.toNat = none)
    (h : s.findEntry pr m.index.toNat m.sub.toNat = some (e, rd, wr)) :
    s.voxOp ch pr 1 m = if rd then s.voxRead ch pr m e m.sub.toNat else (.code rDENIED, s) := by
  simp only [State.voxOp, t, h]

theorem State.voxOp_write (t : s.turnedAway 2 m.index.toNat m.sub.toNat = none)
    (h : s.findEntry pr m.index.toNat m.sub.toNat = some (e, rd, wr)) :
    s.voxOp ch pr 2 m = if wr then s.voxWrite ch pr m e m.sub.toNat else (.code rDENIED, s) := by
  simp only [State.voxOp, t, h]

theorem State.voxOp_cancel (t : s.turnedAway 4 m.index.toNat m.sub.toNat = none)
    (h : s.findEntry pr m.index.toNat m.sub.toNat = some (e, rd, wr)) :
    s.voxOp ch pr 4 m = (.code rOK, if cpReads e then s.setChan { s.chan ch with snapshot := none, transfer := none } else s) := by
  simp only [State.voxOp, t, h]

variable {sub n : Nat}

/-- R431, R444: a value of a fixed size that the control processor does not serve is read whole. -/
theorem State.voxRead_sized (size : e.typ.size = some n) (own : cpReads e = false) :
    s.voxRead ch pr m e sub = if m.len.toNat = n then
      ({ flags := 0, offset := 0, result := rOK, data := s.dictRead pr e.index sub }, s) else (.code rTYPE, s) := by
  simp only [State.voxRead, own, size, Bool.false_and, Bool.false_eq_true, if_false, ne_eq, ite_not]

theorem State.voxRead_down (cp : cpReads e = true) (down : s.fw.run = none) : s.voxRead ch pr m e sub = (.code rBUSY, s) := by
  simp only [State.voxRead, cp, down, Option.isNone_none, Bool.and_self, if_true]

theorem State.voxRead_segments (size : e.typ.size = none) (up : s.fw.run ≠ none) :
    s.voxRead ch pr m e sub = s.readDomain ch pr m e.index sub := by
  have up' : s.fw.run.isNone = false := Option.isNone_eq_false_iff.mpr (Option.isSome_iff_ne_none.mpr up)
  simp only [State.voxRead, up', size, Bool.and_false, Bool.false_eq_true, if_false]

theorem State.voxWrite_gated {r : BitVec 8} (g : s.writeGate (e.index / 4096) true (cpWrites e sub) = some r) :
    s.voxWrite ch pr m e sub = (.code r, s) := by
  simp only [State.voxWrite, g]

theorem State.voxWrite_sized (g : s.writeGate (e.index / 4096) true (cpWrites e sub) = none) (size : e.typ.size = some n) :
    s.voxWrite ch pr m e sub = if m.len.toNat ≠ n then (.code rTYPE, s)
      else (.code (s.applyWrite pr e.index sub m.data).1, (s.applyWrite pr e.index sub m.data).2) := by
  simp only [State.voxWrite, g, size]

theorem State.voxWrite_segments (g : s.writeGate (e.index / 4096) true (cpWrites e sub) = none) (size : e.typ.size = none) :
    s.voxWrite ch pr m e sub = s.writeSegment ch pr m e.index sub := by
  simp only [State.voxWrite, g, size]

end Rights

/-! ### What a gate answers (R409, R434, R452, R463) -/

theorem State.writeGate_scrapped {s : State} {k : Nat} {a n : Bool} (h : s.sec.lc = .scrapped) : s.writeGate k a n = some rREFUSED := by
  unfold State.writeGate
  rw [h]
  exact if_pos rfl

theorem State.writeGate_denied {s : State} {k : Nat} {n : Bool} (lc : s.sec.lc ≠ .scrapped) (still : s.sec.lcTarget = none)
    (rec : s.fw.run ≠ some .recovery) (rom : s.fw.run ≠ some .loader) : s.writeGate k false n = some rDENIED := by
  simp [State.writeGate, lc, still, rec, rom]

/-- R452: of a request the channel's count of requests rises by one. -/
theorem State.counted_requests (s : State) {pr : Principal} (r : BitVec 8) (k : prSub pr ≠ 0) :
    sget 0 (s.counted pr r).dict.counters (prSub pr) = satAdd 64 (sget 0 s.dict.counters (prSub pr)) 1 := by
  have other (kind : Nat) (j : 0 < kind) : prSub pr ≠ 256 * kind + prSub pr := by omega
  have first : sget 0 (s.vcount 0 (prSub pr)).dict.counters (prSub pr) = satAdd 64 (sget 0 s.dict.counters (prSub pr)) 1 := by
    simp only [State.vcount, if_neg k, Nat.mul_zero, Nat.zero_add, sget_smod_same]
  have later (kind : Nat) (j : 0 < kind) (u : State) :
      sget 0 (u.vcount kind (prSub pr)).dict.counters (prSub pr) = sget 0 u.dict.counters (prSub pr) := by
    simp only [State.vcount, if_neg k, sget_smod_ne _ _ _ (other kind j)]
  unfold State.counted
  dsimp only
  split_ifs
  · exact (later 2 (by decide) _).trans first
  · exact (later 1 (by decide) _).trans first
  · exact first

end Sys2Proof.Machine

namespace Sys2Proof.Claims

open Sys2Proof Sys2Proof.Machine

/-- R434, R443, R452: a write where the dictionary is not served, or a gate stands in the way. -/
theorem gatedWritesChangeNothing : GatedWritesChangeNothing := fun s pr range allowed needsCp f =>
  ⟨s.dictWriteAt_unserved pr range allowed needsCp f,
    fun ready r g => ⟨s.dictWriteAt_gated pr range allowed needsCp f ready g, s.counted_eq pr r, s.counted_requests r⟩,
    fun _ lc => State.writeGate_scrapped lc,
    fun lc still rec rom denied => denied ▸ State.writeGate_denied lc still rec rom⟩

/-- R431, R434, R441, R444: the operations on an entry, by its rights, its type and its gate. -/
theorem operationsFollowTheRights : OperationsFollowTheRights := by
  intro s ch pr m op t
  refine ⟨State.voxOp_noEntry t, fun e rd wr h => ⟨?_, ?_, fun n size => ⟨?_, ?_⟩, fun size => ⟨?_, ?_, ?_⟩, ?_, ?_⟩⟩
  · rintro rfl rfl
    exact (State.voxOp_read t h).trans (if_neg Bool.false_ne_true)
  · rintro rfl rfl
    exact (State.voxOp_write t h).trans (if_neg Bool.false_ne_true)
  · rintro rfl rfl own
    exact ((State.voxOp_read t h).trans (if_pos rfl)).trans (State.voxRead_sized size own)
  · rintro rfl rfl g
    have run := ((State.voxOp_write (ch := ch) t h).trans (if_pos rfl)).trans (State.voxWrite_sized g size)
    exact ⟨fun long => run.trans (if_pos long), fun fits => run.trans (if_neg (not_not.mpr fits))⟩
  · rintro rfl rfl up
    exact ((State.voxOp_read t h).trans (if_pos rfl)).trans (State.voxRead_segments size up)
  · rintro rfl rfl cp down
    exact ((State.voxOp_read t h).trans (if_pos rfl)).trans (State.voxRead_down cp down)
  · rintro rfl rfl g
    exact ((State.voxOp_write t h).trans (if_pos rfl)).trans (State.voxWrite_segments g size)
  · rintro r rfl rfl g
    exact ((State.voxOp_write t h).trans (if_pos rfl)).trans (State.voxWrite_gated g)
  · rintro rfl
    exact State.voxOp_cancel t h

/-- Settles O47, by what an operation on an entry is by its rights, the size of its type and the gate of its range, and by what a write with a
row of its own does before one. -/
theorem writesAndRequestsFollowTheRights : Obligations.WritesAndRequestsFollowTheRights :=
  ⟨gatedWritesChangeNothing, operationsFollowTheRights⟩

end Sys2Proof.Claims

end

section

/-! ## The mailbox and the management bindings (O48) -/

namespace Sys2Proof.Claims

open Sys2Proof Sys2Proof.Machine

/-! ### Accesses to a mailbox (R448) -/

/-- R448: what the status register reads. -/
theorem mailbox_status (b : Mailbox) :
    b.reg 8 = b.rsp.length % 65536 * 65536 + (if b.done then 2 else 0) + (if b.busy then 1 else 0) := by
  have two : b2n b.done * 2 = if b.done then 2 else 0 := by cases b.done <;> rfl
  rw [← two]
  rfl

/-- R448: what the interrupt register reads. -/
theorem mailbox_vector (b : Mailbox) : b.reg 16 = (if b.ien then 2048 else 0) + b.vec.toNat := by
  have bit : b2n b.ien * 2048 = if b.ien then 2048 else 0 := by cases b.ien <;> rfl
  rw [← bit]
  rfl

section Mailboxes
variable {s : State} {fn : Fin 17} {ide : Bool} {v : W64} {off : BitVec 16}

theorem mailbox_write (takes : s.takesRequest fn ide = true) (later : off.toNat / 8 * 8 ≠ 0) :
    exec (.mailboxGo fn off (.write v) ide) s = if (s.fn fn).mailbox.ignores (off.toNat / 8 * 8) then .next (s.mbIgnore 1)
      else .next (s.setFn fn { s.fn fn with mailbox := (s.fn fn).mailbox.write (off.toNat / 8 * 8) v }) := by
  have put : s.barWrite fn ide (fun f => { f with mailbox := f.mailbox.write (off.toNat / 8 * 8) v }) =
      s.setFn fn { s.fn fn with mailbox := (s.fn fn).mailbox.write (off.toNat / 8 * 8) v } := if_pos takes
  rw [← put]
  show execMailboxGo fn off (.write v) s ide = _
  simp only [execMailboxGo, takes, Bool.not_true, Bool.false_eq_true, if_false, if_neg later]

theorem mailbox_go (takes : s.takesRequest fn ide = true) (at_ : off.toNat / 8 = 0) :
    exec (.mailboxGo fn off (.write v) ide) s = .next (if v.getLsbD 0 && s.hub.ready then
      s.mailboxSubmit fn (mailboxOp (s.fn fn).mailbox.req) (mailboxMsg (s.fn fn).mailbox.req) else s) := by
  show execMailboxGo fn off (.write v) s ide = _
  simp only [execMailboxGo, takes, Bool.not_true, Bool.false_eq_true, if_false, at_, Nat.zero_mul, if_true]
  rfl

/-- R448: an offset of MB_REQ takes 8 bytes. -/
theorem mailbox_putReq (b : Mailbox) (idle : b.busy = false) (low : 256 ≤ off.toNat / 8) (high : off.toNat / 8 < 512) :
    b.write (off.toNat / 8 * 8) v = { b with req :=
      (bytesAt b.req 0 (8 * (off.toNat / 8) - 2048) ++ leBytes 8 v.toNat ++ b.req.drop (8 * (off.toNat / 8) - 2040)).take 2048 } := by
  have behind : off.toNat / 8 * 8 - 2048 + 8 = 8 * (off.toNat / 8) - 2040 := by omega
  have here : off.toNat / 8 * 8 - 2048 = 8 * (off.toNat / 8) - 2048 := by omega
  unfold Mailbox.write
  rw [if_neg (by omega), if_neg (by omega), if_pos ⟨by omega, by omega, by rw [idle]; rfl⟩]
  simp only [Mailbox.putReq, length_leBytes]
  rw [behind, here]

/-- R448: the interrupt register's fields. -/
theorem mailbox_interrupt (b : Mailbox) : b.write 16 v = { b with ien := v.getLsbD 11, vec := v.extractLsb' 0 11 } := by
  have field : BitVec.ofNat 11 (fld v 10 0) = v.extractLsb' 0 11 := by
    apply BitVec.eq_of_toNat_eq
    simp [fld]
  unfold Mailbox.write
  rw [if_neg (by decide), if_pos rfl, field]
  rfl

/-- R448: a response stands in MB_RSP, with DONE, and raises the vector under IEN. -/
theorem respond_mailbox {w : VWait} (h : HeldResp) (here : w.ch = .mailbox fn) (loud : w.quiet = false) (busy : (s.fn fn).mailbox.busy = true) :
    let f := s.fn fn
    let e := s.emit (.voxyx w.ch h.op h.token h.flags h.offset h.result h.data)
    let u := e.setFn fn { f with mailbox := { f.mailbox with rsp := respBytes h, busy := false, done := true } }
    s.respond w h = if f.mailbox.ien then u.msix fn f.mailbox.vec.toNat else u := by
  intro f e u
  have same (e : Emit) : (s.emit e).fn fn = s.fn fn := rfl
  unfold State.respond
  simp only [here, loud, same, busy, Bool.not_false, Bool.and_self, if_true]
  simp only [u, e, f, here]
  rfl

end Mailboxes

/-- R448: what a mailbox does, and when a snapshot lapses. -/
theorem theMailboxServesItsFunction : TheMailboxServesItsFunction := by
  intro s fn ide w h ch v off f b o put write
  have start (k : Nat) (at_ : o = k) : off.toNat / 8 * 8 = k * 8 := congrArg (· * 8) at_
  refine ⟨fun shut => ?_, fun takes => ⟨fun at_ => ⟨fun dead => ?_, fun go ready => ⟨fun busy => ?_, fun idle => ?_⟩⟩, fun at_ => ?_,
    fun at_ => ?_, fun low high busy => ?_, fun low high idle => ?_, ?_, ?_, ?_⟩, fun here loud busy => respond_mailbox h here loud busy,
    fun k snap => ?_⟩
  · show execMailboxGo fn off (.write v) s ide = _
    simp only [execMailboxGo, shut, Bool.not_false, if_true]
  · refine (mailbox_go takes at_).trans ?_
    rcases dead with h0 | h0
    · rw [h0]
      rfl
    · rw [h0, Bool.and_false]
      rfl
  · refine (mailbox_go takes at_).trans ?_
    rw [go, ready]
    exact congrArg _ (if_pos busy)
  · refine ⟨_, (mailbox_go takes at_).trans ?_, arrives _ _ _ _⟩
    rw [go, ready]
    exact congrArg _ (if_neg (ne_true_of_eq_false idle))
  · refine (mailbox_write takes (by rw [start 1 at_]; decide)).trans ?_
    rw [start 1 at_]
    exact if_neg (by simp [Mailbox.ignores])
  · refine (mailbox_write takes (by rw [start 2 at_]; decide)).trans ?_
    rw [start 2 at_, ← mailbox_interrupt]
    exact if_neg (by simp [Mailbox.ignores])
  · refine (mailbox_write takes (by omega)).trans (if_pos ?_)
    simp only [Mailbox.ignores, Bool.and_eq_true, decide_eq_true_eq]
    exact ⟨busy, by omega, by omega⟩
  · refine (mailbox_write takes (by omega)).trans ?_
    rw [mailbox_putReq _ idle low high]
    refine if_neg fun ignored => ?_
    exact ne_true_of_eq_false idle (Bool.and_eq_true_iff.mp ignored).1
  · show execMailboxGo fn off .read s ide = _
    simp only [execMailboxGo, takes, if_true, Nat.mul_comm 8]
    rfl
  · exact mailbox_status b
  · exact mailbox_vector b
  · have run : exec (.snapshotLapse ch) s =
        if k.last + tenSeconds ≤ s.now then .next (s.setChan { s.chan ch with snapshot := none }) else .next s := by
      show execSnapshotLapse ch s = _
      simp only [execSnapshotLapse, snap]
    exact ⟨fun late => run.trans (if_pos late), fun early => run.trans (if_neg (Nat.not_le.mpr early))⟩

/-- R445, R446: what each binding answers, and the I3C port's address. -/
theorem managementBindingsAnswer : ManagementBindingsAnswer := by
  intro s b eid addr named
  refine ⟨fun up => ⟨fun named0 namedF => ?_, fun none_ => ?_, if_pos up, if_pos up, if_pos up, if_pos up⟩, fun shut c mem => ?_,
    fun on => if_pos on, fun on => if_pos on, fun off => ⟨if_neg (ne_true_of_eq_false off), if_neg (ne_true_of_eq_false off)⟩,
    rfl, rfl⟩
  · show execSetEndpointId b eid s = _
    simp only [execSetEndpointId, up, Bool.not_true, Bool.false_eq_true, if_false, if_neg (not_or.mpr ⟨named0, namedF⟩)]
    rfl
  · show execSetEndpointId b eid s = _
    simp only [execSetEndpointId, up, Bool.not_true, Bool.false_eq_true, if_false, if_pos none_]
  · have stays : ¬ s.mctpOpen b = true := by rw [shut]; exact Bool.false_ne_true
    fin_cases mem
    · exact if_pos (by rw [shut]; rfl)
    · exact if_neg stays
    · exact if_neg stays
    · exact if_neg stays
    · exact if_neg stays

/-- Settles O48, by what each access of a mailbox does at its offset, and by what each binding answers where it is open. -/
theorem mailboxAndBindingsAnswer : Obligations.MailboxAndBindingsAnswer := ⟨theMailboxServesItsFunction, managementBindingsAnswer⟩

end Sys2Proof.Claims

end

section

/-! ## Resets and lost clocks (O51) -/

namespace Sys2Proof.Machine

/-! ### Tests that a reset cuts off (R475) -/

/-- R475: one aborted test: its core is CHOKED, with the abort bit, and leaves the map. -/
def State.abortTest (s : State) (p : Nat) : State :=
  let s := s.modCore p fun c => { c with life := .choked }
  (({ s with bist := { s.bist with statusCore := sset 0 s.bist.statusCore p 7 } }).unmap p)

theorem State.abortTests_eq (s : State) (l : List Nat) :
    s.abortTests l = l.foldl State.abortTest { s with bist := { s.bist with cores := [], aborted := l } } := rfl

/-- An aborted test touches the cores, the map of the slots and the status alone. -/
theorem State.abortTest_eq (s : State) (p : Nat) : s.abortTest p = { s with
    cores := (s.abortTest p).cores,
    disp := { s.disp with map := (s.abortTest p).disp.map, spare := (s.abortTest p).disp.spare },
    bist := { s.bist with statusCore := (s.abortTest p).bist.statusCore } } := by
  unfold State.abortTest State.unmap
  dsimp only
  split
  · split <;> rfl
  · split <;> rfl

theorem State.abortTest_core (s : State) (p k : Nat) :
    ((s.abortTest p).core k).life = (if k = p then .choked else (s.core k).life) ∧
    sget 0 (s.abortTest p).bist.statusCore k = (if k = p then 7 else sget 0 s.bist.statusCore k) := by
  have cores : (s.abortTest p).cores = (s.modCore p fun c => { c with life := .choked }).cores ∧
      (s.abortTest p).bist.statusCore = sset 0 s.bist.statusCore p 7 := by
    unfold State.abortTest State.unmap
    dsimp only
    split
    · split <;> exact ⟨rfl, rfl⟩
    · split <;> exact ⟨rfl, rfl⟩
  have core : (s.abortTest p).core k = (s.modCore p fun c => { c with life := .choked }).core k := by
    unfold State.core
    rw [cores.1]
  rw [core, cores.2, sget_sset]
  refine ⟨?_, rfl⟩
  by_cases same : k = p
  · rw [if_pos same, same, State.modCore, State.core_setCore_same]
  · rw [if_neg same, State.modCore, State.core_setCore, if_neg same]

/-- What the aborted tests of a list leave as it was. -/
structure State.SameButTests (s t : State) : Prop where
  hub    : t.hub = s.hub
  mem    : t.mem = s.mem
  disp   : t.disp = { s.disp with map := t.disp.map, spare := t.disp.spare }
  mq     : t.mq = s.mq
  eth    : t.eth = s.eth
  peal   : t.peal = s.peal
  car    : t.car = s.car
  damper : t.damper = s.damper
  sec    : t.sec = s.sec
  dict   : t.dict = s.dict
  fw     : t.fw = s.fw
  bist   : t.bist = { s.bist with cores := t.bist.cores, aborted := t.bist.aborted, statusCore := t.bist.statusCore }

theorem State.SameButTests.trans {s t u : State} (h : s.SameButTests t) (k : t.SameButTests u) : s.SameButTests u where
  hub := k.hub.trans h.hub
  mem := k.mem.trans h.mem
  disp := by rw [k.disp, h.disp]
  mq := k.mq.trans h.mq
  eth := k.eth.trans h.eth
  peal := k.peal.trans h.peal
  car := k.car.trans h.car
  damper := k.damper.trans h.damper
  sec := k.sec.trans h.sec
  dict := k.dict.trans h.dict
  fw := k.fw.trans h.fw
  bist := by rw [k.bist, h.bist]

theorem State.abortTest_same (s : State) (p : Nat) : s.SameButTests (s.abortTest p) := by
  have form := s.abortTest_eq p
  generalize s.abortTest p = t at form
  rw [form]
  constructor <;> rfl

theorem State.abortTests_frame (s : State) (l : List Nat) : s.SameButTests (s.abortTests l) := by
  rw [State.abortTests_eq]
  generalize start : { s with bist := { s.bist with cores := [], aborted := l } } = t
  have same : s.SameButTests t := by rw [← start]; constructor <;> rfl
  clear start
  induction l generalizing t with
  | nil => exact same
  | cons p r ih => exact ih _ (same.trans (t.abortTest_same p))

/-- A core on the list is CHOKED with its abort bit, and stays so. -/
theorem foldl_abortTest (l : List Nat) (t : State) (k : Nat)
    (h : k ∈ l ∨ ((t.core k).life = .choked ∧ sget 0 t.bist.statusCore k = 7)) :
    ((l.foldl State.abortTest t).core k).life = .choked ∧ sget 0 (l.foldl State.abortTest t).bist.statusCore k = 7 := by
  induction l generalizing t with
  | nil => exact h.resolve_left List.not_mem_nil
  | cons p r ih =>
    refine ih _ ?_
    obtain ⟨life, status⟩ := t.abortTest_core p k
    rw [life, status]
    by_cases here : k = p
    · exact .inr ⟨if_pos here, if_pos here⟩
    · rw [if_neg here, if_neg here]
      exact h.imp_left fun mem => (List.mem_cons.mp mem).resolve_left here

theorem State.abortTests_choked (s : State) {l : List Nat} {k : Nat} (mem : k ∈ l) :
    ((s.abortTests l).core k).life = .choked ∧ sget 0 (s.abortTests l).bist.statusCore k = 7 := foldl_abortTest l _ k (.inl mem)

theorem mem_foldl_setIns {k : Nat} : ∀ {l m : List Nat}, k ∈ l.foldl setIns m ↔ k ∈ l ∨ k ∈ m
  | [], m => by simp
  | a :: r, m => by
    rw [List.foldl_cons, mem_foldl_setIns, mem_setIns, List.mem_cons]
    tauto

theorem Bist.mem_abortList {b : Bist} {k : Nat} : k ∈ b.abortList ↔ k ∈ b.cores.map BistRun.target ∨ k ∈ b.aborted := mem_foldl_setIns

/-! ### The device after a reset (R437, R438, R464) -/

/-- The device as a reset leaves it, but for the tests that it cuts off, a thermal shutdown and the port's instruction. -/
def State.afterReset (s : State) : State := { State.reset with
  pending := s.pending
  hub := { Hub.reset with pwrgd := s.hub.pwrgd, devrstN := s.hub.devrstN, perstN := s.hub.perstN, thermN := s.hub.thermN, refclkH := s.hub.refclkH,
                          refclkE := s.hub.refclkE, maddr := s.hub.maddr, tap := s.hub.tap, tapLoaded := s.hub.tapLoaded, boundary := s.hub.boundary,
                          free := s.hub.free, out := s.hub.out }
  mem := memAfterReset s.fw
  damper := damperAfterReset s.fw
  sec := s.sec.afterReset
  fw := s.fw.afterReset
  bist := { Bist.reset with statusDev := s.bist.statusDev, sigDev := s.bist.sigDev } }

theorem State.resetKeep_eq (s : State) : s.resetKeep =
    (if s.damper.shutdown then (s.afterReset.abortTests s.bist.abortList).keepShutdown else s.afterReset.abortTests s.bist.abortList).retap := rfl

/-- A reset ends with the port's instruction settled, which is a question of the life cycle, of the state of the contexts and of DEVRST_N alone. -/
theorem State.resetKeep_tap (s : State) :
    s.resetKeep.hub.tap = if s.resetKeep.tapAvailable s.hub.tapLoaded then s.hub.tapLoaded else .bypass := by
  have frame := s.afterReset.abortTests_frame s.bist.abortList
  have loaded : (s.afterReset.abortTests s.bist.abortList).hub.tapLoaded = s.hub.tapLoaded := by rw [frame.hub]; rfl
  rw [State.resetKeep_eq]
  generalize s.afterReset.abortTests s.bist.abortList = t at loaded
  split
  · rw [← loaded]; rfl
  · rw [← loaded]; rfl

/-- What a reset keeps of the pins, and of what flash and the fuses hold. -/
theorem State.resetKeep_pins (s : State) : s.resetKeep.hub.pwrgd = s.hub.pwrgd ∧ s.resetKeep.hub.devrstN = s.hub.devrstN ∧
    s.resetKeep.hub.refclkH = s.hub.refclkH ∧ s.resetKeep.hub.refclkE = s.hub.refclkE ∧ s.resetKeep.hub.maddr = s.hub.maddr ∧
    s.resetKeep.hub.thermN = s.hub.thermN ∧ s.resetKeep.fw = s.fw.afterReset ∧ s.resetKeep.sec = s.sec.afterReset := by
  have frame := s.afterReset.abortTests_frame s.bist.abortList
  have hub := frame.hub
  have fw := frame.fw
  have sec := frame.sec
  rw [State.resetKeep_eq]
  generalize s.afterReset.abortTests s.bist.abortList = t at hub fw sec
  cases t
  subst hub fw sec
  split <;> exact ⟨rfl, rfl, rfl, rfl, rfl, rfl, rfl, rfl⟩

/-- R467, R476: a reset ends a run of the wider scopes, and keeps their results. -/
theorem State.resetKeep_bist (s : State) : s.resetKeep.bist.maint = none ∧ s.resetKeep.bist.statusDev = s.bist.statusDev := by
  have bist := (s.afterReset.abortTests_frame s.bist.abortList).bist
  rw [State.resetKeep_eq]
  generalize s.afterReset.abortTests s.bist.abortList = t at bist
  have kept : t.bist.maint = none ∧ t.bist.statusDev = s.bist.statusDev := by rw [bist]; exact ⟨rfl, rfl⟩
  split <;> exact kept

end Sys2Proof.Machine

namespace Sys2Proof.Claims

open Sys2Proof Sys2Proof.Machine

/-- R437, R438, R464: a reset leaves the device at rest. -/
theorem resetKeep_atRest (s : State) : AtRest s.damper.shutdown s s.resetKeep := by
  obtain ⟨hub, mem, disp, mq, eth, peal, car, damper, sec, dict, fw, -⟩ := s.afterReset.abortTests_frame s.bist.abortList
  have ctxs : (s.afterReset.abortTests s.bist.abortList).disp.ctxs = [] := by rw [disp]; rfl
  have issued : (s.afterReset.abortTests s.bist.abortList).disp.issued = [] := by rw [disp]; rfl
  rw [State.resetKeep_eq]
  generalize s.afterReset.abortTests s.bist.abortList = t at hub mem mq eth peal car damper sec dict fw ctxs issued
  cases t
  subst hub mem mq eth peal car damper sec dict fw
  cases s.damper.shutdown
  all_goals exact ⟨rfl, rfl, rfl, rfl, rfl, rfl, rfl, rfl, rfl, rfl, rfl, rfl, rfl, ctxs, issued,
    rfl, rfl, rfl, rfl, rfl, rfl, rfl, rfl, rfl, rfl, rfl, rfl⟩

/-- R475: the cores whose test a reset cuts off are CHOKED with their abort bit; where there are none, no core holds anything. -/
abbrev TestsCut (s t : State) : Prop :=
  (∀ r ∈ s.bist.cores, (t.core r.target).life = .choked ∧ sget 0 t.bist.statusCore r.target = 7) ∧
  (∀ p ∈ s.bist.aborted, (t.core p).life = .choked ∧ sget 0 t.bist.statusCore p = 7) ∧
  (s.bist.cores = [] → s.bist.aborted = [] → t.cores = [])

theorem resetKeep_cut (s : State) : TestsCut s s.resetKeep := by
  have same : s.resetKeep.cores = (s.afterReset.abortTests s.bist.abortList).cores ∧
      s.resetKeep.bist = (s.afterReset.abortTests s.bist.abortList).bist := by
    rw [State.resetKeep_eq]
    split <;> exact ⟨rfl, rfl⟩
  have choked {k : Nat} (mem : k ∈ s.bist.abortList) : (s.resetKeep.core k).life = .choked ∧ sget 0 s.resetKeep.bist.statusCore k = 7 := by
    unfold State.core
    rw [same.1, same.2]
    exact s.afterReset.abortTests_choked mem
  refine ⟨fun r mem => choked (Bist.mem_abortList.mpr (.inl (List.mem_map_of_mem mem))), fun p mem => choked (Bist.mem_abortList.mpr (.inr mem)),
    fun none_ none' => ?_⟩
  rw [same.1, show s.bist.abortList = [] by rw [Bist.abortList, none_, none']; rfl]
  rfl

/-! ### What is kept while a record is loaded and written (R455) -/

/-- What the fuses and the images of the flash hold does not change while ROM selects. -/
structure SameStore (f g : Fw) : Prop where
  fused    : g.fused = f.fused
  imageA   : g.imageA = f.imageA
  imageB   : g.imageB = f.imageB
  recovery : g.recovery = f.recovery
  run      : g.run = f.run
  restarting : g.restarting = f.restarting

theorem SameStore.trans {f g h : Fw} (a : SameStore f g) (b : SameStore g h) : SameStore f h :=
  ⟨b.fused.trans a.fused, b.imageA.trans a.imageA, b.imageB.trans a.imageB, b.recovery.trans a.recovery, b.run.trans a.run,
    b.restarting.trans a.restarting⟩

theorem load_store (f : Fw) : SameStore f f.load := by
  unfold Fw.load
  split <;> constructor <;> rfl

theorem record_store (f : Fw) : SameStore f f.record := by
  unfold Fw.record
  dsimp only
  split <;> constructor <;> rfl

theorem setSlot_store (f : Fw) (b : Bool) (v : SlotState) : SameStore f (f.setSlot b v) := by cases b <;> constructor <;> rfl

theorem trySlot_store (f : Fw) (b : Bool) : SameStore f (f.trySlot b).1 := by
  unfold Fw.trySlot
  dsimp only
  split
  · split
    · exact (setSlot_store f b .trial).trans (by constructor <;> rfl)
    · exact setSlot_store f b .bad
  · split
    · constructor <;> rfl
    · exact setSlot_store f b .bad
  · split
    · constructor <;> rfl
    · exact setSlot_store f b .bad
  · constructor <;> rfl

/-- R459: what every try of a slot keeps, and the choice of an image, the whole selection keeps. -/
theorem tryCases_keeps {P : Fw → Prop} (tried : ∀ f b, P f → P (f.trySlot b).1) (chosen : ∀ (f : Fw) r, P f → P { f with selected := r }) :
    ∀ (l : List (Bool × Bool)) (f : Fw), P f → P (f.tryCases l)
  | [], f, h => chosen f _ h
  | (b, fresh) :: r, f, h => by
    have after := tried f b h
    unfold Fw.tryCases
    dsimp only
    generalize (if fresh = true then f.slot b == .pending || f.slot b == .trial else f.slot b == .confirmed) = here
    cases here with
    | false => exact tryCases_keeps tried chosen r f h
    | true =>
      rw [Bool.not_true, if_neg Bool.false_ne_true]
      generalize f.trySlot b = out at after
      obtain ⟨g, runs⟩ := out
      cases runs with
      | true => exact chosen g _ after
      | false => exact tryCases_keeps tried chosen r g after

theorem tryCases_store (l : List (Bool × Bool)) (f : Fw) : SameStore f (f.tryCases l) :=
  tryCases_keeps (P := SameStore f) (fun g b h => h.trans (trySlot_store g b)) (fun _ _ h => h.trans (by constructor <;> rfl)) l f
    (by constructor <;> rfl)

theorem select_store (f : Fw) : SameStore f f.select := (tryCases_store _ f).trans (record_store _)

/-- R465: of the two copies the one that is being written is lost. -/
theorem cut_written {f : Fw} {c : Bool} (h : f.recordAt = some c) : f.cut = if c then { f with copy1 := [] } else { f with copy0 := [] } := by
  unfold Fw.cut
  split
  · next none_ => rw [h] at none_; cases none_
  · next d here => rw [h] at here; cases here; rfl

theorem cut_unwritten {f : Fw} (h : f.recordAt = none) : f.cut = f := by
  unfold Fw.cut
  split
  · rfl
  · next d here => rw [h] at here; cases here

theorem cut_store (f : Fw) : SameStore f f.cut := by
  unfold Fw.cut
  split
  · constructor <;> rfl
  · split <;> constructor <;> rfl

/-- At rest is a matter of the pins, of the security state and of what the flash and the fuses hold. -/
theorem atRest_fw {down : Bool} {s t : State} {g : Fw} (h : AtRest down s t) (k : SameStore t.fw g) : AtRest down s { t with fw := g } := by
  obtain ⟨h1, h2, h3, h4, h5, h6, h7, h8, h9, h10, h11, h12, h13, h14, h15, h16, h17, h18, h19, fused, imageA, imageB, recovery, run, retire, ce,
    cap⟩ := h
  exact ⟨h1, h2, h3, h4, h5, h6, h7, h8, h9, h10, h11, h12, h13, h14, h15, h16, h17, h18, h19, k.fused.trans fused, k.imageA.trans imageA,
    k.imageB.trans imageB, k.recovery.trans recovery, k.run.trans run, retire, ce, cap⟩

/-- R464: the boot's choice of an image leaves the device at rest. -/
theorem boot_atRest (s : State) : AtRest s.damper.shutdown s s.boot :=
  atRest_fw (resetKeep_atRest s) ((load_store _).trans (select_store _))

theorem atRest_of_same {down : Bool} {u s t : State} (sec : u.sec = s.sec) (fw : u.fw = s.fw) (h : AtRest down u t) : AtRest down s t := by
  unfold AtRest at h ⊢
  rw [sec, fw] at h
  exact h

theorem atRest_cut {down : Bool} {s t : State} (h : AtRest down { s with fw := s.fw.cut } t) : AtRest down s t := by
  unfold Fw.cut at h
  split at h
  · exact h
  · split at h <;> exact h

theorem testsCut_of_same {u s t : State} (bist : u.bist = s.bist) (h : TestsCut u t) : TestsCut s t := by
  unfold TestsCut at h ⊢
  rw [bist] at h
  exact h

/-! ### The three resets (R404, R484, R487) -/

/-- The state in which a device reset boots: the pins at their levels, a power cycle behind it where the rails were removed. -/
def risen (s : State) (power : Bool) (maddr : BitVec 2) : State :=
  let s := if power then s.powerCycle else s
  { s with hub := { s.hub with pwrgd := true, devrstN := true, refclkH := true, refclkE := true, maddr := maddr } }

/-- R404: the removal of the rails ends a thermal shutdown and releases THERM_N where PWRGD is low. -/
theorem powered (s : State) (power : Bool) (maddr : BitVec 2) : (risen s power maddr).sec = s.sec ∧ (risen s power maddr).fw = s.fw ∧
    (risen s power maddr).bist = s.bist ∧ (risen s power maddr).damper.shutdown = (s.damper.shutdown && !(power && !s.hub.pwrgd)) ∧
    (risen s power maddr).hub.thermN = ((power && !s.hub.pwrgd) || s.hub.thermN) := by
  unfold risen State.powerCycle
  cases power with
  | false => exact ⟨rfl, rfl, rfl, by simp, by simp⟩
  | true =>
    cases up : s.hub.pwrgd with
    | true => exact ⟨rfl, rfl, rfl, by simp, by simp⟩
    | false => exact ⟨rfl, rfl, rfl, by simp, by simp⟩

/-- R464: what a state in reset is with a new choice of its image. -/
def withFw (k : State) (g : Fw) : State := { k with fw := g }

theorem withFw_fw (k : State) (g : Fw) : (withFw k g).fw = g := rfl

theorem boot_eq (u : State) : u.boot = withFw u.resetKeep u.resetKeep.fw.load.select := rfl

theorem testsCut_fw {s t : State} (g : Fw) (h : TestsCut s t) : TestsCut s (withFw t g) := h

/-- R464: the boot leaves the pins, and its image is the one that ROM selects. -/
theorem boot_pins (u : State) : u.boot.hub.pwrgd = u.hub.pwrgd ∧ u.boot.hub.devrstN = u.hub.devrstN ∧ u.boot.hub.refclkH = u.hub.refclkH ∧
    u.boot.hub.refclkE = u.hub.refclkE ∧ u.boot.hub.maddr = u.hub.maddr ∧ u.boot.hub.thermN = u.hub.thermN ∧
    u.boot.fw = u.fw.afterReset.load.select := by
  obtain ⟨pwrgd, devrstN, refclkH, refclkE, ball, therm, store, -⟩ := u.resetKeep_pins
  rw [boot_eq, store]
  exact ⟨pwrgd, devrstN, refclkH, refclkE, ball, therm, withFw_fw _ _⟩

theorem boot_bist (u : State) : u.boot.bist.maint = none ∧ u.boot.bist.statusDev = u.bist.statusDev := u.resetKeep_bist

theorem boot_cut (u : State) : TestsCut u u.boot := by
  rw [boot_eq]
  exact testsCut_fw _ (resetKeep_cut u)

/-- R484, R485: a device reset. -/
theorem deviceReset_rest (s : State) (power : Bool) (maddr : BitVec 2) :
    AtRest (s.damper.shutdown && !(power && !s.hub.pwrgd)) s (risen s power maddr).boot ∧ TestsCut s (risen s power maddr).boot ∧
    (risen s power maddr).boot.alive = true ∧ (risen s power maddr).boot.hub.refclkH = true ∧ (risen s power maddr).boot.hub.refclkE = true ∧
    (risen s power maddr).boot.hub.maddr = maddr ∧ (risen s power maddr).boot.hub.thermN = ((power && !s.hub.pwrgd) || s.hub.thermN) ∧
    (risen s power maddr).boot.fw = s.fw.afterReset.load.select := by
  obtain ⟨sec, fw, bist, shutdown, thermN⟩ := powered s power maddr
  have rest := boot_atRest (risen s power maddr)
  have cut := boot_cut (risen s power maddr)
  obtain ⟨pwrgd, devrstN, refclkH, refclkE, ball, therm, image⟩ := boot_pins (risen s power maddr)
  generalize (risen s power maddr).boot = k at rest cut pwrgd devrstN refclkH refclkE ball therm image ⊢
  rw [shutdown] at rest
  rw [fw] at image
  exact ⟨atRest_of_same sec fw rest, testsCut_of_same bist cut, Bool.and_eq_true_iff.mpr ⟨pwrgd, devrstN⟩, refclkH, refclkE, ball,
    therm.trans thermN, image⟩

/-- R465, R487: PWRGD or DEVRST_N falls: `u` is the state with the pin low. -/
theorem pinLow_rest {s u : State} (sec : u.sec = s.sec) (fw : u.fw = s.fw) (bist : u.bist = s.bist) (damper : u.damper = s.damper)
    (therm : u.hub.thermN = s.hub.thermN) (low : u.alive = false) :
    AtRest s.damper.shutdown s u.resetKeep ∧ TestsCut s u.resetKeep ∧ u.resetKeep.alive = false ∧ u.resetKeep.hub.thermN = s.hub.thermN := by
  obtain ⟨pwrgd, devrstN, -, -, -, thermN, -⟩ := u.resetKeep_pins
  refine ⟨atRest_of_same sec fw (damper ▸ resetKeep_atRest u), testsCut_of_same bist (resetKeep_cut u), ?_, thermN.trans therm⟩
  show (u.resetKeep.hub.pwrgd && u.resetKeep.hub.devrstN) = false
  rw [pwrgd, devrstN]
  exact low

/-- R465: the state in which PWRGD falls while the record of a start may be written. -/
def unpowered (s : State) (f : Fw) : State := { s with fw := f, hub := { s.hub with pwrgd := false } }

theorem pwrgdLow_rest (s : State) (lost : Bool) :
    let u := unpowered s (if lost then s.fw.cut else s.fw)
    AtRest s.damper.shutdown s u.resetKeep ∧ TestsCut s u.resetKeep ∧ u.resetKeep.alive = false ∧ u.resetKeep.hub.thermN = s.hub.thermN := by
  cases lost with
  | false => exact pinLow_rest (u := unpowered s s.fw) rfl rfl rfl rfl rfl rfl
  | true =>
    obtain ⟨rest, others⟩ := pinLow_rest (s := { s with fw := s.fw.cut }) (u := unpowered s s.fw.cut) rfl rfl rfl rfl rfl rfl
    exact ⟨atRest_cut rest, others⟩

theorem pwrgdLow_eq (s : State) (torn : Bool) : exec (.pwrgdLow torn) s =
    .next (unpowered s (if torn && s.alive && s.fw.run.isNone then s.fw.cut else s.fw)).resetKeep := by
  show execPwrgdLow s torn = _
  unfold execPwrgdLow unpowered
  dsimp only
  split <;> rfl

theorem resetsLeaveTheDeviceAtRest : ResetsLeaveTheDeviceAtRest := by
  intro s power torn maddr cut off kept
  refine ⟨⟨(risen s power maddr).boot, rfl, deviceReset_rest s power maddr⟩, ?_, ⟨_, rfl, ?_⟩⟩
  · obtain ⟨rest, tests, low, therm⟩ := pwrgdLow_rest s (torn && s.alive && s.fw.run.isNone)
    exact ⟨_, pwrgdLow_eq s torn, rest, tests, low, therm, (unpowered s kept).resetKeep_pins.2.2.2.2.2.2.1,
      cut_written, cut_written, cut_unwritten⟩
  · exact pinLow_rest (s := s) (u := { s with hub := { s.hub with devrstN := false } }) rfl rfl rfl rfl rfl (Bool.and_false _)

/-! ### Links and clocks (R27, R487) -/

/-- R487: the first fault of the device stays, and the fault queue hears of every one. -/
theorem deviceFault_fault (s : State) (cause : Nat) :
    (s.deviceFault cause).hub.fault = (if s.hub.fault = 0 then BitVec.ofNat 16 cause else s.hub.fault) ∧
    (PortFree (s.mqueue qidFault) → ((s.deviceFault cause).mqueue qidFault).seq = ((s.mqueue qidFault).seq + 1) % 65536) := by
  let marked : State := { s with hub := { s.hub with fault := if s.hub.fault = 0 then BitVec.ofNat 16 cause else s.hub.fault } }
  have eq : s.deviceFault cause = marked.postCause qidFault cause := by
    unfold State.deviceFault
    dsimp only [marked]
    split <;> rfl
  rw [eq]
  refine ⟨by rw [(marked.postCause_queueStep qidFault cause).hub], fun free => ?_⟩
  obtain ⟨writing, waiting, flush, sound⟩ := free
  exact State.post_seq marked.draw.2 qidFault _ _ writing waiting flush sound

theorem deviceFault_step (s : State) (cause : Nat) : (s.deviceFault cause).host.linkUp = s.host.linkUp ∧ (s.deviceFault cause).sec = s.sec ∧
    (s.deviceFault cause).mem = s.mem ∧ (s.deviceFault cause).hub.refclkH = s.hub.refclkH := by
  unfold State.deviceFault
  dsimp only
  split
  · have step := ({ s with hub := { s.hub with fault := BitVec.ofNat 16 cause } } : State).postCause_queueStep qidFault cause
    exact ⟨by rw [step.host], step.sec, step.mem, by rw [step.hub]⟩
  · have step := s.postCause_queueStep qidFault cause
    exact ⟨by rw [step.host], step.sec, step.mem, by rw [step.hub]⟩

/-- R487: the state that the loss of REFCLK_H leaves, but for its fault. -/
def unclocked (s : State) : State :=
  { s with hub := { s.hub with refclkH := false }, host := { s.host with linkUp := false },
           mem := { s.mem with held := s.mem.held.filter fun a => a.write.isSome }, sec := s.sec.linkEnd }.stallHost

/-- R487: one port after the loss of REFCLK_E. -/
def dropLink (s : State) (k : Nat) : State := if (s.port k).st = .disabled then s else s.setLink k .down

theorem dropLink_length (s : State) (k : Nat) : (dropLink s k).eth.ports.length = s.eth.ports.length := by
  unfold dropLink
  split
  · rfl
  · by_cases same : (s.port k).st = .down
    · rw [State.setLink_same same]
    · rw [State.setLink_new same, (State.portEvent_queueStep _ _ _ _).eth]
      exact List.length_set ..

theorem dropLink_clock (s : State) (k : Nat) : (dropLink s k).hub.refclkE = s.hub.refclkE := by
  unfold dropLink
  split
  · rfl
  · by_cases same : (s.port k).st = .down
    · rw [State.setLink_same same]
    · rw [State.setLink_new same, (State.portEvent_queueStep _ _ _ _).hub]
      rfl

theorem foldl_dropLink_clock (l : List Nat) (s : State) : (l.foldl dropLink s).hub.refclkE = s.hub.refclkE := by
  induction l generalizing s with
  | nil => rfl
  | cons k r ih => exact (ih _).trans (dropLink_clock s k)

theorem dropLink_port {s : State} {k : Nat} (there : k < s.eth.ports.length) (j : Nat) :
    ((dropLink s k).port j).st = if j = k then (if (s.port j).st = .disabled then .disabled else .down) else (s.port j).st := by
  unfold dropLink
  by_cases here : j = k
  · subst here
    rw [if_pos rfl]
    split
    · next off => exact off
    · exact (State.setLink_keeps there .down).1
  · rw [if_neg here]
    split
    · rfl
    · rw [State.port_setLink_ne _ here]

/-- R487: every port that is not disabled goes down. -/
theorem foldl_dropLink {l : List Nat} (once : l.Nodup) {s : State} (there : ∀ k ∈ l, k < s.eth.ports.length) (j : Nat) :
    ((l.foldl dropLink s).port j).st = if j ∈ l then (if (s.port j).st = .disabled then .disabled else .down) else (s.port j).st := by
  induction l generalizing s with
  | nil => exact (if_neg List.not_mem_nil).symm
  | cons k r ih =>
    obtain ⟨apart, rest⟩ := List.nodup_cons.mp once
    rw [List.foldl_cons, ih rest fun i mem => (dropLink_length s k).symm ▸ there i (List.mem_cons_of_mem _ mem),
      dropLink_port (there k (List.mem_cons_self ..)) j]
    by_cases here : j = k
    · subst here
      simp only [apart, if_false, List.mem_cons, true_or, if_true]
    · simp only [here, if_false, List.mem_cons, false_or]

theorem lostLinksAndClocksAreFaults : LostLinksAndClocksAreFaults := by
  intro s ring alive
  refine ⟨if_pos alive, fun cause _ => ?_, ?_, fun eight => ?_⟩
  · obtain ⟨fault, seq⟩ := deviceFault_fault s cause
    exact ⟨fun clear => fault.trans (if_pos clear), fun set_ => fault.trans (if_neg set_), seq⟩
  · have run : exec .refclkHLoss s = .next ((unclocked s).deviceFault 1) := if_pos alive
    obtain ⟨link, sec, mem, clock⟩ := deviceFault_step (unclocked s) 1
    refine ⟨_, run, clock, link, by rw [sec]; rfl, fun clear => (deviceFault_fault _ 1).1.trans (if_pos clear), fun a held => ?_⟩
    rw [mem] at held
    exact (List.mem_filter.mp held).2
  · let off : State := { s with hub := { s.hub with refclkE := false } }
    have run : exec .refclkELoss s = .next ((List.range 8).foldl dropLink off) := if_neg (by rw [show off.alive = true from alive]; decide)
    refine ⟨_, run, foldl_dropLink_clock _ off, fun k less => ?_⟩
    · rw [foldl_dropLink List.nodup_range (fun i mem => eight.symm ▸ List.mem_range.mp mem) k, if_pos (List.mem_range.mpr less)]
      rfl

/-- Settles O51, by the frame of the tests that a reset cuts off, which leaves the reset's fields as they stand, and by what a fault and the loss of a
clock do. -/
theorem resetsAndLostClocksTakeHold : Obligations.ResetsAndLostClocksTakeHold := ⟨resetsLeaveTheDeviceAtRest, lostLinksAndClocksAreFaults⟩

end Sys2Proof.Claims

end

section

/-! ## The test access port (O53) -/

namespace Sys2Proof.Machine

/-! ### What the balls carry (R474, R481) -/

section Balls
variable {s : State} {units : Driven} {pulse : Bool} {t : TapInstr}

/-- R474, R481: outside EXTEST and its like, CLAMP and HIGHZ the units of the device drive the balls. -/
theorem State.drivenBalls_units (on : s.hub.tap = t) (own : t ≠ .highz)
    (idle : [TapInstr.extest, .extestPulse, .extestTrain, .clamp].contains t = false) :
    s.drivenBalls units pulse = some units := by
  unfold State.drivenBalls State.boundaryDrives
  rw [on, if_neg own, idle]
  rfl

theorem State.drivenBalls_boundary (on : s.hub.tap = t) (own : t ≠ .highz)
    (drives : [TapInstr.extest, .extestPulse, .extestTrain, .clamp].contains t = true) :
    s.drivenBalls units pulse = if pulse && (t == .extestPulse || t == .extestTrain) then
      some { s.hub.boundary.out with ethTx := ~~~s.hub.boundary.out.ethTx, pcieTx := ~~~s.hub.boundary.out.pcieTx }
    else some s.hub.boundary.out := by
  unfold State.drivenBalls State.boundaryDrives
  rw [on, if_neg own, drives]
  rfl

/-- R474: the boundary register drives the lanes and the buses under EXTEST and CLAMP, whether or not a pulse runs. -/
theorem State.drivenBalls_steady (on : s.hub.tap = t) (mem : t ∈ [TapInstr.extest, .clamp]) :
    s.drivenBalls units pulse = some s.hub.boundary.out := by
  rw [List.mem_cons, List.mem_singleton] at mem
  obtain rfl | rfl := mem
  · exact (State.drivenBalls_boundary on (by decide) (by decide)).trans (if_neg (by cases pulse <;> decide))
  · exact (State.drivenBalls_boundary on (by decide) (by decide)).trans (if_neg (by cases pulse <;> decide))

/-- R474: a pulse turns the lanes over. -/
theorem State.drivenBalls_pulsed (on : s.hub.tap = t) (mem : t ∈ [TapInstr.extestPulse, .extestTrain]) :
    s.drivenBalls units pulse = some (if pulse then
      { s.hub.boundary.out with ethTx := ~~~s.hub.boundary.out.ethTx, pcieTx := ~~~s.hub.boundary.out.pcieTx } else s.hub.boundary.out) := by
  rw [List.mem_cons, List.mem_singleton] at mem
  obtain rfl | rfl := mem
  · refine (State.drivenBalls_boundary on (by decide) (by decide)).trans ?_
    cases pulse <;> rfl
  · refine (State.drivenBalls_boundary on (by decide) (by decide)).trans ?_
    cases pulse <;> rfl

theorem State.drivenBalls_own {st : Fin 32} (on : s.hub.tap = t) (mem : t ∈ [TapInstr.idcode, .bypass, .sample, .debug, .hbm1500 st]) :
    s.drivenBalls units pulse = some units := by
  simp only [List.mem_cons, List.not_mem_nil, or_false] at mem
  obtain rfl | rfl | rfl | rfl | rfl := mem
  all_goals exact State.drivenBalls_units on TapInstr.noConfusion rfl

/-- R474, R484: a status ball by the instruction in force. -/
theorem State.ball_cell (cell level : Bool) (on : s.hub.tap = t) (mem : t ∈ [TapInstr.extest, .extestPulse, .extestTrain, .clamp]) :
    s.ball cell level = cell := by
  unfold State.ball
  rw [on]
  simp only [List.mem_cons, List.not_mem_nil, or_false] at mem
  obtain rfl | rfl | rfl | rfl := mem
  all_goals rfl

theorem State.ball_level {st : Fin 32} (cell level : Bool) (on : s.hub.tap = t)
    (mem : t ∈ [TapInstr.idcode, .bypass, .sample, .debug, .hbm1500 st]) : s.ball cell level = level := by
  unfold State.ball
  rw [on]
  simp only [List.mem_cons, List.not_mem_nil, or_false] at mem
  obtain rfl | rfl | rfl | rfl | rfl := mem
  all_goals rfl

end Balls

/-! ### Instructions that are shifted in (R474, R475) -/

theorem State.tapOk_iff (s : State) : s.tapOk = true ↔ s.sec.lc ≠ .scrapped := by simp [State.tapOk]

/-- R415, R474: who may use the instructions of the debug. -/
theorem State.debugOk_iff (s : State) :
    s.debugOk = true ↔ s.sec.lc ≠ .scrapped ∧ (s.sec.lc = .operational → s.sec.debugEn = true ∧ s.anyConfidential = false) := by
  unfold State.debugOk
  split
  · next dead => simp [dead]
  · next op => simp [op]
  · next dead op => exact ⟨fun _ => ⟨dead, fun h => absurd h op⟩, fun _ => rfl⟩

/-- R474: a board-test instruction is one of those that the reset of the device makes unavailable. -/
theorem State.tapAvailable_board (s : State) {t : TapInstr} (mem : t ∈ [TapInstr.extest, .extestPulse, .extestTrain, .clamp, .highz]) :
    s.tapAvailable t = s.boardOk := by
  simp only [List.mem_cons, List.not_mem_nil, or_false] at mem
  obtain rfl | rfl | rfl | rfl | rfl := mem
  all_goals rfl

/-- R474: a scan of the boundary register under a board-test instruction, where it is available. -/
theorem State.boardTest_scan {s : State} (ok : s.boardOk = true) (b : Boundary) (pins : Pins) {t : TapInstr}
    (mem : t ∈ [TapInstr.extest, .extestPulse, .extestTrain, .clamp]) : s.boardTest t (some (b, pins)) =
    { s with hub := { s.hub with tap := t, tapLoaded := t, boundary := b } }.emit
      (.boundary s.hub.pwrgd s.hub.devrstN s.hub.perstN s.hub.maddr s.hub.boundary.alertN s.hub.boundary.thermN pins) := by
  have tap : (s.setTap true t).hub.tap = t := rfl
  have alert : (s.setTap true t).alertBall = s.hub.boundary.alertN := State.ball_cell _ _ tap mem
  have therm : (s.setTap true t).thermBall = s.hub.boundary.thermN := State.ball_cell _ _ tap mem
  unfold State.boardTest State.scanBoundary
  dsimp only
  rw [ok, if_pos rfl, alert, therm]
  rfl

theorem State.boardTest_plain {s : State} {scan : Option (Boundary × Pins)} (t : TapInstr) (no : s.boardOk = false ∨ scan = none) :
    s.boardTest t scan = s.setTap s.boardOk t := by
  unfold State.boardTest
  cases scan with
  | none => rfl
  | some k =>
    obtain off := no.resolve_right (by simp)
    exact if_neg (ne_true_of_eq_false off)

end Sys2Proof.Machine

namespace Sys2Proof.Claims

open Sys2Proof Sys2Proof.Machine

/-- R474: SAMPLE shifts out the levels that the units drive. -/
theorem samplePreload_shifts {s : State} (up : s.sec.lc ≠ .scrapped) (b : Boundary) (pins : Pins) : exec (.samplePreload b pins) s =
    .next ({ s with hub := { s.hub with tap := .sample, tapLoaded := .sample, boundary := b } }.emit
      (.boundary s.hub.pwrgd s.hub.devrstN s.hub.perstN s.hub.maddr s.alertN s.hub.thermN pins)) := by
  have tap : (s.setTap true .sample).hub.tap = .sample := rfl
  have alert : (s.setTap true .sample).alertBall = s.alertN := State.ball_level (st := 0) _ _ tap (by simp)
  have therm : (s.setTap true .sample).thermBall = s.hub.thermN := State.ball_level (st := 0) _ _ tap (by simp)
  show execSamplePreload s b pins = _
  unfold execSamplePreload State.scanBoundary
  rw [(s.tapOk_iff).mpr up, if_pos rfl, alert, therm]
  rfl

/-- R474, R475: once DEVRST_N is low, a board-test instruction that is in the port takes force. -/
theorem devrstNLow_board {s : State} {i : TapInstr} (mem : i ∈ [TapInstr.extest, .extestPulse, .extestTrain, .clamp, .highz])
    (loaded : s.hub.tapLoaded = i) (up : s.sec.lc ≠ .scrapped) : ∃ t, exec .devrstNLow s = .next t ∧ t.hub.tap = i := by
  let low : State := { s with hub := { s.hub with devrstN := false } }
  refine ⟨low.resetKeep, rfl, ?_⟩
  have tap := low.resetKeep_tap
  obtain ⟨-, devrstN, -, -, -, -, -, sec⟩ := low.resetKeep_pins
  have board : low.resetKeep.boardOk = true := by
    unfold State.boardOk State.tapOk
    rw [devrstN, sec]
    exact Bool.and_eq_true_iff.mpr ⟨bne_iff_ne.mpr up, rfl⟩
  rw [State.tapAvailable_board _ (loaded ▸ mem : low.hub.tapLoaded ∈ _), board, if_pos rfl] at tap
  exact tap.trans loaded

theorem withFw_tapAvailable (k : State) (g : Fw) (t : TapInstr) : (withFw k g).tapAvailable t = k.tapAvailable t := by cases t <;> rfl

theorem withFw_tap (k : State) (g : Fw) : (withFw k g).hub.tap = k.hub.tap := rfl

/-- R475: the boot leaves an instruction in force that is available then. -/
theorem boot_tap (u : State) : u.boot.hub.tap = if u.boot.tapAvailable u.hub.tapLoaded then u.hub.tapLoaded else .bypass := by
  rw [boot_eq, withFw_tapAvailable, withFw_tap]
  exact u.resetKeep_tap

/-- R475: a device reset, with DEVRST_N high again. -/
theorem deviceReset_tap {s t : State} (run : exec (.deviceReset false 0) s = .next t) :
    t.hub.tap = (if t.tapAvailable s.hub.tapLoaded then s.hub.tapLoaded else .bypass) ∧ t.boardOk = false := by
  obtain rfl : (risen s false 0).boot = t := Host.Outcome.next.inj run
  have high : (risen s false 0).boot.hub.devrstN = true := (boot_pins (risen s false 0)).2.1
  have tap := boot_tap (risen s false 0)
  generalize (risen s false 0).boot = u at high tap
  refine ⟨tap, ?_⟩
  unfold State.boardOk
  rw [high]
  exact Bool.and_false _

/-- R474, R475: what the reset leaves of a board-test instruction and of one of the debug. -/
theorem deviceReset_instr {s t : State} (st : Fin 32) (run : exec (.deviceReset false 0) s = .next t) :
    (s.hub.tapLoaded ∈ [TapInstr.extest, .extestPulse, .extestTrain, .clamp, .highz, .bypass] → t.hub.tap = .bypass) ∧
    (∀ i ∈ [TapInstr.debug, .hbm1500 st], s.hub.tapLoaded = i → t.hub.tap = if t.debugOk then i else .bypass) := by
  obtain ⟨tap, board⟩ := deviceReset_tap run
  refine ⟨fun mem => ?_, fun i mem loaded => ?_⟩
  · rw [tap]
    rcases List.mem_append.mp (show s.hub.tapLoaded ∈ [TapInstr.extest, .extestPulse, .extestTrain, .clamp, .highz] ++ [.bypass] from mem)
      with test | own
    · rw [t.tapAvailable_board test, board]
      rfl
    · rw [List.mem_singleton.mp own]
      rfl
  · rw [tap, loaded]
    rw [List.mem_cons, List.mem_singleton] at mem
    obtain rfl | rfl := mem
    all_goals rfl

/-- R474: IDCODE shifts out the identity where it is available. -/
theorem idcode_shifts {s : State} (up : s.sec.lc ≠ .scrapped) : exec .idcode s =
    .next ({ s with hub := { s.hub with tap := .idcode, tapLoaded := .idcode } }.emit (.tdo 0x17A70ABB 32)) := if_pos ((s.tapOk_iff).mpr up)

/-- Settles O53, by what the balls carry under each instruction, and by what a reset leaves in force of the instruction that stands in the port. -/
theorem tapInstructionsTakeForceWhereAvailable : Obligations.TapInstructionsTakeForceWhereAvailable := by
  intro s st b pins units pulse inForce board
  have dead (h : s.sec.lc = .scrapped) : ¬ s.tapOk = true := fun ok => (s.tapOk_iff).mp ok h
  refine ⟨rfl, rfl, fun h => congrArg _ (if_neg (dead h)), fun up => samplePreload_shifts up b pins,
    fun t mem on => State.drivenBalls_steady on mem, fun t mem on => State.drivenBalls_pulsed on mem, fun on => if_pos on,
    fun t mem on => State.drivenBalls_own on mem,
    fun i mem loaded up => devrstNLow_board mem loaded up, fun t mem on => ⟨State.ball_cell _ _ on mem, State.ball_cell _ _ on mem⟩,
    fun on => ⟨by rw [State.alertBall, State.ball, on], by rw [State.thermBall, State.ball, on]⟩,
    fun t mem on => ⟨State.ball_level _ _ on mem, State.ball_level _ _ on mem⟩, ⟨fun ok => ⟨?_, ?_, ?_⟩, fun sc no => ⟨?_, ?_, ?_⟩⟩,
    fun t run => deviceReset_instr st run, rfl, rfl, rfl, rfl, fun h => if_neg (dead h), idcode_shifts, s.debugOk_iff⟩
  · exact congrArg _ (State.boardTest_scan ok b pins (by simp))
  · exact congrArg _ (State.boardTest_scan ok b pins (by simp))
  · exact congrArg _ (State.boardTest_scan ok b pins (by simp))
  · exact congrArg _ (State.boardTest_plain .extest no)
  · exact congrArg _ (State.boardTest_plain .extestPulse no)
  · exact congrArg _ (State.boardTest_plain .extestTrain no)

end Sys2Proof.Claims

end

section

/-! ## Self-tests (O52) -/

namespace Sys2Proof.Machine

/-! ### What a run's signatures say (R469) -/

/-- R469: the memory signature is as expected exactly when no word fails. -/
theorem bistMemSig_expected (x : BistResult) (e : BitVec 64) : bistMemSig x e = e ↔ x.failing = 0 := by
  have flips : ~~~e ≠ e := fun h => by
    have bit := congrArg (fun b : BitVec 64 => b.getLsbD 0) h
    simp at bit
  unfold bistMemSig
  split
  · next none_ => exact ⟨fun _ => none_, fun _ => rfl⟩
  · next some_ =>
    split
    · exact ⟨fun h => absurd h flips, fun h => absurd h some_⟩
    · next other => exact ⟨fun h => absurd h other, fun h => absurd h some_⟩

/-- R467: the run that a value asks for has the value's scope. -/
theorem bistRun_scope {v : BitVec 16} {r : BistRun} (h : bistRun v = some r) : r.scope = bistScope v := by
  unfold bistRun at h
  dsimp only at h
  generalize (if bistScope v = 1 then 68 else if bistScope v = 2 then 4 else 1) = top at h
  split at h
  · cases h
  · exact congrArg BistRun.scope (Option.some.inj h).symm

/-! ### Rows that join the retire list (R215, R472) -/

/-- R215: the state with rows on the retire list and in its copy in flash. -/
def State.addRetires (s : State) (rows : List Nat) : State :=
  { s with mem := { s.mem with retireList := rows.foldl setIns s.mem.retireList }
           fw := { s.fw with flashRetire := rows.foldl setIns s.fw.flashRetire } }

theorem State.foldl_addRetire (rows : List Nat) (s : State) : rows.foldl State.addRetire s = s.addRetires rows := by
  induction rows generalizing s with
  | nil => rfl
  | cons r rest ih => exact ih _

end Sys2Proof.Machine

namespace Sys2Proof.Claims

open Sys2Proof Sys2Proof.Machine

/-! ### Starts (R467, R468) -/

section Starts
variable {s : State} {pr : Principal} {v : BitVec 16} {scope : Nat} {r : BistRun}

/-- R467: a write of BIST_START, once it goes ahead. -/
def bistWrite (v : BitVec 16) (scope : Nat) (s : State) : BitVec 8 × State :=
  match bistRun v with
  | none => (rRANGE, s)
  | some r =>
    if r.scope ≠ scope then (rRANGE, s)
    else if scope = 1 then
      if (s.core r.target).life ≠ .choked ∨ s.bist.cores.any (fun k => quadOf k.target == quadOf r.target) then (rREFUSED, s)
      else
        let s := s.modCore r.target fun c => { (if s.damper.shutdown then c else c.wiped) with life := .testing }
        (rOK, { s with bist := { s.bist with cores := s.bist.cores ++ [r], statusCore := sset 0 s.bist.statusCore r.target 1 } })
    else if !s.inMaintenance ∨ s.bist.maint.isSome ∨ !s.bist.cores.isEmpty then (rREFUSED, s)
    else (rOK, { s with bist := { s.bist with maint := some r } })

theorem bistStart_answers (h : Open s 10 (prHost pr || prBmc pr || prCp pr) true) :
    (.next (s.bistStart pr v scope) : Out) = answers pr (bistWrite v scope s).2 (bistWrite v scope s).1 := answers_of_open h rfl

theorem bistStart_range (h : Open s 10 (prHost pr || prBmc pr || prCp pr) true) (bad : bistRun v = none ∨ bistScope v ≠ scope) :
    (.next (s.bistStart pr v scope) : Out) = answers pr s rRANGE := by
  have away : bistWrite v scope s = (rRANGE, s) := by
    unfold bistWrite
    cases run : bistRun v with
    | none => rfl
    | some r =>
      have other : r.scope ≠ scope := bistRun_scope run ▸ bad.resolve_left (by rw [run]; exact Option.some_ne_none r)
      exact if_pos other
  rw [bistStart_answers h, away]

/-- R468: the wider scopes need maintenance. -/
theorem bistStart_wide (h : Open s 10 (prHost pr || prBmc pr || prCp pr) true) (wide : scope ≠ 1) (run : bistRun v = some r)
    (mine : r.scope = scope) :
    (s.inMaintenance = true → s.bist.maint = none → s.bist.cores = [] →
      (.next (s.bistStart pr v scope) : Out) = answers pr { s with bist := { s.bist with maint := some r } } rOK) ∧
    (s.inMaintenance = false ∨ s.bist.maint ≠ none ∨ s.bist.cores ≠ [] →
      (.next (s.bistStart pr v scope) : Out) = answers pr s rREFUSED) := by
  have eq : bistWrite v scope s = if !s.inMaintenance ∨ s.bist.maint.isSome ∨ !s.bist.cores.isEmpty then (rREFUSED, s)
      else (rOK, { s with bist := { s.bist with maint := some r } }) := by
    unfold bistWrite
    rw [run]
    exact (if_neg (not_not.mpr mine)).trans (if_neg wide)
  have busy : ((!s.inMaintenance) = true ∨ s.bist.maint.isSome = true ∨ (!s.bist.cores.isEmpty) = true) ↔
      (s.inMaintenance = false ∨ s.bist.maint ≠ none ∨ s.bist.cores ≠ []) := by
    rw [Bool.not_eq_true', Option.isSome_iff_ne_none, Bool.not_eq_true', List.isEmpty_eq_false_iff]
  rw [bistStart_answers h, eq]
  refine ⟨fun calm none_ idle => ?_, fun no => ?_⟩
  · rw [if_neg fun no => by
      rcases busy.mp no with loud | some_ | tests
      · exact Bool.false_ne_true (loud.symm.trans calm)
      · exact some_ none_
      · exact tests idle]
  · rw [if_pos (busy.mpr no)]

/-- R467, R475: the core scope needs a CHOKED core whose quadrant tests no other. -/
theorem bistStart_core (h : Open s 10 (prHost pr || prBmc pr || prCp pr) true) (run : bistRun v = some r) (mine : r.scope = 1) :
    ((s.core r.target).life = .choked → (∀ k ∈ s.bist.cores, quadOf k.target ≠ quadOf r.target) →
      let s1 := s.setCore r.target { (if s.damper.shutdown then s.core r.target else (s.core r.target).wiped) with life := .testing }
      (.next (s.bistStart pr v 1) : Out) = answers pr { s1 with bist := { s1.bist with
        cores := s.bist.cores ++ [r], statusCore := sset 0 s.bist.statusCore r.target 1 } } rOK) ∧
    ((s.core r.target).life ≠ .choked ∨ (∃ k ∈ s.bist.cores, quadOf k.target = quadOf r.target) →
      (.next (s.bistStart pr v 1) : Out) = answers pr s rREFUSED) := by
  have busy : s.bist.cores.any (fun k => quadOf k.target == quadOf r.target) = true ↔
      ∃ k ∈ s.bist.cores, quadOf k.target = quadOf r.target := by
    simp only [List.any_eq_true, beq_iff_eq]
  have eq : bistWrite v 1 s =
      if (s.core r.target).life ≠ .choked ∨ s.bist.cores.any (fun k => quadOf k.target == quadOf r.target) then (rREFUSED, s)
      else
        let s := s.modCore r.target fun c => { (if s.damper.shutdown then c else c.wiped) with life := .testing }
        (rOK, { s with bist := { s.bist with cores := s.bist.cores ++ [r], statusCore := sset 0 s.bist.statusCore r.target 1 } }) := by
    unfold bistWrite
    rw [run]
    exact (if_neg (not_not.mpr mine)).trans (if_pos rfl)
  rw [bistStart_answers h, eq]
  refine ⟨fun choked alone => ?_, fun no => ?_⟩
  · rw [if_neg (not_or.mpr ⟨not_not.mpr choked, fun any => (busy.mp any).elim fun k h => alone k h.1 h.2⟩)]
    rfl
  · rw [if_pos (no.imp_right busy.mpr)]

end Starts

/-! ### Ends (R469 to R472) -/

/-- R471: a core's run ends, and what the core held is gone. -/
theorem coreBistEnd_done {s : State} {p : Fin 68} {x : BistResult} {r : BistRun} (on : s.damper.shutdown = false)
    (found : s.bist.cores.find? (fun k => k.target == p.val) = some r) : ∃ t, exec (.coreBistEnd p x) s = .next t ∧
      (t.core p).life = (if bistPass r x (Config.bistExpect 0) (Config.bistExpect 1) then .passed else .choked) ∧
      (t.core p).sp = Scratch.reset ∧ (t.core p).run = none ∧ (t.core p).tlb = Tlb.reset ∧
      sget 0 t.bist.statusCore p = bistStatus r x (Config.bistExpect 0) (Config.bistExpect 1) ∧
      (r.memory = true → (sget 0 t.bist.msigCore p = Config.bistExpect 1 ↔ x.failing = 0)) ∧ (∀ k ∈ t.bist.cores, k.target ≠ p.val) ∧
      t.mem = s.mem ∧ t.disp = s.disp := by
  have run : exec (.coreBistEnd p x) s = .next
      { (s.modCore p.val fun c => { c.wiped with
          life := if bistPass r x (Config.bistExpect 0) (Config.bistExpect 1) then .passed else .choked }) with
        bist := { s.bist with
          cores := s.bist.cores.filter fun k => k.target != p.val
          statusCore := sset 0 s.bist.statusCore p.val (bistStatus r x (Config.bistExpect 0) (Config.bistExpect 1))
          sigCore := if r.logic then sset 0 s.bist.sigCore p.val x.logic else s.bist.sigCore
          msigCore := if r.memory then sset 0 s.bist.msigCore p.val (bistMemSig x (Config.bistExpect 1)) else s.bist.msigCore } } := by
    show execCoreBistEnd p x s = _
    unfold execCoreBistEnd
    rw [on, if_neg Bool.false_ne_true, found]
    rfl
  refine ⟨_, run, ?_, ?_, ?_, ?_, sget_sset_same 0 s.bist.statusCore p.val _, fun memory => ?_, fun k mem => ?_, rfl, rfl⟩
  · exact congrArg Core.life (s.core_setCore_same p.val _)
  · exact congrArg Core.sp (s.core_setCore_same p.val _)
  · exact congrArg Core.run (s.core_setCore_same p.val _)
  · exact congrArg Core.tlb (s.core_setCore_same p.val _)
  · show sget 0 (if r.memory then _ else _) _ = _ ↔ _
    rw [memory, if_pos rfl, sget_sset_same]
    exact bistMemSig_expected x _
  · exact bne_iff_ne.mp (List.mem_filter.mp mem).2

/-- R470, R472: the state in which a wider run's results are stored. -/
def maintEnded (s : State) (r : BistRun) (x : BistResult) (rows : List Nat) : State :=
  let e := bistExpected r.scope
  let s := if r.scope = 4 then rows.foldl State.addRetire s else s
  { s with bist := { s.bist with
    statusDev := sset 0 s.bist.statusDev (r.scope - 2) (bistStatus r x e.1 e.2)
    sigDev := sset 0 s.bist.sigDev (r.scope - 2) (if r.signs.1 then x.logic else bistMemSig x e.2) } }

theorem maintBistEnd_done {s : State} {x : BistResult} {rows : List Nat} {r : BistRun} (on : s.damper.shutdown = false)
    (maint : s.bist.maint = some r) : ∃ t, exec (.maintBistEnd x rows) s = .next t ∧ t.bist.maint = none ∧ t.hub.ready = false ∧
      t.mem.bytes = [] ∧ sget 0 t.bist.statusDev (r.scope - 2) = bistStatus r x (bistExpected r.scope).1 (bistExpected r.scope).2 := by
  have run : exec (.maintBistEnd x rows) s = .next (maintEnded s r x rows).boot := by
    show execMaintBistEnd x rows s = _
    unfold execMaintBistEnd
    rw [on, if_neg Bool.false_ne_true, maint]
    rfl
  have status : sget 0 (maintEnded s r x rows).bist.statusDev (r.scope - 2) =
      bistStatus r x (bistExpected r.scope).1 (bistExpected r.scope).2 := sget_sset_same ..
  refine ⟨_, run, ?_⟩
  generalize maintEnded s r x rows = u at status
  obtain ⟨none_, kept⟩ := boot_bist u
  obtain ⟨-, -, -, -, -, ready, bytes, -⟩ := boot_atRest u
  exact ⟨none_, ready, bytes, kept ▸ status⟩

theorem selfTestsStartAndEnd : SelfTestsStartAndEnd := by
  intro s pr v p x rows outOfRange wide
  refine ⟨fun h => ⟨bistStart_range h, bistStart_range h, bistStart_range h, bistStart_range h, fun r run mine => bistStart_core h run mine,
    fun r run mine => bistStart_wide h (by decide) run mine, fun r run mine => bistStart_wide h (by decide) run mine,
    fun r run mine => bistStart_wide h (by decide) run mine⟩, fun dark => ⟨if_pos dark, if_pos dark⟩,
    fun r on found => coreBistEnd_done on found,
    fun r on maint => maintBistEnd_done on maint⟩

/-! ### HBM stacks (R473) -/

section Stacks
variable {s : State} {pr : Principal} {st : Fin 32} {rows : List Nat}

theorem hbmTest_starts (h : Open s 10 (prHost pr || prBmc pr || prCp pr) true) :
    let busy := (s.bist.hbmRunning.contains st.val || s.mem.slabs.any fun e => s.slabUses e.1 st.val && (e.2.life == .assigned || e.2.wipe)) = true
    (busy → exec (.hbmTest pr st 1) s = answers pr s rREFUSED) ∧
    (¬ busy → exec (.hbmTest pr st 1) s = answers pr { s with bist := { s.bist with
      hbmRunning := setIns s.bist.hbmRunning st, hbmStatus := sset 0 s.bist.hbmStatus st 1 } } rOK) ∧
    exec (.hbmTest pr st 0) s = answers pr s rOK := by
  intro busy
  refine ⟨fun h1 => answers_of_open h ?_, fun h1 => answers_of_open h ?_, answers_of_open h ?_⟩
  · exact (if_neg (by decide)).trans ((if_neg (by decide)).trans (if_pos (Bool.or_eq_true_iff.mp h1)))
  · exact (if_neg (by decide)).trans ((if_neg (by decide)).trans (if_neg (mt Bool.or_eq_true_iff.mpr h1)))
  · exact (if_neg (by decide)).trans (if_pos rfl)

/-- R473: the state in which the test of a stack has ended, its failing rows on the retire list. -/
def hbmEnded (s : State) (st : Nat) (rows : List Nat) : State :=
  let keep (pa : Nat) : Bool := !s.slabUses (pa / 2 ^ 25) st
  { s.addRetires rows with
    mem := { (s.addRetires rows).mem with
      bytes := s.mem.bytes.filter fun c => keep c.1
      poison := s.mem.poison.filter fun w => keep (w * 64)
      latent := s.mem.latent.filter fun h => keep (h.word * 64) }
    bist := { s.bist with
      hbmRunning := s.bist.hbmRunning.filter (fun k => k != st)
      hbmStatus := sset 0 s.bist.hbmStatus st (BitVec.ofNat 32
        (min 65535 ((rows.foldl setIns s.mem.retireList).length - s.mem.retireList.length) * 65536 + if rows.isEmpty then 2 else 3)) } }

theorem hbmTestEnd_runs (on : s.bist.hbmRunning.contains st.val = true) (up : s.damper.shutdown = false) :
    exec (.hbmTestEnd st rows) s = .next (hbmEnded s st rows) := by
  show execHbmTestEnd st rows s = _
  unfold execHbmTestEnd
  rw [on, up, if_neg (by decide), State.foldl_addRetire]
  rfl

/-- R473: the end of a stack's test. -/
theorem hbmEnded_fields : st.val ∉ (hbmEnded s st rows).bist.hbmRunning ∧
    (∀ a, s.slabUses (a / 2 ^ 25) st = true → sget 0 (hbmEnded s st rows).mem.bytes a = 0) ∧
    (∀ a, s.slabUses (a / 2 ^ 25) st = false → sget 0 (hbmEnded s st rows).mem.bytes a = sget 0 s.mem.bytes a) ∧
    (∀ h ∈ (hbmEnded s st rows).mem.latent, s.slabUses (h.word * 64 / 2 ^ 25) st = false) ∧
    (∀ r, r ∈ (hbmEnded s st rows).mem.retireList ↔ r ∈ s.mem.retireList ∨ r ∈ rows) ∧
    sget 0 (hbmEnded s st rows).bist.hbmStatus st = BitVec.ofNat 32
      (min 65535 ((hbmEnded s st rows).mem.retireList.length - s.mem.retireList.length) * 65536 + if rows = [] then 2 else 3) := by
  have byte (a : Nat) : sget 0 (hbmEnded s st rows).mem.bytes a = if (!s.slabUses (a / 2 ^ 25) st) then sget 0 s.mem.bytes a else 0 :=
    sget_filter (0 : Byte) s.mem.bytes (fun pa => !s.slabUses (pa / 2 ^ 25) st) a
  refine ⟨fun mem => ?_, fun a used => ?_, fun a other => ?_, fun h mem => ?_, fun r => mem_foldl_setIns.trans or_comm, ?_⟩
  · exact bne_iff_ne.mp (List.mem_filter.mp mem).2 rfl
  · rw [byte, used]
    rfl
  · rw [byte, other]
    rfl
  · exact Bool.not_eq_true' _ ▸ (List.mem_filter.mp mem).2
  · have none_ : (if rows.isEmpty then 2 else 3) = if rows = [] then 2 else 3 := by cases rows <;> rfl
    rw [← none_]
    exact sget_sset_same ..

end Stacks

theorem hbmTestsZeroTheirStack : HbmTestsZeroTheirStack := by
  intro s pr st rows
  refine ⟨hbmTest_starts, fun on up => ⟨_, hbmTestEnd_runs on up, hbmEnded_fields⟩, fun no => if_pos ?_⟩
  rcases no with off | dark
  · rw [off]
    rfl
  · rw [dark]
    exact Bool.or_true _

/-- Settles O52, by what a write of BIST_START is at each scope, and by the states in which a run and a stack's test end. -/
theorem testsRunAndEnd : Obligations.TestsRunAndEnd := ⟨selfTestsStartAndEnd, hbmTestsZeroTheirStack⟩

end Sys2Proof.Claims

end

section

/-! ## Boots and restarts (O49) -/

namespace Sys2Proof.Machine

/-! ### Failed stacks (R20, R200) -/

/-- R200: the ranges of a failed stack have no placement group. -/
theorem State.slabLife_failed {s : State} {k n : Nat} (failed : k ∈ s.mem.failed) (quad : slabQuad n = k / 8) (range : slabRange n = k % 8) :
    s.slabLife n = .retired := by
  have stack : 8 * slabQuad n + slabRange n = k := by omega
  have group : s.slabGroup n = none := by
    unfold State.slabGroup groupOf
    dsimp only
    rw [stack]
    exact if_pos (List.contains_iff_mem.mpr failed)
  unfold State.slabLife
  rw [group]
  rfl

/-- R215: the state with the retirement of slabs pending. -/
def State.pendRetire (s : State) (l : List (Fin 65536)) : State := l.foldl (fun s n => s.setSlab n.val { s.slab n.val with rp := true }) s

/-- R215: the retirement of every slab of the list is pending, and nothing but the slab table has changed. -/
theorem State.pendRetire_fields (l : List (Fin 65536)) (s : State) :
    (∀ n, (s.slab n).rp = true ∨ (∃ k ∈ l, k.val = n) → ((s.pendRetire l).slab n).rp = true) ∧ (s.pendRetire l).hub = s.hub ∧
    (s.pendRetire l).mem.failed = s.mem.failed := by
  induction l generalizing s with
  | nil => exact ⟨fun n h => h.resolve_right fun ⟨k, mem, _⟩ => List.not_mem_nil mem, rfl, rfl⟩
  | cons a r ih =>
    obtain ⟨rp, hub, failed⟩ := ih (s.setSlab a.val { s.slab a.val with rp := true })
    refine ⟨fun n h => rp n ?_, hub, failed⟩
    rw [State.slab_setSlab]
    split
    · exact .inl rfl
    · next other =>
      refine h.imp_right fun ⟨k, mem, same⟩ => ⟨k, (List.mem_cons.mp mem).resolve_left ?_, same⟩
      rintro rfl
      exact other same.symm

/-! ### What the control processor leaves behind (R370) -/

/-- A lost request touches its function's mailbox alone. -/
theorem State.loseWait_eq (s : State) (w : VWait) : s.loseWait w = { s with host := (s.loseWait w).host } := by
  unfold State.loseWait
  split
  · split <;> rfl
  · rfl

theorem State.foldl_loseWait_eq (l : List VWait) (s : State) : l.foldl State.loseWait s = { s with host := (l.foldl State.loseWait s).host } := by
  induction l generalizing s with
  | nil => rfl
  | cons w r ih =>
    rw [List.foldl_cons, ih, s.loseWait_eq w]

/-- The queues of the control processor, left, touch nothing but queues. -/
theorem State.leaveQueues_queueStep (s : State) : s.QueueStep s.leaveQueues :=
  ((State.setQueue_queueStep _ _ _).trans (State.setQueue_queueStep _ _ _)).trans (State.flushQueue_queueStep _ _)

/-- R370: the request channel is empty then. -/
theorem State.leaveQueues_pkts {s : State} (writing : (s.mqueue qidCpReq).writing = none) (waiting : (s.mqueue qidCpReq).waiting = [])
    (sound : (s.mqueue qidCpReq).mismatch = false) : (s.leaveQueues.mqueue qidCpReq).pkts = [] := by
  refine State.flushQueue_pkts ?_
  rw [State.mqueue_setQueue_same]
  exact ⟨writing, rfl, waiting, sound⟩

/-- What a restart begins with. -/
theorem State.left_fields (s : State) : (∀ w ∈ s.leaveQueues.losePassed.dict.waiting, w.passed = false) ∧
    s.leaveQueues.losePassed.cores = s.cores ∧ s.leaveQueues.losePassed.disp = s.disp ∧ s.leaveQueues.losePassed.mem = s.mem ∧
    s.leaveQueues.losePassed.fw = s.fw ∧ s.leaveQueues.losePassed.mq = s.leaveQueues.mq := by
  have step := s.leaveQueues_queueStep
  generalize s.leaveQueues = u at step
  have lost := u.foldl_loseWait_eq (u.dict.waiting.filter VWait.passed)
  unfold State.losePassed
  generalize (u.dict.waiting.filter VWait.passed).foldl State.loseWait u = t at lost
  rw [lost]
  refine ⟨fun w mem => ?_, step.cores, step.disp, step.mem, step.fw, rfl⟩
  exact Bool.not_eq_true' _ ▸ (List.mem_filter.mp mem).2

end Sys2Proof.Machine

namespace Sys2Proof.Claims

open Sys2Proof Sys2Proof.Machine

/-! ### The boot's rows (R464) -/

/-- R461: a slot in TRIAL opens its window as its image starts. -/
theorem startImage_trial {s : State} {b : Bool} (slot : s.fw.selected.slot = some b) (trial : s.fw.slot b = .trial) :
    s.startImage.fw.trialFrom = some s.now := by
  unfold State.startImage
  dsimp only
  rw [slot]
  exact if_pos (beq_iff_eq.mpr trial)

/-- R464, row 7: the state in which training has ended. -/
def trainedWith (s : State) (failed : List (Fin 32)) (rows : List Nat) : State := { s with
  hub := { s.hub with trained := true }
  mem := { s.mem with failed := (failed.map Fin.val).foldl setIns [], rowsRepaired := (s.mem.retireList.filter fun r => !rows.contains r).length } }

theorem bootGoesThroughItsRows : BootGoesThroughItsRows := by
  intro s failed rows slabs alive
  refine ⟨fun none_ => ⟨s.startImage, if_pos ⟨alive, none_ ▸ rfl⟩, rfl, rfl, rfl, fun b slot trial => startImage_trial slot trial⟩,
    fun up => if_neg ?_, fun raw on => ?_, fun trained started => ⟨_, if_pos ⟨alive, trained, started⟩, rfl, rfl⟩, fun early => if_neg ?_,
    fun late => if_pos ?_⟩
  · rintro ⟨-, none_⟩
    exact up (Option.isNone_iff_eq_none.mp none_)
  · have run : exec (.hbmTrainingEnd failed rows slabs) s = .next ((trainedWith s failed rows).pendRetire slabs) := by
      refine if_neg ?_
      rw [alive, raw, on]
      decide
    obtain ⟨rp, hub, kept⟩ := State.pendRetire_fields slabs (trainedWith s failed rows)
    have mem (k : Fin 32) : k.val ∈ ((trainedWith s failed rows).pendRetire slabs).mem.failed ↔ k ∈ failed := by
      rw [kept, show (trainedWith s failed rows).mem.failed = (failed.map Fin.val).foldl setIns [] from rfl, mem_foldl_setIns]
      simp [Fin.val_inj]
    exact ⟨_, run, by rw [hub]; rfl, mem, fun n inside => rp n.val (.inr ⟨n, inside, rfl⟩),
      fun k bad n quad range => State.slabLife_failed ((mem k).mpr bad) quad range⟩
  · rintro ⟨-, trained, started⟩
    rcases early with h | h
    · exact Bool.false_ne_true (h.symm.trans trained)
    · exact Bool.false_ne_true (h.symm.trans started)
  · exact late.elim (fun dark => .inr (.inr dark)) fun trained => .inr (.inl trained)

/-! ### Restarts (R370, R461, R465) -/

/-- R370: a restart with a cause, of a control processor whose image and boot record are `f`. -/
abbrev Restarted (s : State) (o : Out) (f : Fw) (k : BitVec 8) : Prop :=
  ∃ t, o = .next t ∧ t.fw.run = none ∧ t.fw.restarting = some k ∧
    t.fw.selected = { f with run := none, trialFrom := none, restarting := some k }.load.select.selected ∧
    (PortFree (s.mqueue qidCpReq) → (t.mqueue qidCpReq).pkts = []) ∧ (∀ w ∈ t.dict.waiting, w.passed = false) ∧
    (∀ c ∈ t.dict.chans, c.snapshot = none ∧ c.transfer = none) ∧ t.cores = s.cores ∧ t.disp = s.disp ∧ t.mem = s.mem

/-- R370: a state without snapshots and transfers, its control processor's own part replaced. -/
def restartWith (u : State) (f : Fw) : State :=
  { u with dict := { u.dict with chans := u.dict.chans.map fun c => { c with snapshot := none, transfer := none } }, fw := f }

theorem restartCp_eq (s : State) (cause : Nat) : s.restartCp cause = restartWith s.leaveQueues.losePassed
    { s.leaveQueues.losePassed.fw with run := none, trialFrom := none, restarting := some (BitVec.ofNat 8 cause) }.load.select := rfl

theorem restartWith_chans {u : State} {f : Fw} {c : Chan} (mem : c ∈ (restartWith u f).dict.chans) : c.snapshot = none ∧ c.transfer = none := by
  obtain ⟨d, -, rfl⟩ := List.mem_map.mp mem
  exact ⟨rfl, rfl⟩

theorem restartWith_fw (u : State) (f : Fw) : (restartWith u f).fw = f := rfl

/-- R370: the restart of a state. -/
theorem restartCp_restarted (s : State) (k : BitVec 8) : Restarted s (.next (s.restartCp k.toNat)) s.fw k := by
  obtain ⟨waiting, cores, disp, mem, fw, mq⟩ := s.left_fields
  have pkts (free : PortFree (s.mqueue qidCpReq)) : (s.leaveQueues.losePassed.mqueue qidCpReq).pkts = [] := by
    obtain ⟨writing, queued, -, sound⟩ := free
    unfold State.mqueue
    rw [mq]
    exact State.leaveQueues_pkts writing queued sound
  rw [restartCp_eq, fw, BitVec.ofNat_toNat, BitVec.setWidth_eq]
  unfold Restarted
  generalize s.leaveQueues.losePassed = u at waiting cores disp mem pkts ⊢
  have store := (load_store { s.fw with run := none, trialFrom := none, restarting := some k }).trans (select_store _)
  generalize ({ s.fw with run := none, trialFrom := none, restarting := some k } : Fw).load.select = g at store ⊢
  exact ⟨restartWith u g, rfl, store.run, store.restarting, rfl, pkts, waiting, fun c mem => restartWith_chans mem, cores, disp, mem⟩

theorem trialOver_iff {s : State} {t0 : Nat} (start : s.fw.trialFrom = some t0) : s.trialOver = decide (t0 + 600000000000 ≤ s.now) := by
  unfold State.trialOver
  rw [start]
  rfl

/-- R465: the image that a restart has selected, with the restart counted and its cause named. -/
def restartEnded (s : State) (k : BitVec 8) : State :=
  { s.startImage with fw := { s.startImage.fw with restarts := satAdd 32 s.startImage.fw.restarts 1, lastCause := k, restarting := none } }

theorem controlProcessorRestarts : ControlProcessorRestarts := by
  intro s cause alive m restarted
  have up (h : s.fw.run ≠ none) : s.fw.run.isSome = true := Option.isSome_iff_ne_none.mpr h
  have down (h : s.fw.run = none) : ¬ s.fw.run.isSome = true := by rw [h]; exact Bool.false_ne_true
  refine ⟨fun h low high => ?_, fun h late => ?_, fun early => if_neg fun h => Nat.not_le.mpr early h.2.2,
    fun h => ⟨if_neg fun on => down h on.2.1, if_neg fun on => down h on.2.1⟩, fun b t0 trial late => ?_, fun b t0 trial early => ?_,
    fun k restarting none_ => ?_⟩
  · rw [show exec (.cpRestart cause) s = .next (s.restartCp cause.toNat) from if_pos ⟨alive, up h, low, high⟩]
    exact restartCp_restarted s cause
  · rw [show exec .cpWatchdog s = .next (s.restartCp 1) from if_pos ⟨alive, up h, late⟩]
    exact restartCp_restarted s 1
  · obtain ⟨slot, -, start⟩ := trial
    have run : exec .trialWindowClose s = .next ({ s with fw := (s.fw.setSlot b .bad).record }.restartCp 1) := by
      show execTrialWindowClose s = _
      unfold execTrialWindowClose
      rw [trialOver_iff start, decide_eq_true late, slot]
      rfl
    rw [run]
    exact restartCp_restarted { s with fw := (s.fw.setSlot b .bad).record } 1
  · obtain ⟨slot, -, start⟩ := trial
    show execTrialWindowClose s = _
    unfold execTrialWindowClose
    rw [trialOver_iff start, decide_eq_false (Nat.not_le.mpr early)]
    rfl
  · have run : exec .cpRestartEnd s = .next ((restartEnded s k).postCause qidFault k.toNat) := by
      show execCpRestartEnd s = _
      unfold execCpRestartEnd
      rw [restarting, none_]
      rfl
    have step := (restartEnded s k).postCause_queueStep qidFault k.toNat
    refine ⟨_, run, by rw [step.fw]; rfl, by rw [step.fw]; rfl, by rw [step.fw]; rfl, by rw [step.fw]; rfl, fun free => ?_⟩
    obtain ⟨writing, waiting, flush, sound⟩ := free
    exact State.post_seq (restartEnded s k).draw.2 qidFault _ _ writing waiting flush sound

/-- Settles O49, by the rows of the boot, and by what the control processor leaves behind before ROM selects the image of a restart. -/
theorem bootsAndRestartsRunTheirImage : Obligations.BootsAndRestartsRunTheirImage := ⟨bootGoesThroughItsRows, controlProcessorRestarts⟩

end Sys2Proof.Claims

end

section

/-! ## Images and the boot record (O50) -/

namespace Sys2Proof.Machine

/-! ### Slots and the record (R455, R456) -/

section Slots
variable (f : Fw) (b : Bool) (v : SlotState)

theorem Fw.slot_setSlot_same : (f.setSlot b v).slot b = v := by cases b <;> rfl

theorem Fw.slot_setSlot_ne {c : Bool} (other : c ≠ b) : (f.setSlot b v).slot c = f.slot c := by
  obtain rfl : c = !b := Bool.eq_not.mpr other
  cases b <;> rfl

theorem Fw.image_setSlot (c : Bool) : (f.setSlot b v).image c = f.image c := by cases b <;> rfl

theorem Fw.setSlot_rest : (f.setSlot b v).fusedNow = f.fusedNow ∧ (f.setSlot b v).active = f.active ∧ (f.setSlot b v).fused = f.fused ∧
    (f.setSlot b v).run = f.run ∧ (f.setSlot b v).bootSeq = f.bootSeq ∧ (f.setSlot b v).trialBoots = f.trialBoots := by
  cases b <;> exact ⟨rfl, rfl, rfl, rfl, rfl, rfl⟩

/-- R455: a record's write touches its copies and its SEQ alone. -/
theorem Fw.record_eq : f.record =
    { f with bootSeq := f.bootSeq + 1, copy0 := f.record.copy0, copy1 := f.record.copy1, recordAt := f.record.recordAt } := by
  unfold Fw.record
  dsimp only
  split <;> rfl

theorem Fw.record_slot : f.record.slot b = f.slot b := by rw [f.record_eq]; rfl
theorem Fw.record_image : f.record.image b = f.image b := by rw [f.record_eq]; rfl

theorem Fw.record_rest : f.record.active = f.active ∧ f.record.fused = f.fused ∧ f.record.run = f.run ∧ f.record.trialFrom = f.trialFrom ∧
    f.record.selected = f.selected ∧ f.record.trialBoots = f.trialBoots ∧ f.record.bootSeq = f.bootSeq + 1 := by
  rw [f.record_eq]
  exact ⟨rfl, rfl, rfl, rfl, rfl, rfl, rfl⟩

theorem Fw.setImage_same (l : List Byte) : (f.setImage b l).image b = l := by cases b <;> rfl

theorem Fw.setImage_rest (l : List Byte) : (f.setImage b l).image (!b) = f.image (!b) ∧ (∀ c, (f.setImage b l).slot c = f.slot c) ∧
    (f.setImage b l).active = f.active ∧ (f.setImage b l).fused = f.fused ∧ (f.setImage b l).run = f.run := by
  cases b <;> exact ⟨rfl, fun _ => rfl, rfl, rfl, rfl⟩

end Slots

/-! ### A try of a slot (R456, R458) -/

/-- R456, R458: the slot's image may run. -/
abbrev Fw.Good (f : Fw) (b : Bool) : Prop := imageOk 1 f.fusedNow (f.image b) = true ∧ (f.slot b = .trial → f.trialBoots < 3)

/-- R459: the slot is in the state that a row of the selection names. -/
abbrev Fw.InCase (f : Fw) (b fresh : Bool) : Prop := if fresh then f.slot b = .pending ∨ f.slot b = .trial else f.slot b = .confirmed

variable {f : Fw} {b : Bool}

theorem Fw.InCase.slot {fresh : Bool} (h : f.InCase b fresh) : f.slot b = .pending ∨ f.slot b = .trial ∨ f.slot b = .confirmed := by
  cases fresh with
  | true => exact h.imp_right .inl
  | false => exact .inr (.inr h)

/-- R456: a slot whose image may run is, once selected, as its state's row says. -/
theorem Fw.trySlot_good (here : f.slot b = .pending ∨ f.slot b = .trial ∨ f.slot b = .confirmed) (good : f.Good b) :
    ∃ g, f.trySlot b = (g, true) ∧ (f.slot b = .pending → g.slot b = .trial ∧ g.trialBoots = 1) ∧
    (f.slot b = .trial → g.slot b = .trial ∧ g.trialBoots = f.trialBoots + 1) ∧ (f.slot b = .confirmed → g.slot b = .confirmed) := by
  obtain ⟨ok, few⟩ := good
  unfold Fw.trySlot
  rcases here with state | state | state
  · simp only [state, ok, if_true]
    exact ⟨_, rfl, fun _ => ⟨f.slot_setSlot_same b .trial, rfl⟩, nofun, nofun⟩
  · simp only [state, ok, few state, and_self, if_true]
    exact ⟨_, rfl, nofun, fun _ => ⟨state, rfl⟩, nofun⟩
  · simp only [state, ok, if_true]
    exact ⟨_, rfl, nofun, nofun, fun _ => state⟩

/-- R456: any other becomes BAD. -/
theorem Fw.trySlot_bad (here : f.slot b = .pending ∨ f.slot b = .trial ∨ f.slot b = .confirmed) (bad : ¬ f.Good b) :
    f.trySlot b = (f.setSlot b .bad, false) := by
  unfold Fw.trySlot
  rcases here with state | state | state
  · simp only [state]
    refine if_neg fun ok => bad ⟨ok, fun trial => ?_⟩
    rw [state] at trial
    cases trial
  · simp only [state]
    exact if_neg fun ok => bad ⟨ok.1, fun _ => ok.2⟩
  · simp only [state]
    refine if_neg fun ok => bad ⟨ok, fun trial => ?_⟩
    rw [state] at trial
    cases trial

/-- A slot that is EMPTY or BAD does not run, and no other slot's try touches it. -/
theorem Fw.trySlot_keepsBad (h : f.slot b = .bad) (c : Bool) : (f.trySlot c).1.slot b = .bad := by
  by_cases same : b = c
  · subst same
    unfold Fw.trySlot
    rw [h]
    exact h
  · have keep (v : SlotState) : (f.setSlot c v).slot b = .bad := (f.slot_setSlot_ne c v same).trans h
    unfold Fw.trySlot
    dsimp only
    split
    · split
      · exact keep .trial
      · exact keep .bad
    · split
      · exact h
      · exact keep .bad
    · split
      · exact h
      · exact keep .bad
    · exact h

theorem Fw.trySlot_bootSeq (f : Fw) (c : Bool) : (f.trySlot c).1.bootSeq = f.bootSeq := by
  unfold Fw.trySlot
  dsimp only
  split
  · split
    · exact (f.setSlot_rest c .trial).2.2.2.2.1
    · exact (f.setSlot_rest c .bad).2.2.2.2.1
  · split
    · rfl
    · exact (f.setSlot_rest c .bad).2.2.2.2.1
  · split
    · rfl
    · exact (f.setSlot_rest c .bad).2.2.2.2.1
  · rfl

/-! ### The cases of a selection (R459) -/

variable {fresh : Bool} {r : List (Bool × Bool)}

theorem Fw.tryCases_cons (f : Fw) (b fresh : Bool) (r : List (Bool × Bool)) [Decidable (f.InCase b fresh)] : f.tryCases ((b, fresh) :: r) =
    if f.InCase b fresh then (if (f.trySlot b).2 then { (f.trySlot b).1 with selected := slotRun b } else (f.trySlot b).1.tryCases r)
    else f.tryCases r := by
  have here : (if fresh = true then f.slot b == .pending || f.slot b == .trial else f.slot b == .confirmed) = decide (f.InCase b fresh) := by
    cases fresh <;> simp [Fw.InCase, Bool.decide_or, beq_eq_decide]
  rw [Fw.tryCases]
  simp only [here, Bool.not_eq_true', decide_eq_false_iff_not, ite_not]
  generalize f.trySlot b = out
  obtain ⟨g, runs⟩ := out
  cases runs <;> rfl

theorem Fw.tryCases_skip (no : ¬ f.InCase b fresh) : f.tryCases ((b, fresh) :: r) = f.tryCases r := by
  classical
  rw [f.tryCases_cons, if_neg no]

theorem Fw.tryCases_runs (here : f.InCase b fresh) {g : Fw} (run : f.trySlot b = (g, true)) :
    f.tryCases ((b, fresh) :: r) = { g with selected := slotRun b } := by
  classical
  rw [f.tryCases_cons, if_pos here, run]
  rfl

theorem Fw.tryCases_fails (here : f.InCase b fresh) (bad : ¬ f.Good b) : f.tryCases ((b, fresh) :: r) = (f.setSlot b .bad).tryCases r := by
  classical
  rw [f.tryCases_cons, if_pos here, Fw.trySlot_bad here.slot bad]
  rfl

/-- A BAD slot stays BAD to the end of the selection. -/
theorem Fw.tryCases_keepsBad (h : f.slot b = .bad) (l : List (Bool × Bool)) : (f.tryCases l).slot b = .bad :=
  Claims.tryCases_keeps (P := fun g => g.slot b = .bad) (fun _ c h => Fw.trySlot_keepsBad h c) (fun _ _ h => h) l f h

theorem Fw.tryCases_bootSeq (f : Fw) (l : List (Bool × Bool)) : (f.tryCases l).bootSeq = f.bootSeq :=
  Claims.tryCases_keeps (P := fun g => g.bootSeq = f.bootSeq) (fun g c h => (g.trySlot_bootSeq c).trans h) (fun _ _ h => h) l f rfl

end Sys2Proof.Machine

namespace Sys2Proof.Claims

open Sys2Proof Sys2Proof.Machine

/-! ### The boot record (R455) -/

theorem bytesAt_append_left {l r : List Byte} {o n : Nat} (inside : o + n ≤ l.length) : bytesAt (l ++ r) o n = bytesAt l o n := by
  unfold bytesAt
  refine List.map_congr_left fun i mem => ?_
  have less := List.mem_range.mp mem
  rw [List.getD_append _ _ _ _ (by omega)]

theorem bytesAt_append_right (l r : List Byte) : bytesAt (l ++ r) l.length r.length = r := by
  unfold bytesAt
  refine List.ext_getElem (by simp) fun i h _ => ?_
  have less : i < r.length := by simpa using h
  simp [List.getD_append_right, less]

theorem bytesAt_whole (l : List Byte) : bytesAt l 0 l.length = l := bytesAt_append_right [] l

theorem length_shake256 (l : List Byte) : (shake256 l).length = 64 := by
  unfold shake256
  exact length_leBytes _ _

section Record
variable (seq : Nat) (active : Bool) (a b trials : Nat)

theorem length_bootFields : (bootFields seq active a b trials).length = 64 := rfl

theorem natAt_bootBytes {o n : Nat} (inside : o + n ≤ 64) :
    natAt (bootBytes seq active a b trials) o n = natAt (bootFields seq active a b trials) o n :=
  congrArg leNat (bytesAt_append_left (length_bootFields seq active a b trials ▸ inside))

theorem natAt_bootBytes_magic : natAt (bootBytes seq active a b trials) 0 4 = 0x7A704252 :=
  (natAt_bootBytes _ _ _ _ _ (by decide)).trans (leNat_leBytes_of_lt (n := 4) (v := 0x7A704252) (by norm_num))

/-- R455: the fields of a record at their bytes. -/
theorem bootBytes_fields (few : seq < 2 ^ 32) (ha : a < 256) (hb : b < 256) (ht : trials < 256) :
    natAt (bootBytes seq active a b trials) 4 4 = seq ∧
    natAt (bootBytes seq active a b trials) 8 1 = (if active then 1 else 0) ∧ natAt (bootBytes seq active a b trials) 9 1 = a ∧
    natAt (bootBytes seq active a b trials) 10 1 = b ∧ natAt (bootBytes seq active a b trials) 11 1 = trials := by
  refine ⟨(natAt_bootBytes _ _ _ _ _ (by decide)).trans ?_,
    (natAt_bootBytes _ _ _ _ _ (by decide)).trans ?_, (natAt_bootBytes _ _ _ _ _ (by decide)).trans ?_,
    (natAt_bootBytes _ _ _ _ _ (by decide)).trans ?_, (natAt_bootBytes _ _ _ _ _ (by decide)).trans ?_⟩
  · exact leNat_leBytes_of_lt (n := 4) few
  · cases active <;> rfl
  · exact leNat_leBytes_of_lt (n := 1) ha
  · exact leNat_leBytes_of_lt (n := 1) hb
  · exact leNat_leBytes_of_lt (n := 1) ht

/-- R455: what is written is a valid record. -/
theorem bootValid_bootBytes : bootValid (bootBytes seq active a b trials) = true := by
  have body : bytesAt (bootBytes seq active a b trials) 0 64 = bootFields seq active a b trials :=
    (bytesAt_append_left (Nat.le_refl 64)).trans (bytesAt_whole (bootFields seq active a b trials))
  have digest : bytesAt (bootBytes seq active a b trials) 0x40 64 = shake256 (bootFields seq active a b trials) := by
    have tail := bytesAt_append_right (bootFields seq active a b trials) (shake256 (bootFields seq active a b trials))
    rwa [length_bootFields, length_shake256] at tail
  unfold bootValid
  rw [natAt_bootBytes_magic, body, digest]
  simp

end Record

theorem slotOf_slotCode (v : SlotState) : slotOf (slotCode v) = v ∧ slotCode v < 256 := by cases v <;> exact ⟨rfl, by decide⟩

/-- R455: a state whose current copy spells its fields is what ROM reads. -/
theorem load_of_record {g : Fw} {c : Bool} (cur : g.current = some c) (few : g.trialBoots < 256)
    (spells : (if c then g.copy1 else g.copy0) = bootBytes g.bootSeq.toNat g.active (slotCode g.slotA) (slotCode g.slotB) g.trialBoots) :
    g.load = g := by
  obtain ⟨seq, active, slotA, slotB, trials⟩ := bootBytes_fields g.bootSeq.toNat g.active (slotCode g.slotA) (slotCode g.slotB) g.trialBoots
    g.bootSeq.isLt (slotOf_slotCode g.slotA).2 (slotOf_slotCode g.slotB).2 few
  have bit : ((if g.active then 1 else 0) == 1) = g.active := by cases g.active <;> rfl
  unfold Fw.load
  rw [cur]
  simp only [spells, seq, active, slotA, slotB, trials, (slotOf_slotCode _).1, bit, BitVec.ofNat_toNat, BitVec.setWidth_eq]

/-- R455: of two valid copies the newer one, of one that is its follower, is the current one. -/
theorem serialAbove_next (x : BitVec 32) : serialAbove (x + 1).toNat x.toNat = true ∧ serialAbove x.toNat (x + 1).toNat = false := by
  have next : (x + 1).toNat = (x.toNat + 1) % 2 ^ 32 := by simp [BitVec.toNat_add]
  have lt := x.isLt
  unfold serialAbove
  rw [next]
  constructor
  · simp only [decide_eq_true_eq]
    omega
  · simp only [decide_eq_false_iff_not]
    omega

theorem current_eq (f : Fw) : f.current = if bootValid f.copy0 then
    (if bootValid f.copy1 then some (serialAbove (natAt f.copy1 4 4) (natAt f.copy0 4 4)) else some false)
    else if bootValid f.copy1 then some true else none := by
  unfold Fw.current
  cases bootValid f.copy0 <;> cases bootValid f.copy1 <;> rfl

/-- R455: what a write of the record leaves is what ROM reads next. -/
theorem load_record {f : Fw} (few : f.trialBoots < 256)
    (known : ∀ c, f.current = some c → natAt (if c then f.copy1 else f.copy0) 4 4 = f.bootSeq.toNat) : f.record.load = f.record := by
  let b := bootBytes (f.bootSeq + 1).toNat f.active (slotCode f.slotA) (slotCode f.slotB) f.trialBoots
  have valid : bootValid b = true := bootValid_bootBytes ..
  have seq : natAt b 4 4 = (f.bootSeq + 1).toNat :=
    (bootBytes_fields (f.bootSeq + 1).toNat f.active (slotCode f.slotA) (slotCode f.slotB) f.trialBoots
      (f.bootSeq + 1).isLt (slotOf_slotCode f.slotA).2 (slotOf_slotCode f.slotB).2 few).1
  by_cases old : f.current = some false
  · have old0 : bootValid f.copy0 = true := by
      rw [current_eq] at old
      split at old
      · assumption
      · split at old <;> cases old
    have written : f.record = { f with bootSeq := f.bootSeq + 1, copy1 := b, recordAt := some true } := if_pos old
    rw [written]
    refine load_of_record (c := true) ?_ few rfl
    rw [current_eq]
    show (if bootValid f.copy0 then (if bootValid b then some (serialAbove (natAt b 4 4) (natAt f.copy0 4 4)) else _) else _) = _
    have before : natAt f.copy0 4 4 = f.bootSeq.toNat := known false old
    rw [old0, valid, if_pos rfl, if_pos rfl, seq, before, (serialAbove_next _).1]
  · have written : f.record = { f with bootSeq := f.bootSeq + 1, copy0 := b, recordAt := some false } := if_neg old
    rw [written]
    refine load_of_record (c := false) ?_ few rfl
    rw [current_eq]
    show (if bootValid b then (if bootValid f.copy1 then some (serialAbove (natAt f.copy1 4 4) (natAt b 4 4)) else _) else _) = _
    rw [valid, if_pos rfl, seq]
    split
    · next new =>
      have cur : f.current = some true := by
        rw [current_eq, new] at old ⊢
        cases h : serialAbove (natAt f.copy1 4 4) (natAt f.copy0 4 4) with
        | true => split <;> rfl
        | false =>
          rw [h] at old
          split
          · next both => exact absurd (if_pos both) old
          · rfl
      have before : natAt f.copy1 4 4 = f.bootSeq.toNat := known true cur
      rw [before, (serialAbove_next _).2]
    · rfl

/-! ### What a start selects (R456, R459) -/

section Selection
variable {f g : Fw} {b fresh : Bool} {r : List (Bool × Bool)}

theorem slotRuns_record (h : SlotRuns f g b) : SlotRuns f g.record b := by
  obtain ⟨-, -, -, -, selected, trials, -⟩ := g.record_rest
  unfold SlotRuns at h ⊢
  rwa [selected, trials, g.record_slot]

/-- R459: the first row whose slot's image may run is the one that runs. -/
theorem tryCases_slotRuns (here : f.InCase b fresh) (good : f.Good b) : SlotRuns f (f.tryCases ((b, fresh) :: r)) b := by
  obtain ⟨g, run, pending, trial, confirmed⟩ := Fw.trySlot_good here.slot good
  rw [Fw.tryCases_runs here run]
  exact ⟨rfl, pending, trial, confirmed⟩

theorem tryCases_slotBad (here : f.InCase b fresh) (bad : ¬ f.Good b) : (f.tryCases ((b, fresh) :: r)).slot b = .bad := by
  rw [Fw.tryCases_fails here bad]
  exact Fw.tryCases_keepsBad (f.slot_setSlot_same b .bad) r

/-- What the failure of one slot leaves of the other. -/
theorem good_setSlot {c : Bool} (other : b ≠ c) (v : SlotState) : (f.setSlot c v).Good b ↔ f.Good b := by
  obtain ⟨fused, -, -, -, -, trials⟩ := f.setSlot_rest c v
  unfold Fw.Good
  rw [fused, trials, f.image_setSlot, f.slot_setSlot_ne c v other]

theorem inCase_setSlot {c : Bool} (other : b ≠ c) (v : SlotState) : (f.setSlot c v).InCase b fresh ↔ f.InCase b fresh := by
  unfold Fw.InCase
  rw [f.slot_setSlot_ne c v other]

theorem slotRuns_setSlot {c : Bool} (other : b ≠ c) {v : SlotState} (h : SlotRuns (f.setSlot c v) g b) : SlotRuns f g b := by
  unfold SlotRuns at h ⊢
  rwa [f.slot_setSlot_ne c v other, (f.setSlot_rest c v).2.2.2.2.2] at h

/-- R459: the second row of the fresh slots, once the first has failed or does not apply. -/
theorem second_slotBad {c : Bool} (other : b ≠ c) (first : f.InCase c true → ¬ f.Good c) (here : f.InCase b true) (bad : ¬ f.Good b) :
    (f.tryCases ((c, true) :: (b, true) :: r)).slot b = .bad := by
  by_cases begins : f.InCase c true
  · rw [Fw.tryCases_fails begins (first begins)]
    exact tryCases_slotBad ((inCase_setSlot other .bad).mpr here) (mt (good_setSlot other .bad).mp bad)
  · rw [Fw.tryCases_skip begins]
    exact tryCases_slotBad here bad

/-- R459: the other slot runs where the active one does not. -/
theorem other_slotRuns {c : Bool} (other : b ≠ c) (first : f.slot c ≠ .confirmed ∨ ¬ f.Good c) (here : f.slot b = .confirmed)
    (good : f.Good b) : SlotRuns f (f.tryCases ((c, false) :: (b, false) :: r)) b := by
  by_cases begins : f.InCase c false
  · rw [Fw.tryCases_fails begins (first.resolve_left (not_not.mpr begins))]
    exact slotRuns_setSlot other (tryCases_slotRuns ((inCase_setSlot other .bad).mpr here) ((good_setSlot other .bad).mpr good))
  · rw [Fw.tryCases_skip begins]
    exact tryCases_slotRuns (fresh := false) here good

/-- R459: where no slot is in any row's state, the recovery image runs, and last the ROM loader. -/
theorem tryCases_none (idle : ∀ b, f.slot b = .empty ∨ f.slot b = .bad) (l : List (Bool × Bool)) :
    (f.tryCases l).selected = if imageOk 2 0 f.recovery = true then .recovery else .loader := by
  induction l with
  | nil => rfl
  | cons e r ih =>
    obtain ⟨b, fresh⟩ := e
    have no : ¬ f.InCase b fresh := by
      intro here
      rcases here.slot with h | h | h <;> rcases idle b with k | k <;> rw [h] at k <;> cases k
    rw [Fw.tryCases_skip no, ih]

end Selection

theorem aStartSelectsItsImage : AStartSelectsItsImage := by
  intro f
  have skip (old : ¬ f.InCase false true) (old' : ¬ f.InCase true true) :
      f.tryCases [(false, true), (true, true), (f.active, false), (!f.active, false)] = f.tryCases [(f.active, false), (!f.active, false)] := by
    rw [Fw.tryCases_skip old, Fw.tryCases_skip old']
  have other : (!f.active) ≠ f.active := Bool.not_ne_self f.active
  refine ⟨fun h0 h1 => ?_, ?_, fun one => ?_, fun zero => ?_, fun few known => load_record few known,
    fun here good => slotRuns_record (tryCases_slotRuns (fresh := true) here good), fun old here good => ?_, fun here bad => ?_,
    fun first here bad => ?_, fun old old' => ⟨fun here good => ?_, fun first here good => ?_⟩, fun idle => ?_, ?_⟩
  · have none_ : f.current = none := by rw [current_eq, h0, h1]; rfl
    unfold Fw.load
    rw [none_]
    exact ⟨rfl, rfl⟩
  · unfold Fw.record
    dsimp only
    split
    · next h => rw [h]; rfl
    · next h =>
      show some false = some (f.current == some false)
      rw [beq_eq_false_iff_ne.mpr h]
  · unfold Fw.record
    dsimp only
    rw [if_neg (by rw [one]; decide)]
  · unfold Fw.record
    dsimp only
    rw [if_pos zero]
  · refine slotRuns_record ?_
    rw [Fw.tryCases_skip (fresh := true) old]
    exact tryCases_slotRuns (fresh := true) here good
  · rw [Fw.select, Fw.record_slot]
    exact tryCases_slotBad (fresh := true) here bad
  · rw [Fw.select, Fw.record_slot]
    exact second_slotBad (by decide) first here bad
  · refine slotRuns_record ?_
    rw [skip old old']
    exact tryCases_slotRuns (fresh := false) here good
  · refine slotRuns_record ?_
    rw [skip old old']
    exact other_slotRuns other first here good
  · exact (Fw.record_rest _).2.2.2.2.1.trans (tryCases_none idle _)
  · exact (Fw.record_rest _).2.2.2.2.2.2.trans (congrArg (· + 1) (f.tryCases_bootSeq _))

end Sys2Proof.Claims

end

section

/-! ## Segments, snapshots and confirmations (O50) -/

namespace Sys2Proof.Claims

open Sys2Proof Sys2Proof.Machine

/-! ### A segment of an image (R460) -/

/-- What is written of one slot leaves the active one, the fuses and the run as they were. -/
structure ActiveKept (f g : Fw) : Prop where
  image  : g.image f.active = f.image f.active
  slot   : g.slot f.active = f.slot f.active
  active : g.active = f.active
  fused  : g.fused = f.fused
  run    : g.run = f.run

section Steps
variable {f g h : Fw} (v : SlotState) (l : List Byte)

theorem ActiveKept.refl (f : Fw) : ActiveKept f f := ⟨rfl, rfl, rfl, rfl, rfl⟩

theorem ActiveKept.setSlot (k : ActiveKept f g) : ActiveKept f (g.setSlot (!f.active) v) := by
  obtain ⟨-, active, fused, run, -⟩ := g.setSlot_rest (!f.active) v
  exact ⟨(g.image_setSlot _ _ _).trans k.image, (g.slot_setSlot_ne _ _ (Bool.not_ne_self f.active).symm).trans k.slot, active.trans k.active,
    fused.trans k.fused, run.trans k.run⟩

theorem ActiveKept.record (k : ActiveKept f g) : ActiveKept f g.record := by
  obtain ⟨active, fused, run, -⟩ := g.record_rest
  exact ⟨(g.record_image _).trans k.image, (g.record_slot _).trans k.slot, active.trans k.active, fused.trans k.fused, run.trans k.run⟩

theorem ActiveKept.setImage (k : ActiveKept f g) : ActiveKept f (g.setImage (!f.active) l) := by
  obtain ⟨image, slots, active, fused, run⟩ := g.setImage_rest (!f.active) l
  rw [Bool.not_not] at image
  exact ⟨image.trans k.image, (slots _).trans k.slot, active.trans k.active, fused.trans k.fused, run.trans k.run⟩

end Steps

/-- R460: FIRST erases the slot. -/
def erasedFirst (f : Fw) (first : Bool) : Fw := if first then (f.setSlot (!f.active) .empty).record else f

theorem erasedFirst_kept (f : Fw) (first : Bool) : ActiveKept f (erasedFirst f first) := by
  unfold erasedFirst
  split
  · exact ((ActiveKept.refl f).setSlot .empty).record
  · exact .refl f

theorem erasedFirst_slot (f : Fw) (first : Bool) :
    (first = true → (erasedFirst f first).slot (!f.active) = .empty) ∧
    (first = false → (erasedFirst f first).slot (!f.active) = f.slot (!f.active)) := by
  refine ⟨?_, ?_⟩
  · rintro rfl
    exact (Fw.record_slot _ _).trans (f.slot_setSlot_same _ _)
  · rintro rfl
    rfl

theorem imageSegment_eq (f : Fw) (value : List Byte) (first last : Bool) : f.imageSegment value first last =
    if last then ((((erasedFirst f first).setImage (!f.active) value).setSlot (!f.active) .pending).record)
    else (erasedFirst f first).setImage (!f.active) value := rfl

theorem imageSegment_kept (f : Fw) (value : List Byte) (first last : Bool) : ActiveKept f (f.imageSegment value first last) := by
  have stored := (erasedFirst_kept f first).setImage value
  rw [imageSegment_eq]
  split
  · exact (stored.setSlot .pending).record
  · exact stored

/-- R460: what a segment makes of its slot. -/
theorem imageSegment_slot (f : Fw) (value : List Byte) (first last : Bool) :
    (f.imageSegment value first last).image (!f.active) = value ∧
    (last = true → (f.imageSegment value first last).slot (!f.active) = .pending) ∧
    (last = false → first = true → (f.imageSegment value first last).slot (!f.active) = .empty) ∧
    (last = false → first = false → (f.imageSegment value first last).slot (!f.active) = f.slot (!f.active)) := by
  obtain ⟨empty, same⟩ := erasedFirst_slot f first
  rw [imageSegment_eq]
  generalize erasedFirst f first = e at empty same
  have image := e.setImage_same (!f.active) value
  have slot := (e.setImage_rest (!f.active) value).2.1 (!f.active)
  generalize e.setImage (!f.active) value = stored at image slot
  cases last with
  | true => exact ⟨(Fw.record_image _ _).trans ((stored.image_setSlot _ _ _).trans image),
      fun _ => (Fw.record_slot _ _).trans (stored.slot_setSlot_same _ _), nofun, nofun⟩
  | false => exact ⟨image, nofun, fun _ h => slot.trans (empty h), fun _ h => slot.trans (same h)⟩

/-! ### Writes by segments (R441) -/

section Segments
variable {s : State} {ch : Channel} {pr : Principal} {m : VMsg} {index sub : Nat} {v : List Byte}

/-- R441: the bytes behind which a segment is stored. -/
def segmentOld (s : State) (ch : Channel) (m : VMsg) : Option (List Byte) :=
  if m.flags.getLsbD 0 then (if m.offset = 0 then some [] else none)
  else match (s.chan ch).transfer with
    | some t =>
      if t.index = m.index ∧ t.sub = m.sub ∧ t.value.length = m.offset.toNat ∧ s.now ≤ t.last + tenSeconds then some t.value else none
    | none => none

theorem segmentOld_eq : segmentOld s ch m = some v ↔ SegmentBehind s ch m v := by
  unfold segmentOld
  cases begins : m.flags.getLsbD 0 with
  | true =>
    simp only [if_true, SegmentBehind, begins, true_and, Bool.true_eq_false, false_and, or_false]
    split
    · next start => simp [start, eq_comm]
    · next later => exact ⟨nofun, fun h => absurd h.1 later⟩
  | false =>
    simp only [Bool.false_eq_true, if_false, SegmentBehind, begins, false_and, false_or, true_and]
    cases (s.chan ch).transfer with
    | none => simp
    | some t =>
      dsimp only
      split
      · next fits => exact ⟨fun h => ⟨t, rfl, fits.1, fits.2.1, fits.2.2.1, fits.2.2.2, (Option.some.inj h).symm⟩,
          fun ⟨u, same, _, _, _, _, value⟩ => by rw [Option.some.inj same, value]⟩
      · next no => exact ⟨nofun, fun ⟨u, same, i, j, k, n, _⟩ => absurd (Option.some.inj same ▸ ⟨i, j, k, n⟩) no⟩

/-- R441, R460: what becomes of a segment behind the bytes v. -/
def segmentStored (s : State) (ch : Channel) (pr : Principal) (m : VMsg) (index sub : Nat) (v : List Byte) : Reply × State :=
  match s.imageBad ch index (m.flags.getLsbD 0) (v ++ m.data).length with
  | some r => (.code r, if r = rBUSY then s else noTransfer s ch)
  | none =>
    let u := if index = 0x9001 then { s with fw := s.fw.imageSegment (v ++ m.data) (m.flags.getLsbD 0) (m.flags.getLsbD 1) } else s
    if !m.flags.getLsbD 1 then
      (.code rOK, u.setChan { s.chan ch with transfer := some { index := m.index, sub := m.sub, value := v ++ m.data, last := u.now } })
    else
      let t := u.setChan { s.chan ch with transfer := none }
      if index = 0x9001 then (.code rOK, t)
      else if index = 0x9011 then (.code rOK, { t with fw := { t.fw with recovery := v ++ m.data } })
      else (.code (t.applyWrite pr index sub (v ++ m.data)).1, (t.applyWrite pr index sub (v ++ m.data)).2)

theorem writeSegment_eq : s.writeSegment ch pr m index sub = match segmentOld s ch m with
    | none => (.code rSEGMENT, noTransfer s ch)
    | some v => segmentStored s ch pr m index sub v := rfl

theorem lastSegment (done : m.flags.getLsbD 1 = true) : ¬ (!m.flags.getLsbD 1) = true := by rw [done]; exact Bool.false_ne_true

/-- R441: a segment out of order ends the transfer. -/
theorem writeSegment_astray (no : ∀ b, ¬ SegmentBehind s ch m b) : s.writeSegment ch pr m index sub = (.code rSEGMENT, noTransfer s ch) := by
  rw [writeSegment_eq, Option.eq_none_iff_forall_ne_some.mpr fun b h => no b (segmentOld_eq.mp h)]

/-- R441, R460: a segment in order. -/
theorem writeSegment_behind (behind : SegmentBehind s ch m v) : s.writeSegment ch pr m index sub = segmentStored s ch pr m index sub v := by
  rw [writeSegment_eq, segmentOld_eq.mpr behind]

end Segments

theorem imageSegmentsFillTheOtherSlot : ImageSegmentsFillTheOtherSlot := by
  intro s ch value first last len pr m index sub v f g
  obtain ⟨image, slot, active, fused, run⟩ := imageSegment_kept f value first last
  obtain ⟨stored, pending, empty, same⟩ := imageSegment_slot f value first last
  refine ⟨stored, image, slot, active, fused, run, pending, empty, same, fun no => if_pos no, fun no => ?_, fun life other => ?_,
    writeSegment_astray, fun behind => ?_⟩
  · exact (if_neg (by decide)).trans ((if_pos rfl).trans (if_pos no))
  · refine (if_neg (by decide)).trans ((if_pos rfl).trans (if_neg fun no => ?_))
    rcases no with ⟨notProv, notRet⟩ | rec
    · exact life.elim notProv notRet
    · exact other rec
  · intro whole begins ends kept slot
    have form := writeSegment_behind (pr := pr) (index := index) (sub := sub) behind
    refine ⟨fun r bad => ?_, fun good => ⟨fun more => ?_, fun done at_ => ?_, fun done at_ => ?_, fun done not1 not11 => ?_⟩⟩
    · rw [form, segmentStored, bad]
    · rw [form, segmentStored, good]
      dsimp only
      rw [if_pos (Bool.not_eq_true' _ ▸ (more : m.flags.getLsbD 1 = false))]
      split <;> rfl
    · rw [form, segmentStored, good]
      dsimp only
      rw [if_neg (lastSegment done), if_pos at_, if_pos at_]
    · rw [form, segmentStored, good]
      dsimp only
      rw [if_neg (lastSegment done), at_] <;> rfl
    · rw [form, segmentStored, good]
      dsimp only
      rw [if_neg (lastSegment done), if_neg not1, if_neg not11, if_neg not1] <;> rfl

/-! ### Reads from a snapshot (R441) -/

section Reads
variable {s : State} {ch : Channel} {pr : Principal} {m : VMsg} {index sub : Nat}

/-- R441: what a read answers from a snapshot. -/
def readFrom (s : State) (ch : Channel) (m : VMsg) (v : List Byte) : Reply × State :=
  let data := (v.drop m.offset.toNat).take (min m.len.toNat (chanMax ch - 16))
  ({ flags := if v.length ≤ m.offset.toNat + data.length then 2 else 0, offset := m.offset.toNat, result := rOK, data := data },
    s.setChan { s.chan ch with snapshot := some { index := m.index, sub := m.sub, value := v, last := s.now } })

/-- R441: the snapshot that the channel holds of the entry. -/
def snapshotOf (s : State) (ch : Channel) (m : VMsg) : Option Snapshot :=
  (s.chan ch).snapshot.filter fun k => k.index == m.index && k.sub == m.sub && decide (s.now < k.last + tenSeconds)

theorem snapshotOf_eq {k : Snapshot} : snapshotOf s ch m = some k ↔
    (s.chan ch).snapshot = some k ∧ k.index = m.index ∧ k.sub = m.sub ∧ s.now < k.last + 10000000000 := by
  unfold snapshotOf
  rw [Option.filter_eq_some_iff]
  simp only [Bool.and_eq_true, beq_iff_eq, decide_eq_true_eq, and_assoc]
  exact Iff.rfl

theorem readDomain_first (first : m.flags.getLsbD 0 = true) : s.readDomain ch pr m index sub = readFrom s ch m (s.dictRead pr index sub) := by
  unfold State.readDomain readFrom
  simp only [first, if_true, Bool.not_true, Bool.false_eq_true, false_and, if_false, decide_eq_true_eq]

theorem readDomain_next (later : m.flags.getLsbD 0 = false) : s.readDomain ch pr m index sub = match snapshotOf s ch m with
    | none => (.code rSEGMENT, s)
    | some k => if index = 0x8031 ∧ s.confHides pr index sub then (.code rDENIED, s) else
      readFrom s ch { m with index := k.index, sub := k.sub } k.value := by
  unfold State.readDomain readFrom snapshotOf
  simp only [later, Bool.false_eq_true, if_false, Bool.not_false, true_and, decide_eq_true_eq] <;> rfl

end Reads

theorem segmentedReadsComeFromASnapshot : SegmentedReadsComeFromASnapshot := by
  intro s ch pr m index sub k c fresh holds gives
  have found (later : m.flags.getLsbD 0 = false) (h : holds k) (open_ : ¬ (index = 0x8031 ∧ s.confHides pr index sub = true)) : gives k.value := by
    have same : ({ m with index := k.index, sub := k.sub } : VMsg) = m := by rw [h.2.1, h.2.2.1]
    show s.readDomain ch pr m index sub = readFrom s ch m k.value
    rw [readDomain_next later, snapshotOf_eq.mpr h]
    dsimp only
    rw [if_neg open_, same]
  refine ⟨fun first => readDomain_first first, fun later none_ => ?_, fun later h other => found later h fun no => other no.1,
    fun later h _ shown => found later h fun no => ne_true_of_eq_false shown no.2, fun later h conf hides => ?_⟩
  · rw [readDomain_next later, Option.eq_none_iff_forall_ne_some.mpr fun k h => none_ k (snapshotOf_eq.mp h)]
  · rw [readDomain_next later, snapshotOf_eq.mpr h]
    exact if_pos ⟨conf, hides⟩

/-! ### Confirmations (R456, R462) -/

section Confirmation
variable {f : Fw} {b : Bool}

/-- R456: the slot is CONFIRMED and active, and the record says so. -/
def confirmedFw (f : Fw) (b : Bool) : Fw := ({ f.setSlot b .confirmed with active := b, trialFrom := none }).record

/-- R462: a version is fused. -/
def fusedFw (k : Fw) (v : Nat) : Fw := { k with fused := BitVec.ofNat 32 v :: k.fused }

theorem confirmedFw_fields : (confirmedFw f b).slot b = .confirmed ∧ (confirmedFw f b).active = b ∧ (confirmedFw f b).trialFrom = none ∧
    (confirmedFw f b).fused = f.fused ∧ (confirmedFw f b).image b = f.image b := by
  unfold confirmedFw
  obtain ⟨active, fused, -, trialFrom, -⟩ := ({ f.setSlot b .confirmed with active := b, trialFrom := none } : Fw).record_rest
  refine ⟨(Fw.record_slot _ _).trans ?_, active, trialFrom, fused.trans (f.setSlot_rest b .confirmed).2.2.1, (Fw.record_image _ _).trans ?_⟩
  · exact f.slot_setSlot_same b .confirmed
  · exact f.image_setSlot b .confirmed b

/-- R456, R462: a confirmation, from the slot's new state on. -/
def confirmFrom (k : Fw) (b : Bool) : Fw :=
  if imgFence (k.image b) ∧ k.fusedNow < imgVersion (k.image b) ∧ k.fused.length < 64 then
    (if (fusedFw k (imgVersion (k.image b))).slot (!b) = .confirmed ∧
        imgVersion ((fusedFw k (imgVersion (k.image b))).image !b) < imgVersion (k.image b) then
      ((fusedFw k (imgVersion (k.image b))).setSlot (!b) .bad).record
    else fusedFw k (imgVersion (k.image b)))
  else k

theorem confirm_eq (f : Fw) (b : Bool) : f.confirm b = confirmFrom (confirmedFw f b) b := rfl

/-- R462: what holds with a version fused holds whether or not the other slot becomes BAD. -/
theorem otherBad_fields (k : Fw) (b : Bool) : ((k.setSlot (!b) .bad).record).slot b = k.slot b ∧
    ((k.setSlot (!b) .bad).record).active = k.active ∧ ((k.setSlot (!b) .bad).record).trialFrom = k.trialFrom ∧
    ((k.setSlot (!b) .bad).record).fused = k.fused := by
  obtain ⟨active, fused, -, trialFrom, -⟩ := (k.setSlot (!b) .bad).record_rest
  obtain ⟨-, active', fused', -⟩ := k.setSlot_rest (!b) .bad
  have start : (k.setSlot (!b) .bad).trialFrom = k.trialFrom := by cases b <;> rfl
  exact ⟨(Fw.record_slot _ _).trans (k.slot_setSlot_ne _ _ (Bool.not_ne_self b).symm), active.trans active', trialFrom.trans start,
    fused.trans fused'⟩

theorem confirmFrom_fields (k : Fw) (b : Bool) : (confirmFrom k b).slot b = k.slot b ∧ (confirmFrom k b).active = k.active ∧
    (confirmFrom k b).trialFrom = k.trialFrom ∧
    (imgFence (k.image b) = true ∧ k.fusedNow < imgVersion (k.image b) ∧ k.fused.length < 64 →
      (confirmFrom k b).fused = BitVec.ofNat 32 (imgVersion (k.image b)) :: k.fused) ∧
    (¬ (imgFence (k.image b) = true ∧ k.fusedNow < imgVersion (k.image b) ∧ k.fused.length < 64) → (confirmFrom k b).fused = k.fused) := by
  unfold confirmFrom
  split
  · next due =>
    obtain ⟨slot, active, trialFrom, fused⟩ := otherBad_fields (fusedFw k (imgVersion (k.image b))) b
    split
    · exact ⟨slot, active, trialFrom, fun _ => fused, fun no => absurd due no⟩
    · exact ⟨rfl, rfl, rfl, fun _ => rfl, fun no => absurd due no⟩
  · next no => exact ⟨rfl, rfl, rfl, fun due => absurd due no, fun _ => rfl⟩

/-- R456, R462: what a confirmation leaves. -/
theorem confirm_fields (f : Fw) (b : Bool) : (f.confirm b).slot b = .confirmed ∧ (f.confirm b).active = b ∧ (f.confirm b).trialFrom = none ∧
    (imgFence (f.image b) = true → f.fusedNow < imgVersion (f.image b) → f.fused.length < 64 →
      (f.confirm b).fusedNow = imgVersion (f.image b)) ∧
    (imgFence (f.image b) = false ∨ 64 ≤ f.fused.length → (f.confirm b).fused = f.fused) := by
  obtain ⟨slot, active, trialFrom, fused, image⟩ := confirmedFw_fields (f := f) (b := b)
  have now : (confirmedFw f b).fusedNow = f.fusedNow := by rw [Fw.fusedNow, fused, Fw.fusedNow]
  obtain ⟨slot', active', trialFrom', fuses, stays⟩ := confirmFrom_fields (confirmedFw f b) b
  rw [image, now, fused] at fuses stays
  rw [confirm_eq]
  refine ⟨slot'.trans slot, active'.trans active, trialFrom'.trans trialFrom, fun fence above room => ?_, fun no => stays fun due => ?_⟩
  · rw [Fw.fusedNow, fuses ⟨fence, above, room⟩]
    exact Nat.mod_eq_of_lt (natAt_lt (f.image b) 8 4)
  · rcases no with none_ | full
    · exact ne_true_of_eq_false none_ due.1
    · exact Nat.not_lt.mpr full due.2.2

end Confirmation

theorem confirmationEndsTheTrial : ConfirmationEndsTheTrial := by
  intro s pr v h
  refine ⟨fun big => answers_of_open h (if_pos big), answers_of_open h ?_,
    fun b t0 trial early => ⟨answers_of_open h ?_, confirm_fields s.fw b⟩, fun none_ => answers_of_open h ?_⟩
  · exact (if_neg (by decide)).trans (if_pos rfl)
  · obtain ⟨slot, state, start⟩ := trial
    refine (if_neg (by decide)).trans ((if_neg (by decide)).trans ?_)
    rw [slot]
    exact if_pos ⟨state, by rw [start]; rfl, by rw [trialOver_iff start, decide_eq_false (Nat.not_le.mpr early)]; rfl⟩
  · refine (if_neg (by decide)).trans ((if_neg (by decide)).trans ?_)
    split
    · rfl
    · exact if_neg fun on => by rw [none_] at on; exact absurd on.2.1 Bool.false_ne_true

/-- Settles O50, by what a segment makes of the slot that is not active, by the snapshot that a read finds, by the rows of the selection one by
one and the record that ROM reads back, and by what a confirmation leaves. -/
theorem imagesAreStoredSelectedAndConfirmed : Obligations.ImagesAreStoredSelectedAndConfirmed :=
  ⟨imageSegmentsFillTheOtherSlot, segmentedReadsComeFromASnapshot, aStartSelectsItsImage, confirmationEndsTheTrial⟩

end Sys2Proof.Claims

end
